-- ==== Sys2Proof/Word.lean ====
section
/-! DEFINITION. Sys2Proof/Word.lean: the word types (R5, R74). -/

namespace Sys2Proof

/-- A scalar register or an address: 64 bits. -/
abbrev Word := BitVec 64

/-- A vector register: 2,048 bits (R74). -/
abbrev VReg := BitVec 2048

/-- A predicate register: 256 bits (R74). -/
abbrev PReg := BitVec 256

/-- A byte of memory. -/
abbrev Byte := BitVec 8

end Sys2Proof
end

