-- ==== Sys2Proof/Config.lean ====
section
/-! DEFINITION. Sys2Proof/Config.lean: what the spec leaves to the implementation, as constants without a
body: no proof can see a value, so a claim holds for every one. A free value that must be fresh is applied to
the counter `State.free`. -/

namespace Sys2Proof.Config

/-- The moment an engine, a fabric, a walk, a line fill or a prefetch takes, which the manual gives only as a
bound or an order (log 1). -/
opaque freeDelay : Nat → Nat

/-- A free choice of the device: whether a bound can be assured at the present load (refusal code 0x02 of
R236), whether a link's error control retries (log 1). -/
opaque freeBool : Nat → Bool

/-- A byte whose contents the manual does not specify: DFRAME after an abandoned migration (R387 point 5). -/
opaque freeByte : Nat → BitVec 8

/-- Which translation an access of a cycle uses, by address space and page, once the page tables say otherwise than the
translations that are held (R379; log 4): an index into those translations and, last, the walk's. -/
opaque translation : Nat → Nat → Nat → Nat

/-- The result of a transcendental function where the model's enclosure of the exact value does not decide the
rounding at its last precision (log 9). -/
opaque freeRounding : Nat → BitVec 32 → BitVec 32

/-- SHAKE256 (R370, R422, R424), by name only (log 7): the digest of a byte string, of the length asked for. -/
opaque shake256 : List (BitVec 8) → Nat → List (BitVec 8)

/-- ML-DSA-65 verification (R421, R422): key digest, message digest, signature (log 7). -/
opaque mlDsaVerify : List (BitVec 8) → List (BitVec 8) → List (BitVec 8) → Bool

/-- ML-DSA-65 signing under the device identity key (R425), whose private part never leaves Luvex (log 7). -/
opaque mlDsaSign : List (BitVec 8) → List (BitVec 8)

/-- The device identity public key, 1,952 bytes (R425). -/
opaque identityKey : List (BitVec 8)

/-- The populated bytes that training finds behind target t of R430: HBM4E stacks 0 to 7, LPDDR-6 of Depots
0 to 15 (t - 8), CXL ports 0 and 1 (t - 24) (R383, R421 step 3; log 5). -/
opaque populated : Nat → Nat

/-- Krytzin's placement, at a boot, of region r of R430 (module address), its own choice; 15 is the retired-frame list, 16 the
partition table (R13, R389, R396; log 5). -/
opaque placement : Nat → Nat → Nat

/-- The size in bytes of the fatal-error dump region, as configured by Krytzin (R13). -/
opaque dumpSize : Nat

/-- The size in bytes of the race-tag shadow region that Krytzin carves (R13). -/
opaque tagShadowSize : Nat

/-- Whether the launch configuration lists a module (rank bits 31:9) in its torus and pods (R293). -/
opaque reachable : Nat → Bool

/-- Whether training of unit u succeeds (R421 steps 3 and 4): 64 to 79 Depots, 80 the Spur guest, 81 to 86 the Treleri ports, 87
to 94 the Ultra Ethernet ports. -/
opaque trains : Nat → Bool

/-- The 64-byte capability record that a fitted guest exposes (R413); its first byte decides whether one is fitted. -/
opaque guestRecord : List (BitVec 8)

/-- The signed image that Krytzin loads into unit u at a reload (R408, R424): 0 to 63 dies, 64 to 79 Depots, 80 the
guest's firmware. -/
opaque unitImage : Nat → List (BitVec 8)

/-- The byte that a read of host memory through the host window, or of the guest's memory, returns in a cycle at a
module address (R383, R412): what stands behind those addresses is the concern of the host and the guest (log 17). -/
opaque outsideByte : Nat → Nat → BitVec 8

/-- The bound-table entry of an engine and class that Krytzin publishes once it routes around a retired die: BASE, UNIT, UNIT2 and
LIMIT, by number (R409, R423; log 5). -/
opaque reroutedBound : Nat → Nat → Nat → Nat → Nat

/-- Whether the host link completes an access of a cycle to a module address of the host window with an error (R383; log 17). -/
opaque outsideError : Nat → Nat → Bool

end Sys2Proof.Config
end

