-- ==== Sys2Proof/Syntax.lean ====
section
/-! DEFINITION. Sys2Proof/Syntax.lean: the instruction set. One constructor of `Instr` for each row of
spec/opcode_table.json: the slot words of the four slot classes (R79 to R82), then the machine's own
events (95_what_each_step_holds.md), which have no encoding. Operand names are the table's field
names; codes that name one of a fixed set are inductive types (R77, R78 and the entries). -/

namespace Sys2Proof

/-- Element type codes of the ty field (R78). The code 0b111, the secondary type, is used by no entry. -/
inductive Ty where
  | i8
  | i16
  | i32
  | i64
  | bf16
  | f16
  | f32
  deriving DecidableEq, Repr

/-- Access size codes of the sz field (R78): 8, 16, 32 and 64 bits. -/
inductive Sz where
  | b8
  | b16
  | b32
  | b64
  deriving DecidableEq, Repr

/-- Conditions of the SB format: s[sa] against zero, signed (R77). -/
inductive BCc where
  | eq
  | ne
  | lt
  | ge
  | le
  | gt
  deriving DecidableEq, Repr

/-- Conditions of `scmp` (R105). -/
inductive SCc where
  | eq
  | ne
  | lt
  | ge
  | le
  | gt
  | ltn
  | gen
  | len
  | gtn
  deriving DecidableEq, Repr

/-- Conditions of `vcmp` (R150). -/
inductive VCc where
  | eq
  | ne
  | lt
  | ge
  | le
  | gt
  deriving DecidableEq, Repr

/-- Conditions of `vfcmp` (R151). -/
inductive FCc where
  | eq
  | ne
  | lt
  | le
  | gt
  | ge
  | un
  | ord
  deriving DecidableEq, Repr

/-- Rounding-mode field of the conversions (R160): the six modes of R58, and FP.MODE as read at issue. -/
inductive Rm where
  | rne
  | rz
  | rdn
  | rup
  | rna
  | sr
  | mode
  deriving DecidableEq, Repr

/-- Register groups (R74): A for V0 and M0, B for V1 and M1, C for V2 and X. -/
inductive Grp where
  | ga
  | gb
  | gc
  deriving DecidableEq, Repr

/-- Output forms of `qrgen` (R175). -/
inductive QOut where
  | raw
  | co
  | oo
  deriving DecidableEq, Repr

/-- Atomic operations (R207). -/
inductive AmoOp where
  | add
  | and
  | or
  | xor
  | min
  | max
  | minn
  | maxn
  | xchg
  deriving DecidableEq, Repr

/-- Ordering codes of atomics (R206). -/
inductive Ord where
  | relaxed
  | acq
  | rel
  | ar
  deriving DecidableEq, Repr

/-- Scope codes of atomics and fences (R206). -/
inductive Scope where
  | ctx
  | core
  | cl
  | die
  | mod
  | sys
  deriving DecidableEq, Repr

/-- Fence kinds (R212). -/
inductive FKind where
  | acq
  | rel
  | full
  deriving DecidableEq, Repr

/-- Conditions of `pwait` (R224). -/
inductive PCond where
  | pub
  | idle
  | free
  deriving DecidableEq, Repr

/-- Types of `famo` (R209). -/
inductive FTy where
  | f32
  | bf16
  deriving DecidableEq, Repr

/-- Slot classes (R72). -/
inductive SlotClass where
  | scalar
  | vector
  | xclass
  | memory
  deriving DecidableEq, Repr

/-- The instructions: the 250 slot words of the opcode table and its 81 events. The words that have operands
stand first (Lean's runtime numbers at most 245 constructors with fields); an event reads what it concerns from
`State.due`. -/
inductive Instr where
  -- scalar class (R79)
  | literal (p : BitVec 29)  -- R75
  | add (d a b : BitVec 5) (l : Bool)  -- R100
  | sub (d a b : BitVec 5) (l : Bool)  -- R100
  | min (d a b : BitVec 5) (l : Bool)  -- R100
  | max (d a b : BitVec 5) (l : Bool)  -- R100
  | minn (d a b : BitVec 5) (l : Bool)  -- R100
  | maxn (d a b : BitVec 5) (l : Bool)  -- R100
  | and (d a b : BitVec 5) (l : Bool)  -- R101
  | or (d a b : BitVec 5) (l : Bool)  -- R101
  | xor (d a b : BitVec 5) (l : Bool)  -- R101
  | andn (d a b : BitVec 5) (l : Bool)  -- R101
  | shl (d a b : BitVec 5) (l : Bool)  -- R101
  | shr (d a b : BitVec 5) (l : Bool)  -- R101
  | sra (d a b : BitVec 5) (l : Bool)  -- R101
  | rot (d a b : BitVec 5) (l : Bool)  -- R101
  | mov (d a : BitVec 5)  -- R102
  | clz (d a : BitVec 5)  -- R102
  | ctz (d a : BitVec 5)  -- R102
  | popc (d a : BitVec 5)  -- R102
  | bswap16 (d a : BitVec 5)  -- R102
  | bswap32 (d a : BitVec 5)  -- R102
  | bswap64 (d a : BitVec 5)  -- R102
  | sext8 (d a : BitVec 5)  -- R102
  | sext16 (d a : BitVec 5)  -- R102
  | sext32 (d a : BitVec 5)  -- R102
  | zext8 (d a : BitVec 5)  -- R102
  | zext16 (d a : BitVec 5)  -- R102
  | zext32 (d a : BitVec 5)  -- R102
  | mul (d a b : BitVec 5) (l : Bool)  -- R103
  | mulh (d a b : BitVec 5) (l : Bool)  -- R103
  | mulhn (d a b : BitVec 5) (l : Bool)  -- R103
  | div (d a b : BitVec 5) (l : Bool)  -- R104
  | divn (d a b : BitVec 5) (l : Bool)  -- R104
  | rem (d a b : BitVec 5) (l : Bool)  -- R104
  | remn (d a b : BitVec 5) (l : Bool)  -- R104
  | scmp (d a b : BitVec 5) (l : Bool) (c : SCc)  -- R105
  | sel (d a b : BitVec 5) (l : Bool) (c : BitVec 5)  -- R106
  | addi (d a : BitVec 5) (i : BitVec 16)  -- R107
  | andi (d a : BitVec 5) (i : BitVec 16)  -- R107
  | ori (d a : BitVec 5) (i : BitVec 16)  -- R107
  | xori (d a : BitVec 5) (i : BitVec 16)  -- R107
  | shli (d a : BitVec 5) (i : BitVec 6)  -- R107
  | shri (d a : BitVec 5) (i : BitVec 6)  -- R107
  | srai (d a : BitVec 5) (i : BitVec 6)  -- R107
  | movl (d : BitVec 5) (k : BitVec 3)  -- R108
  | br (o : BitVec 26)  -- R111
  | bcc (a : BitVec 5) (c : BCc) (o : BitVec 18)  -- R111
  | jmp (o : BitVec 26)  -- R112
  | call (o : BitVec 26)  -- R113
  | jr (d a : BitVec 5)  -- R114
  | ret (a : BitVec 5)  -- R114
  | loop (a : BitVec 5) (o : BitVec 18)  -- R119
  | lstep (d b : BitVec 5) (l : Bool)  -- R118
  | trap (c a : BitVec 5)  -- R126
  | cnext (d : BitVec 5)  -- R32
  | csrr (d : BitVec 5) (i : BitVec 16)  -- R128
  | csrw (d a : BitVec 5) (i : BitVec 16)  -- R129
  | ewr (b : BitVec 5) (r : BitVec 16)  -- R227
  | erd (d : BitVec 5) (r : BitVec 16)  -- R227
  | mxgo (z : Bool) (a : BitVec 2)  -- R251
  | mxsgo (z : Bool) (a : BitVec 2)  -- R264
  | epgo (a : BitVec 2)  -- R257
  | pwait (b : BitVec 5) (c : PCond) (n : BitVec 6)  -- R224
  | prel (n : BitVec 6)  -- R225
  | pstat (d : BitVec 5) (n : BitVec 6)  -- R226
  | sysr (d : BitVec 5) (i : BitVec 16)  -- R349
  | sysw (d a : BitVec 5) (i : BitVec 16)  -- R349
  | tlbir (a b : BitVec 5) (s : BitVec 16)  -- R380
  | ctxsave (a b d : BitVec 5)  -- R354
  | ctxres (a d : BitVec 5)  -- R354
  | ctxresImg (a b d : BitVec 5)  -- R354
  | ctxresLd (a b d : BitVec 5)  -- R354
  | ctxkill (a d : BitVec 5)  -- R354
  -- vector class (R80)
  | vaddI (d a b : BitVec 4) (p : BitVec 5) (t : Ty)  -- R140
  | vsubI (d a b : BitVec 4) (p : BitVec 5) (t : Ty)  -- R140
  | vmulI (d a b : BitVec 4) (p : BitVec 5) (t : Ty)  -- R140
  | vmulh (d a b : BitVec 4) (p : BitVec 5) (t : Ty)  -- R140
  | vmulhn (d a b : BitVec 4) (p : BitVec 5) (t : Ty)  -- R140
  | vminI (d a b : BitVec 4) (p : BitVec 5) (t : Ty)  -- R140
  | vmaxI (d a b : BitVec 4) (p : BitVec 5) (t : Ty)  -- R140
  | vminn (d a b : BitVec 4) (p : BitVec 5) (t : Ty)  -- R140
  | vmaxn (d a b : BitVec 4) (p : BitVec 5) (t : Ty)  -- R140
  | vadds (d a b : BitVec 4) (p : BitVec 5) (t : Ty)  -- R140
  | vaddsn (d a b : BitVec 4) (p : BitVec 5) (t : Ty)  -- R140
  | vsubs (d a b : BitVec 4) (p : BitVec 5) (t : Ty)  -- R140
  | vsubsn (d a b : BitVec 4) (p : BitVec 5) (t : Ty)  -- R140
  | vabsI (d a : BitVec 4) (p : BitVec 5) (t : Ty)  -- R140
  | vnegI (d a : BitVec 4) (p : BitVec 5) (t : Ty)  -- R140
  | vidx (d : BitVec 4) (p : BitVec 5) (t : Ty)  -- R140
  | vaddF (d a b : BitVec 4) (p : BitVec 5) (t : Ty)  -- R142
  | vsubF (d a b : BitVec 4) (p : BitVec 5) (t : Ty)  -- R142
  | vmulF (d a b : BitVec 4) (p : BitVec 5) (t : Ty)  -- R142
  | vminF (d a b : BitVec 4) (p : BitVec 5) (t : Ty)  -- R142
  | vmaxF (d a b : BitVec 4) (p : BitVec 5) (t : Ty)  -- R142
  | vabsF (d a : BitVec 4) (p : BitVec 5) (t : Ty)  -- R142
  | vnegF (d a : BitVec 4) (p : BitVec 5) (t : Ty)  -- R142
  | vfma (d a b c : BitVec 4) (p : BitVec 5) (t : Ty) (z : Bool)  -- R143
  | vfms (d a b c : BitVec 4) (p : BitVec 5) (t : Ty) (z : Bool)  -- R143
  | vfnma (d a b c : BitVec 4) (p : BitVec 5) (t : Ty) (z : Bool)  -- R143
  | vand (d a b : BitVec 4) (p : BitVec 5) (t : Ty)  -- R141
  | vor (d a b : BitVec 4) (p : BitVec 5) (t : Ty)  -- R141
  | vxor (d a b : BitVec 4) (p : BitVec 5) (t : Ty)  -- R141
  | vandn (d a b : BitVec 4) (p : BitVec 5) (t : Ty)  -- R141
  | vnot (d a : BitVec 4) (p : BitVec 5) (t : Ty)  -- R141
  | vshl (d a b : BitVec 4) (p : BitVec 5) (t : Ty)  -- R141
  | vshr (d a b : BitVec 4) (p : BitVec 5) (t : Ty)  -- R141
  | vsra (d a b : BitVec 4) (p : BitVec 5) (t : Ty)  -- R141
  | vsel (d a b : BitVec 4) (p : BitVec 5) (t : Ty)  -- R145
  | vcmp (d : BitVec 5) (a b : BitVec 4) (p : BitVec 5) (t : Ty) (c : VCc)  -- R150
  | vcmpn (d : BitVec 5) (a b : BitVec 4) (p : BitVec 5) (t : Ty) (c : VCc)  -- R150
  | vfcmp (d : BitVec 5) (a b : BitVec 4) (p : BitVec 5) (t : Ty) (c : FCc)  -- R151
  | vfcmpSig (d : BitVec 5) (a b : BitVec 4) (p : BitVec 5) (t : Ty) (c : FCc)  -- R151
  | vclass (d : BitVec 5) (a m : BitVec 4) (p : BitVec 5) (t : Ty) (n : BitVec 3) (k : BitVec 2)  -- R152
  | pand (d a b : BitVec 5)  -- R153
  | por (d a b : BitVec 5)  -- R153
  | pxor (d a b : BitVec 5)  -- R153
  | pandn (d a b : BitVec 5)  -- R153
  | pnot (d a : BitVec 5)  -- R153
  | psel (d a b c : BitVec 5)  -- R153
  | pfirst (d a : BitVec 5)  -- R153
  | vbcst (d : BitVec 4) (b p : BitVec 5) (t : Ty)  -- R146
  | vins (d k : BitVec 4) (b : BitVec 5) (t : Ty) (j : BitVec 4)  -- R146
  | vext (k a : BitVec 4) (d : BitVec 5) (t : Ty) (j : BitVec 4)  -- R147
  | vextn (k a : BitVec 4) (d : BitVec 5) (t : Ty) (j : BitVec 4)  -- R147
  | vxc (d a : BitVec 4) (p : BitVec 5) (t : Ty) (g : Grp)  -- R148
  | vaddVsI (d a : BitVec 4) (b p : BitVec 5) (t : Ty)  -- R144
  | vsubVsI (d a : BitVec 4) (b p : BitVec 5) (t : Ty)  -- R144
  | vrsubVsI (d a : BitVec 4) (b p : BitVec 5) (t : Ty)  -- R144
  | vmulVsI (d a : BitVec 4) (b p : BitVec 5) (t : Ty)  -- R144
  | vminVsI (d a : BitVec 4) (b p : BitVec 5) (t : Ty)  -- R144
  | vmaxVsI (d a : BitVec 4) (b p : BitVec 5) (t : Ty)  -- R144
  | vminnVs (d a : BitVec 4) (b p : BitVec 5) (t : Ty)  -- R144
  | vmaxnVs (d a : BitVec 4) (b p : BitVec 5) (t : Ty)  -- R144
  | vandVs (d a : BitVec 4) (b p : BitVec 5) (t : Ty)  -- R144
  | vorVs (d a : BitVec 4) (b p : BitVec 5) (t : Ty)  -- R144
  | vxorVs (d a : BitVec 4) (b p : BitVec 5) (t : Ty)  -- R144
  | vshlVs (d a : BitVec 4) (b p : BitVec 5) (t : Ty)  -- R144
  | vshrVs (d a : BitVec 4) (b p : BitVec 5) (t : Ty)  -- R144
  | vsraVs (d a : BitVec 4) (b p : BitVec 5) (t : Ty)  -- R144
  | vaddVsF (d a : BitVec 4) (b p : BitVec 5) (t : Ty)  -- R144
  | vsubVsF (d a : BitVec 4) (b p : BitVec 5) (t : Ty)  -- R144
  | vrsubVsF (d a : BitVec 4) (b p : BitVec 5) (t : Ty)  -- R144
  | vmulVsF (d a : BitVec 4) (b p : BitVec 5) (t : Ty)  -- R144
  | vminVsF (d a : BitVec 4) (b p : BitVec 5) (t : Ty)  -- R144
  | vmaxVsF (d a : BitVec 4) (b p : BitVec 5) (t : Ty)  -- R144
  | vperm (d a b : BitVec 4) (p : BitVec 5) (t : Ty)  -- R154
  | vrot (d a : BitVec 4) (b p : BitVec 5) (t : Ty)  -- R155
  | vzipLo (d a b : BitVec 4) (p : BitVec 5) (t : Ty)  -- R156
  | vzipHi (d a b : BitVec 4) (p : BitVec 5) (t : Ty)  -- R156
  | vunzipEv (d a b : BitVec 4) (p : BitVec 5) (t : Ty)  -- R156
  | vunzipOd (d a b : BitVec 4) (p : BitVec 5) (t : Ty)  -- R156
  | vslideDn (d a : BitVec 4) (b p : BitVec 5) (t : Ty)  -- R155
  | vslideUp (d a : BitVec 4) (b p : BitVec 5) (t : Ty)  -- R155
  | vcmpr (d a : BitVec 4) (p : BitVec 5) (t : Ty)  -- R157
  | vexpd (d a : BitVec 4) (p : BitVec 5) (t : Ty)  -- R157
  | vredAddI (d a b : BitVec 4) (p : BitVec 5) (t : Ty)  -- R158
  | vredMin (d a b : BitVec 4) (p : BitVec 5) (t : Ty)  -- R158
  | vredMax (d a b : BitVec 4) (p : BitVec 5) (t : Ty)  -- R158
  | vredMinn (d a b : BitVec 4) (p : BitVec 5) (t : Ty)  -- R158
  | vredMaxn (d a b : BitVec 4) (p : BitVec 5) (t : Ty)  -- R158
  | vredAnd (d a b : BitVec 4) (p : BitVec 5) (t : Ty)  -- R158
  | vredOr (d a b : BitVec 4) (p : BitVec 5) (t : Ty)  -- R158
  | vredXor (d a b : BitVec 4) (p : BitVec 5) (t : Ty)  -- R158
  | vredAddF (d a b : BitVec 4) (p : BitVec 5) (t : Ty)  -- R158
  | vredMinF (d a b : BitVec 4) (p : BitVec 5) (t : Ty)  -- R158
  | vredMaxF (d a b : BitVec 4) (p : BitVec 5) (t : Ty)  -- R158
  | vredCnt (d : BitVec 4) (p : BitVec 5) (t : Ty)  -- R158
  | vscanAddI (d a b : BitVec 4) (p : BitVec 5) (t : Ty)  -- R159
  | vscanMin (d a b : BitVec 4) (p : BitVec 5) (t : Ty)  -- R159
  | vscanMax (d a b : BitVec 4) (p : BitVec 5) (t : Ty)  -- R159
  | vscanMinn (d a b : BitVec 4) (p : BitVec 5) (t : Ty)  -- R159
  | vscanMaxn (d a b : BitVec 4) (p : BitVec 5) (t : Ty)  -- R159
  | vscanAddF (d a b : BitVec 4) (p : BitVec 5) (t : Ty)  -- R159
  | vscanMinF (d a b : BitVec 4) (p : BitVec 5) (t : Ty)  -- R159
  | vscanMaxF (d a b : BitVec 4) (p : BitVec 5) (t : Ty)  -- R159
  | vcvt (d a b : BitVec 4) (p : BitVec 5) (r : Rm) (f : BitVec 6)  -- R163
  | vnarrow (d a b : BitVec 4) (p : BitVec 5) (r : Rm) (q : BitVec 2) (n : BitVec 4)  -- R164
  | vwiden (d a : BitVec 4) (p : BitVec 5) (q : BitVec 2) (n : BitVec 4)  -- R164
  -- X class (R81)
  | fexp2 (d a : BitVec 4) (p : BitVec 5) (t : Ty)  -- R167
  | flog2 (d a : BitVec 4) (p : BitVec 5) (t : Ty)  -- R167
  | fexp (d a : BitVec 4) (p : BitVec 5) (t : Ty)  -- R167
  | flog (d a : BitVec 4) (p : BitVec 5) (t : Ty)  -- R167
  | frcp (d a : BitVec 4) (p : BitVec 5) (t : Ty)  -- R167
  | frsqrt (d a : BitVec 4) (p : BitVec 5) (t : Ty)  -- R167
  | fsqrt (d a : BitVec 4) (p : BitVec 5) (t : Ty)  -- R167
  | ftanh (d a : BitVec 4) (p : BitVec 5) (t : Ty)  -- R167
  | fsig (d a : BitVec 4) (p : BitVec 5) (t : Ty)  -- R167
  | fdiv (d a b : BitVec 4) (p : BitVec 5) (t : Ty)  -- R171
  | qrgen (d : BitVec 4) (b p : BitVec 5) (t : Ty) (m : Bool) (o : QOut)  -- R175
  | qrload (a n d : BitVec 5)  -- R176
  | qrsave (a n d : BitVec 5)  -- R176
  | qrscr (a n d : BitVec 5)  -- R177
  | qrscrId (n d : BitVec 5)  -- R177
  | hist (a : BitVec 4) (p : BitVec 5) (t : Ty)  -- R182
  | histRd (d : BitVec 4)  -- R182
  | histRdx (d : BitVec 4)  -- R182
  | hclr (a : BitVec 5)  -- R181
  | qscale (d : BitVec 4) (b p : BitVec 5)  -- R183
  | qpack (d a b : BitVec 4) (p : BitVec 5) (t : Ty) (q : BitVec 2)  -- R184
  -- memory class (R82)
  | ldI64 (t b : BitVec 5) (o : BitVec 16)  -- R197
  | ldI32 (t b : BitVec 5) (o : BitVec 16)  -- R197
  | ldN32 (t b : BitVec 5) (o : BitVec 16)  -- R197
  | ldI16 (t b : BitVec 5) (o : BitVec 16)  -- R197
  | ldN16 (t b : BitVec 5) (o : BitVec 16)  -- R197
  | ldI8 (t b : BitVec 5) (o : BitVec 16)  -- R197
  | ldN8 (t b : BitVec 5) (o : BitVec 16)  -- R197
  | st64 (t b : BitVec 5) (o : BitVec 16)  -- R197
  | st32 (t b : BitVec 5) (o : BitVec 16)  -- R197
  | st16 (t b : BitVec 5) (o : BitVec 16)  -- R197
  | st8 (t b : BitVec 5) (o : BitVec 16)  -- R197
  | vld (t : BitVec 4) (b p : BitVec 5) (o : BitVec 12)  -- R198
  | vst (t : BitVec 4) (b p : BitVec 5) (o : BitVec 12)  -- R198
  | vlds (t : BitVec 4) (b s p : BitVec 5) (z : Sz)  -- R199
  | vgath (t : BitVec 4) (b : BitVec 5) (i : BitVec 4) (p : BitVec 5) (z : Sz) (n m : Bool)  -- R200
  | vscat (t : BitVec 4) (b : BitVec 5) (i : BitVec 4) (p : BitVec 5) (z : Sz) (n m : Bool)  -- R200
  | vlddLo (t : BitVec 4) (b p : BitVec 5) (o : BitVec 12)  -- R201
  | vlddHi (t : BitVec 4) (b p : BitVec 5) (o : BitVec 12)  -- R201
  | vstd (t : BitVec 4) (b p : BitVec 5) (f : BitVec 3) (s : BitVec 8)  -- R202
  | ldblk (a d : BitVec 5) (g : BitVec 4) (n : BitVec 6)  -- R203
  | ldblkQ (d : BitVec 5) (g : BitVec 4)  -- R203
  | ldblkRel (g : BitVec 4)  -- R203
  | lock (a d : BitVec 5)  -- R204
  | unlock (a : BitVec 5)  -- R204
  | amo (d a b : BitVec 5) (o : Ord) (s : Scope) (z : Bool) (f : AmoOp)  -- R207
  | cas (d a b c : BitVec 5) (s : Scope) (o : Ord) (z : Bool)  -- R208
  | famo (a b c : BitVec 5) (t : FTy)  -- R209
  | vamo (t : BitVec 4) (b : BitVec 5) (i : BitVec 4) (p : BitVec 5) (z : Sz) (r : Bool) (f : AmoOp)  -- R210
  | fence (k : FKind) (s : Scope)  -- R212
  | barArr (a : BitVec 5) (k : BitVec 8)  -- R215
  | barWait (a b : BitVec 5) (h : BitVec 4)  -- R215
  | barExp (a b : BitVec 5)  -- R215
  | barTry (a d : BitVec 5)  -- R215
  | evpop (d : BitVec 5)  -- R241
  | evpeek (d : BitVec 5)  -- R242
  | bclose (t : BitVec 2)  -- R218
  | bwait (b : BitVec 5) (t : BitVec 2)  -- R219
  | pool (a d : BitVec 5) (i o m : Bool) (c : BitVec 2) (p : BitVec 6)  -- R273
  | upd (a d : BitVec 5) (i g : Bool) (c : BitVec 2)  -- R284
  | msend (a d : BitVec 5) (c : BitVec 2)  -- R293
  | rpost (a d : BitVec 5) (c : BitVec 2) (p : BitVec 6)  -- R297
  | rprobe (a d : BitVec 5)  -- R304
  | rcancel (a d : BitVec 5)  -- R303
  | a2a (a d : BitVec 5) (i o m : Bool) (c : BitVec 2) (p : BitVec 6)  -- R305
  | gsub (a d : BitVec 5) (c : BitVec 2)  -- R313
  -- slot words without operands
  | nop  -- R75
  | yield  -- R123
  | halt  -- R124
  | ckpt  -- R125
  | safe  -- R125
  | rte  -- R351
  -- events of the machine (no encoding)
  | registerWrite  -- R349
  | copyStart  -- R232
  | resultArrival  -- R88
  | lineArrival  -- R190
  | remoteGranuleArrival  -- R196
  | raceCheckAnswer  -- R319
  | cardPrefetch  -- R33
  | watchdogExpiry  -- R39
  | waitBoundExpiry  -- R215
  | deferredTrap  -- R360
  | contextDone  -- R124
  | dieCompletion  -- R34
  | windowWriteAccept  -- R216
  | windowWriteLand  -- R217
  | batchSummary  -- R218
  | barrierUnitApply  -- R214
  | famoArrival  -- R209
  | fillComplete  -- R221
  | fillFail  -- R223
  | prelHoldApply  -- R264
  | eventRecordArrival  -- R239
  | matrixOperationStart  -- R252
  | matrixFeedEnd  -- R252
  | matrixResult  -- R252
  | matrixStreamFault  -- R255
  | lookupDispatch  -- R274
  | depotGather  -- R277
  | heatSketchDecay  -- R281
  | sidingPartial  -- R277
  | mergePartialArrival  -- R277
  | promotionEviction  -- R282
  | promotionPublish  -- R282
  | updateDispatch  -- R285
  | turntableRowUpdate  -- R286
  | messageHeaderArrival  -- R299
  | postArrival  -- R299
  | cancelArrival  -- R303
  | postTimeout  -- R299
  | headerLifetimeExpiry  -- R299
  | pullComplete  -- R301
  | marshalDispatch  -- R306
  | ownerPartialArrival  -- R306
  | roundDeadline  -- R307
  | uncorrectableLinkError  -- R310
  | uecTransportFailure  -- R311
  | invalidationDrainComplete  -- R381
  | migrationSubmit  -- R385
  | migrationGranuleCopy  -- R387
  | migrationSwitch  -- R387
  | preemptRequest  -- R366
  | trapOverflowClear  -- R365
  | queueDoorbell  -- R394
  | schedulingStep  -- R401
  | clusterSave  -- R403
  | gangReady  -- R404
  | gangLimitExpiry  -- R404
  | gangGo  -- R404
  | gangStart  -- R404
  | gangAbandon  -- R404
  | repairDrain  -- R408
  | repairReload  -- R408
  | repairRetire  -- R408
  | repairReturn  -- R408
  | unitOffline  -- R409
  | guestCompletion  -- R415
  | guestCompletionTimeout  -- R416
  | atsTranslationRequest  -- R417
  | guestCacheRequest  -- R419
  | guestInvalidationCompletion  -- R418
  | guestInvalidationTimeout  -- R418
  | guestQuiesceTimeout  -- R420
  | hostAccess  -- R407
  | coldReset  -- R421
  | warmReset  -- R421
  | attestationRequest  -- R425
  | powerCapSet  -- R429
  | luvexWatchdogExpiry  -- R369
  | thermalTrip  -- R429
  | translationWalkComplete  -- R358
  | batchSummaryBoundExpiry  -- R218
  | linkRetry  -- R310
  deriving DecidableEq, Repr

end Sys2Proof
end

