-- ==== Sys2Proof/Machine/State.lean ====
section
/-! DEFINITION. Sys2Proof/Machine/State.lean: the state of one module as plain data: contexts, cores, clusters,
dies, system registers, memory, engines, launches; the faults and refusals; the state after reset. -/

namespace Sys2Proof.Machine

/-! ### Contexts -/

/-- Reasons for which a bundle blocks whole, before issue (R36). -/
inductive Block where
  | engineQueue
  | platform
  | loadBlock
  | cardWait
  | barrier
  | yield
  deriving DecidableEq, Repr

/-- How a PARKED context was parked: SYS.CSTATE codes 2, 3 and 4 (R350). -/
inductive Park where
  | trap
  | trapPending
  | preempted
  deriving DecidableEq, Repr

/-- States of a hardware context (R35). `halting` is a context between its `halt` and DONE
(R124), `taking` one that a `safe` bundle gave up to a pre-emption and whose last results have not arrived (R125, R366). -/
inductive Status where
  | idle
  | ready
  | current
  | blocked (r : Block)
  | parked (p : Park)
  | halting
  | taking
  | done
  deriving DecidableEq, Repr

/-- An entry of the loop stack (R117). -/
structure LoopEntry where
  start     : Word
  fin       : Word
  remaining : Word
  steps     : List (BitVec 5 × Word)
  deriving DecidableEq, Repr

/-- One Skink dimension: direction numbers, scrambling matrix rows, digital shift (R172). -/
structure SkinkDim where
  v : Vector (BitVec 32) 32
  l : Vector (BitVec 32) 32
  h : BitVec 32
  deriving DecidableEq, Repr

/-- The histogram (R180). -/
structure Hist where
  base  : BitVec 9
  bins  : Vector (BitVec 32) 64
  under : BitVec 32
  above : BitVec 32
  deriving DecidableEq, Repr

/-- The shadow registers of the copy, matrix and epilogue engines (R228, R246, R256), each with its reserved
bits zero. -/
structure Shadow where
  ecpTmpl   : Word
  ecpAcc    : Vector Word 16
  emxAbase  : Word
  emxBbase  : Word
  emxStride : Word
  emxShape  : Word
  emxSparse : Word
  emxAcc    : Word
  eepDst    : Word
  eepVec    : Word
  eepAct    : Word
  eepOut    : Word
  eepAcc    : Word
  deriving DecidableEq, Repr

/-- The state of a context that a checkpoint captures and a trap restores (R125, R359). -/
structure Vis where
  /-- s0 to s31 (R74); s0 is never read from here -/
  sreg    : Vector Word 32
  /-- va0 to va15, vb0 to vb15, vc0 to vc15 (R74) -/
  vec     : Vector VReg 48
  /-- p0 to p23 (R74); p0 is never read from here -/
  pred    : Vector PReg 24
  /-- FP.FLAGS: NV, DZ, OF, UF, NX, SAT from bit 0 (R131) -/
  fpFlags : BitVec 6
  /-- FP.MODE.RM (R132) -/
  fpMode  : BitVec 3
  /-- CNT.MAL and CNT.SAT (R133) -/
  cntMal  : BitVec 32
  cntSat  : BitVec 32
  /-- BATCH.TAG (R134) -/
  batch   : BitVec 2
  /-- CNT.BANK and CNT.GRP (R136) -/
  cntBank : Word
  cntGrp  : Word
  /-- the loop stack, innermost entry first, and the pending steps, oldest first (R117) -/
  loops   : List LoopEntry
  steps   : List (BitVec 5 × Word)
  shadow  : Shadow
  /-- the Skink tables, dimensions 0 to 31 (R172) -/
  skink   : Vector SkinkDim 32
  hist    : Hist
  /-- cards taken so far (R32) -/
  taken   : Nat
  /-- the next command's SEQ (R235) -/
  seq     : BitVec 16
  /-- module addresses of the lines this context has locked (R193) -/
  locks   : List Nat
  deriving DecidableEq, Repr

/-- What a result writes when it arrives (R87, R90, R131, R182, R227, R241). -/
inductive Eff where
  /-- a scalar register -/
  | sreg (r : BitVec 5) (v : Word)
  /-- the bits of a vector register that mask selects -/
  | vec (r : Nat) (v mask : VReg)
  /-- a predicate register -/
  | pred (p : BitVec 5) (v : PReg)
  /-- sticky flags set by a result -/
  | flags (f : BitVec 6)
  /-- malformed codes and saturations added to the counters -/
  | mal (n : Nat)
  | sat (n : Nat)
  /-- a `csrw` -/
  | csr (n : BitVec 16) (v : Word)
  /-- a whole Skink dimension (`qrload`), or its matrix and shift (`qrscr`) -/
  | skinkDim (d : Nat) (x : SkinkDim)
  | skinkScr (d : Nat) (l : Vector (BitVec 32) 32) (h : BitVec 32)
  /-- `hclr`, and the counters that a `hist` adds one to (0 to 63 bins, 64 under, 65 over) -/
  | histClear (base : BitVec 9)
  | histAdd (ks : List Nat)
  /-- an engine shadow register written by `ewr`; one written by the device (acceptance words) -/
  | eng (n : BitVec 16) (v : Word)
  | engAcc (n : BitVec 16) (v : Word)
  /-- the slot of a record taken by `evpop` becomes free -/
  | freeSlot
  deriving DecidableEq, Repr

/-- A cycle that no result arrives in: where a result stands that is not worked out yet. -/
def Pending.never : Nat := 2 ^ 80

/-- A result in flight: arrival cycle, whether it belongs to the last checkpoint (R125), what it writes. -/
structure Pending where
  at_   : Nat
  inChk : Bool
  eff   : Eff
  /-- of a released entry that is still to be performed, its place in program order: the result is not worked out yet, and its
  arrival stands as `Pending.never` -/
  ent   : Option Nat := none
  deriving DecidableEq, Repr

/-- A trap that is raised, with the fields its record takes from the faulting access (R355, R363). -/
structure TrapInfo where
  kind     : BitVec 8
  pc       : Word
  faddr    : Word := 0
  arg      : Word := 0
  slot     : BitVec 8 := 0xFF
  acc      : BitVec 8 := 0
  code     : BitVec 8 := 0
  rrank    : BitVec 32 := 0
  rl       : BitVec 8 := 0
  deferred : Bool := false
  /-- the model's own: the key of a word that could not be corrected (R427) -/
  key      : Nat := 0
  /-- the model's own: the place in the context's program order of the released operation that was rejected (R360) -/
  ord      : Nat := 0
  deriving DecidableEq, Repr

/-- A trap record claimed or pending (R363), without the fields the ring adds. -/
structure TrapRec where
  info   : TrapInfo
  src    : BitVec 8
  ctxid  : BitVec 16
  lid    : BitVec 16
  asid   : BitVec 16
  lseq   : BitVec 16
  qid    : BitVec 8
  resume : Word
  cons   : Bool
  /-- the cycle of the trap -/
  time   : Nat
  deriving DecidableEq, Repr

/-- An event record (R239). -/
structure Record where
  seq    : BitVec 16
  kind   : BitVec 8
  status : BitVec 8 := 0
  flags  : BitVec 6 := 0
  pfl    : BitVec 8 := 0
  pn     : BitVec 16 := 0xFFFF
  mal    : BitVec 32 := 0
  satc   : BitVec 32 := 0
  detail : BitVec 128 := 0
  /-- the model's own: the command's or `bclose`'s place in issue order (R334) -/
  key    : Nat := 0
  deriving DecidableEq, Repr

/-- What a withheld entry performs at its release (R357, R358). Addresses are effective addresses. -/
inductive EntryK where
  /-- a store form or window write: its bytes, the batch tag that stood at issue (R134), and the bytes of each posted remote
  write that it makes: a scatter's element, otherwise all of them (R216) -/
  | store (bytes : List (Nat × Byte)) (tag : BitVec 2) (unit : Nat)
  /-- the atomics of R207, R208, R210 and R209; they take no entry of the 128 -/
  | amo (op : AmoOp) (w64 : Bool) (addr b : Word) (d : BitVec 5) (lat : Nat)
  | cas (w64 : Bool) (addr new cmp : Word) (d : BitVec 5) (lat : Nat)
  | vamo (op : AmoOp) (w64 ret : Bool) (lanes : List (Nat × Word × Word)) (r lat : Nat)
  | famo (ty : FTy) (addr : Word) (x : BitVec 32) (bar : Word)
  /-- barrier operations and `prel`, at local addresses of the issuing cluster -/
  | barArr (addr k : Nat)
  | barExp (addr x : Nat)
  | prel (pn : BitVec 6)
  | bclose (t : BitVec 2) (key : Nat)
  /-- an accepted engine command or matrix operation, by its identity -/
  | cmd (id : Nat)
  /-- a refused copy, whose refusal record is posted at the release (R232) -/
  | refusedCopy (r : Record)
  /-- a release fence: the entries after it leave the context behind the accesses before it (R212, R326); it takes no entry -/
  | fence
  /-- a load whose value is taken after its bundle's first cycle, with the registers that it reads and its latency: the instruction
  of a bundle that stalls, at the stall's end (R89, R222), or, with late, one behind an acquiring atomic of its own bundle, once that
  is performed (R212, R327). It takes no entry -/
  | load (i : Instr) (regs : Vis) (lat : Nat) (late : Bool)
  deriving DecidableEq, Repr

/-- A held translation (R378): ASID, first virtual address, page size, first module address, the leaf. -/
structure Tlb where
  asid  : Nat
  va    : Nat
  size  : Nat
  frame : Nat
  leaf  : Word
  deriving DecidableEq, Repr

/-- A withheld entry: the bundle and slot that hold it, its place in the context's program order; once it is released, the
translations under which it was checked, which it keeps (R358, R379). -/
structure Entry where
  pc   : Word
  slot : Nat
  k    : EntryK
  ord  : Nat
  maps : List Tlb := []
  deriving DecidableEq, Repr

/-- A released entry that is still to be performed: an access to global memory on its way to its L2 home, what follows one in
its release, and what is ordered behind a write to another module (R316, R326, R358): the context, the cycle in which its bundle
counts as issued, the entry. -/
structure HomeReq where
  ctx   : Nat
  at_   : Nat
  entry : Entry
  deriving DecidableEq, Repr

/-- A load-block that is not FREE (R191): tag, the virtual lines still to arrive (FILLING while there are any), the
module addresses of the lines that arrived, the virtual lines marked faulting (R192), the order of declaration. -/
structure LoadBlock where
  tag   : Nat
  want  : List Nat
  lines : List Nat
  bad   : List (Nat × TrapInfo)
  decl  : Nat
  deriving DecidableEq, Repr

/-- A prefetched card (R32, R33): its place in the context's sequence, its eight words, or the fault held for the
`cnext` that would deliver it. -/
structure Card where
  pos   : Nat
  gidx  : Nat
  words : List Word
  bad   : Option TrapInfo
  deriving DecidableEq, Repr

/-- A released window write (R216, R217): the window, its bytes at peer scratchpad addresses, its batch, the
bundle that held it, its place in the context's program order, and the addresses that a later store of the context has
overtaken (R195, R324). -/
structure WinWrite where
  win   : Nat
  bytes : List (Nat × Byte)
  tag   : BitVec 2
  pc    : Word
  slot  : Nat
  /-- 0 in the send queue, 1 outstanding, 2 accepted by the peer's interface, 3 gone to another module, whose answer is
  awaited -/
  st    : Nat
  /-- which batch of its tag it belongs to -/
  batch : Nat
  ord   : Nat
  dead  : List Nat
  deriving DecidableEq, Repr

/-- A batch of window writes (R218): closed or open, the windows it touched whose summary is not in, the error
bitmap. -/
structure Batch where
  id      : Nat
  tag     : BitVec 2
  closed  : Bool
  touched : List Nat
  /-- the window of each of its writes -/
  sent    : List Nat := []
  waiting : List Nat
  errs    : BitVec 32
  /-- the place of its `bclose` in issue order -/
  key     : Nat
  deriving DecidableEq, Repr

/-- A checkpoint that a member of a consist took and that a member behind it has not taken yet: its number, its state with
every result that belongs to it, its place, its control-flow count, and the cycle in which the last of those results
arrives (R43, R125). -/
structure OldChk where
  no    : Nat
  vis   : Vis
  pc    : Word
  cf    : Nat
  until_ : Nat
  /-- the places of the entries whose results belong to it and are not worked out yet -/
  await : List Nat := []
  deriving DecidableEq, Repr

/-- A hardware context. -/
structure Ctx where
  status  : Status
  pc      : Word
  vis     : Vis
  /-- the checkpoint and RESUME (R125, R359) -/
  chk     : Vis
  chkPc   : Word
  /-- in a consist: checkpoints taken so far, and earlier ones that some member has still to take (R43) -/
  chkNo   : Nat
  olds    : List OldChk
  pend    : List Pending
  /-- a restored context issues no earlier than this cycle (R125) -/
  resumeAt : Nat
  /-- the withholding buffer, oldest first (R357), and the place in program order of the next entry -/
  wb      : List Entry
  ents    : Nat
  /-- what a fence or an ordered atomic orders (R212): later loads and atomics follow the atomics before place acqAt, later
  loads the stores released before place fullAt -/
  acqAt   : Nat
  fullAt  : Nat
  deferred : List TrapInfo
  /-- the event queue, oldest first; slots of taken records not yet freed; slots that a loaded image reserves beyond the
  commands in flight (R368) -/
  evq     : List Record
  freeing : Nat
  /-- the records that `evpop` has taken and that a rollback returns, each with the number of the checkpoint before it (R125, R243) -/
  popped  : List (Nat × Record)
  extra   : Nat
  /-- the watchdog count and its limit (R39, R368) -/
  wdog    : Nat
  wlim    : Nat
  /-- the first cycle in which the waiting bundle was due (R215), and the words of the bundle that a BLOCKED context waits
  with (R35) -/
  wait    : Option Nat
  words   : List (BitVec 32)
  /-- the executive level (R347) -/
  exec    : Bool
  /-- the launch the context is used by, its logical indexes, its consist and position -/
  launch  : Option Nat
  l       : Nat
  g       : Nat
  cons    : Option Nat
  cpos    : Nat
  /-- control-flow outcomes so far in a consist, now and at the checkpoint (R43) -/
  cfCount : Nat
  chkCf   : Nat
  /-- cards owned (R30), prefetched cards -/
  owned   : Nat
  cards   : List Card
  blocks  : List LoadBlock
  win     : Vector Word 32
  winq    : List WinWrite
  /-- the last cycle in which an access of the context was performed at an L2 home: it is visible from the next on (R326) -/
  homeAt  : Option Nat
  batches : List Batch
  /-- for the bundle that is due: granules in the remote buffer (R196, window x 2^23 + granule) and asked for,
  rejections of the home's race check (R319) and the accesses, by their lines, whose check is outstanding, pages whose walk has ended and
  is outstanding for the release (R358) -/
  remote  : List Nat
  remAsk  : List Nat
  raceAns : List (Nat × TrapInfo)
  raceAsk : List (List Nat)
  /-- the lines whose check has registered the read, with the bytes as the home read them then (R319) -/
  checked : List (Nat × List Byte)
  walked  : List Nat
  walkAsk : List Nat
  /-- SYS.EVEC, EPC, ECAUSE, EADDR and EST.INH (R350) -/
  evec    : Word
  epc     : Word
  ecause  : BitVec 8
  eaddr   : Word
  inh     : Bool
  startCycle : Option Nat
  /-- its records that the ring has not taken (R365) -/
  pendRec : List TrapRec
  /-- the 64 most recent accepted posts: SEQ, command, 0 undecided, 1 matched, 2 withdrawn (R303) -/
  posts   : List (BitVec 16 × Nat × Nat)
  deriving DecidableEq, Repr

/-! ### The bundle being issued (the model's own fields) -/

/-- How the instruction just executed ended: it issues, it raises a trap, or its bundle blocks (R36, R356). -/
inductive Sig where
  | ok
  | trap (t : TrapInfo)
  /-- the reason; the missing lines (virtual address div 64), or the card or the bound waited for; the remote granules,
  race checks and walks that are then asked for -/
  | block (r : Block) (lines grans checks walks : List Nat)
  deriving DecidableEq, Repr

/-- A transfer of control by the bundle: the target, and whether a loop that it leaves is popped (R121). -/
structure Xfer where
  target : Word
  pops   : Bool
  deriving DecidableEq, Repr

/-- The bundle that is issuing: context, slot, address, slot words, the cycle in which it counts as issued,
whether it has issued (no blocking reason is evaluated again, R89), whether it stalls, so that its loads take their values at
the stall's end (R89, R222), whether it is a checkpoint bundle, whether it holds `safe`, `yield` and `halt`. -/
structure Issue where
  ctx   : Nat
  slot  : Nat
  pc    : Word
  words : List (BitVec 32)
  cyc   : Nat
  held  : Bool
  stall : Bool
  ckpt  : Bool
  sig   : Sig
  xfer  : Option Xfer
  loops : Option (List LoopEntry × List (BitVec 5 × Word))
  yields : Bool
  halts : Bool
  safe  : Bool
  /-- whether a slot so far has acquire ordering, and whether an atomic is among these: the loads after it take their values once
  that is performed (R212, R327) -/
  acq   : Bool := false
  late  : Bool := false
  /-- the context's bytes, by key, that a fence of the bundle has made visible (R212) -/
  view  : List (Nat × Byte) := []
  /-- of a load whose value is taken now: its latency, its place in program order, which its own stores are before, and whether
  memory is read as it stands, behind an atomic performed in this cycle -/
  paid  : Option (Nat × Nat × Bool) := none
  deriving DecidableEq, Repr

/-! ### Cores, clusters, dies -/

/-- An operation of the matrix unit, with the registers captured at issue (R251, R263). -/
structure MxOp where
  id      : Nat
  ctx     : Nat
  seq     : BitVec 16
  sparse  : Bool
  z       : Bool
  acc     : Nat
  abase   : Nat
  bbase   : Nat
  astr    : Nat
  bstr    : Nat
  k       : Nat
  desc    : Bool
  aty     : Nat
  bty     : Nat
  rho     : Nat
  /-- the platforms of a sparse operation: A, B, mask -/
  plats   : Nat × Nat × Nat
  pc      : Word
  slot    : Nat
  /-- its place in the context's program order, release cycle, start cycle -/
  ord     : Nat
  release : Option Nat
  start   : Option Nat
  fed     : Bool
  /-- the accumulator and flag bits as the result will leave them, and the fault found -/
  result  : Option (BitVec 65536)
  flags   : BitVec 3
  fault   : Option TrapInfo
  /-- bytes of operands as a command keeps them in `Cmd.past` (R331) -/
  past    : List (Nat × Byte) := []
  deriving DecidableEq, Repr

/-- An accumulator: 2,048 f32 elements in row-major order, flag bits OF, NV, UF, malformed count (R244). -/
structure Acc where
  c     : BitVec 65536
  flags : BitVec 3
  mal   : BitVec 32
  deriving DecidableEq, Repr

/-- A bundle held by a stall (R89, R187): the context, the cycle in which it counts as issued, d and g, its words, the bundle as its
slots left it, and what a trap at the stall's end takes back beside its rollback (R11): the load-blocks that it declared, by their
order of declaration, those that it made FREE, and the barrier objects that it named. -/
structure Hold where
  h     : Nat
  until_ : Nat
  d     : Nat
  g     : Nat
  words : List (BitVec 32)
  iss   : Issue
  decls : List Nat
  freed : List LoadBlock
  named : List Nat
  deriving DecidableEq, Repr

/-- A core. L1: lines present, least recently used first, lines requested, lines kept for the waiting bundle of a context
(R190). Matrix operations stay in `mx` until their result is in; those in the queue are the ones not yet fed. -/
structure Core where
  cur   : Option Nat
  last  : Nat
  hold  : Option Hold
  mx    : List MxOp
  acc   : Vector Acc 4
  lines : List Nat
  asked : List Nat
  kept  : List (Nat × Nat)
  deriving DecidableEq, Repr

/-- States of a declared platform (R221). -/
inductive PlatSt where
  | free
  | filling
  | full
  | draining
  deriving DecidableEq, Repr

/-- A platform (R220, R221): base and half size in the scratchpad, the front half, the publish count, the command
that reserves it, the command that fills it, the sparse operations that hold it (R264). -/
structure Platform where
  decl  : Bool
  st    : PlatSt
  held  : Bool
  front : Bool
  gen   : BitVec 16
  base  : Nat
  half  : Nat
  resv  : Option Nat
  fill  : Option Nat
  holds : List Nat
  deriving DecidableEq, Repr

/-- Kinds of scratch region (R315, R398). -/
inductive RegKind where
  | rd
  | sync
  | plat (pn : Nat)
  | cbar
  deriving DecidableEq, Repr

/-- A scratch region: kind, local address, size. -/
structure Region where
  kind : RegKind
  base : Nat
  size : Nat
  deriving DecidableEq, Repr

/-- An operation at the barrier unit (R214). -/
inductive BarOp where
  | arrive (k : Nat)
  | expect (x : Nat)
  /-- a command's delivery, by the command's identity -/
  | deliver (id : Nat)
  /-- a store to the object: its bytes at local addresses -/
  | store (bytes : List (Nat × Byte))
  deriving DecidableEq, Repr

/-- An operation that reached or will reach the barrier unit: arrival cycle, object, operation, issuing context,
logical index, bundle and slot, place in program order. -/
structure BarReq where
  at_  : Nat
  addr : Nat
  op   : BarOp
  ctx  : Nat
  l    : Nat
  pc   : Word
  slot : Nat
  ord  : Nat := 0
  deriving DecidableEq, Repr

/-- An add gathered by the ordered atomic unit (R209): location, barrier, type, logical index, operand. -/
structure Gathered where
  loc : Nat
  bar : Nat
  ty  : FTy
  l   : Nat
  x   : BitVec 32
  /-- its place in its context's issue order, and its context -/
  ord : Nat := 0
  ctx : Nat := 0
  deriving DecidableEq, Repr

/-- A `prel` that was released: its cycle, platform, logical index, context, bundle and slot, place in program order. -/
structure PrelRec where
  cy   : Nat
  pn   : Nat
  l    : Nat
  ctx  : Nat
  pc   : Word
  slot : Nat
  ord  : Nat := 0
  deriving DecidableEq, Repr

/-- A cluster. -/
structure Cluster where
  launch  : Option Nat
  plats   : Vector Platform 64
  /-- the platforms at the end of the previous cycle (R224, R226) -/
  prev    : Vector Platform 64
  tmpl    : Vector (BitVec 256) 256
  regions : List Region
  epoch   : Nat
  barq    : List BarReq
  named   : List Nat
  famo    : List Gathered
  fuse    : Bool
  /-- `prel`s released during a sparse hold, to be applied after it (R264); those applied in this cycle (R221) -/
  prels   : List PrelRec
  prelLog : List PrelRec
  /-- the lock quota of the launch's contexts here (R193) -/
  lockq   : Nat
  /-- the cycle from which a launch may take the cluster: the one after the last retirement here (R400) -/
  freeAt  : Nat
  deriving DecidableEq, Repr

/-- Unit states (R392). -/
inductive UnitSt where
  | serving
  | draining
  | offline
  | retired
  deriving DecidableEq, Repr

/-- A compute die: its system registers (R350), its Junction (R297, R299, R300): posts in post order by command,
unexpected messages in arrival order. Of the requests of SYS.PREEMPT.REQ, `preDone` marks those that the scheduler has
carried out: the bit stands until the cluster's first context resumes, and asks nothing of the launch that follows (R366,
R403; log 25). -/
structure Die where
  wdogDef : Nat
  lockQ   : Nat
  preReq  : BitVec 6
  preDone : BitVec 6
  wselCtx : BitVec 13
  wselWin : BitVec 5
  posts   : List Nat
  unexp   : List Nat
  st      : UnitSt
  deriving DecidableEq, Repr

/-- Module-wide system registers (R350, R376, R392). -/
structure Sys where
  trapBase  : BitVec 56
  trapLog2n : Nat
  trapEn    : Bool
  trapOvr   : Bool
  trapWr    : BitVec 32
  trapRd    : BitVec 32
  asidEn    : Bool
  asidBase  : BitVec 52
  heatBase  : BitVec 52
  retBase   : BitVec 52
  retCnt    : BitVec 17
  retFull   : Bool
  mapBase   : BitVec 52
  qtab      : BitVec 52
  ptab      : BitVec 52
  deriving DecidableEq, Repr

/-! ### Memory -/

/-- States of a race tag (R317). -/
inductive TagSt where
  | none
  | written
  | read1
  | readN
  | atomic
  deriving DecidableEq, Repr

/-- A party (R314): a context, by CTXID's module and logical index; the guest; the host. A context of another
module is named by its rank. -/
inductive Party where
  | ctx (cluster l : Nat)
  | far (rank l : Nat)
  | guest
  | host
  deriving DecidableEq, Repr

/-- A race tag (R317). The party is present for WRITTEN, READ1 and ATOMIC. -/
structure Tag where
  st : TagSt
  id : Option Party
  ph : Nat
  deriving DecidableEq, Repr

/-- An access-table entry (R405). -/
structure AccEntry where
  r      : Bool
  w      : Bool
  exo    : Bool
  master : Nat
  base   : Nat
  limit  : Nat
  deriving DecidableEq, Repr

/-- A partition's entry (R396). -/
structure Partition where
  cmask : BitVec 384
  dmask : BitVec 16
  guest : Bool
  privq : BitVec 64
  deriving DecidableEq, Repr

/-- A bound-table entry (R423). -/
structure BoundEntry where
  base  : Nat
  unit  : Nat
  unit2 : Nat
  limit : Nat
  deriving DecidableEq, Repr

/-! ### Engine commands -/

/-- Kinds of engine command with what is captured at issue. -/
inductive CmdK where
  /-- a copy (R231): channel, template index, template, source address -/
  | copy (ch tidx : Nat) (tmpl : BitVec 256) (a0 : Word)
  /-- an epilogue (R256, R257): core, accumulator, the four shadow registers -/
  | epgo (core acc : Nat) (dst vec act out : Word)
  /-- `pool` and `a2a` (R271, R305): the command block's words, mean, bf16 output, n64 indexes -/
  | pool (blk : List Word) (mean bf16 n64 : Bool)
  | a2a (blk : List Word) (mean bf16 n64 : Bool) (ranks : List Nat)
  /-- `upd` (R284) -/
  | upd (blk : List Word) (bf16 n64 : Bool)
  /-- `msend` and `rpost` (R292, R296) -/
  | msend (blk : List Word)
  | rpost (blk : List Word)
  /-- `rcancel` (R303): the SEQ it names -/
  | rcancel (target : BitVec 16)
  /-- `gsub` (R313): the packet -/
  | gsub (blk : List Word)
  /-- `tlbir` (R380, R381): first byte, end, ASID -/
  | tlbir (lo hi asid : Nat)
  /-- a migration (R385): page, size, ASID, destination -/
  | mig (va size asid dframe : Nat)
  deriving DecidableEq, Repr

/-- An accepted command whose record has not arrived. -/
structure Cmd where
  id       : Nat
  ctx      : Nat
  k        : CmdK
  seq      : BitVec 16
  cls      : BitVec 2
  pn       : Option (BitVec 6)
  bar      : Option Nat
  asid     : Nat
  part     : Nat
  exec     : Bool
  pc       : Word
  slot     : Nat
  /-- the release cycle, and the cycle by which its record arrives -/
  release  : Option Nat
  deadline : Nat
  /-- the work has ended (its record is built) -/
  ended    : Bool
  record   : Record
  /-- bytes the fill writes into the shadow, at local addresses (R221) -/
  out      : List (Nat × Byte)
  /-- bytes that the issuing context has stored over since the release of a copy, as they were, by key: its reads observe the
  stores before its release alone (R331) -/
  past     : List (Nat × Byte)
  /-- an `epgo`'s snapshot of the accumulator (R258) with its enabled vectors -/
  snap     : Option (BitVec 65536 × List (BitVec 32) × List (BitVec 32))
  /-- of a migration, the cycle in which it was accepted and the register of its acceptance word (R386) -/
  since    : Option (Nat × BitVec 5) := none
  deriving DecidableEq, Repr

/-- One bag's fixed-point partial as an owner or a reducer sends it (R67, R68, R306): per lane the exact integer
sum and the marks of R68, the saturation mark of R66, the malformed count, and the first fault of R275 (cause 1
offsets, 2 range, 3 unreadable, with its position). -/
structure BagPart where
  bag   : Nat
  sums  : List Int
  nans  : List Bool
  pinfs : List Bool
  ninfs : List Bool
  sat   : Bool
  mal   : Nat
  fault : Option (Nat × Nat)
  deriving DecidableEq, Repr

/-- An entry routed to a Depot (R277): bag, index position, row, Depot; once it is classified as hot, the stack and way
(16 x stack + way) that serve it. -/
structure Routed where
  bag   : Nat
  pos   : Nat
  row   : Nat
  depot : Nat
  hot   : Option Nat
  deriving DecidableEq, Repr

/-- A bag's accumulated total at the merge stage (R67, R68, R277). -/
structure Bag where
  part  : BagPart
  count : Nat
  late  : Bool
  deriving DecidableEq, Repr

/-- A lookup in progress: its command, the shard of an `a2a` whose on-module owner it is, routed entries, entries served and
not yet counted in a heat sketch (R281), sources whose partial is awaited, partials on their way, bags; for an `a2a`, the owners
awaited (shard and rank) and those that were late (R277, R306, R307). -/
structure Job where
  id     : Nat
  cmd    : Nat
  shard  : Option Nat
  routed : List Routed
  served : List Routed
  await  : List Nat
  inbox  : List (Nat × List BagPart)
  bags   : List Bag
  owners : List (Nat × Nat)
  late   : BitVec 64
  /-- the bags in which each shard of an `a2a` has entries: shard and bag -/
  lots   : List (Nat × Nat)
  deriving DecidableEq, Repr

/-- An update in progress: distinct rows left with their gradients, counts for the record (R288), the STATUS of the first row
that could not be read or written, 0 with none (R374, R407). -/
structure Upd where
  id    : Nat
  rows  : List (Nat × List (List (BitVec 32)))
  nrow  : Nat
  ndrop : Nat
  fdrop : Nat
  nskip : Nat
  fail  : BitVec 8
  flags : BitVec 6
  deriving DecidableEq, Repr

/-- Where a message stands (R295, R299). -/
inductive MsgSt where
  | flying
  | unexpected
  | pulling
  | ended
  deriving DecidableEq, Repr

/-- A message (R291): header, sender's command (none for a sender on another module), payload of an eager
message, matched post; the cycle in which the lifetime of a pulled header ends (R295, R312) and, of a message from another
module, its place among those of its SRC, DST and COMM (R294). -/
structure Msg where
  id     : Nat
  src    : Nat
  dst    : Nat
  tag    : BitVec 32
  comm   : BitVec 16
  len    : Nat
  cmd    : Option Nat
  pulled : Bool
  data   : List Byte
  st     : MsgSt
  post   : Option Nat
  viaUnexp : Bool
  until_ : Nat := 0
  seq    : Nat := 0
  deriving DecidableEq, Repr

/-- A migration in progress (R387): its command, the leaf P0 and its address, the old frame, granules copied. -/
structure Mig where
  id    : Nat
  p0    : Word
  leafAt : Nat
  old   : Nat
  dst   : Nat
  size  : Nat
  copied : List Nat
  deriving DecidableEq, Repr

/-- An invalidation applied and not acknowledged (R381, R418). -/
structure Inval where
  id       : Nat
  drained  : Bool
  guestAck : Bool
  deriving DecidableEq, Repr

/-- A row as the hot-row cache holds it: table, row, the address space, partition, level of privilege and first virtual address
it is copied from, and its blocks (R279, R405; log 21). -/
structure HotRow where
  tid  : Nat
  row  : Nat
  asid : Nat
  part : Nat
  exec : Bool
  va   : Nat
  nblk : Nat
  /-- where the blocks stand, as the promotion found them: by their bytes a copy is kept up to date (R20, R281) -/
  at_  : List Nat := []
  deriving DecidableEq, Repr

/-- A hot-row cache entry (R279, R282): its place, its row, its place in publication order or none while the promotion
is in flight, and the rows whose promotions wait for this entry, in their order. -/
structure HotEntry where
  stack : Nat
  set   : Nat
  way   : Nat
  what  : HotRow
  pub   : Option Nat
  next  : List HotRow
  deriving DecidableEq, Repr

/-- A heat sketch of a Depot for a group (R281): nonzero counters by (row of the sketch, column), entries counted. -/
structure Sketch where
  depot : Nat
  grp   : Nat
  cnt   : List (Nat × Nat)
  total : Nat
  deriving DecidableEq, Repr

/-- The guest (R412, R413). -/
structure Guest where
  fitted : Bool
  st     : UnitSt
  qdepth : Nat
  base   : List Nat
  ginv   : Nat
  gpre   : Nat
  shut   : Bool
  /-- packets that timed out and whose completion has not come since: LID and SEQ (R416) -/
  late   : List (Nat × Nat)
  /-- its trap records kept pending by a full ring (R365) -/
  pend   : List TrapRec
  deriving DecidableEq, Repr

/-! ### Launches -/

/-- The fields of a launch packet (R397). -/
structure Packet where
  kimg : Nat
  cbase : Nat
  n : Nat
  asid : Nat
  pol : Bool
  det : Bool
  movl : Bool
  fuse : Bool
  skew : Nat
  cw : Nat
  cword : Nat
  regbase : Nat
  regcnt : Nat
  skimg : Nat
  wtab : Nat
  tagbase : Nat
  rdlo : Nat
  rdhi : Nat
  wdog : Nat
  gid : Nat
  gn : Nat
  glim : Nat
  gtab : Nat
  pmask : BitVec 384
  deriving DecidableEq, Repr

/-- Where a launch stands. -/
inductive LaunchSt where
  | waiting
  | gang
  | running
  | preempting
  | preempted
  | retired
  deriving DecidableEq, Repr

/-- A launch that its queue has taken up (R395, R400). -/
structure Launch where
  id     : Nat
  qid    : Nat
  idx    : Nat
  pri    : Nat
  part   : Nat
  exec   : Bool
  lseq   : BitVec 16
  save   : Nat
  pkt    : Packet
  /-- c and m of the image (R24), the entry bundle -/
  c      : Nat
  m      : Nat
  entry  : Nat
  /-- present clusters, 6 x die + cl, ascending (R29) -/
  clus   : List Nat
  registry : List (BitVec 512)
  st     : LaunchSt
  start  : Nat
  /-- dies that have contributed to the completion word (R34) -/
  contrib : List Nat
  /-- gang members whose READY the leader has, the gate's opening, tgo (R404) -/
  ready  : List Nat
  gate   : Option Nat
  tgo    : Option Nat
  /-- positions of a gang's members (GTAB) -/
  gmem   : List Nat
  /-- while the launch is pre-empted: the device's own account of its contexts and clusters, beside what the save slots hold
  (R403; log 25) -/
  kept     : List (Nat × Ctx)
  keptCl   : List (Nat × Cluster)
  /-- while it waits for its clusters: its place among the launches that do, by when they began to (R401) -/
  waits    : Option Nat := none
  deriving DecidableEq, Repr

/-- What the scheduler keeps of a queue (R393, R394, R401): the WR it has read, the index of the next entry to
start, the next LSEQ once read, the cycle before which a gang launch is not considered again. -/
structure Queue where
  q      : Nat
  wr     : BitVec 32
  next   : BitVec 32
  lseq   : Option (BitVec 16)
  off    : Bool
  holdTo : Nat
  /-- entries completed out of order, whose DONE is written -/
  doneIx : List Nat
  deriving DecidableEq, Repr

/-- A consist (R41 to R43): members in position order, skew, cycles in which it advanced since its start, the cycle
in which a bank stall that holds it ends, the control-flow outcomes of the lead. -/
structure Consist where
  id      : Nat
  launch  : Nat
  members : List Nat
  skew    : Nat
  beats   : Nat
  hold    : Option Nat
  log     : List Word
  deriving DecidableEq, Repr

/-! ### Bring-up, host, reliability -/

/-- Where the boot sequence stands (R421). -/
inductive BootSt where
  | reset
  /-- stopped at a step: every unit out of service, only the mailbox answers -/
  | failed (step : Nat)
  | ready
  deriving DecidableEq, Repr

/-- What flash and fuses hold (R421, R422, R389, R408). -/
structure Flash where
  image    : List Byte
  imageSig : List Byte
  blob     : List Byte
  keyDig   : List Byte
  keys     : List (List Byte)
  fuse     : Nat
  /-- retired frames: frame number, cause, boot count -/
  frames   : List (Nat × Nat × Nat)
  /-- units recorded as RETIRED -/
  units    : List Nat
  boots    : Nat
  deriving DecidableEq, Repr

/-- What the mailbox has answered (R421, R425, R369). -/
inductive MailMsg where
  | ready
  | failing (step : Nat)
  | fatal (cause : Nat)
  | report (nonce : BitVec 256) (mr : List (List Byte)) (boots fuse : Nat) (key sig : List Byte)
  deriving DecidableEq, Repr

/-- What leaves the module for the outside (R294, R306, R313, R404, R418, R420). -/
inductive OutMsg where
  | message (dst : Nat) (m : Msg)
  /-- the Junction's pull of a message's payload, and how its send has ended here, to the sender on another module (R291, R295) -/
  | pull (src id : Nat)
  | sendEnds (src id : Nat) (status : BitVec 8)
  /-- a window write to a cluster of another module, by the writer's rank and logical index, in a batch of it; the request of
  `bclose` for the summary of a batch of n writes; the answer to another module's request, with whether a write failed (R216 to R218) -/
  | window (peer rank l batch : Nat) (bytes : List (Nat × Byte))
  | summaryAsk (peer rank l batch n : Nat)
  | summary (rank l batch : Nat) (failed : Bool)
  /-- a load's request for the granule at address a of a cluster of another module, with the reader's rank and logical index, the
  bytes of it that the load reaches, as a mask, and whether its launch is deterministic (R196, R315, R333) -/
  | granuleAsk (peer a rank l mask : Nat) (det : Bool)
  /-- the answers to another module's context, by rank and logical index: its window load of a granule of a cluster here, with
  the rejection's ACC, ARG, rank and index or the bytes; its window write here, with the rejection or none (R196, R217, R319) -/
  | granule (rank l k a : Nat) (no : Option (BitVec 8 × Word × BitVec 32 × BitVec 8)) (data : List Byte)
  | landed (rank l k a : Nat) (no : Option (BitVec 8 × Word × BitVec 32 × BitVec 8))
  | bucket (owner tid : Nat) (pairs : List (Nat × Nat))
  | guestPacket (p : BitVec 512)
  | guestInval (asid lo hi : Nat)
  | guestQuiesce (asid : Nat)
  | atsAnswer (asid : Nat) (frame : Option Nat)
  /-- the answer to a request of the guest: 0, 0x11 for a rejection, 0x12 for a refusal under the race rules (R417, R419) -/
  | guestData (addr : Nat) (status : BitVec 8) (data : BitVec 512)
  | hostData (addr : Nat) (ok : Bool) (data : List Byte)
  | gangReady (leader gid : Nat)
  | gangGo (pos gid tgo : Nat)
  | gangAbandon (pos gid : Nat)
  /-- bytes stored to host memory or guest memory, by module address -/
  | outside (bytes : List (Nat × Byte))
  deriving DecidableEq, Repr

/-- Luvex, Krytzin and the host link. From the configuration: the CXL HDM decoders, the Treleri channels and caps, the transport
keys, as the blob's sections hold them (R422). -/
structure Luvex where
  boot    : BootSt
  flash   : Flash
  mr      : List (List Byte)
  mailbox : List MailMsg
  power   : Nat
  /-- next position of the RAS log, and records lost by overwriting -/
  rasPos  : Nat
  rasLoss : Nat
  pod     : Nat
  pos     : Nat
  hotBytes : Nat
  /-- whether each link is in service: Treleri ports 0 to 5, Ultra Ethernet ports 0 to 7 (R421) -/
  links   : List Bool
  hdm      : List Byte
  channels : List Byte
  uecKeys  : List Byte
  /-- base and size of the dump region as last placed (R370) -/
  dumpAt  : Nat × Nat
  deriving DecidableEq, Repr

/-! ### The event being handled (the model's own fields) -/

/-- What an event concerns. Which of these fields an event reads is in its meaning's docstring. -/
structure Due where
  id    : Nat := 0
  ctx   : Nat := 0
  arg   : Nat := 0
  arg2  : Nat := 0
  word  : Word := 0
  wr    : Bool := false
  bytes : List Byte := []
  parts : List BagPart := []
  msg   : Option Msg := none
  nats  : List Nat := []
  deriving DecidableEq, Repr

/-- The writes of a batch of another module's context that have landed here or failed: the context's rank and logical index, the
batch, how many, whether one failed, and of how many the summary is asked for (R218). -/
structure FarSum where
  rank   : Nat
  l      : Nat
  batch  : Nat
  landed : Nat
  failed : Bool
  asked  : Option Nat
  deriving DecidableEq, Repr

/-- An event that is due at a cycle. -/
structure Agendum where
  at_ : Nat
  ev  : Instr
  due : Due
  deriving DecidableEq, Repr

/-- The state of the module. -/
structure State where
  now      : Nat
  agenda   : List Agendum
  /-- cores that still have their turn in this cycle -/
  turns    : List Nat
  due      : Due
  iss      : Issue
  /-- the counter of free values (log 1) -/
  free     : Nat
  nextId   : Nat
  ctxs     : List (Nat × Ctx)
  cores    : List (Nat × Core)
  clusters : List (Nat × Cluster)
  dies     : List (Nat × Die)
  sys      : Sys
  depots   : Vector UnitSt 16
  guest    : Guest
  /-- every byte of the module address space and of the scratchpads (see `Ops.spKey`), in canonical form -/
  mem      : List Host.Cell
  /-- memory at the end of the previous cycle, as `bar.wait` and `bar.try` read it (R215) -/
  memPrev  : List Host.Cell
  /-- memory as the cycle's bundles find it, before any release of the cycle (R188, R324), and whether they have begun -/
  memCyc   : List Host.Cell
  opened   : Bool
  /-- the platforms (cluster, number) whose held fill this cycle's releases publish (R222) -/
  pubs     : List (Nat × Nat)
  /-- the stores that this cycle has written to banks, by cluster, with the bytes that stood there (R214) -/
  banked   : List (Nat × BarReq × List (Nat × Byte))
  /-- what has landed here of the window writes of other modules' contexts, until each batch's summary is given (R218) -/
  farSums  : List FarSum
  /-- released entries still to be performed (R316, R326) -/
  l2q      : List HomeReq
  /-- the translations of the entry that is being performed (R379) -/
  fixed    : List Tlb
  /-- the trap records raised in this cycle, each with the index it claimed or none (R362) -/
  claims   : List (TrapRec × Option (BitVec 32))
  /-- race tags by granule: scratchpad granules under launch 0, global granules under their launch (R321) -/
  tags     : List ((Nat × Nat) × Tag)
  tlb      : List Tlb
  access   : List (Nat × List AccEntry)
  parts    : List Partition
  bounds   : List ((Nat × Nat) × BoundEntry)
  /-- populated bytes by target, as training fixed them (R430) -/
  pop      : List Nat
  retired  : List Nat
  /-- base and size of the region entries of the module map (R430) -/
  regions  : List (Nat × Nat)
  /-- words with an uncorrectable error, words whose next read finds a corrected error, by key; corrected errors of
  this boot by frame (R427): where errors occur is an input (log 18) -/
  poison   : List Nat
  corr     : List Nat
  corrCnt  : List (Nat × Nat)
  cmds     : List Cmd
  jobs     : List Job
  upds     : List Upd
  msgs     : List Msg
  /-- the unexpected messages at the end of the previous cycle, in arrival order (R304) -/
  unexpPrev : List Msg
  migs     : List Mig
  invals   : List Inval
  hot      : List HotEntry
  sketches : List Sketch
  launches : List Launch
  queues   : List Queue
  /-- per PRI, the queue that last started a launch (R401) -/
  lastQ    : List (Nat × Nat)
  /-- gangs whose ABANDON this module has sent as their leader, and the cycle until which their READYs are ignored (R404) -/
  gangsOut : List (Nat × Nat)
  consists : List Consist
  luvex    : Luvex
  /-- guest packets outstanding, by command -/
  guestq   : List Nat
  fatal    : Option Nat
  out      : List OutMsg
  deriving DecidableEq, Repr

/-- Why the machine stops with a fault. -/
inductive Fault where
  /-- raised by `step`: a fatal error has stopped every die and Krytzin holds the module until reset (R369), and no
  reset is due. Safe: the module does nothing in that state. -/
  | held
  deriving DecidableEq, Repr

/-- Why an instruction has no meaning. -/
inductive Refusal where
  /-- raised by a dispatch arm of an instruction that has no meaning yet, with its mnemonic. Safe. -/
  | notModelled (mnemonic : String)
  deriving DecidableEq, Repr

/-! ### Reset -/

/-- The identity scrambling matrix in canonical form (R173, R178). -/
def identityRows : Vector (BitVec 32) 32 := Vector.ofFn fun k => 1#32 <<< k.val

/-- The reset table of a Skink dimension: van der Corput direction numbers, identity matrix, shift 0 (R178). -/
def SkinkDim.reset : SkinkDim :=
  { v := Vector.ofFn fun b => 1#32 <<< (31 - b.val), l := identityRows, h := 0 }

/-- The histogram at launch (R180). -/
def Hist.reset : Hist := { base := 0, bins := Vector.replicate 64 0, under := 0, above := 0 }

/-- The shadow registers at launch (R228, R246, R256). -/
def Shadow.reset : Shadow :=
  { ecpTmpl := 0, ecpAcc := Vector.replicate 16 0, emxAbase := 0, emxBbase := 0, emxStride := 0, emxShape := 0,
    emxSparse := 0, emxAcc := 0, eepDst := 0, eepVec := 0, eepAct := 0, eepOut := 0, eepAcc := 0 }

/-- The state of a used context at launch (R26). -/
def Vis.launch : Vis :=
  { sreg := Vector.replicate 32 0, vec := Vector.replicate 48 0, pred := Vector.replicate 24 0,
    fpFlags := 0, fpMode := 0, cntMal := 0, cntSat := 0, batch := 0, cntBank := 0, cntGrp := 0,
    loops := [], steps := [], shadow := Shadow.reset, skink := Vector.replicate 32 SkinkDim.reset,
    hist := Hist.reset, taken := 0, seq := 0, locks := [] }

/-- A context that no launch uses. Its registers hold the values of R26 (log 3). -/
def Ctx.idle : Ctx :=
  { status := .idle, pc := 0, vis := Vis.launch, chk := Vis.launch, chkPc := 0, chkNo := 0, olds := [], pend := [], resumeAt := 0, wb := [],
    ents := 0, acqAt := 0, fullAt := 0, deferred := [], evq := [], freeing := 0, popped := [], extra := 0, wdog := 0, wlim := 2 ^ 24, wait := none, words := [], exec := false, launch := none, l := 0, g := 0,
    cons := none, cpos := 0, cfCount := 0, chkCf := 0, owned := 0, cards := [], blocks := [], win := Vector.replicate 32 0,
    winq := [], homeAt := none, batches := [], remote := [], remAsk := [], raceAns := [], raceAsk := [], checked := [],
    walked := [], walkAsk := [], evec := 0, epc := 0, ecause := 0, eaddr := 0,
    inh := false, startCycle := none, pendRec := [], posts := [] }

/-- An accumulator at launch (R244). -/
def Acc.launch : Acc := { c := 0, flags := 0, mal := 0 }

/-- A core that has issued nothing: the next choice of R37 begins at context 0 (log 12). -/
def Core.reset : Core :=
  { cur := none, last := 3, hold := none, mx := [], acc := Vector.replicate 4 Acc.launch, lines := [], asked := [], kept := [] }

/-- An undeclared platform (R220). -/
def Platform.none : Platform :=
  { decl := false, st := .free, held := false, front := false, gen := 0, base := 0, half := 0, resv := Option.none,
    fill := Option.none, holds := [] }

/-- A cluster that no launch holds. -/
def Cluster.reset : Cluster :=
  { launch := none, plats := Vector.replicate 64 Platform.none, prev := Vector.replicate 64 Platform.none, tmpl := Vector.replicate 256 0, regions := [], epoch := 0,
    barq := [], named := [], famo := [], fuse := false, prels := [], prelLog := [],
    lockq := 64, freeAt := 0 }

/-- A die at reset (R350): SYS.WDOGDEF 2^24, SYS.LOCKQ 64, the rest 0. -/
def Die.reset : Die :=
  { wdogDef := 2 ^ 24, lockQ := 64, preReq := 0, preDone := 0, wselCtx := 0, wselWin := 0, posts := [], unexp := [], st := .serving }

/-- The module-wide system registers at reset (R350, R376, R392); those without a reset value hold 0 (log 3). -/
def Sys.reset : Sys :=
  { trapBase := 0, trapLog2n := 14, trapEn := false, trapOvr := false, trapWr := 0, trapRd := 0, asidEn := false,
    asidBase := 0, heatBase := 0, retBase := 0, retCnt := 0, retFull := false, mapBase := 0, qtab := 0, ptab := 0 }

/-- No bundle is issuing. -/
def Issue.none : Issue :=
  { ctx := 0, slot := 0, pc := 0, words := [], cyc := 0, held := false, stall := false, ckpt := false, sig := .ok, xfer := Option.none, loops := Option.none,
    yields := false, halts := false, safe := false }

/-- No guest is fitted: SYS.RSTATE2.GST reads 3 (R412; log 3). -/
def Guest.none : Guest :=
  { fitted := false, st := .retired, qdepth := 0, base := [], ginv := 0, gpre := 0, shut := false, late := [], pend := [] }

/-- Luvex as reset leaves it: the measurement registers are zero (R424); flash as manufactured, empty (log 3). -/
def Luvex.reset : Luvex :=
  { boot := .reset,
    flash := { image := [], imageSig := [], blob := [], keyDig := [], keys := [], fuse := 0, frames := [], units := [],
               boots := 0 },
    mr := List.replicate 8 (List.replicate 64 0), mailbox := [], power := 5500, rasPos := 0, rasLoss := 0, pod := 0,
    pos := 0, hotBytes := 96000000000, links := [], hdm := [], channels := [], uecKeys := [], dumpAt := (0, 0) }

/-- The machine right after reset: nothing runs, every register at its reset value, memory with nothing listed, and
the boot sequence of R421 due. -/
def State.reset : State :=
  { now := 0, agenda := [{ at_ := 0, ev := .coldReset, due := {} }], turns := [], due := {}, iss := Issue.none,
    free := 0, nextId := 0, ctxs := [], cores := [], clusters := [], dies := [], sys := Sys.reset,
    depots := Vector.replicate 16 .serving, guest := Guest.none, mem := [], memPrev := [], memCyc := [], opened := false, pubs := [], banked := [], farSums := [], l2q := [], fixed := [], claims := [], tags := [], tlb := [], access := [],
    parts := List.replicate 8 { cmask := 0, dmask := 0, guest := false, privq := 0 }, bounds := [], pop := [],
    retired := [], regions := [], poison := [], corr := [], corrCnt := [], cmds := [], jobs := [], upds := [], msgs := [], unexpPrev := [], migs := [],
    invals := [], hot := [], sketches := [], launches := [], queues := [], lastQ := [], gangsOut := [], consists := [],
    luvex := Luvex.reset, guestq := [], fatal := none, out := [] }

end Sys2Proof.Machine
end

