-- ==== Sys2Proof/Machine/Ops.lean ====
section
/-! DEFINITION. Sys2Proof/Machine/Ops.lean: the named operations over memory, registers, time and results; taking a
trap (R355 to R365) and the return from one; the context image (R368) and the dump (R370). -/

namespace Sys2Proof.Machine

/-! ### Lists kept by key, bits and bytes -/

/-- The value kept under a key, or a default. -/
def aget {α : Type} (d : α) : List (Nat × α) → Nat → α
  | [], _ => d
  | (k', x) :: r, k => if k' = k then x else aget d r k

/-- The list with the value under a key replaced or put in its place. -/
def aset {α : Type} : List (Nat × α) → Nat → α → List (Nat × α)
  | [], k, x => [(k, x)]
  | (k', y) :: r, k, x =>
    if k = k' then (k, x) :: r else if k < k' then (k, x) :: (k', y) :: r else (k', y) :: aset r k x

/-- n bits of x from bit lo (R5). -/
def bits (x lo n : Nat) : Nat := (x >>> lo) % 2 ^ n

/-- n bits of a word from bit lo, as a number. -/
def fld (w : Word) (lo n : Nat) : Nat := bits w.toNat lo n

/-- A Boolean as a bit. -/
def bit (b : Bool) : Nat := if b then 1 else 0

/-- x rounded up to a multiple of m. -/
def roundUp (x m : Nat) : Nat := (x + m - 1) / m * m

/-- The quotient rounded up. -/
def ceilDiv (a b : Nat) : Nat := (a + b - 1) / b

/-- A value of w bits taken as two's complement. -/
def toSigned (w x : Nat) : Int := if x % 2 ^ w < 2 ^ (w - 1) then (x % 2 ^ w : Nat) else ((x % 2 ^ w : Nat) : Int) - 2 ^ w

/-- An integer modulo 2^w. -/
def ofSigned (w : Nat) (x : Int) : Nat := (x % (2 ^ w : Nat)).toNat

/-- The number a byte string holds, lowest address first (R5). -/
def leNat : List Byte → Nat
  | [] => 0
  | b :: r => b.toNat + 256 * leNat r

/-- The n bytes of a number, lowest address first (R5). -/
def leBytes : Nat → Nat → List Byte
  | 0, _ => []
  | n + 1, x => BitVec.ofNat 8 x :: leBytes n (x >>> 8)

/-- Values of w bits put side by side, the first lowest. -/
def packNat (w : Nat) (xs : List Nat) : Nat := xs.foldr (fun x acc => x % 2 ^ w + acc <<< w) 0

/-- n values of w bits taken from a number, the lowest first. -/
def unpackNat (w n x : Nat) : List Nat := (List.range n).map fun i => bits x (i * w) w

/-- Whether bit i of a number is set. -/
def tst (x i : Nat) : Bool := x.testBit i

/-! ### Memory -/

/-- The byte at a key of the memory; an unlisted byte reads as zero (log 2). -/
def memRead : List Host.Cell → Nat → Byte
  | [], _ => 0
  | (a', b) :: r, a => if a' = a then b else memRead r a

/-- The memory with one byte written, in canonical form. -/
def memWrite : List Host.Cell → Nat → Byte → List Host.Cell
  | [], a, b => if b = 0 then [] else [(a, b)]
  | (a', b') :: r, a, b =>
    if a < a' then (if b = 0 then (a', b') :: r else (a, b) :: (a', b') :: r)
    else if a = a' then (if b = 0 then r else (a, b) :: r)
    else (a', b') :: memWrite r a b

/-- The canonical form: keys strictly rising, no entry that equals what an unlisted byte reads as. -/
def Memory.wf : List Host.Cell → Bool
  | [] => true
  | [(_, b)] => b != 0
  | (a, b) :: (a', b') :: r => b != 0 && decide (a < a') && Memory.wf ((a', b') :: r)

/-- The memory with every byte from lo to hi - 1 zero. -/
def memZero (m : List Host.Cell) (lo hi : Nat) : List Host.Cell := m.filter fun c => c.1 < lo || hi ≤ c.1

/-- n bytes from a key upward. -/
def memBytes (m : List Host.Cell) (a n : Nat) : List Byte := (List.range n).map fun i => memRead m (a + i)

/-- The little-endian number in n bytes from a key upward. -/
def memNat (m : List Host.Cell) (a n : Nat) : Nat := leNat (memBytes m a n)

/-- The memory with bytes written at the keys given, in list order. -/
def memPut (m : List Host.Cell) (bs : List (Nat × Byte)) : List Host.Cell :=
  bs.foldl (fun m p => memWrite m p.1 p.2) m

/-- The bytes of a run from a key upward. -/
def runAt (a : Nat) : List Byte → List (Nat × Byte)
  | [] => []
  | b :: r => (a, b) :: runAt (a + 1) r

/-- The key of a scratchpad byte: cluster k = 6 x die + cl, local address a (R14, R185). Keys below 2^52 are module
addresses (R371). -/
def spKey (k a : Nat) : Nat := 2 ^ 52 + k * 2 ^ 23 + a % 2 ^ 23

/-- The state with bytes written at keys. -/
def State.put (s : State) (bs : List (Nat × Byte)) : State := { s with mem := memPut s.mem bs }

/-- The state with a number of n bytes written at a key. -/
def State.putNat (s : State) (a n x : Nat) : State := s.put (runAt a (leBytes n x))

/-- The little-endian number in n bytes at a key. -/
def State.nat (s : State) (a n : Nat) : Nat := memNat s.mem a n

/-! ### Contexts, cores, clusters and dies -/

/-- The context of a CTXID (R354). -/
def State.ctx (s : State) (c : Nat) : Ctx := aget Ctx.idle s.ctxs c

/-- The state with a context replaced. -/
def State.setCtx (s : State) (c : Nat) (x : Ctx) : State := { s with ctxs := aset s.ctxs c x }

/-- The state with a context changed. -/
def State.modCtx (s : State) (c : Nat) (f : Ctx → Ctx) : State := s.setCtx c (f (s.ctx c))

/-- The core of a CTXID: CTXID div 4 (R354). -/
def coreOf (c : Nat) : Nat := c / 4

/-- The cluster of a CTXID, as 6 x die + cl (R29, R354). -/
def clOf (c : Nat) : Nat := 6 * (c / 128) + c / 16 % 8

/-- The die of a CTXID. -/
def dieOf (c : Nat) : Nat := c / 128

/-- The CTXID of hardware context h on core q of cluster k = 6 x die + cl. -/
def ctxidOf (k q h : Nat) : Nat := h + 4 * q + 16 * (k % 6) + 128 * (k / 6)

def State.core (s : State) (q : Nat) : Core := aget Core.reset s.cores q
def State.setCore (s : State) (q : Nat) (x : Core) : State := { s with cores := aset s.cores q x }
def State.modCore (s : State) (q : Nat) (f : Core → Core) : State := s.setCore q (f (s.core q))
def State.cluster (s : State) (k : Nat) : Cluster := aget Cluster.reset s.clusters k
def State.setCluster (s : State) (k : Nat) (x : Cluster) : State := { s with clusters := aset s.clusters k x }
def State.modCluster (s : State) (k : Nat) (f : Cluster → Cluster) : State := s.setCluster k (f (s.cluster k))
def State.die (s : State) (d : Nat) : Die := aget Die.reset s.dies d
def State.setDie (s : State) (d : Nat) (x : Die) : State := { s with dies := aset s.dies d x }
def State.modDie (s : State) (d : Nat) (f : Die → Die) : State := s.setDie d (f (s.die d))

/-- Platform pn of cluster k (R220). -/
def State.plat (s : State) (k pn : Nat) : Platform := (s.cluster k).plats.getD pn Platform.none

/-- The state with a platform changed. -/
def State.modPlat (s : State) (k pn : Nat) (f : Platform → Platform) : State :=
  s.modCluster k fun c => { c with plats := c.plats.setIfInBounds pn (f (c.plats.getD pn Platform.none)) }

/-- The launch of an identity. -/
def State.launch? (s : State) (l : Nat) : Option Launch := s.launches.find? (·.id = l)

/-- The launch that uses a context. -/
def State.launchOf (s : State) (c : Nat) : Option Launch := (s.ctx c).launch.bind s.launch?

/-- The state with a launch changed. -/
def State.modLaunch (s : State) (l : Nat) (f : Launch → Launch) : State :=
  { s with launches := s.launches.map fun x => if x.id = l then f x else x }

/-- The address space of a context's launch (R377). -/
def State.asidOf (s : State) (c : Nat) : Nat := ((s.launchOf c).map (·.pkt.asid)).getD 0

/-- The partition of a context's launch (R377). -/
def State.partOf (s : State) (c : Nat) : Nat := ((s.launchOf c).map (·.part)).getD 0

/-- Whether a context's launch is deterministic (R333). -/
def State.detOf (s : State) (c : Nat) : Bool := ((s.launchOf c).map (·.pkt.det)).getD false

/-- The watchdog limit of a context (R39, R368, R397). -/
def State.wdogOf (s : State) (c : Nat) : Nat := (s.ctx c).wlim

/-- The used contexts of a launch, cluster by cluster, in ascending logical index (R24, R25). -/
def Launch.ctxids (l : Launch) : List Nat :=
  l.clus.flatMap fun k => (List.range (l.c * l.m)).map fun i => ctxidOf k (i % l.m) (i / l.m)

/-- Module time in ns: a cycle is 10/19 ns (R7). -/
def State.ns (s : State) : Nat := s.now * 10 / 19

/-- The cycles that hold n nanoseconds (R7). -/
def nsCycles (n : Nat) : Nat := n * 19 / 10

/-! ### Free values, identities, the agenda -/

/-- A free moment between 1 and bound cycles, and the state with the counter advanced (log 1). -/
def State.draw (s : State) (bound : Nat) : Nat × State :=
  (1 + Config.freeDelay s.free % (max bound 1), { s with free := s.free + 1 })

/-- A free choice, and the state with the counter advanced (log 1). -/
def State.choose (s : State) : Bool × State := (Config.freeBool s.free, { s with free := s.free + 1 })

/-- A fresh identity. -/
def State.fresh (s : State) : Nat × State := (s.nextId, { s with nextId := s.nextId + 1 })

/-- The state with an event due at a cycle. -/
def State.schedule (s : State) (at_ : Nat) (ev : Instr) (d : Due) : State :=
  { s with agenda := s.agenda ++ [{ at_ := at_, ev := ev, due := d }] }

/-- The state with an event due at a free moment within bound cycles from now (log 1). -/
def State.later (s : State) (bound : Nat) (ev : Instr) (d : Due) : State :=
  let (n, s) := s.draw bound
  s.schedule (s.now + n) ev d

/-- The agenda items that a test picks become due now: their moment was free within a bound (R21; log 1). -/
def State.hasten (s : State) (p : Agendum → Bool) : State :=
  { s with agenda := s.agenda.map fun a => if p a then { a with at_ := min a.at_ s.now } else a }

/-- What leaves the module. -/
def State.emit (s : State) (m : OutMsg) : State := { s with out := s.out ++ [m] }

/-! ### Targets (R383) -/

/-- The target of a module address: HBM4E stacks 0 to 7, Depots 8 to 23, CXL ports 24 and 25, host window 26, Spur 27
(R383, R405). -/
def targetOf (m : Nat) : Option Nat :=
  if m < 0x008000000000 then some (m / 0x1000000000)
  else if m < 0x010000000000 then none
  else if m < 0x050000000000 then some (8 + (m - 0x010000000000) / 0x4000000000)
  else if m < 0x080000000000 then none
  else if m < 0x0C0000000000 then some 24
  else if m < 0x100000000000 then some 25
  else if m < 0x200000000000 then some 26
  else if m < 0x201000000000 then some 27
  else none

/-- The first module address of a target (R383). -/
def targetBase (t : Nat) : Nat :=
  if t < 8 then t * 0x1000000000 else if t < 24 then 0x010000000000 + (t - 8) * 0x4000000000
  else if t = 24 then 0x080000000000 else if t = 25 then 0x0C0000000000
  else if t = 26 then 0x100000000000 else 0x200000000000

/-- Whether a module address lies on a memory device of the module: HBM4E, LPDDR-6 or the CXL tier. -/
def onDevice (m : Nat) : Bool := (targetOf m).any (· < 26)

/-- What writes of bytes at keys also write in one place further: a migration's old frame mirrors them to its destination (R387 point
3). -/
def State.mirrorOnce (s : State) (bs : List (Nat × Byte)) : List (Nat × Byte) :=
  bs.flatMap fun p =>
    (s.migs.filter fun g => (s.cmds.any fun x => x.id = g.id && x.release.isSome) && g.old ≤ p.1 && p.1 < g.old + g.size).map fun g =>
      (g.dst + (p.1 - g.old), p.2)

/-- What writes of bytes at keys also write, through as many migrations one behind another (R387 point 3). -/
def State.mirrorsOf (s : State) : Nat → List (Nat × Byte) → List (Nat × Byte)
  | 0, _ => []
  | n + 1, bs =>
    match s.mirrorOnce bs with
    | [] => []
    | m => m ++ s.mirrorsOf n m

/-- What writes of bytes at keys also write: the copies that migrations keep of them, and the copies of these (R387 point 3). -/
def State.mirrored (s : State) (bs : List (Nat × Byte)) : List (Nat × Byte) := s.mirrorsOf s.migs.length bs

/-- Whether a byte stands behind the host link or in the guest (R383). -/
def outsideKey (k : Nat) : Bool := decide (k < 2 ^ 52) && (targetOf k).any (26 ≤ ·)

/-- The state with bytes written at keys, and their mirrors: scratchpads and the module's own memory keep them; what goes to the
host or the guest leaves the module. -/
def State.write (s : State) (bs : List (Nat × Byte)) : State :=
  let all := bs ++ s.mirrored bs
  (if all.any fun p => outsideKey p.1 then s.emit (.outside (all.filter fun p => outsideKey p.1)) else s).put
    (all.filter fun p => !outsideKey p.1)

/-! ### Registers of the issuing context -/

/-- The issuing context. -/
def State.cur (s : State) : Ctx := s.ctx s.iss.ctx

/-- s[r]; s0 reads as zero (R74). -/
def Vis.s (v : Vis) (r : BitVec 5) : Word := if r = 0 then 0 else v.sreg.getD r.toNat 0

/-- Predicate register r; p0 reads as all ones (R74). -/
def Vis.p (v : Vis) (r : BitVec 5) : PReg := if r = 0 then BitVec.allOnes 256 else v.pred.getD r.toNat 0

/-- Vector register i of the 48: va0-15, vb0-15, vc0-15 (R74). -/
def Vis.v (v : Vis) (i : Nat) : VReg := v.vec.getD i 0

def State.rs (s : State) (r : BitVec 5) : Word := s.cur.vis.s r
def State.rp (s : State) (r : BitVec 5) : PReg := s.cur.vis.p r

/-- The group of the issuing slot (R72, R74): V0 and M0 A, V1 and M1 B, V2 and X C. -/
def slotGrp (slot : Nat) : Nat := if slot = 2 ∨ slot = 6 then 0 else if slot = 3 ∨ slot = 7 then 1 else 2

/-- The place of a vector register field of the issuing slot's group in the file of 48. -/
def State.vix (s : State) (r : BitVec 4) : Nat := slotGrp s.iss.slot * 16 + r.toNat

/-- Vector register r of the issuing slot's group. -/
def State.rv (s : State) (r : BitVec 4) : VReg := s.cur.vis.v (s.vix r)

/-- The state in which the issuing bundle's result e arrives at latency lat (R87). -/
def State.push (s : State) (lat : Nat) (e : Eff) : State :=
  s.modCtx s.iss.ctx fun c => { c with pend := c.pend ++ [{ at_ := s.iss.cyc + lat, inChk := false, eff := e }] }

/-- A result for s[d]; s0 discards it (R74, R98). -/
def State.ws (s : State) (d : BitVec 5) (lat : Nat) (x : Word) : State :=
  if d = 0 then s else s.push lat (.sreg d x)

/-- A result for the bits of vector register r that mask selects. -/
def State.wv (s : State) (r : BitVec 4) (lat : Nat) (x mask : VReg) : State := s.push lat (.vec (s.vix r) x mask)

/-- A result for predicate register r. -/
def State.wp (s : State) (r : BitVec 5) (lat : Nat) (x : PReg) : State := s.push lat (.pred r x)

/-- Sticky flags that become visible at latency lat (R131); none is no result. -/
def State.wf (s : State) (lat : Nat) (f : BitVec 6) : State := if f = 0 then s else s.push lat (.flags f)

/-- Change of the issuing context's state that takes effect at issue. -/
def State.modCur (s : State) (f : Ctx → Ctx) : State := s.modCtx s.iss.ctx f

/-- Change of the issuing context's visible state that takes effect at issue. -/
def State.modVis (s : State) (f : Vis → Vis) : State := s.modCur fun c => { c with vis := f c.vis }

/-! ### Arrival of results (R87 to R90) -/

/-- A counter of 32 bits with n added, saturating (R133). -/
def satAdd32 (c : BitVec 32) (n : Nat) : BitVec 32 := BitVec.ofNat 32 (min (c.toNat + n) 0xFFFFFFFF)

/-- A `csrw` in its arrival cycle (R129, R131 to R136): the writable fields, the rest unchanged. -/
def Vis.csrw (v : Vis) (n : Nat) (x : Word) : Vis :=
  match n with
  | 0x000 => { v with fpFlags := x.setWidth 6 }
  | 0x001 => { v with fpMode := if fld x 0 3 ≤ 4 then x.setWidth 3 else 0 }
  | 0x002 => { v with cntMal := x.setWidth 32 }
  | 0x003 => { v with cntSat := x.setWidth 32 }
  | 0x004 => { v with batch := x.setWidth 2 }
  | 0x007 => { v with cntBank := x }
  | 0x008 => { v with cntGrp := x }
  | _ => v

/-- The writable bits of an engine shadow register; none of one that is read-only (R227, R228, R246, R256). -/
def engMask (n : Nat) : Word :=
  match n with
  | 0x0000 => 0xFF
  | 0x1000 => 0x7FFFFF
  | 0x1001 => 0x7FFFFF
  | 0x1002 => 0xFFFFFFFF
  | 0x1003 => 0x1FFFFFF
  | 0x1004 => 0x3F3F3F
  | 0x2000 => 0x7FFFFFFFFFFFFF
  | 0x2001 => 0xFFFFFFFFFFFF
  | 0x2002 => 0xFFFFFFFF0000000F
  | 0x2003 => 0x3FFFFFF1F
  | _ => 0

/-- An engine shadow register set to a value, by its number (R227): the acceptance words too. -/
def Shadow.set (h : Shadow) (n : Nat) (x : Word) : Shadow :=
  match n with
  | 0x0000 => { h with ecpTmpl := x }
  | 0x1000 => { h with emxAbase := x }
  | 0x1001 => { h with emxBbase := x }
  | 0x1002 => { h with emxStride := x }
  | 0x1003 => { h with emxShape := x }
  | 0x1004 => { h with emxSparse := x }
  | 0x1010 => { h with emxAcc := x }
  | 0x2000 => { h with eepDst := x }
  | 0x2001 => { h with eepVec := x }
  | 0x2002 => { h with eepAct := x }
  | 0x2003 => { h with eepOut := x }
  | 0x2010 => { h with eepAcc := x }
  | _ => if 0x0010 ≤ n ∧ n ≤ 0x001F then { h with ecpAcc := h.ecpAcc.setIfInBounds (n - 0x0010) x } else h

/-- One count in a histogram counter: 0 to 63 a bin, 64 under, 65 over (R180). -/
def Hist.count (h : Hist) (k : Nat) : Hist :=
  if k < 64 then { h with bins := h.bins.setIfInBounds k (satAdd32 (h.bins.getD k 0) 1) }
  else if k = 64 then { h with under := satAdd32 h.under 1 }
  else { h with above := satAdd32 h.above 1 }

/-- The visible state with an arriving result written (R88). -/
def Vis.apply (v : Vis) : Eff → Vis
  | .sreg r x => if r = 0 then v else { v with sreg := v.sreg.setIfInBounds r.toNat x }
  | .vec r x mask => { v with vec := v.vec.setIfInBounds r ((v.v r &&& ~~~mask) ||| (x &&& mask)) }
  | .pred p x => if p = 0 then v else { v with pred := v.pred.setIfInBounds p.toNat x }
  | .flags f => { v with fpFlags := v.fpFlags ||| f }
  | .mal n => { v with cntMal := satAdd32 v.cntMal n }
  | .sat n => { v with cntSat := satAdd32 v.cntSat n }
  | .csr n x => v.csrw n.toNat x
  | .skinkDim d x => { v with skink := v.skink.setIfInBounds d x }
  | .skinkScr d l h =>
      { v with skink := v.skink.setIfInBounds d { (v.skink.getD d SkinkDim.reset) with l := l, h := h } }
  | .histClear b => { v with hist := { Hist.reset with base := b } }
  | .histAdd ks => { v with hist := ks.foldl Hist.count v.hist }
  | .eng n x => if engMask n.toNat = 0 then v else { v with shadow := v.shadow.set n.toNat (x &&& engMask n.toNat) }
  | .engAcc n x => { v with shadow := v.shadow.set n.toNat x }
  | .freeSlot => v

/-- Whether an effect is a `csrw`, which its cycle's flag and counter updates follow (R90, R129). -/
def Eff.first : Eff → Bool
  | .csr _ _ => true
  | .histClear _ => true
  | _ => false

/-- One due result written: into the visible state, and into the checkpoint when it belongs to it (R125). -/
def Ctx.land (c : Ctx) (p : Pending) : Ctx :=
  let c := { c with vis := c.vis.apply p.eff, chk := if p.inChk then c.chk.apply p.eff else c.chk }
  match p.eff with
  | .freeSlot => { c with freeing := c.freeing - 1 }
  | _ => c

/-- The results of a context due by a cycle, in the order in which they are written: cycle by cycle, `csrw` before
flag and counter updates of its cycle, otherwise in issue order. -/
def Ctx.duePend (c : Ctx) (t : Nat) : List Pending :=
  let due := c.pend.filter fun p => p.at_ ≤ t
  due.filter (fun p => p.eff.first) ++ due.filter fun p => !p.eff.first

/-- The results of a context with what an entry of a place in program order has come to in the place that was kept for it (R88). -/
def putResults (ps : List Pending) (ord : Nat) (rs : List Pending) : List Pending :=
  if ps.any (·.ent = some ord) then ps.flatMap fun p => if p.ent = some ord then rs else [p] else ps ++ rs

/-- A checkpoint that a consist keeps, with the results of an entry that belongs to it (R43, R125). -/
def OldChk.resolved (o : OldChk) (ord : Nat) (rs : List Pending) : OldChk :=
  if o.await.contains ord then
    { o with vis := rs.foldl (fun v p => v.apply p.eff) o.vis, until_ := rs.foldl (fun m p => max m p.at_) o.until_,
             await := o.await.erase ord }
  else o

/-- The results of a released entry of a context, at its place in program order: they are worked out now, and a restored context that
waited for that knows when the last of its results arrives (R88, R125, R205). -/
def Ctx.resolve (x : Ctx) (ord : Nat) (rs : List Pending) : Ctx :=
  let ps := putResults x.pend ord rs
  { x with
    pend := ps, olds := x.olds.map fun o => o.resolved ord rs
    resumeAt := if x.resumeAt < Pending.never then x.resumeAt
      else (ps.filter (·.inChk)).foldl (fun m p => max m p.at_) 0 }

/-- The place kept among the results of a context for those of a released entry that is still to be performed (R88). -/
def Pending.await (ord : Nat) : Pending := { at_ := Pending.never, inChk := true, eff := .sat 0, ent := some ord }

/-- A context with the results due by cycle t written. -/
def Ctx.deliver (c : Ctx) (t : Nat) : Ctx :=
  (c.duePend t).foldl Ctx.land { c with pend := c.pend.filter fun p => t < p.at_ }

/-! ### Signals of the instruction being executed -/

/-- The bundle of the executing instruction blocks (R36). -/
def State.blocked (s : State) (r : Block) (lines grans checks walks : List Nat) : State :=
  { s with iss := { s.iss with sig := .block r lines grans checks walks } }

/-- The fields of a trap raised by the instruction in the issuing slot (R363). -/
def State.issTrap (s : State) (kind : BitVec 8) (faddr : Word := 0) (arg : Word := 0) (acc : BitVec 8 := 0) : TrapInfo :=
  { kind := kind, pc := s.iss.pc, faddr := faddr, arg := arg, slot := BitVec.ofNat 8 s.iss.slot, acc := acc }

/-! ### Records and slots of the event queue (R238, R239) -/

/-- A record's 32 bytes (R239). -/
def Record.bytes (r : Record) : List Byte :=
  leBytes 2 r.seq.toNat ++ leBytes 1 r.kind.toNat ++ leBytes 1 r.status.toNat ++ leBytes 1 r.flags.toNat
    ++ leBytes 1 r.pfl.toNat ++ leBytes 2 r.pn.toNat ++ leBytes 4 r.mal.toNat ++ leBytes 4 r.satc.toNat
    ++ leBytes 16 r.detail.toNat

/-- The record that 32 bytes hold (R239). -/
def Record.ofNat (x : Nat) (key : Nat) : Record :=
  { seq := BitVec.ofNat 16 x, kind := BitVec.ofNat 8 (x >>> 16), status := BitVec.ofNat 8 (x >>> 24),
    flags := BitVec.ofNat 6 (x >>> 32), pfl := BitVec.ofNat 8 (x >>> 40), pn := BitVec.ofNat 16 (x >>> 48),
    mal := BitVec.ofNat 32 (x >>> 64), satc := BitVec.ofNat 32 (x >>> 96), detail := BitVec.ofNat 128 (x >>> 128),
    key := key }

/-- Whether an accepted command holds a reserved slot: every one that posts a record does, `mxgo` and `mxsgo` are no
`Cmd` (R238, R253). -/
def State.reservedCmds (s : State) (c : Nat) : Nat := s.cmds.countP (·.ctx = c)

/-- The entries of context c that are released and still to be performed, in program order (R316, R326). -/
def State.queued (s : State) (c : Nat) : List Entry := (s.l2q.filter (·.ctx = c)).map (·.entry)

/-- The entries of context c that are not yet performed, in program order. -/
def State.entries (s : State) (c : Nat) : List Entry := s.queued c ++ (s.ctx c).wb

/-- Entries that hold a slot of their own: refused copies (R235). -/
def State.refusals (s : State) (c : Nat) : Nat :=
  (s.entries c).countP fun e => match e.k with
    | .refusedCopy _ => true
    | _ => false

/-- `bclose`s that are still to be performed, for which a slot is kept free from their issue on, where R238 names a released one
alone (log 72). -/
def State.closing (s : State) (c : Nat) : Nat :=
  (s.entries c).countP fun e => match e.k with
    | .bclose _ _ => true
    | _ => false

/-- Slots of context c that are reserved: accepted commands, refused copies, released `bclose` (R238), and those that a
loaded image reserves beyond these (R368; log 73). -/
def State.reserved (s : State) (c : Nat) : Nat :=
  s.reservedCmds c + s.refusals c + (s.ctx c).batches.countP (·.closed) + (s.ctx c).extra

/-- Free slots of context c's queue of 64; a slot whose record `evpop` took is freed 2 cy later (R238, R241). R238 keeps a slot for
the record of a released `bclose`: the model keeps it from the bundle on, while the `bclose` is withheld (DESIGN CHOICE, log 72). -/
def State.freeSlots (s : State) (c : Nat) : Nat :=
  64 - ((s.ctx c).evq.length + (s.ctx c).freeing + s.reserved c + s.closing c)

/-- A record arrives: it enters the queue; for a DONE context it is dropped (R124, R239). -/
def State.postRecord (s : State) (c : Nat) (r : Record) : State :=
  s.modCtx c fun x => match x.status with
    | .done => x
    | .idle => x
    | _ => { x with evq := x.evq ++ [r] }

/-! ### The context image (R368) -/

/-- Accumulators a context owns: a mod c = h (R244), as a mask. -/
def State.accMask (s : State) (c : Nat) : Nat :=
  let n := ((s.launchOf c).map (·.c)).getD 1
  ((List.range 4).map fun a => if a % n = c % 4 then 2 ^ a else 0).sum

/-- The 64-byte form of a loop entry (R368). -/
def LoopEntry.bytes (e : LoopEntry) : List Byte :=
  leBytes 8 e.start.toNat ++ leBytes 8 e.fin.toNat ++ leBytes 8 e.remaining.toNat
    ++ leBytes 8 (packNat 8 ((e.steps.map (·.1.toNat)) ++ List.replicate (4 - e.steps.length) 0 ++ [e.steps.length]))
    ++ leBytes 32 (packNat 64 (e.steps.map (·.2.toNat)))

/-- The loop entry that 64 bytes hold. -/
def LoopEntry.ofNat (x : Nat) : LoopEntry :=
  { start := BitVec.ofNat 64 x, fin := BitVec.ofNat 64 (x >>> 64), remaining := BitVec.ofNat 64 (x >>> 128),
    steps := (List.range (min (bits x 224 8) 4)).map fun i =>
      (BitVec.ofNat 5 (x >>> (192 + 8 * i)), BitVec.ofNat 64 (x >>> (256 + 64 * i))) }

/-- LOOP as R135 shows it. -/
def Vis.loopWord (v : Vis) : Word := BitVec.ofNat 64 (v.loops.length + v.steps.length * 8)

/-- The 260 bytes of a Skink dimension (R172). -/
def SkinkDim.bytes (d : SkinkDim) : List Byte :=
  (d.v.toList ++ d.l.toList ++ [d.h]).flatMap fun w => leBytes 4 w.toNat

/-- A matrix row in canonical form (R173). -/
def canonRow (k : Nat) (w : BitVec 32) : BitVec 32 :=
  (w ||| (1#32 <<< k)) &&& ~~~((1#32 <<< k) - 1)

/-- The Skink dimension that 65 words hold, its rows canonicalised (R172, R173). -/
def SkinkDim.ofWords (ws : List (BitVec 32)) : SkinkDim :=
  { v := Vector.ofFn fun b => ws.getD b.val 0, l := Vector.ofFn fun k => canonRow k.val (ws.getD (32 + k.val) 0),
    h := ws.getD 64 0 }

/-- The words of 32 bits in a byte string. -/
def words32 (bs : List Byte) : List (BitVec 32) :=
  (List.range (bs.length / 4)).map fun i => BitVec.ofNat 32 (leNat ((bs.drop (4 * i)).take 4))

/-- The image of context c: its checkpoint state in the 57,856 bytes of R368. Word 1 of the queue part holds the head
in bits 31:0 and the count in 63:32 (log 13). R368 says of the histogram's base only that it stands in word 0: it stands there
as its 9-bit pattern, zero-extended (R180; DESIGN CHOICE, log 72); nor in which order an accumulator's three flag bits stand: OF
lowest, then NV, UF (R245; DESIGN CHOICE, log 72). -/
def State.image (s : State) (c : Nat) : List Byte :=
  let x := s.ctx c
  let v := x.chk
  let co := s.core (coreOf c)
  let own := s.accMask c
  let acc := fun a => co.acc.getD a Acc.launch
  let ownAcc := fun a => if tst own a then acc a else Acc.launch
  let w8 := fun (ws : List Nat) => ws.flatMap (leBytes 8)
  let n := x.evq.length
  let res := s.reserved c
  w8 [c, ((s.launchOf c).map fun l => l.qid % 256 + l.lseq.toNat * 2 ^ 16).getD 0, x.chkPc.toNat, v.taken, s.wdogOf c,
      own + ((List.range 4).map fun a => (ownAcc a).flags.toNat * 2 ^ (3 * a + 4)).sum,
      (ownAcc 0).mal.toNat + (ownAcc 1).mal.toNat * 2 ^ 32, (ownAcc 2).mal.toNat + (ownAcc 3).mal.toNat * 2 ^ 32]
  ++ w8 (0 :: (v.sreg.toList.drop 1).map (·.toNat))
  ++ (List.range 24).flatMap (fun i => leBytes 32 (v.p (BitVec.ofNat 5 i)).toNat)
  ++ w8 [v.fpFlags.toNat, v.fpMode.toNat, v.cntMal.toNat, v.cntSat.toNat, v.batch.toNat, v.cntBank.toNat, v.cntGrp.toNat,
         v.loopWord.toNat]
  ++ ((v.loops.reverse.flatMap LoopEntry.bytes) ++ List.replicate (256 - 64 * v.loops.length) 0)
  ++ LoopEntry.bytes { start := 0, fin := 0, remaining := 0, steps := v.steps }
  ++ w8 ([v.shadow.ecpTmpl, v.shadow.emxAbase, v.shadow.emxBbase, v.shadow.emxStride, v.shadow.emxShape,
          v.shadow.emxSparse, v.shadow.emxAcc, v.shadow.eepDst, v.shadow.eepVec, v.shadow.eepAct, v.shadow.eepOut,
          v.shadow.eepAcc].map (·.toNat) ++ v.shadow.ecpAcc.toList.map (·.toNat) ++ List.replicate 4 0)
  ++ w8 (x.win.toList.map (·.toNat))
  ++ w8 [v.seq.toNat, n * 2 ^ 32, (2 ^ res - 1) * 2 ^ n % 2 ^ 64, 0, 0, 0, 0, 0]
  ++ (x.evq.flatMap Record.bytes ++ List.replicate (2048 - 32 * n) 0)
  ++ v.vec.toList.flatMap (fun r => leBytes 256 r.toNat)
  ++ v.skink.toList.flatMap SkinkDim.bytes
  ++ (leBytes 8 v.hist.base.toNat ++ v.hist.bins.toList.flatMap (fun b => leBytes 4 b.toNat)
      ++ leBytes 4 v.hist.under.toNat ++ leBytes 4 v.hist.above.toNat ++ List.replicate 48 0)
  ++ List.replicate 64 0
  ++ (List.range 4).flatMap (fun a => leBytes 8192 (ownAcc a).c.toNat)

/-- Whether an image fits context c: CTXID, launch identity, accumulator mask (R354, R368). -/
def State.imageFits (s : State) (c : Nat) (bs : List Byte) : Bool :=
  let im := s.image c
  bs.take 16 == im.take 16 && bits (leNat ((bs.drop 40).take 8)) 0 4 == s.accMask c

/-- The visible state an image holds, its RO fields taken as they stand, its reserved bits dropped (R9), its Skink rows
canonicalised (R368). -/
def visOfImage (bs : List Byte) (old : Vis) : Vis :=
  let at8 := fun o => leNat ((bs.drop o).take 8)
  let w := fun o => BitVec.ofNat 64 (at8 o)
  let nat := fun o n => leNat ((bs.drop o).take n)
  let eng := fun o r => w o &&& engMask r
  { sreg := Vector.ofFn fun i => if i.val = 0 then 0 else w (0x40 + 8 * i.val)
    vec := Vector.ofFn fun i => BitVec.ofNat 2048 (nat (0x1000 + 256 * i.val) 256)
    pred := Vector.ofFn fun i => if i.val = 0 then 0 else BitVec.ofNat 256 (nat (0x140 + 32 * i.val) 32)
    fpFlags := BitVec.ofNat 6 (at8 0x440), fpMode := BitVec.ofNat 3 (at8 0x448), cntMal := BitVec.ofNat 32 (at8 0x450),
    cntSat := BitVec.ofNat 32 (at8 0x458), batch := BitVec.ofNat 2 (at8 0x460), cntBank := w 0x468, cntGrp := w 0x470
    loops := ((List.range (min (bits (at8 0x478) 0 3) 4)).map fun i => LoopEntry.ofNat (nat (0x480 + 64 * i) 64)).reverse
    steps := (LoopEntry.ofNat (nat 0x580 64)).steps
    shadow :=
      { ecpTmpl := eng 0x5C0 0x0000, ecpAcc := Vector.ofFn fun i => w (0x620 + 8 * i.val), emxAbase := eng 0x5C8 0x1000,
        emxBbase := eng 0x5D0 0x1001, emxStride := eng 0x5D8 0x1002, emxShape := eng 0x5E0 0x1003,
        emxSparse := eng 0x5E8 0x1004, emxAcc := w 0x5F0, eepDst := eng 0x5F8 0x2000, eepVec := eng 0x600 0x2001,
        eepAct := eng 0x608 0x2002, eepOut := eng 0x610 0x2003, eepAcc := w 0x618 }
    skink := Vector.ofFn fun d => SkinkDim.ofWords (words32 ((bs.drop (0x4000 + 260 * d.val)).take 260))
    hist :=
      { base := BitVec.ofNat 9 (at8 0x6080), bins := Vector.ofFn fun b => BitVec.ofNat 32 (nat (0x6088 + 4 * b.val) 4),
        under := BitVec.ofNat 32 (nat 0x6188 4), above := BitVec.ofNat 32 (nat 0x618C 4) }
    taken := at8 0x18, seq := BitVec.ofNat 16 (at8 0x7C0), locks := old.locks }

/-- A window register's word with its reserved bits 63:47 zero (R9, R308). -/
def winWord (w : Word) : Word := w &&& 0x7FFFFFFFFFFF

/-- The set bits of a word. -/
def popCount (x : Nat) : Nat := (List.range 64).countP fun i => tst x i

/-- A bundle's address: bits 4:0 of a pc are zero (R73). -/
def bundleAddr (x : Nat) : Word := BitVec.ofNat 64 (x / 32 * 32)

/-- Context c with an image loaded as current and checkpoint state, still PARKED (R354, R368). Slots that its reservation
bitmap marks beyond the commands in flight stay reserved (log 73). -/
def State.loadImage (s : State) (c : Nat) (bs : List Byte) : State :=
  let nat := fun o n => leNat ((bs.drop o).take n)
  let v := visOfImage bs { (s.ctx c).chk with locks := [] }
  let n := min (bits (nat 0x7C8 8) 32 32) 64
  let own := s.accMask c
  let s := s.modCtx c fun x => { x with extra := 0 }
  let extra := popCount (nat 0x7D0 8) - s.reserved c
  let s := s.modCtx c fun x =>
    { x with
      vis := v, chk := v, chkPc := bundleAddr (nat 0x10 8), pc := bundleAddr (nat 0x10 8), pend := [], olds := [], popped := [],
      wlim := max (2 ^ 16) (min (nat 0x20 8) (2 ^ 32)), extra := extra,
      blocks := [], win := Vector.ofFn fun i => winWord (BitVec.ofNat 64 (nat (0x6C0 + 8 * i.val) 8)),
      evq := (List.range n).map fun i => Record.ofNat (nat (0x800 + 32 * i) 32) i }
  s.modCore (coreOf c) fun co =>
    { co with
      acc := Vector.ofFn fun a =>
        if tst own a.val then
          { c := BitVec.ofNat 65536 (nat (0x6200 + 8192 * a.val) 8192),
            flags := BitVec.ofNat 3 (nat 0x28 8 >>> (3 * a.val + 4)),
            mal := BitVec.ofNat 32 (nat (0x30 + 8 * (a.val / 2)) 8 >>> (32 * (a.val % 2))) }
        else co.acc.getD a.val Acc.launch }

/-! ### Context states as system software sees them (R350) -/

/-- The SYS.CSTATE code of a context's state. -/
def Status.code : Status → Nat
  | .idle => 0
  | .ready => 1
  | .current => 1
  | .blocked _ => 1
  | .halting => 1
  | .taking => 1
  | .parked .trap => 2
  | .parked .trapPending => 3
  | .parked .preempted => 4
  | .done => 5

/-- SYS.CSTATE of cluster k (R350). -/
def State.cstate (s : State) (k : Nat) : Nat :=
  packNat 3 ((List.range 16).map fun i => (s.ctx (ctxidOf k (i / 4) (i % 4))).status.code)

/-! ### Fatal errors (R369, R370) -/

/-- Base and size of region r of the module map (R430). -/
def State.region (s : State) (r : Nat) : Nat × Nat := s.regions.getD r (0, 0)

/-- The code of a unit state (R392). -/
def UnitSt.code : UnitSt → Nat
  | .serving => 0
  | .draining => 1
  | .offline => 2
  | .retired => 3

/-- The dump's bytes (R370): header and the sections 1 trap ring, 2 the states of the 64 dies and SYS.CSTATE of the 384
clusters, 3 the image of the context concerned, 4 the states of the 16 Depots and whether each of the eight Sidings serves its part of the hot-row cache, 5 the RAS log, 6 the
states of the 14 links, cut to the region (log 14). -/
def State.dumpBytes (s : State) (cause : Nat) (ctxid : Option Nat) : List Byte :=
  let size := (s.region 11).2
  let ring := memBytes s.mem s.sys.trapBase.toNat (64 * 2 ^ s.sys.trapLog2n)
  let cst := ((List.range 64).flatMap fun d => leBytes 8 (s.die d).st.code) ++
    (List.range 384).flatMap fun k => leBytes 8 (s.cstate k)
  let depots := (s.depots.toList.flatMap fun d => leBytes 8 d.code) ++
    (List.range 8).flatMap fun k => leBytes 8 (bit ((s.region k).2 ≠ 0))
  let links := (List.range 14).flatMap fun i => leBytes 8 (if s.luvex.links.getD i false then 0 else 3)
  let img := (ctxid.map s.image).getD []
  let ras := memBytes s.mem (s.region 13).1 (s.region 13).2
  let secs := ([(1, ring), (2, cst)] ++ (if ctxid.isSome then [(3, img)] else []) ++ [(4, depots), (5, ras), (6, links)])
  let place := secs.foldl (fun (acc : Nat × List (Nat × Nat × Nat × List Byte)) x =>
    let room := size - acc.1
    let part := x.2.take room
    (acc.1 + part.length, acc.2 ++ [(x.1, if part.length < x.2.length then 1 else 0, acc.1, part)])) (256, [])
  let stab := place.2.flatMap fun x => leBytes 2 x.1 ++ leBytes 2 x.2.1 ++ leBytes 4 x.2.2.1 ++ leBytes 4 x.2.2.2.length
  let fwd := (Config.shake256 s.luvex.flash.image 32).take 32
  leBytes 4 0x504D5544 ++ leBytes 2 1 ++ leBytes 2 secs.length ++ leBytes 8 place.1 ++ leBytes 1 cause
    ++ List.replicate 7 0 ++ leBytes 8 s.ns ++ leBytes 2 s.luvex.pos ++ leBytes 2 (ctxid.getD 0xFFFF)
    ++ List.replicate 4 0 ++ fwd ++ List.replicate 16 0 ++ (stab ++ List.replicate (168 - stab.length) 0)
    ++ place.2.flatMap fun x => x.2.2.2

/-- A fatal error: the dump is written, the host mailbox told, and the module held until reset (R369, R370). -/
def State.fatalError (s : State) (cause : Nat) (ctxid : Option Nat) : State :=
  let s := if (s.region 11).2 < 256 then s else s.put (runAt (s.region 11).1 (s.dumpBytes cause ctxid))
  { s with fatal := some cause, luvex := { s.luvex with mailbox := s.luvex.mailbox ++ [.fatal cause] } }

/-! ### The trap ring (R362 to R365) -/

/-- The 64 bytes of a trap record (R363); re-raised records carry FL bit 0. -/
def TrapRec.bytes (r : TrapRec) (reraised : Bool) : List Byte :=
  leBytes 1 r.info.kind.toNat ++ leBytes 1 r.src.toNat
    ++ leBytes 1 (bit reraised + 2 * bit r.cons + 4 * bit r.info.deferred) ++ leBytes 1 r.info.code.toNat
    ++ leBytes 2 r.ctxid.toNat ++ leBytes 2 r.lid.toNat ++ leBytes 2 r.asid.toNat ++ leBytes 2 r.lseq.toNat
    ++ leBytes 1 r.qid.toNat ++ List.replicate 3 0 ++ leBytes 8 r.info.pc.toNat ++ leBytes 8 r.resume.toNat
    ++ leBytes 8 r.info.faddr.toNat ++ leBytes 8 r.info.arg.toNat ++ leBytes 1 r.info.slot.toNat
    ++ leBytes 1 r.info.acc.toNat ++ leBytes 4 r.info.rrank.toNat ++ leBytes 1 r.info.rl.toNat ++ leBytes 1 0
    ++ leBytes 8 (r.time * 10 / 19)

/-- Whether the ring takes a claim: enabled and not full; it is full where WR - RD is its size, and no other difference is
(R362). -/
def Sys.ringOpen (y : Sys) : Bool := y.trapEn && decide ((y.trapWr - y.trapRd).toNat ≠ 2 ^ y.trapLog2n)

/-- Whether a byte of the ring's own memory is poisoned: a failure of that memory is fatal (R369). -/
def State.ringBad (s : State) : Bool :=
  s.poison.any fun a => s.sys.trapBase.toNat ≤ a && a < s.sys.trapBase.toNat + 64 * 2 ^ s.sys.trapLog2n

/-- A claim of the next index: the record is written at BASE + 64 x (WR mod 2^LOG2N) and WR passes it (R362). -/
def State.claim (s : State) (r : TrapRec) (reraised : Bool) : State :=
  if s.ringBad then s.fatalError 4 none
  else
    let s := s.write (runAt (s.sys.trapBase.toNat + 64 * (s.sys.trapWr.toNat % 2 ^ s.sys.trapLog2n)) (r.bytes reraised))
    { s with sys := { s.sys with trapWr := s.sys.trapWr + 1 } }

/-- A record raised: claimed when the ring takes it; otherwise OVR is set (R362, R365). The answer says whether it was
claimed. The cycle's records are noted: its end puts their claims in order (`State.orderClaims`). -/
def State.record (s : State) (r : TrapRec) : Bool × State :=
  if s.sys.ringOpen then (true, { s.claim r false with claims := s.claims ++ [(r, some s.sys.trapWr)] })
  else (false, { s with sys := { s.sys with trapOvr := true }, claims := s.claims ++ [(r, none)] })

/-- The identity of a context as a party in module-local form: die x 128 + cluster x 16 + l (R314). -/
def State.lidOf (s : State) (c : Nat) : Nat := dieOf c * 128 + c / 16 % 8 * 16 + (s.ctx c).l

/-- The record of a trap on context c (R363). -/
def State.trapRec (s : State) (c : Nat) (t : TrapInfo) : TrapRec :=
  let l := s.launchOf c
  { info := t, src := 0, ctxid := BitVec.ofNat 16 c, lid := BitVec.ofNat 16 (s.lidOf c),
    asid := BitVec.ofNat 16 (s.asidOf c), lseq := (l.map (·.lseq)).getD 0, qid := BitVec.ofNat 8 ((l.map (·.qid)).getD 0),
    resume := (s.ctx c).chkPc, cons := (s.ctx c).cons.isSome, time := s.now }

/-! ### The RAS log and the retirement of frames (R389, R390, R427, R428) -/

/-- A record at the next position of the RAS log; an overwritten record adds to the loss count (R428). -/
def State.rasLog (s : State) (unit type addr count : Nat) : State :=
  let (base, size) := s.region 13
  let l := { s.luvex with rasPos := s.luvex.rasPos + 1, rasLoss := s.luvex.rasLoss + bit (4096 ≤ s.luvex.rasPos) }
  let bytes := leBytes 8 s.ns ++ leBytes 2 unit ++ leBytes 1 type ++ leBytes 1 0 ++ leBytes 8 addr ++ leBytes 4 count
    ++ List.replicate 8 0
  let s := if size = 0 then s else s.write (runAt (base + 32 * (s.luvex.rasPos % 4096)) bytes)
  { s with luvex := l }

/-- A frame is retired: written to the flash list and the list at SYS.RETBASE, then blocked (R389, R390). FULL is set with the
flash list's last entry; from then on a frame is blocked for this boot only. -/
def State.retireFrame (s : State) (frame cause : Nat) : State :=
  if s.retired.contains frame then s
  else
    let s := { s with retired := s.retired ++ [frame] }
    let f := s.luvex.flash
    if f.frames.length ≥ 65536 then { s with sys := { s.sys with retFull := true } }
    else
      let n := s.sys.retCnt.toNat
      let s := s.write (runAt (s.sys.retBase.toNat + 8 * n) (leBytes 8 (cause + frame * 2 ^ 12 + f.boots % 4096 * 2 ^ 52)))
      { s with
        luvex := { s.luvex with flash := { f with frames := f.frames ++ [(frame, cause, f.boots)] } }
        sys := { s.sys with
          retCnt := BitVec.ofNat 17 (n + 1), retFull := s.sys.retFull || decide (65536 ≤ f.frames.length + 1) } }

/-- The keys of the current and of the checkpoint register state of context c among the words with an uncorrectable error
(R427; log 18). -/
def regKey (c : Nat) : Nat := 2 ^ 55 + c
def chkKey (c : Nat) : Nat := 2 ^ 55 + 2 ^ 14 + c

/-- The unit that the RAS log names for a word: its Depot for capacity-tier memory, its die for a scratchpad, otherwise
the reading die (R428; log 19). -/
def rasUnit (die key : Nat) : Nat :=
  if 2 ^ 53 ≤ key then die
  else if 2 ^ 52 ≤ key then (key - 2 ^ 52) / 2 ^ 23 / 6
  else if 0x010000000000 ≤ key ∧ key < 0x050000000000 then 64 + (key - 0x010000000000) / 0x4000000000
  else die

/-- A word that could not be corrected has been read: it is logged, and a frame of module memory is retired with cause 1
(R427, R428). -/
def State.memError (s : State) (die key : Nat) : State :=
  let addr := if key < 2 ^ 52 then key else 0
  let s := s.rasLog (rasUnit die key) 2 addr 1
  if key < 2 ^ 52 then s.retireFrame (key / 4096) 1 else s

/-- Corrected errors found by a read of n bytes at a key: each is logged; a frame with 16 in one boot is retired with
cause 2 (R427, R428). -/
def State.corrected (s : State) (die key n : Nat) : State :=
  (s.corr.filter fun a => key ≤ a && a < key + n).foldl (fun s a =>
    let f := a / 4096
    let k := aget 0 s.corrCnt f + 1
    let s := { s with corr := s.corr.erase a, corrCnt := aset s.corrCnt f k }
    let s := s.rasLog (rasUnit die a) 1 (if a < 2 ^ 52 then a else 0) k
    if a < 2 ^ 52 ∧ k = 16 then s.retireFrame f 2 else s) s

/-- The first key of n bytes that holds a word with an uncorrectable error (R427). -/
def State.poisoned (s : State) (key n : Nat) : Option Nat := s.poison.find? fun a => key ≤ a && a < key + n

/-! ### Rollback, parking and executive entry (R359, R361, R364) -/

/-- Whether an engine command is withheld: accepted, not released. -/
def Cmd.withheld (x : Cmd) : Bool := x.release.isNone

/-- `prel`s that waited for a sparse hold on their platform are due in the cycle after the hold ended (R264). -/
def State.wakePrels (s : State) (k : Nat) : State :=
  let pns := ((s.cluster k).prels.filter fun r => (s.plat k r.pn).holds = []).map (·.pn)
  pns.dedup.foldl (fun s pn =>
    if s.agenda.any fun a => a.ev = .prelHoldApply && a.due.id = k && a.due.arg = pn then s
    else s.schedule (s.now + 1) .prelHoldApply { id := k, arg := pn }) s

/-- The commands and matrix operations of context c that are released and still to leave it (R326). -/
def State.leaving (s : State) (c : Nat) : List Nat :=
  (s.queued c).filterMap fun e => match e.k with
    | .cmd id => some id
    | _ => none

/-- The reservations and holds of context c's unreleased commands are cancelled, and its unreleased matrix operations
leave the queue (R221, R232, R243, R245, R264). -/
def State.cancelWithheld (s : State) (c : Nat) : State :=
  let k := clOf c
  let stay := s.leaving c
  let gone := (s.cmds.filter fun x => x.ctx = c && x.withheld && !stay.contains x.id).map (·.id)
  let ops := ((s.core (coreOf c)).mx.filter fun o => o.ctx = c && o.release.isNone && !stay.contains o.id).map (·.id)
  let s := { s with cmds := s.cmds.filter fun x => !(gone.contains x.id) }
  let s := { s with migs := s.migs.filter fun m => !(gone.contains m.id) }
  let s := s.modCtx c fun x => { x with posts := x.posts.filter fun p => !(gone.contains p.2.1) }
  let s := s.modCore (coreOf c) fun co => { co with mx := co.mx.filter fun o => !(ops.contains o.id) }
  if gone = [] ∧ ops = [] then s
  else (s.modCluster k fun cl =>
    { cl with plats := cl.plats.map fun p =>
        { p with resv := p.resv.bind fun r => if gone.contains r then none else some r,
                 holds := p.holds.filter fun h => !(ops.contains h) } }).wakePrels k

/-- A context's waiting ends: nothing is kept for its bundle any more. -/
def Ctx.unwait (x : Ctx) : Ctx :=
  { x with
    wait := none, words := [], remote := [], remAsk := [], raceAns := [], raceAsk := [], checked := [], walked := [], walkAsk := [] }

/-- Context c with its last checkpoint restored (R125, R359): the results that belong to the checkpoint are awaited,
every other result in flight is discarded, the withholding buffer is emptied, the records that `evpop` took after the checkpoint
are back at the queue's head (R243). Deferred traps not yet raised stay pending (R360). -/
def Ctx.rollback (x : Ctx) : Ctx :=
  let keep := x.pend.filter (·.inChk)
  { x.unwait with
    vis := x.chk, pc := x.chkPc, cfCount := x.chkCf, pend := keep, resumeAt := keep.foldl (fun m p => max m p.at_) x.resumeAt,
    freeing := keep.countP (·.eff = .freeSlot), wb := []
    evq := (x.popped.filter fun p => decide (x.chkNo ≤ p.1)).map (·.2) ++ x.evq
    popped := x.popped.filter fun p => decide (p.1 < x.chkNo) }

/-- A member of a consist brought back to its checkpoint of number n, one that a member behind it has taken last: the current
one, or an earlier one, whose results have all been worked out and are awaited (R43, R125; log 70). -/
def Ctx.recall (x : Ctx) (n : Nat) : Ctx :=
  match x.olds.find? fun o => o.no = n && decide (n < x.chkNo) with
  | none => x
  | some o => { x with
      chk := o.vis, chkPc := o.pc, chkCf := o.cf, chkNo := n, olds := x.olds.filter fun y => decide (y.no < n),
      pend := o.await.map Pending.await, resumeAt := max x.resumeAt o.until_ }

/-- The rollback of context c with what its unreleased commands hold in the cluster. -/
def State.rollback (s : State) (c : Nat) : State := (s.cancelWithheld c).modCtx c Ctx.rollback

/-- A load-block line whose fault is raised is no longer marked (R192, log 15); a card whose fault is raised is dropped, and read
anew (R33). -/
def Ctx.unmark (x : Ctx) (t : TrapInfo) : Ctx :=
  { x with
    blocks := x.blocks.map fun b => { b with bad := b.bad.filter fun p => p.1 ≠ t.faddr.toNat / 64 * 64 }
    cards := x.cards.filter fun k => !k.bad.any fun b => b.kind = t.kind && b.faddr = t.faddr }

/-- Context c stops being CURRENT on its core. -/
def State.dropCurrent (s : State) (c : Nat) : State :=
  s.modCore (coreOf c) fun co => { co with
    cur := if co.cur = some (c % 4) then none else co.cur
    hold := match co.hold with
      | some h => if h.h = c % 4 then none else some h
      | none => none }

/-- Context c is parked with its trap recorded, or its record pending (R361, R362, R365). -/
def State.park (s : State) (c : Nat) (ts : List TrapInfo) : State :=
  let r := ts.foldl (fun (acc : List TrapRec × State) t =>
    let rec_ := acc.2.trapRec c t
    match acc.2.record rec_ with
    | (true, s) => (acc.1, s)
    | (false, s) => (acc.1 ++ [rec_], s)) ([], s)
  (r.2.modCtx c fun x => { x with
    status := .parked (if r.1 = [] then .trap else .trapPending), wdog := 0, pendRec := r.1 }).dropCurrent c

/-- The members of context c's consist, c alone outside one (R41). -/
def State.peers (s : State) (c : Nat) : List Nat :=
  match (s.ctx c).cons with
  | some i => ((s.consists.find? (·.id = i)).map (·.members)).getD [c]
  | none => [c]

/-- The last checkpoint bundle of the stream that every member of context c's consist has issued (R43; log 70). -/
def State.consistChk (s : State) (c : Nat) : Nat := ((s.peers c).map fun p => (s.ctx p).chkNo).min?.getD 0

/-- Context c with the members of its consist that have not ended. A member that has come to its `halt` and is DONE when a later
member traps stays DONE: R43 parks every member, and R35 lets a DONE context leave that state by retirement alone (DESIGN CHOICE,
log 72). -/
def State.others (s : State) (c : Nat) : List Nat :=
  (s.peers c).filter fun p => p = c || ((s.ctx p).status ≠ .done && (s.ctx p).status ≠ .idle)

/-- The outcomes that a consist's lead has noted and has rolled back over are forgotten: it evaluates them anew (R43, R116). -/
def State.trimLog (s : State) (c : Nat) : State :=
  match (s.ctx c).cons with
  | none => s
  | some i => { s with consists := s.consists.map fun x =>
      if x.id = i then { x with log := x.log.take (s.ctx (x.members.headD c)).cfCount } else x }

/-- Context c and every member of its consist roll back to their last checkpoint, the same bundle of the stream for all
(R43, R359). -/
def State.rollAll (s : State) (c : Nat) : State :=
  let n := s.consistChk c
  ((s.others c).foldl (fun s p => (s.modCtx p fun x => x.recall n).rollback p) s).trimLog c

/-- An executive context, rolled back, enters its handler (R364). Its watchdog count starts anew: R361 resets that of a parked context
and R364 names none, so that the count of one whose own watchdog has fired would stand at its limit (R39, R40; DESIGN CHOICE,
log 72). -/
def Ctx.toHandler (x : Ctx) (t : TrapInfo) : Ctx :=
  { x with epc := x.chkPc, ecause := t.kind, eaddr := t.faddr, inh := true, pc := x.evec, status := .ready, wdog := 0 }

/-- The consist of context c begins anew: its members keep their skew from the bundle that they go on with (R42). -/
def State.beatAnew (s : State) (c : Nat) : State :=
  match (s.ctx c).cons with
  | none => s
  | some i => { s with consists := s.consists.map fun x => if x.id = i then { x with beats := 0, hold := none } else x }

/-- TAKING A TRAP on context c. The context, and every member of its consist (R43), rolls back to its last checkpoint
(R359). A kernel context, or an executive one whose SYS.EVEC is 0, is parked with one record for each trap, its consist with
it (R43, R361 to R365). An executive context whose EST.INH is 0 enters its handler: EPC, ECAUSE, EADDR and INH are set and
control passes to SYS.EVEC; with INH = 1 the trap is fatal (R364, R369). The members of its consist enter their handlers with
it (log 16). Checkpoint state with an uncorrectable error is fatal where it is to be restored; the current register state that
raised 0x10 is written anew (R369, R427). -/
def State.takeTrap (s : State) (c : Nat) (ts : List TrapInfo) : State :=
  let t := ts.headD { kind := 0, pc := 0 }
  let x := s.ctx c
  let s := ts.foldl (fun s t =>
    (if t.kind = 0x10 then s.memError (dieOf c) t.key else s).modCtx c fun x => x.unmark t) s
  let s := { s with poison := s.poison.filter fun k => !(ts.any fun t => t.key = k && decide (2 ^ 55 ≤ k)) }
  let ps := s.others c
  let s := ps.foldl (fun s p => s.corrected (dieOf p) (chkKey p) 1) s
  if x.exec ∧ x.inh then s.fatalError 1 (some c)
  else if ps.any fun p => s.poison.contains (chkKey p) then s.fatalError 2 (ps.find? fun p => s.poison.contains (chkKey p))
  else if x.exec ∧ ps.all fun p => (s.ctx p).evec ≠ 0 then
    ps.foldl (fun s p => (s.modCtx p fun y => y.toHandler t).dropCurrent p) ((s.rollAll c).beatAnew c)
  else
    let s := s.rollAll c
    let s := (ps.filter (· ≠ c)).foldl (fun s p =>
      (s.modCtx p fun y => { y with status := .parked .trap, wdog := 0 }).dropCurrent p) s
    s.park c ts

/-- A trap raised by the executing instruction: it is taken, and the bundle told (R11, R356). -/
def State.raise (s : State) (t : TrapInfo) : State :=
  let s' := s.takeTrap s.iss.ctx [t]
  { s' with iss := { s'.iss with sig := .trap t } }

/-- A transfer of control by the bundle, to a target, popping the loops it leaves when pops is set (R110, R121). -/
def State.transfer (s : State) (target : Word) (pops : Bool) : State :=
  { s with iss := { s.iss with xfer := some { target := target, pops := pops } } }

/-- Whether an address may be the target of a register transfer: space tag 0 and 32-byte aligned (R115). -/
def targetOk (a : Word) : Bool := fld a 56 8 = 0 && fld a 0 5 = 0

/-- THE RETURN FROM AN EXECUTIVE TRAP (R351): INH := 0, control to SYS.EPC as read at issue, under R115. -/
def State.returnFromTrap (s : State) : State :=
  let a := s.cur.epc
  if targetOk a then (s.modCur fun c => { c with inh := false }).transfer a false
  else s.raise (s.issTrap 0x03 a)

end Sys2Proof.Machine
end

