-- ==== Sys2Proof/WellFormed.lean ====
section
/-! DEFINITION. Sys2Proof/WellFormed.lean: the operand limits whose violation the spec calls an illegal
encoding (R76, R78, R84 point 3 and the limits the entries declare). Limits that depend on the slot or on
the other words of the bundle are in Machine/Bundle.lean. -/

namespace Sys2Proof

/-- i8 to i64. -/
def Ty.isInt : Ty → Bool
  | .i8 | .i16 | .i32 | .i64 => true
  | _ => false

/-- bf16, f16 and f32. -/
def Ty.isFloat : Ty → Bool
  | .bf16 | .f16 | .f32 => true
  | _ => false

/-- width(ty) of R91, in bits. -/
def Ty.width : Ty → Nat
  | .i8 => 8 | .i16 => 16 | .i32 => 32 | .i64 => 64 | .bf16 => 16 | .f16 => 16 | .f32 => 32

/-- elems(ty) = 2,048 / width(ty) (R91). -/
def Ty.elems (t : Ty) : Nat := 2048 / t.width

/-- A pg, pa, pb or pc field: 24 to 31 are illegal (R78). -/
def predOk (p : BitVec 5) : Bool := p.toNat < 24

/-- A pd field: 1 to 23 (R78). -/
def predDestOk (p : BitVec 5) : Bool := p.toNat < 24 && p != 0#5

/-- The sb field of an SR word: with L = 1 its bits 15:14 are zero (R76). -/
def srcOk (b : BitVec 5) (l : Bool) : Bool := !l || b.toNat < 8

/-- Status register numbers assigned by R130. -/
def csrAssigned (n : BitVec 16) : Bool := n.toNat ≤ 8 || (0x10 ≤ n.toNat && n.toNat ≤ 0x12)

/-- System register numbers assigned by R350, R376 and R392. -/
def sysAssigned (n : BitVec 16) : Bool :=
  (0x100 ≤ n.toNat && n.toNat ≤ 0x105) || (0x110 ≤ n.toNat && n.toNat ≤ 0x113) ||
  n.toNat == 0x120 || n.toNat == 0x121 || n.toNat == 0x130 ||
  (0x140 ≤ n.toNat && n.toNat ≤ 0x145) || n.toNat == 0x150 || n.toNat == 0x151 ||
  (0x160 ≤ n.toNat && n.toNat ≤ 0x166) || (0x170 ≤ n.toNat && n.toNat ≤ 0x176)

/-- Engine register numbers assigned by R228 (ECP), R246 (EMX) and R256 (EEP), with the unit in bits 15:12 (R227). -/
def engAssigned (n : BitVec 16) : Bool :=
  n.toNat ≤ 4 || (0x10 ≤ n.toNat && n.toNat ≤ 0x1F) ||
  (0x1000 ≤ n.toNat && n.toNat ≤ 0x1004) || n.toNat == 0x1010 || n.toNat == 0x1011 ||
  (0x2000 ≤ n.toNat && n.toNat ≤ 0x2003) || n.toNat == 0x2010

/-- The `vcvt` codes whose source and destination are both integer types (R163): pairs 8 to 15 of R164. -/
def cvtIntInt (f : BitVec 6) : Bool := 8 ≤ f.toNat && f.toNat ≤ 15

/-- rm and vb of a conversion (R160): vb is zero unless rm is `.sr`; a pair of two integer types carries rm 0. -/
def rmOk (r : Rm) (b : BitVec 4) (intInt : Bool) : Bool :=
  (r == .sr || b == 0#4) && (!intInt || (r == .rne && b == 0#4))

/-- The ratio of pair n of R164. -/
def pairRatio (n : BitVec 4) : Nat := if n == 2#4 || n == 3#4 then 4 else 2

/-- sd of `evpop` and `rprobe`: 4, 8, ..., 28 (R241, R304). -/
def quadOk (d : BitVec 5) : Bool := d != 0#5 && d.toNat % 4 == 0

/-- A relaxed atomic carries scope 0 (R206). -/
def ordOk (o : Ord) (s : Scope) : Bool := o != .relaxed || s == .ctx

/-- Dimensions d0 to d0 + n - 1 lie below 32 (R176, R177); the field holds n - 1. -/
def dimsOk (d n : BitVec 5) : Bool := d.toNat + n.toNat + 1 ≤ 32

/-- The operand limits of an instruction. An event has none. -/
def Instr.wf : Instr → Bool
  | .add _ _ b l => srcOk b l
  | .sub _ _ b l => srcOk b l
  | .min _ _ b l => srcOk b l
  | .max _ _ b l => srcOk b l
  | .minn _ _ b l => srcOk b l
  | .maxn _ _ b l => srcOk b l
  | .and _ _ b l => srcOk b l
  | .or _ _ b l => srcOk b l
  | .xor _ _ b l => srcOk b l
  | .andn _ _ b l => srcOk b l
  | .shl _ _ b l => srcOk b l
  | .shr _ _ b l => srcOk b l
  | .sra _ _ b l => srcOk b l
  | .rot _ _ b l => srcOk b l
  | .mul _ _ b l => srcOk b l
  | .mulh _ _ b l => srcOk b l
  | .mulhn _ _ b l => srcOk b l
  | .div _ _ b l => srcOk b l
  | .divn _ _ b l => srcOk b l
  | .rem _ _ b l => srcOk b l
  | .remn _ _ b l => srcOk b l
  | .scmp _ _ b l _ => srcOk b l
  | .sel _ _ b l _ => srcOk b l
  | .loop _ o => 1 ≤ o.toNat && o.toNat < 2 ^ 17
  | .lstep _ b l => srcOk b l
  | .cnext d => d.toNat < 24
  | .csrr _ i => csrAssigned i
  | .csrw _ _ i => csrAssigned i
  | .ewr _ r => engAssigned r
  | .erd _ r => engAssigned r
  | .sysr _ i => sysAssigned i
  | .sysw _ _ i => sysAssigned i
  | .vaddI _ _ _ p t => predOk p && t.isInt
  | .vsubI _ _ _ p t => predOk p && t.isInt
  | .vmulI _ _ _ p t => predOk p && t.isInt
  | .vmulh _ _ _ p t => predOk p && t.isInt
  | .vmulhn _ _ _ p t => predOk p && t.isInt
  | .vminI _ _ _ p t => predOk p && t.isInt
  | .vmaxI _ _ _ p t => predOk p && t.isInt
  | .vminn _ _ _ p t => predOk p && t.isInt
  | .vmaxn _ _ _ p t => predOk p && t.isInt
  | .vadds _ _ _ p t => predOk p && t.isInt
  | .vaddsn _ _ _ p t => predOk p && t.isInt
  | .vsubs _ _ _ p t => predOk p && t.isInt
  | .vsubsn _ _ _ p t => predOk p && t.isInt
  | .vabsI _ _ p t => predOk p && t.isInt
  | .vnegI _ _ p t => predOk p && t.isInt
  | .vidx _ p t => predOk p && t.isInt
  | .vaddF _ _ _ p t => predOk p && t.isFloat
  | .vsubF _ _ _ p t => predOk p && t.isFloat
  | .vmulF _ _ _ p t => predOk p && t.isFloat
  | .vminF _ _ _ p t => predOk p && t.isFloat
  | .vmaxF _ _ _ p t => predOk p && t.isFloat
  | .vabsF _ _ p t => predOk p && t.isFloat
  | .vnegF _ _ p t => predOk p && t.isFloat
  | .vfma _ _ _ _ p _ _ => predOk p
  | .vfms _ _ _ _ p _ _ => predOk p
  | .vfnma _ _ _ _ p _ _ => predOk p
  | .vand _ _ _ p t => predOk p && t.isInt
  | .vor _ _ _ p t => predOk p && t.isInt
  | .vxor _ _ _ p t => predOk p && t.isInt
  | .vandn _ _ _ p t => predOk p && t.isInt
  | .vnot _ _ p t => predOk p && t.isInt
  | .vshl _ _ _ p t => predOk p && t.isInt
  | .vshr _ _ _ p t => predOk p && t.isInt
  | .vsra _ _ _ p t => predOk p && t.isInt
  | .vsel _ _ _ p _ => predOk p
  | .vcmp d _ _ p t _ => predDestOk d && predOk p && t.isInt
  | .vcmpn d _ _ p t c => predDestOk d && predOk p && t.isInt && c != .eq && c != .ne
  | .vfcmp d _ _ p t _ => predDestOk d && predOk p && t.isFloat
  | .vfcmpSig d _ _ p t c => predDestOk d && predOk p && t.isFloat && (c == .lt || c == .le || c == .gt || c == .ge)
  | .vclass d _ _ p t _ _ => predDestOk d && predOk p && t.isFloat
  | .pand d a b => predDestOk d && predOk a && predOk b
  | .por d a b => predDestOk d && predOk a && predOk b
  | .pxor d a b => predDestOk d && predOk a && predOk b
  | .pandn d a b => predDestOk d && predOk a && predOk b
  | .pnot d a => predDestOk d && predOk a
  | .psel d a b c => predDestOk d && predOk a && predOk b && predOk c
  | .pfirst d a => predDestOk d && predOk a
  | .vbcst _ _ p _ => predOk p
  | .vins _ k _ t j => k.toNat * 16 + j.toNat < t.elems
  | .vext k _ _ t j => t.isInt && k.toNat * 16 + j.toNat < t.elems
  | .vextn k _ _ t j => k.toNat * 16 + j.toNat < t.elems
  | .vxc _ _ p _ _ => predOk p
  | .vaddVsI _ _ _ p t => predOk p && t.isInt
  | .vsubVsI _ _ _ p t => predOk p && t.isInt
  | .vrsubVsI _ _ _ p t => predOk p && t.isInt
  | .vmulVsI _ _ _ p t => predOk p && t.isInt
  | .vminVsI _ _ _ p t => predOk p && t.isInt
  | .vmaxVsI _ _ _ p t => predOk p && t.isInt
  | .vminnVs _ _ _ p t => predOk p && t.isInt
  | .vmaxnVs _ _ _ p t => predOk p && t.isInt
  | .vandVs _ _ _ p t => predOk p && t.isInt
  | .vorVs _ _ _ p t => predOk p && t.isInt
  | .vxorVs _ _ _ p t => predOk p && t.isInt
  | .vshlVs _ _ _ p t => predOk p && t.isInt
  | .vshrVs _ _ _ p t => predOk p && t.isInt
  | .vsraVs _ _ _ p t => predOk p && t.isInt
  | .vaddVsF _ _ _ p t => predOk p && t.isFloat
  | .vsubVsF _ _ _ p t => predOk p && t.isFloat
  | .vrsubVsF _ _ _ p t => predOk p && t.isFloat
  | .vmulVsF _ _ _ p t => predOk p && t.isFloat
  | .vminVsF _ _ _ p t => predOk p && t.isFloat
  | .vmaxVsF _ _ _ p t => predOk p && t.isFloat
  | .vperm _ _ _ p _ => predOk p
  | .vrot _ _ _ p _ => predOk p
  | .vzipLo _ _ _ p _ => predOk p
  | .vzipHi _ _ _ p _ => predOk p
  | .vunzipEv _ _ _ p _ => predOk p
  | .vunzipOd _ _ _ p _ => predOk p
  | .vslideDn _ _ _ p _ => predOk p
  | .vslideUp _ _ _ p _ => predOk p
  | .vcmpr _ _ p _ => predOk p
  | .vexpd _ _ p _ => predOk p
  | .vredAddI _ _ _ p t => predOk p && t.isInt
  | .vredMin _ _ _ p t => predOk p && t.isInt
  | .vredMax _ _ _ p t => predOk p && t.isInt
  | .vredMinn _ _ _ p t => predOk p && t.isInt
  | .vredMaxn _ _ _ p t => predOk p && t.isInt
  | .vredAnd _ _ _ p t => predOk p && t.isInt
  | .vredOr _ _ _ p t => predOk p && t.isInt
  | .vredXor _ _ _ p t => predOk p && t.isInt
  | .vredAddF _ _ _ p t => predOk p && t.isFloat
  | .vredMinF _ _ _ p t => predOk p && t.isFloat
  | .vredMaxF _ _ _ p t => predOk p && t.isFloat
  | .vredCnt _ p _ => predOk p
  | .vscanAddI _ _ _ p t => predOk p && t.isInt
  | .vscanMin _ _ _ p t => predOk p && t.isInt
  | .vscanMax _ _ _ p t => predOk p && t.isInt
  | .vscanMinn _ _ _ p t => predOk p && t.isInt
  | .vscanMaxn _ _ _ p t => predOk p && t.isInt
  | .vscanAddF _ _ _ p t => predOk p && t.isFloat
  | .vscanMinF _ _ _ p t => predOk p && t.isFloat
  | .vscanMaxF _ _ _ p t => predOk p && t.isFloat
  | .vcvt _ _ b p r f => predOk p && f.toNat ≤ 0x1B && rmOk r b (cvtIntInt f)
  | .vnarrow _ _ b p r q n => predOk p && q.toNat < pairRatio n && rmOk r b (8 ≤ n.toNat)
  | .vwiden _ _ p q n => predOk p && q.toNat < pairRatio n
  | .fexp2 _ _ p t => predOk p && t.isFloat
  | .flog2 _ _ p t => predOk p && t.isFloat
  | .fexp _ _ p t => predOk p && t.isFloat
  | .flog _ _ p t => predOk p && t.isFloat
  | .frcp _ _ p t => predOk p && t.isFloat
  | .frsqrt _ _ p t => predOk p && t.isFloat
  | .fsqrt _ _ p t => predOk p && t.isFloat
  | .ftanh _ _ p t => predOk p && t.isFloat
  | .fsig _ _ p t => predOk p && t.isFloat
  | .fdiv _ _ _ p t => predOk p && t.isFloat
  | .qrgen _ _ p t _ o => predOk p && t == (if o == .raw then .i32 else .f32)
  | .qrload _ n d => dimsOk d n
  | .qrsave _ n d => dimsOk d n
  | .qrscr _ n d => dimsOk d n
  | .qrscrId n d => dimsOk d n
  | .hist _ p t => predOk p && t.isFloat
  | .qscale _ _ p => predOk p
  | .qpack _ _ _ p t _ => predOk p && t.isFloat
  | .vld _ _ p _ => predOk p
  | .vst _ _ p _ => predOk p
  | .vlds _ _ _ p _ => predOk p
  | .vgath _ _ _ p _ _ _ => predOk p
  | .vscat _ _ _ p _ _ _ => predOk p
  | .vlddLo _ _ p _ => predOk p
  | .vlddHi _ _ p _ => predOk p
  | .vstd _ _ p f _ => predOk p && f != 1#3
  | .amo _ _ _ o s _ _ => ordOk o s
  | .cas _ _ _ _ s o _ => ordOk o s
  | .vamo _ _ _ p z _ _ => predOk p && (z == .b32 || z == .b64)
  | .barArr _ k => k != 0#8
  | .evpop d => quadOk d
  | .rprobe _ d => quadOk d
  | .nop => true
  | .literal _ => true
  | .mov _ _ => true
  | .clz _ _ => true
  | .ctz _ _ => true
  | .popc _ _ => true
  | .bswap16 _ _ => true
  | .bswap32 _ _ => true
  | .bswap64 _ _ => true
  | .sext8 _ _ => true
  | .sext16 _ _ => true
  | .sext32 _ _ => true
  | .zext8 _ _ => true
  | .zext16 _ _ => true
  | .zext32 _ _ => true
  | .addi _ _ _ => true
  | .andi _ _ _ => true
  | .ori _ _ _ => true
  | .xori _ _ _ => true
  | .shli _ _ _ => true
  | .shri _ _ _ => true
  | .srai _ _ _ => true
  | .movl _ _ => true
  | .br _ => true
  | .bcc _ _ _ => true
  | .jmp _ => true
  | .call _ => true
  | .jr _ _ => true
  | .ret _ => true
  | .yield => true
  | .halt => true
  | .ckpt => true
  | .safe => true
  | .trap _ _ => true
  | .mxgo _ _ => true
  | .mxsgo _ _ => true
  | .epgo _ => true
  | .pwait _ _ _ => true
  | .prel _ => true
  | .pstat _ _ => true
  | .rte => true
  | .tlbir _ _ _ => true
  | .ctxsave _ _ _ => true
  | .ctxres _ _ => true
  | .ctxresImg _ _ _ => true
  | .ctxresLd _ _ _ => true
  | .ctxkill _ _ => true
  | .histRd _ => true
  | .histRdx _ => true
  | .hclr _ => true
  | .ldI64 _ _ _ => true
  | .ldI32 _ _ _ => true
  | .ldN32 _ _ _ => true
  | .ldI16 _ _ _ => true
  | .ldN16 _ _ _ => true
  | .ldI8 _ _ _ => true
  | .ldN8 _ _ _ => true
  | .st64 _ _ _ => true
  | .st32 _ _ _ => true
  | .st16 _ _ _ => true
  | .st8 _ _ _ => true
  | .ldblk _ _ _ _ => true
  | .ldblkQ _ _ => true
  | .ldblkRel _ => true
  | .lock _ _ => true
  | .unlock _ => true
  | .famo _ _ _ _ => true
  | .fence _ _ => true
  | .barWait _ _ _ => true
  | .barExp _ _ => true
  | .barTry _ _ => true
  | .evpeek _ => true
  | .bclose _ => true
  | .bwait _ _ => true
  | .pool _ _ _ _ _ _ _ => true
  | .upd _ _ _ _ _ => true
  | .msend _ _ _ => true
  | .rpost _ _ _ _ => true
  | .rcancel _ _ => true
  | .a2a _ _ _ _ _ _ _ => true
  | .gsub _ _ _ => true
  | .registerWrite => true
  | .copyStart => true
  | .resultArrival => true
  | .lineArrival => true
  | .remoteGranuleArrival => true
  | .raceCheckAnswer => true
  | .cardPrefetch => true
  | .watchdogExpiry => true
  | .waitBoundExpiry => true
  | .deferredTrap => true
  | .contextDone => true
  | .dieCompletion => true
  | .windowWriteAccept => true
  | .windowWriteLand => true
  | .batchSummary => true
  | .barrierUnitApply => true
  | .famoArrival => true
  | .fillComplete => true
  | .fillFail => true
  | .prelHoldApply => true
  | .eventRecordArrival => true
  | .matrixOperationStart => true
  | .matrixFeedEnd => true
  | .matrixResult => true
  | .matrixStreamFault => true
  | .lookupDispatch => true
  | .depotGather => true
  | .heatSketchDecay => true
  | .sidingPartial => true
  | .mergePartialArrival => true
  | .promotionEviction => true
  | .promotionPublish => true
  | .updateDispatch => true
  | .turntableRowUpdate => true
  | .messageHeaderArrival => true
  | .postArrival => true
  | .cancelArrival => true
  | .postTimeout => true
  | .headerLifetimeExpiry => true
  | .pullComplete => true
  | .marshalDispatch => true
  | .ownerPartialArrival => true
  | .roundDeadline => true
  | .uncorrectableLinkError => true
  | .uecTransportFailure => true
  | .invalidationDrainComplete => true
  | .migrationSubmit => true
  | .migrationGranuleCopy => true
  | .migrationSwitch => true
  | .preemptRequest => true
  | .trapOverflowClear => true
  | .queueDoorbell => true
  | .schedulingStep => true
  | .clusterSave => true
  | .gangReady => true
  | .gangLimitExpiry => true
  | .gangGo => true
  | .gangStart => true
  | .gangAbandon => true
  | .repairDrain => true
  | .repairReload => true
  | .repairRetire => true
  | .repairReturn => true
  | .unitOffline => true
  | .guestCompletion => true
  | .guestCompletionTimeout => true
  | .atsTranslationRequest => true
  | .guestCacheRequest => true
  | .guestInvalidationCompletion => true
  | .guestInvalidationTimeout => true
  | .guestQuiesceTimeout => true
  | .hostAccess => true
  | .coldReset => true
  | .warmReset => true
  | .attestationRequest => true
  | .powerCapSet => true
  | .luvexWatchdogExpiry => true
  | .thermalTrip => true
  | .translationWalkComplete => true
  | .batchSummaryBoundExpiry => true
  | .linkRetry => true

/-- An instruction of the slot words: it has an encoding (the events have none). -/
def Instr.isWord : Instr → Bool
  | .registerWrite => false
  | .copyStart => false
  | .resultArrival => false
  | .lineArrival => false
  | .remoteGranuleArrival => false
  | .raceCheckAnswer => false
  | .cardPrefetch => false
  | .watchdogExpiry => false
  | .waitBoundExpiry => false
  | .deferredTrap => false
  | .contextDone => false
  | .dieCompletion => false
  | .windowWriteAccept => false
  | .windowWriteLand => false
  | .batchSummary => false
  | .barrierUnitApply => false
  | .famoArrival => false
  | .fillComplete => false
  | .fillFail => false
  | .prelHoldApply => false
  | .eventRecordArrival => false
  | .matrixOperationStart => false
  | .matrixFeedEnd => false
  | .matrixResult => false
  | .matrixStreamFault => false
  | .lookupDispatch => false
  | .depotGather => false
  | .heatSketchDecay => false
  | .sidingPartial => false
  | .mergePartialArrival => false
  | .promotionEviction => false
  | .promotionPublish => false
  | .updateDispatch => false
  | .turntableRowUpdate => false
  | .messageHeaderArrival => false
  | .postArrival => false
  | .cancelArrival => false
  | .postTimeout => false
  | .headerLifetimeExpiry => false
  | .pullComplete => false
  | .marshalDispatch => false
  | .ownerPartialArrival => false
  | .roundDeadline => false
  | .uncorrectableLinkError => false
  | .uecTransportFailure => false
  | .invalidationDrainComplete => false
  | .migrationSubmit => false
  | .migrationGranuleCopy => false
  | .migrationSwitch => false
  | .preemptRequest => false
  | .trapOverflowClear => false
  | .queueDoorbell => false
  | .schedulingStep => false
  | .clusterSave => false
  | .gangReady => false
  | .gangLimitExpiry => false
  | .gangGo => false
  | .gangStart => false
  | .gangAbandon => false
  | .repairDrain => false
  | .repairReload => false
  | .repairRetire => false
  | .repairReturn => false
  | .unitOffline => false
  | .guestCompletion => false
  | .guestCompletionTimeout => false
  | .atsTranslationRequest => false
  | .guestCacheRequest => false
  | .guestInvalidationCompletion => false
  | .guestInvalidationTimeout => false
  | .guestQuiesceTimeout => false
  | .hostAccess => false
  | .coldReset => false
  | .warmReset => false
  | .attestationRequest => false
  | .powerCapSet => false
  | .luvexWatchdogExpiry => false
  | .thermalTrip => false
  | .translationWalkComplete => false
  | .batchSummaryBoundExpiry => false
  | .linkRetry => false
  | .nop => true
  | .literal _ => true
  | .add _ _ _ _ => true
  | .sub _ _ _ _ => true
  | .min _ _ _ _ => true
  | .max _ _ _ _ => true
  | .minn _ _ _ _ => true
  | .maxn _ _ _ _ => true
  | .and _ _ _ _ => true
  | .or _ _ _ _ => true
  | .xor _ _ _ _ => true
  | .andn _ _ _ _ => true
  | .shl _ _ _ _ => true
  | .shr _ _ _ _ => true
  | .sra _ _ _ _ => true
  | .rot _ _ _ _ => true
  | .mov _ _ => true
  | .clz _ _ => true
  | .ctz _ _ => true
  | .popc _ _ => true
  | .bswap16 _ _ => true
  | .bswap32 _ _ => true
  | .bswap64 _ _ => true
  | .sext8 _ _ => true
  | .sext16 _ _ => true
  | .sext32 _ _ => true
  | .zext8 _ _ => true
  | .zext16 _ _ => true
  | .zext32 _ _ => true
  | .mul _ _ _ _ => true
  | .mulh _ _ _ _ => true
  | .mulhn _ _ _ _ => true
  | .div _ _ _ _ => true
  | .divn _ _ _ _ => true
  | .rem _ _ _ _ => true
  | .remn _ _ _ _ => true
  | .scmp _ _ _ _ _ => true
  | .sel _ _ _ _ _ => true
  | .addi _ _ _ => true
  | .andi _ _ _ => true
  | .ori _ _ _ => true
  | .xori _ _ _ => true
  | .shli _ _ _ => true
  | .shri _ _ _ => true
  | .srai _ _ _ => true
  | .movl _ _ => true
  | .br _ => true
  | .bcc _ _ _ => true
  | .jmp _ => true
  | .call _ => true
  | .jr _ _ => true
  | .ret _ => true
  | .loop _ _ => true
  | .lstep _ _ _ => true
  | .yield => true
  | .halt => true
  | .ckpt => true
  | .safe => true
  | .trap _ _ => true
  | .cnext _ => true
  | .csrr _ _ => true
  | .csrw _ _ _ => true
  | .ewr _ _ => true
  | .erd _ _ => true
  | .mxgo _ _ => true
  | .mxsgo _ _ => true
  | .epgo _ => true
  | .pwait _ _ _ => true
  | .prel _ => true
  | .pstat _ _ => true
  | .rte => true
  | .sysr _ _ => true
  | .sysw _ _ _ => true
  | .tlbir _ _ _ => true
  | .ctxsave _ _ _ => true
  | .ctxres _ _ => true
  | .ctxresImg _ _ _ => true
  | .ctxresLd _ _ _ => true
  | .ctxkill _ _ => true
  | .vaddI _ _ _ _ _ => true
  | .vsubI _ _ _ _ _ => true
  | .vmulI _ _ _ _ _ => true
  | .vmulh _ _ _ _ _ => true
  | .vmulhn _ _ _ _ _ => true
  | .vminI _ _ _ _ _ => true
  | .vmaxI _ _ _ _ _ => true
  | .vminn _ _ _ _ _ => true
  | .vmaxn _ _ _ _ _ => true
  | .vadds _ _ _ _ _ => true
  | .vaddsn _ _ _ _ _ => true
  | .vsubs _ _ _ _ _ => true
  | .vsubsn _ _ _ _ _ => true
  | .vabsI _ _ _ _ => true
  | .vnegI _ _ _ _ => true
  | .vidx _ _ _ => true
  | .vaddF _ _ _ _ _ => true
  | .vsubF _ _ _ _ _ => true
  | .vmulF _ _ _ _ _ => true
  | .vminF _ _ _ _ _ => true
  | .vmaxF _ _ _ _ _ => true
  | .vabsF _ _ _ _ => true
  | .vnegF _ _ _ _ => true
  | .vfma _ _ _ _ _ _ _ => true
  | .vfms _ _ _ _ _ _ _ => true
  | .vfnma _ _ _ _ _ _ _ => true
  | .vand _ _ _ _ _ => true
  | .vor _ _ _ _ _ => true
  | .vxor _ _ _ _ _ => true
  | .vandn _ _ _ _ _ => true
  | .vnot _ _ _ _ => true
  | .vshl _ _ _ _ _ => true
  | .vshr _ _ _ _ _ => true
  | .vsra _ _ _ _ _ => true
  | .vsel _ _ _ _ _ => true
  | .vcmp _ _ _ _ _ _ => true
  | .vcmpn _ _ _ _ _ _ => true
  | .vfcmp _ _ _ _ _ _ => true
  | .vfcmpSig _ _ _ _ _ _ => true
  | .vclass _ _ _ _ _ _ _ => true
  | .pand _ _ _ => true
  | .por _ _ _ => true
  | .pxor _ _ _ => true
  | .pandn _ _ _ => true
  | .pnot _ _ => true
  | .psel _ _ _ _ => true
  | .pfirst _ _ => true
  | .vbcst _ _ _ _ => true
  | .vins _ _ _ _ _ => true
  | .vext _ _ _ _ _ => true
  | .vextn _ _ _ _ _ => true
  | .vxc _ _ _ _ _ => true
  | .vaddVsI _ _ _ _ _ => true
  | .vsubVsI _ _ _ _ _ => true
  | .vrsubVsI _ _ _ _ _ => true
  | .vmulVsI _ _ _ _ _ => true
  | .vminVsI _ _ _ _ _ => true
  | .vmaxVsI _ _ _ _ _ => true
  | .vminnVs _ _ _ _ _ => true
  | .vmaxnVs _ _ _ _ _ => true
  | .vandVs _ _ _ _ _ => true
  | .vorVs _ _ _ _ _ => true
  | .vxorVs _ _ _ _ _ => true
  | .vshlVs _ _ _ _ _ => true
  | .vshrVs _ _ _ _ _ => true
  | .vsraVs _ _ _ _ _ => true
  | .vaddVsF _ _ _ _ _ => true
  | .vsubVsF _ _ _ _ _ => true
  | .vrsubVsF _ _ _ _ _ => true
  | .vmulVsF _ _ _ _ _ => true
  | .vminVsF _ _ _ _ _ => true
  | .vmaxVsF _ _ _ _ _ => true
  | .vperm _ _ _ _ _ => true
  | .vrot _ _ _ _ _ => true
  | .vzipLo _ _ _ _ _ => true
  | .vzipHi _ _ _ _ _ => true
  | .vunzipEv _ _ _ _ _ => true
  | .vunzipOd _ _ _ _ _ => true
  | .vslideDn _ _ _ _ _ => true
  | .vslideUp _ _ _ _ _ => true
  | .vcmpr _ _ _ _ => true
  | .vexpd _ _ _ _ => true
  | .vredAddI _ _ _ _ _ => true
  | .vredMin _ _ _ _ _ => true
  | .vredMax _ _ _ _ _ => true
  | .vredMinn _ _ _ _ _ => true
  | .vredMaxn _ _ _ _ _ => true
  | .vredAnd _ _ _ _ _ => true
  | .vredOr _ _ _ _ _ => true
  | .vredXor _ _ _ _ _ => true
  | .vredAddF _ _ _ _ _ => true
  | .vredMinF _ _ _ _ _ => true
  | .vredMaxF _ _ _ _ _ => true
  | .vredCnt _ _ _ => true
  | .vscanAddI _ _ _ _ _ => true
  | .vscanMin _ _ _ _ _ => true
  | .vscanMax _ _ _ _ _ => true
  | .vscanMinn _ _ _ _ _ => true
  | .vscanMaxn _ _ _ _ _ => true
  | .vscanAddF _ _ _ _ _ => true
  | .vscanMinF _ _ _ _ _ => true
  | .vscanMaxF _ _ _ _ _ => true
  | .vcvt _ _ _ _ _ _ => true
  | .vnarrow _ _ _ _ _ _ _ => true
  | .vwiden _ _ _ _ _ => true
  | .fexp2 _ _ _ _ => true
  | .flog2 _ _ _ _ => true
  | .fexp _ _ _ _ => true
  | .flog _ _ _ _ => true
  | .frcp _ _ _ _ => true
  | .frsqrt _ _ _ _ => true
  | .fsqrt _ _ _ _ => true
  | .ftanh _ _ _ _ => true
  | .fsig _ _ _ _ => true
  | .fdiv _ _ _ _ _ => true
  | .qrgen _ _ _ _ _ _ => true
  | .qrload _ _ _ => true
  | .qrsave _ _ _ => true
  | .qrscr _ _ _ => true
  | .qrscrId _ _ => true
  | .hist _ _ _ => true
  | .histRd _ => true
  | .histRdx _ => true
  | .hclr _ => true
  | .qscale _ _ _ => true
  | .qpack _ _ _ _ _ _ => true
  | .ldI64 _ _ _ => true
  | .ldI32 _ _ _ => true
  | .ldN32 _ _ _ => true
  | .ldI16 _ _ _ => true
  | .ldN16 _ _ _ => true
  | .ldI8 _ _ _ => true
  | .ldN8 _ _ _ => true
  | .st64 _ _ _ => true
  | .st32 _ _ _ => true
  | .st16 _ _ _ => true
  | .st8 _ _ _ => true
  | .vld _ _ _ _ => true
  | .vst _ _ _ _ => true
  | .vlds _ _ _ _ _ => true
  | .vgath _ _ _ _ _ _ _ => true
  | .vscat _ _ _ _ _ _ _ => true
  | .vlddLo _ _ _ _ => true
  | .vlddHi _ _ _ _ => true
  | .vstd _ _ _ _ _ => true
  | .ldblk _ _ _ _ => true
  | .ldblkQ _ _ => true
  | .ldblkRel _ => true
  | .lock _ _ => true
  | .unlock _ => true
  | .amo _ _ _ _ _ _ _ => true
  | .cas _ _ _ _ _ _ _ => true
  | .famo _ _ _ _ => true
  | .vamo _ _ _ _ _ _ _ => true
  | .fence _ _ => true
  | .barArr _ _ => true
  | .barWait _ _ _ => true
  | .barExp _ _ => true
  | .barTry _ _ => true
  | .evpop _ => true
  | .evpeek _ => true
  | .bclose _ => true
  | .bwait _ _ => true
  | .pool _ _ _ _ _ _ _ => true
  | .upd _ _ _ _ _ => true
  | .msend _ _ _ => true
  | .rpost _ _ _ _ => true
  | .rprobe _ _ => true
  | .rcancel _ _ => true
  | .a2a _ _ _ _ _ _ _ => true
  | .gsub _ _ _ => true

end Sys2Proof
end

