-- ==== Sys2Proof/Machine/Operands.lean ====
section
/-! DEFINITION. Sys2Proof/Machine/Operands.lean: the operand forms: literals (R75, R76), lanes and predicates (R91,
R92), effective addresses (R14, R15). -/

namespace Sys2Proof.Machine

/-! ### Literals -/

/-- Slot word k of the issuing bundle. -/
def State.word (s : State) (k : Nat) : BitVec 32 := s.iss.words.getD k 0

/-- Whether a slot word is a literal word: bits 31:29 all ones (R75). -/
def isLiteral (w : BitVec 32) : Bool := bits w.toNat 29 3 = 7

/-- The value of the literal named by slot k: 58 bits with its high half in slot k + 1 when that slot holds a literal
word, otherwise 29 bits, sign-extended (R76). -/
def literalValue (word : Nat → BitVec 32) (k : Nat) : Word :=
  if k < 7 ∧ isLiteral (word (k + 1)) then
    (((word (k + 1)).setWidth 29 ++ (word k).setWidth 29 : BitVec 58)).signExtend 64
  else ((word k).setWidth 29).signExtend 64

/-- The second source B of an SR instruction: s[sb], or with L = 1 the literal of the slot in sb 13:11 (R76, R98). -/
def State.opB (s : State) (b : BitVec 5) (l : Bool) : Word :=
  if l then literalValue s.word (b.toNat % 8) else s.rs b

/-! ### Lanes -/

/-- Lane i of width w of a vector value (R91). -/
def laneN (w : Nat) (v : VReg) (i : Nat) : Nat := bits v.toNat (i * w) w

/-- Lane i taken as two's complement. -/
def laneI (w : Nat) (v : VReg) (i : Nat) : Int := toSigned w (laneN w v i)

/-- active(p, i, ty) of R91: bit i x width div 8 of the predicate. -/
def active (w : Nat) (p : PReg) (i : Nat) : Bool := p.getLsbD (i * w / 8)

/-- A vector value from its lanes of width w, the first lowest. -/
def ofLanes (w : Nat) (xs : List Nat) : VReg := BitVec.ofNat 2048 (packNat w xs)

/-- The vector whose lane i of width w is f i. -/
def mkLanes (w : Nat) (f : Nat → Nat) : VReg := ofLanes w ((List.range (2048 / w)).map f)

/-- The bits of the lanes of width w that a predicate enables (R92). -/
def laneMask (w : Nat) (p : PReg) : VReg := mkLanes w fun i => if active w p i then 2 ^ w - 1 else 0

/-- The active lanes of width w, ascending. -/
def activeLanes (w : Nat) (p : PReg) : List Nat := (List.range (2048 / w)).filter (active w p)

/-! ### Effective addresses (R14, R15) -/

/-- The space an effective address names. -/
inductive Space where
  | global (va : Nat)
  | localSp (a : Nat)
  | window (w a : Nat)
  | aperture (x : Nat)
  | none
  deriving DecidableEq, Repr

/-- The space and the address within it (R14); a local or window address with a nonzero bit in 55:23 names none
(R15). -/
def spaceOf (ea : Word) : Space :=
  let tag := fld ea 56 8
  let a := fld ea 0 56
  if tag = 0 then .global a
  else if tag = 1 then (if a < 2 ^ 23 then .localSp a else .none)
  else if 0x20 ≤ tag ∧ tag ≤ 0x3F then (if a < 2 ^ 23 then .window (tag - 0x20) a else .none)
  else if tag = 0x40 then .aperture a
  else .none

/-- Base plus scaled signed offset, modulo 2^64 (R194). -/
def eaOff (base : Word) {n : Nat} (off : BitVec n) (size : Nat) : Word := base + BitVec.ofInt 64 (off.toInt * size)

/-- A window register's fields (R308). -/
structure Win where
  valid : Bool
  peer  : Nat
  mod   : Nat
  allow : Nat
  deriving DecidableEq, Repr

/-- Window w of context c, not valid with CL 6 or 7 or ALLOW 0 (R308). The peer is 6 x die + cl. -/
def State.win (s : State) (c w : Nat) : Win :=
  let x := ((s.ctx c).win.getD w 0)
  let cl := fld x 1 3
  { valid := fld x 0 1 = 1 && cl < 6 && fld x 33 8 != 0, peer := 6 * fld x 4 6 + cl, mod := fld x 10 23,
    allow := fld x 33 8 }

/-- This module's number as rank bits 31:9 (R290): POD above the torus position. -/
def State.modNo (s : State) : Nat := s.luvex.pod * 4096 + s.luvex.pos

end Sys2Proof.Machine
end

