-- ==== Sys2Proof/Machine/Flags.lean ====
section
/-! DEFINITION. Sys2Proof/Machine/Flags.lean: the sticky flags (R65), the binary floating-point formats and the
rounding of exact values (R47 to R49, R58 to R64). A value is taken apart exactly, computed on with integers, and
rounded once. -/

namespace Sys2Proof.Machine

/-! ### Flags (R65, R131) -/

def fNV : Nat := 1
def fDZ : Nat := 2
def fOF : Nat := 4
def fUF : Nat := 8
def fNX : Nat := 16
def fSAT : Nat := 32

/-- The union of flag sets. -/
def orFlags (fs : List Nat) : Nat := fs.foldl (· ||| ·) 0

/-! ### Formats and values -/

/-- A binary format: exponent and fraction bits, bias, whether it is e4m3 (R47, R48). -/
structure Fmt where
  eb   : Nat
  mb   : Nat
  bias : Nat
  e4   : Bool
  deriving DecidableEq, Repr

def fmtF32 : Fmt := { eb := 8, mb := 23, bias := 127, e4 := false }
def fmtBf16 : Fmt := { eb := 8, mb := 7, bias := 127, e4 := false }
def fmtF16 : Fmt := { eb := 5, mb := 10, bias := 15, e4 := false }
def fmtE5m2 : Fmt := { eb := 5, mb := 2, bias := 15, e4 := false }
def fmtE4m3 : Fmt := { eb := 4, mb := 3, bias := 7, e4 := true }

/-- Bits of a format. -/
def Fmt.width (f : Fmt) : Nat := 1 + f.eb + f.mb

/-- The format of a floating-point element type; f32 for the others, which no entry uses so. -/
def fmtOf : Ty → Fmt
  | .bf16 => fmtBf16
  | .f16 => fmtF16
  | _ => fmtF32

/-- A floating-point value taken apart: a NaN with its fraction as an f32 fraction (bit 22 the quiet bit), an infinity,
or (-1)^s x m x 2^e. -/
inductive FVal where
  | nan (s : Bool) (m : Nat)
  | inf (s : Bool)
  | fin (s : Bool) (m : Nat) (e : Int)
  deriving DecidableEq, Repr

/-- Whether a value is a NaN, a signalling NaN, a zero. -/
def FVal.isNan : FVal → Bool
  | .nan _ _ => true
  | _ => false
def FVal.isSnan : FVal → Bool
  | .nan _ m => m < 2 ^ 22
  | _ => false
def FVal.isZero : FVal → Bool
  | .fin _ m _ => m = 0
  | _ => false
def FVal.isInf : FVal → Bool
  | .inf _ => true
  | _ => false

/-- The sign bit. -/
def FVal.sign : FVal → Bool
  | .nan s _ => s
  | .inf s => s
  | .fin s _ _ => s

/-- The numerical negation; a NaN keeps its sign (R64). -/
def FVal.neg : FVal → FVal
  | .nan s m => .nan s m
  | .inf s => .inf (!s)
  | .fin s m e => .fin (!s) m e

/-- The value times 2^k, for a finite value (R54). -/
def FVal.scale (k : Int) : FVal → FVal
  | .fin s m e => .fin s m (e + k)
  | x => x

/-- The value a bit pattern stands for (R47, R48). -/
def decodeF (f : Fmt) (x : Nat) : FVal :=
  let s := tst x (f.eb + f.mb)
  let e := bits x f.mb f.eb
  let m := bits x 0 f.mb
  if f.e4 then
    if e = 15 ∧ m = 7 then .nan s (2 ^ 22)
    else if e = 0 then .fin s m (1 - (f.bias : Int) - f.mb)
    else .fin s (2 ^ f.mb + m) ((e : Int) - f.bias - f.mb)
  else if e = 2 ^ f.eb - 1 then
    if m = 0 then .inf s else .nan s (m <<< (23 - f.mb))
  else if e = 0 then .fin s m (1 - (f.bias : Int) - f.mb)
  else .fin s (2 ^ f.mb + m) ((e : Int) - f.bias - f.mb)

/-- A bit pattern from its sign and magnitude. -/
def Fmt.signed (f : Fmt) (s : Bool) (mag : Nat) : Nat := bit s <<< (f.eb + f.mb) + mag

/-- The magnitude of an infinity, of the largest finite value, of the canonical quiet NaN (R47, R48, R63). -/
def Fmt.infMag (f : Fmt) : Nat := (2 ^ f.eb - 1) <<< f.mb
def Fmt.maxMag (f : Fmt) : Nat := if f.e4 then 0x7E else f.infMag - 1
def Fmt.nanMag (f : Fmt) : Nat := if f.e4 then 0x7F else f.infMag + 2 ^ (f.mb - 1)

/-- The canonical quiet NaN of a format (R63). -/
def Fmt.cnan (f : Fmt) : Nat := f.nanMag

/-- A NaN delivered in a format: quieted, its sign and the most significant payload bits kept (R49, R63). -/
def Fmt.nan (f : Fmt) (s : Bool) (m : Nat) : Nat :=
  f.signed s (if f.e4 then 0x7F else f.infMag + ((m ||| 2 ^ 22) >>> (23 - f.mb)))

/-! ### Rounding (R58 to R61) -/

/-- Whether the magnitude t + r/d (0 ≤ r < d) rounds up to t + 1 in a mode, rnd the word of sr (R58, R59). -/
def roundsUp (rm : Rm) (rnd : Nat) (s : Bool) (t r d : Nat) : Bool :=
  match rm with
  | .rne => decide (d < 2 * r) || (decide (d = 2 * r) && decide (t % 2 = 1))
  | .rz => false
  | .rdn => s && decide (r ≠ 0)
  | .rup => !s && decide (r ≠ 0)
  | .rna => decide (d ≤ 2 * r)
  | .sr => decide (rnd * d < r * 2 ^ 32)
  | .mode => false

/-- n/d x 2^k as a numerator and a denominator. -/
def scaleQ (n d : Nat) (k : Int) : Nat × Nat := if 0 ≤ k then (n <<< k.toNat, d) else (n, d <<< (-k).toNat)

/-- floor(log2 (n/d)) for n, d > 0. -/
def log2Q (n d : Nat) : Int :=
  let k : Int := (n.log2 : Int) - d.log2
  let q := scaleQ n d (-k)
  if q.2 ≤ q.1 then k else k - 1

/-- n/d x 2^e rounded at quantum 2^q: the count of quanta, whether it is inexact. -/
def roundAt (rm : Rm) (rnd : Nat) (s : Bool) (n d : Nat) (e q : Int) : Nat × Bool :=
  let x := scaleQ n d (e - q)
  let t := x.1 / x.2
  let r := x.1 % x.2
  (if roundsUp rm rnd s t r x.2 then t + 1 else t, decide (r ≠ 0))

/-- The result of a rounded magnitude beyond the largest finite one, with its flags (R49, R60). -/
def Fmt.overflow (f : Fmt) (rm : Rm) (s : Bool) : Nat × Nat :=
  let toMax := f.e4 || match rm with
    | .rz => true
    | .rdn => !s
    | .rup => s
    | _ => false
  (f.signed s (if toMax then f.maxMag else f.infMag), fOF ||| fNX)

/-- The exact nonzero value (-1)^s x n/d x 2^e rounded to a format, with its flags (R58 to R61). -/
def roundQ (f : Fmt) (rm : Rm) (rnd : Nat) (s : Bool) (n d : Nat) (e : Int) : Nat × Nat :=
  let emin : Int := 1 - (f.bias : Int)
  let top := log2Q n d + e
  let base := max top emin
  let (t, inexact) := roundAt rm rnd s n d e (base - f.mb)
  let mag : Nat := if emin ≤ top then ((top + f.bias).toNat <<< f.mb) + t - 2 ^ f.mb else t
  if f.maxMag < mag then f.overflow rm s
  else
    let tiny := decide (top < emin) && !(decide (top = emin - 1) &&
      decide ((roundAt rm rnd s n d e (top - f.mb)).1 = 2 ^ (f.mb + 1)))
    (f.signed s mag, (if inexact then fNX else 0) ||| (if inexact && tiny then fUF else 0))

/-- An exact dyadic m x 2^e rounded to a format; a zero takes the sign given. -/
def roundDy (f : Fmt) (rm : Rm) (rnd : Nat) (zs : Bool) (m e : Int) : Nat × Nat :=
  if m = 0 then (f.signed zs 0, 0) else roundQ f rm rnd (m < 0) m.natAbs 1 e

/-- A value converted to a format (R49, R63, R161): a signalling NaN, and an infinity into e4m3, set NV. -/
def convF (f : Fmt) (rm : Rm) (rnd : Nat) (x : FVal) : Nat × Nat :=
  match x with
  | .nan s m => (f.nan s m, if m < 2 ^ 22 then fNV else 0)
  | .inf s => if f.e4 then (f.signed s f.nanMag, fNV) else (f.signed s f.infMag, 0)
  | .fin s m e => if m = 0 then (f.signed s 0, 0) else roundQ f rm rnd s m 1 e

/-- A value converted to an integer type of w bits (R62). -/
def convI (signed : Bool) (w : Nat) (rm : Rm) (rnd : Nat) (x : FVal) : Nat × Nat :=
  let lo : Int := if signed then -(2 ^ (w - 1) : Nat) else 0
  let hi : Int := if signed then (2 ^ (w - 1) : Nat) - 1 else (2 ^ w : Nat) - 1
  match x with
  | .nan _ _ => (0, fNV)
  | .inf s => (ofSigned w (if s then lo else hi), fNV)
  | .fin s m e =>
    let r := roundAt rm rnd s m 1 e 0
    let v : Int := if s then -(r.1 : Int) else r.1
    if v < lo then (ofSigned w lo, fNV) else if hi < v then (ofSigned w hi, fNV)
    else (ofSigned w v, if r.2 then fNX else 0)

/-- An integer rounded to a format (R62). -/
def convIF (f : Fmt) (rm : Rm) (rnd : Nat) (x : Int) : Nat × Nat := roundDy f rm rnd false x 0

/-- An integer clamped to a range (R46): the SAT flag when it was outside. -/
def satInt (w : Nat) (signed : Bool) (x : Int) : Nat × Nat :=
  let lo : Int := if signed then -(2 ^ (w - 1) : Nat) else 0
  let hi : Int := if signed then (2 ^ (w - 1) : Nat) - 1 else (2 ^ w : Nat) - 1
  if x < lo then (ofSigned w lo, fSAT) else if hi < x then (ofSigned w hi, fSAT) else (ofSigned w x, 0)

/-! ### Arithmetic (R61, R63, R64) -/

/-- NV when some operand is a signalling NaN (R63). -/
def snanFlag (xs : List FVal) : Nat := if xs.any FVal.isSnan then fNV else 0

/-- The first NaN of a list, quieted in the format (R63). -/
def firstNan (f : Fmt) (xs : List FVal) : Option Nat :=
  (xs.find? FVal.isNan).map fun x => match x with
    | .nan s m => f.nan s m
    | _ => f.cnan

/-- The signed integer of a finite value at exponent e0 ≤ its own. -/
def finAt (s : Bool) (m : Nat) (e e0 : Int) : Int :=
  let v : Int := (m <<< (e - e0).toNat : Nat)
  if s then -v else v

/-- The exact sum of two finite values, as a dyadic. -/
def sumDy (s1 : Bool) (m1 : Nat) (e1 : Int) (s2 : Bool) (m2 : Nat) (e2 : Int) : Int × Int :=
  let e0 := min e1 e2
  (finAt s1 m1 e1 e0 + finAt s2 m2 e2 e0, e0)

/-- The sign of a zero sum: of two zeros of one sign that sign, else + except in rdn (R61). -/
def zeroSign (rm : Rm) (z1 z2 s1 s2 : Bool) : Bool := if z1 && z2 && s1 == s2 then s1 else rm == .rdn

/-- round(a + b) of two values that are no NaN. -/
def addNum (f : Fmt) (rm : Rm) (a b : FVal) : Nat × Nat :=
  match a, b with
  | .inf s, .inf s' => if s = s' then (f.signed s f.infMag, 0) else (f.cnan, fNV)
  | .inf s, _ => (f.signed s f.infMag, 0)
  | _, .inf s => (f.signed s f.infMag, 0)
  | .fin s1 m1 e1, .fin s2 m2 e2 =>
    let x := sumDy s1 m1 e1 s2 m2 e2
    roundDy f rm 0 (zeroSign rm (m1 = 0) (m2 = 0) s1 s2) x.1 x.2
  | _, _ => (f.cnan, 0)

/-- round(a + b) with the NaN rules of R63. -/
def addF (f : Fmt) (rm : Rm) (a b : FVal) : Nat × Nat :=
  match firstNan f [a, b] with
  | some x => (x, snanFlag [a, b])
  | none => addNum f rm a b

/-- round(a - b): the subtrahend is negated numerically. -/
def subF (f : Fmt) (rm : Rm) (a b : FVal) : Nat × Nat := addF f rm a b.neg

/-- The exact product of two values that are no NaN: none for 0 x infinity. -/
def mulExact (a b : FVal) : Option FVal :=
  let s := a.sign != b.sign
  if (a.isInf && b.isZero) || (a.isZero && b.isInf) then none
  else if a.isInf || b.isInf then some (.inf s)
  else match a, b with
    | .fin _ m1 e1, .fin _ m2 e2 => some (.fin s (m1 * m2) (e1 + e2))
    | _, _ => none

/-- round(a x b). -/
def mulF (f : Fmt) (rm : Rm) (a b : FVal) : Nat × Nat :=
  match firstNan f [a, b] with
  | some x => (x, snanFlag [a, b])
  | none =>
    match mulExact a b with
    | none => (f.cnan, fNV)
    | some p => convF f rm 0 p

/-- A fused multiply-add, exact before one rounding, with the product and the addend negated as asked (R64). -/
def fmaF (f : Fmt) (rm : Rm) (negP negC : Bool) (a b c : FVal) : Nat × Nat :=
  match firstNan f [a, b] with
  | some x => (x, snanFlag [a, b, c])
  | none =>
    match mulExact a b with
    | none => match firstNan f [c] with
      | some x => (x, fNV)
      | none => (f.cnan, fNV)
    | some p => match firstNan f [c] with
      | some x => (x, snanFlag [c])
      | none => addNum f rm (if negP then p.neg else p) (if negC then c.neg else c)

/-- The order of numbers in which -0 lies below +0 (R142). -/
def orderKey (f : Fmt) (x : Nat) : Int :=
  let mag := bits x 0 (f.eb + f.mb)
  if tst x (f.eb + f.mb) then -(mag : Int) - 1 else mag

/-- fmin and fmax of R142 on bit patterns. -/
def minF (f : Fmt) (x y : Nat) : Nat × Nat :=
  let a := decodeF f x
  let b := decodeF f y
  match firstNan f [a, b] with
  | some n => (n, snanFlag [a, b])
  | none => (if orderKey f y < orderKey f x then y else x, 0)
def maxF (f : Fmt) (x y : Nat) : Nat × Nat :=
  let a := decodeF f x
  let b := decodeF f y
  match firstNan f [a, b] with
  | some n => (n, snanFlag [a, b])
  | none => (if orderKey f x < orderKey f y then y else x, 0)

/-- The numerical order of two bit patterns that are no NaN, +0 equal to -0 (R151). -/
def numKey (f : Fmt) (x : Nat) : Int :=
  let mag := bits x 0 (f.eb + f.mb)
  if tst x (f.eb + f.mb) then -(mag : Int) else mag

/-- round(a / b), with R63 and division by zero (R65, R171). -/
def divF (f : Fmt) (rm : Rm) (a b : FVal) : Nat × Nat :=
  match firstNan f [a, b] with
  | some x => (x, snanFlag [a, b])
  | none =>
    let s := a.sign != b.sign
    match a, b with
    | .inf _, .inf _ => (f.cnan, fNV)
    | .inf _, _ => (f.signed s f.infMag, 0)
    | _, .inf _ => (f.signed s 0, 0)
    | .fin _ m1 e1, .fin _ m2 e2 =>
      if m2 = 0 then (if m1 = 0 then (f.cnan, fNV) else (f.signed s f.infMag, fDZ))
      else if m1 = 0 then (f.signed s 0, 0)
      else roundQ f rm 0 s m1 m2 (e1 - e2)
    | _, _ => (f.cnan, fNV)

/-- floor(sqrt n), bit by bit from bit k. -/
def isqrt (n : Nat) : Nat → Nat → Nat
  | 0, r => r
  | k + 1, r => isqrt n k (if (r + 2 ^ k) * (r + 2 ^ k) ≤ n then r + 2 ^ k else r)

/-- The square root of m x 2^e (m > 0) rounded: the root is taken to 48 bits beyond the fraction, and an inexact one is
put between two neighbours, which no rounding boundary separates. -/
def sqrtQ (f : Fmt) (rm : Rm) (m : Nat) (e : Int) : Nat × Nat :=
  let sh : Nat := 2 * (f.mb + 48) + (if (e % 2 = 0) then 0 else 1)
  let n := m <<< sh
  let r := isqrt n (n.log2 / 2 + 1) 0
  roundQ f rm 0 false (if r * r = n then 2 * r else 2 * r + 1) 1 ((e - sh) / 2 - 1)

/-- The square root (R63, R167). -/
def sqrtF (f : Fmt) (rm : Rm) (a : FVal) : Nat × Nat :=
  match a with
  | .nan s m => (f.nan s m, if m < 2 ^ 22 then fNV else 0)
  | .inf s => if s then (f.cnan, fNV) else (f.signed false f.infMag, 0)
  | .fin s m e => if m = 0 then (f.signed s 0, 0) else if s then (f.cnan, fNV) else sqrtQ f rm m e

/-- The rounding mode FP.MODE holds (R132). -/
def State.fpMode (s : State) : Rm :=
  match s.cur.vis.fpMode.toNat with
  | 1 => .rz
  | 2 => .rdn
  | 3 => .rup
  | 4 => .rna
  | _ => .rne

end Sys2Proof.Machine
end

