-- ==== Sys2Proof/Machine/Blocks.lean ====
section
/-! DEFINITION. Sys2Proof/Machine/Blocks.lean: described blocks, Q4O, block decoding and encoding (R50 to R57), the
scale procedure of R183. A block is a number of 512 bits, byte 0 lowest. -/

namespace Sys2Proof.Machine

/-- Byte i of a block. -/
def blkByte (b i : Nat) : Nat := bits b (8 * i) 8

/-- FMT and SCALE (R51). -/
def blkFmt (b : Nat) : Nat := blkByte b 0
def blkScale (b : Nat) : Nat := blkByte b 1

/-- Whether a block is valid: an assigned FMT and a SCALE other than 0xFF (R50, R52). -/
def blkValid (b : Nat) : Bool := blkFmt b ≤ 7 && blkScale b != 0xFF

/-- Elements per block by FMT; an unassigned FMT counts as Q4O (R52). -/
def blkElems (fmt : Nat) : Nat :=
  if fmt = 2 ∨ fmt = 3 ∨ fmt = 4 then 62 else if fmt = 5 ∨ fmt = 6 then 31 else if fmt = 7 then 15 else 124

/-- Rate class and K-chunks per block by FMT; 0 for f32, which is no matrix operand (R52). -/
def blkRate (fmt : Nat) : Nat :=
  if fmt = 2 ∨ fmt = 3 ∨ fmt = 4 then 2 else if fmt = 5 ∨ fmt = 6 then 1 else if fmt = 7 then 0 else 4

/-- The quiet NaN of every element of an invalid block, 0x7FC0_0B01 (R54). -/
def invalidNan : FVal := .nan false (2 ^ 22 + 0xB01)

/-- An integer as a value. -/
def intVal (x : Int) : FVal := .fin (x < 0) x.natAbs 0

/-- The lanes of a Q4O row segment from its bytes, each with its malformed mark (R55, R56). -/
def q4oLanes : List Nat → List (FVal × Bool)
  | [] => []
  | b :: rest =>
    let lo := b % 16
    let hi := b / 16
    let odd : FVal × Bool := if hi = 8 then (intVal 0, true) else (intVal (toSigned 4 hi), false)
    if lo = 8 then
      match rest with
      | [] => [(intVal 0, true), odd]
      | o :: rest' =>
        let v := decodeF fmtE4m3 o
        (if v.isNan then (intVal 0, true) else (v, false)) :: odd :: (intVal 0, false) :: (intVal 0, false) :: q4oLanes rest'
    else (intVal (toSigned 4 lo), false) :: odd :: q4oLanes rest

/-- Element i of a segment of a format other than Q4O and zero, from its bytes. -/
def elemVal (fmt : Nat) (seg : Nat → Nat) (i : Nat) : FVal :=
  match fmt with
  | 2 => decodeF fmtE4m3 (seg i)
  | 3 => decodeF fmtE5m2 (seg i)
  | 4 => intVal (toSigned 8 (seg i))
  | 5 => decodeF fmtBf16 (seg (2 * i) + 256 * seg (2 * i + 1))
  | 6 => decodeF fmtF16 (seg (2 * i) + 256 * seg (2 * i + 1))
  | _ => decodeF fmtF32 (seg (4 * i) + 256 * seg (4 * i + 1) + 65536 * seg (4 * i + 2) + 16777216 * seg (4 * i + 3))

/-- Bytes that n elements of a format take in a row segment (R52, R53). -/
def segBytes (fmt n : Nat) : Nat :=
  if fmt = 2 ∨ fmt = 3 ∨ fmt = 4 then n else if fmt = 5 ∨ fmt = 6 then 2 * n else if fmt = 7 then 4 * n else (n + 1) / 2

/-- The n elements of the row segment that starts at payload byte rb0, scaled, each with its malformed mark; none for
an invalid block (R53 to R56). -/
def decodeSeg (blk rb0 n : Nat) : Option (List (FVal × Bool)) :=
  if !blkValid blk then none
  else
    let fmt := blkFmt blk
    let k : Int := (blkScale blk : Int) - 127
    let xs : List (FVal × Bool) :=
      if fmt = 0 then List.replicate n (intVal 0, false)
      else if fmt = 1 then (q4oLanes ((List.range ((n + 1) / 2)).map fun j => blkByte blk (2 + rb0 + j))).take n
      else (List.range n).map fun i => (elemVal fmt (fun j => blkByte blk (2 + rb0 + j)) i, false)
    some (xs.map fun x => (x.1.scale k, x.2))

/-- decode_block(b, n, 1) with n the block's element count: the whole block as one row segment (R201). -/
def decodeWhole (blk : Nat) : Option (List (FVal × Bool)) := decodeSeg blk 0 (blkElems (blkFmt blk))

/-! ### Encoding (R57) -/

/-- A scaled element for Q4O: its value, its rounded integer (an infinity above every bound), whether it is a NaN. -/
def q4oQuant (y : FVal) : Int × Bool :=
  match y with
  | .nan _ _ => (0, true)
  | .inf s => (if s then -(2 ^ 40 : Nat) else (2 ^ 40 : Nat), false)
  | .fin s m e =>
    let t : Int := (roundAt .rne 0 s m 1 (min e 4096) 0).1
    (if s then -t else t, false)

/-- A Q4O row segment of nb bytes from its scaled elements: bytes and saturations (R57). fuel counts bytes. -/
def q4oEncode (y : Nat → FVal) : Nat → Nat → Nat → List Nat × Nat
  | 0, _, _ => ([], 0)
  | fuel + 1, j, nb =>
    if nb ≤ j then ([], 0)
    else
      let k := 2 * j
      let q := fun i => (q4oQuant (y i)).1
      let h := q (k + 1)
      let hi : Int × Nat := if h.natAbs ≤ 7 then (h, 0) else (if h < 0 then -7 else 7, 1)
      let out := j + 1 < nb ∧ q (k + 2) = 0 ∧ q (k + 3) = 0
      if (q k).natAbs ≤ 7 then
        let r := q4oEncode y fuel (j + 1) nb
        ((ofSigned 4 hi.1 * 16 + ofSigned 4 (q k)) :: r.1, hi.2 + r.2)
      else if out then
        let o : Nat × Nat := match y k with
          | .inf s => (fmtE4m3.signed s fmtE4m3.maxMag, 1)
          | v =>
            let c := convF fmtE4m3 .rne 0 v
            (c.1, if c.2 &&& fOF = 0 then 0 else 1)
        let r := q4oEncode y (fuel - 1) (j + 2) nb
        ((ofSigned 4 hi.1 * 16 + 8) :: o.1 :: r.1, hi.2 + o.2 + r.2)
      else
        let r := q4oEncode y fuel (j + 1) nb
        ((ofSigned 4 hi.1 * 16 + ofSigned 4 (if q k < 0 then -7 else 7)) :: r.1, hi.2 + 1 + r.2)

/-- One scaled element in a format other than Q4O and zero: its bytes as a number, and flags (R57, R62). -/
def encodeElem (fmt : Nat) (y : FVal) : Nat × Nat :=
  match fmt with
  | 2 => convF fmtE4m3 .rne 0 y
  | 3 => convF fmtE5m2 .rne 0 y
  | 4 => convI true 8 .rne 0 y
  | 5 => convF fmtBf16 .rne 0 y
  | 6 => convF fmtF16 .rne 0 y
  | _ => convF fmtF32 .rne 0 y

/-- Bits of one element of a format other than Q4O and zero. -/
def elemBits (fmt : Nat) : Nat := if fmt = 5 ∨ fmt = 6 then 16 else if fmt = 7 then 32 else 8

/-- A block, the flags and the Q4O saturations of its encoding. -/
structure Encoded where
  blk   : Nat
  flags : Nat
  sats  : Nat
  deriving DecidableEq, Repr

/-- encode_block(x, fmt, scale, w, rpb): the rows' elements, row by row (R53, R57). FMT 0 and SCALE 0xFF write a zero
payload; whether their NaN elements set NV or saturations count then R57 and R184 leave open: here nothing is set or counted
(DESIGN CHOICE, log 72). Nor does R57 or R261 say whether the rounding of a Q4O quantisation, an outlier's to e4m3 included, sets NX:
none is set here (DESIGN CHOICE, log 72). -/
def encodeBlock (fmt scale w : Nat) (rows : List (Nat → FVal)) : Encoded :=
  let head := fmt + scale * 256
  if fmt = 0 ∨ scale = 0xFF then { blk := head, flags := 0, sats := 0 }
  else
    let k : Int := 127 - (scale : Int)
    let ys := rows.map fun x => fun i => if i < w then (x i).scale k else intVal 0
    if fmt = 1 then
      let nb := (w + 1) / 2
      let enc := ys.map fun y => q4oEncode y nb 0 nb
      let nan := ys.any fun y => (List.range w).any fun i => (y i).isNan
      { blk := head + (packNat 8 (enc.flatMap (·.1))) <<< 16, flags := if nan then fNV else 0, sats := (enc.map (·.2)).sum }
    else
      let es := ys.flatMap fun y => (List.range w).map fun i => encodeElem fmt (y i)
      { blk := head + (packNat (elemBits fmt) (es.map (·.1))) <<< 16, flags := orFlags (es.map (·.2)), sats := 0 }

/-! ### Histogram and scale (R180, R183) -/

/-- The counter an element adds to at base beta: 0 to 63 a bin, 64 under, 65 over; none for a NaN (R180). -/
def histSlot (beta : Int) (x : FVal) : Option Nat :=
  match x with
  | .nan _ _ => none
  | .inf _ => some 65
  | .fin _ m e =>
    if m = 0 then some 64
    else
      let ex : Int := (m.log2 : Int) + e
      if ex < beta then some 64 else if beta + 63 < ex then some 65 else some (ex - beta).toNat

/-- The SCALE that R183 chooses, from beta, the bins, under and the whole count, and p at most 256. -/
def chooseScale (beta : Int) (bins : List Nat) (under total p : Nat) : Nat :=
  let need := ceilDiv (p * total) 256
  let rec find (acc : Nat) (b : Nat) : List Nat → Int
    | [] => beta + 64
    | n :: r => if need ≤ acc + n then beta + b else find (acc + n) (b + 1) r
  let e : Int := if need ≤ under then beta - 1 else find under 0 bins
  let s := e - 2 + 127
  (min (max s 0) 254).toNat

end Sys2Proof.Machine
end

