-- ==== Sys2Proof/Machine/Scalar.lean ====
section
/-! DEFINITION. Sys2Proof/Machine/Scalar.lean: scalar arithmetic, logic, comparisons (R98 to R108) and the words of
R75. -/

namespace Sys2Proof.Machine

/-- The outcome of every meaning. -/
abbrev Res := Host.Outcome State Fault Refusal

/-! ### Shared forms -/

/-- An SR instruction with two sources: s[sd] := f A B at latency lat (R98). -/
def State.sr2 (s : State) (d a b : BitVec 5) (l : Bool) (lat : Nat) (f : Word → Word → Word) : Res :=
  .next (s.ws d lat (f (s.rs a) (s.opB b l)))

/-- An SR instruction with one source at 1 cy (R102). -/
def State.sr1 (s : State) (d a : BitVec 5) (f : Word → Word) : Res := .next (s.ws d 1 (f (s.rs a)))

/-- An SI instruction with k the sign-extended immediate at 1 cy (R107). -/
def State.si (s : State) (d a : BitVec 5) (i : BitVec 16) (f : Word → Word → Word) : Res :=
  .next (s.ws d 1 (f (s.rs a) (i.signExtend 64)))

/-- An SI shift by the immediate at 1 cy (R107). -/
def State.siShift (s : State) (d a : BitVec 5) (i : BitVec 6) (f : Word → Nat → Word) : Res :=
  .next (s.ws d 1 (f (s.rs a) i.toNat))

/-- The shift amount of B: bits 5:0 (R101). -/
def shAmt (b : Word) : Nat := b.toNat % 64

/-! ### Results -/

/-- The smaller and the larger as i64 and as n64 (R100). -/
def minS (a b : Word) : Word := if a.slt b then a else b
def maxS (a b : Word) : Word := if a.slt b then b else a
def minU (a b : Word) : Word := if a.ult b then a else b
def maxU (a b : Word) : Word := if a.ult b then b else a

/-- The number of leading zero bits of a number below 2^n; n when it is 0. -/
def clzNat (n x : Nat) : Nat := if x = 0 then n else n - 1 - x.log2

/-- The number of trailing zero bits of x among the lowest n; n when there is no one bit. -/
def ctzNat (n x : Nat) : Nat := ((List.range n).find? fun i => x.testBit i).getD n

/-- The number of one bits among the lowest n. -/
def popNat (n x : Nat) : Nat := (List.range n).countP fun i => x.testBit i

/-- The lowest n bytes reversed, the rest zero (R102). -/
def bswap (n : Nat) (a : Word) : Word := BitVec.ofNat 64 (leNat (leBytes n a.toNat).reverse)

/-- Bits 127:64 of the product of two integers (R103). -/
def mulHigh (x y : Int) : Word := BitVec.ofInt 64 (x * y / 2 ^ 64)

/-- The results of R104. -/
def divS (a b : Word) : Word := if b = 0 then BitVec.allOnes 64 else BitVec.ofInt 64 (a.toInt.tdiv b.toInt)
def divU (a b : Word) : Word := if b = 0 then BitVec.allOnes 64 else BitVec.ofNat 64 (a.toNat / b.toNat)
def remS (a b : Word) : Word := if b = 0 then a else BitVec.ofInt 64 (a.toInt.tmod b.toInt)
def remU (a b : Word) : Word := if b = 0 then a else BitVec.ofNat 64 (a.toNat % b.toNat)

/-- The comparisons of R105. -/
def scmpHolds (c : SCc) (a b : Word) : Bool :=
  match c with
  | .eq => a == b
  | .ne => a != b
  | .lt => a.slt b
  | .ge => b.sle a
  | .le => a.sle b
  | .gt => b.slt a
  | .ltn => a.ult b
  | .gen => b.ule a
  | .len => a.ule b
  | .gtn => b.ult a

/-- A truth value as a word. -/
def ofBool (b : Bool) : Word := if b then 1 else 0

/-! ### Meanings -/

/-- A slot word of zeros does nothing (R75). -/
def execNop (s : State) : Res := .next s

/-- A literal word executes as a no-operation (R75). -/
def execLiteral (_p : BitVec 29) (s : State) : Res := .next s

/-- R100. -/
def execAdd (d a b : BitVec 5) (l : Bool) (s : State) : Res := s.sr2 d a b l 1 (· + ·)
/-- R100. -/
def execSub (d a b : BitVec 5) (l : Bool) (s : State) : Res := s.sr2 d a b l 1 (· - ·)
/-- R100. -/
def execMin (d a b : BitVec 5) (l : Bool) (s : State) : Res := s.sr2 d a b l 1 minS
/-- R100. -/
def execMax (d a b : BitVec 5) (l : Bool) (s : State) : Res := s.sr2 d a b l 1 maxS
/-- R100. -/
def execMinn (d a b : BitVec 5) (l : Bool) (s : State) : Res := s.sr2 d a b l 1 minU
/-- R100. -/
def execMaxn (d a b : BitVec 5) (l : Bool) (s : State) : Res := s.sr2 d a b l 1 maxU
/-- R101. -/
def execAnd (d a b : BitVec 5) (l : Bool) (s : State) : Res := s.sr2 d a b l 1 (· &&& ·)
/-- R101. -/
def execOr (d a b : BitVec 5) (l : Bool) (s : State) : Res := s.sr2 d a b l 1 (· ||| ·)
/-- R101. -/
def execXor (d a b : BitVec 5) (l : Bool) (s : State) : Res := s.sr2 d a b l 1 (· ^^^ ·)
/-- R101. -/
def execAndn (d a b : BitVec 5) (l : Bool) (s : State) : Res := s.sr2 d a b l 1 fun x y => x &&& ~~~y
/-- R101. -/
def execShl (d a b : BitVec 5) (l : Bool) (s : State) : Res := s.sr2 d a b l 1 fun x y => x <<< shAmt y
/-- R101. -/
def execShr (d a b : BitVec 5) (l : Bool) (s : State) : Res := s.sr2 d a b l 1 fun x y => x >>> shAmt y
/-- R101. -/
def execSra (d a b : BitVec 5) (l : Bool) (s : State) : Res := s.sr2 d a b l 1 fun x y => x.sshiftRight (shAmt y)
/-- R101. -/
def execRot (d a b : BitVec 5) (l : Bool) (s : State) : Res := s.sr2 d a b l 1 fun x y => x.rotateLeft (shAmt y)
/-- R102. -/
def execMov (d a : BitVec 5) (s : State) : Res := s.sr1 d a id
/-- R102. -/
def execClz (d a : BitVec 5) (s : State) : Res := s.sr1 d a fun x => BitVec.ofNat 64 (clzNat 64 x.toNat)
/-- R102. -/
def execCtz (d a : BitVec 5) (s : State) : Res := s.sr1 d a fun x => BitVec.ofNat 64 (ctzNat 64 x.toNat)
/-- R102. -/
def execPopc (d a : BitVec 5) (s : State) : Res := s.sr1 d a fun x => BitVec.ofNat 64 (popNat 64 x.toNat)
/-- R102. -/
def execBswap16 (d a : BitVec 5) (s : State) : Res := s.sr1 d a (bswap 2)
/-- R102. -/
def execBswap32 (d a : BitVec 5) (s : State) : Res := s.sr1 d a (bswap 4)
/-- R102. -/
def execBswap64 (d a : BitVec 5) (s : State) : Res := s.sr1 d a (bswap 8)
/-- R102. -/
def execSext8 (d a : BitVec 5) (s : State) : Res := s.sr1 d a fun x => (x.setWidth 8).signExtend 64
/-- R102. -/
def execSext16 (d a : BitVec 5) (s : State) : Res := s.sr1 d a fun x => (x.setWidth 16).signExtend 64
/-- R102. -/
def execSext32 (d a : BitVec 5) (s : State) : Res := s.sr1 d a fun x => (x.setWidth 32).signExtend 64
/-- R102. -/
def execZext8 (d a : BitVec 5) (s : State) : Res := s.sr1 d a fun x => (x.setWidth 8).setWidth 64
/-- R102. -/
def execZext16 (d a : BitVec 5) (s : State) : Res := s.sr1 d a fun x => (x.setWidth 16).setWidth 64
/-- R102. -/
def execZext32 (d a : BitVec 5) (s : State) : Res := s.sr1 d a fun x => (x.setWidth 32).setWidth 64
/-- R103. -/
def execMul (d a b : BitVec 5) (l : Bool) (s : State) : Res := s.sr2 d a b l 3 (· * ·)
/-- R103. -/
def execMulh (d a b : BitVec 5) (l : Bool) (s : State) : Res := s.sr2 d a b l 3 fun x y => mulHigh x.toInt y.toInt
/-- R103. -/
def execMulhn (d a b : BitVec 5) (l : Bool) (s : State) : Res := s.sr2 d a b l 3 fun x y => mulHigh x.toNat y.toNat
/-- R104. -/
def execDiv (d a b : BitVec 5) (l : Bool) (s : State) : Res := s.sr2 d a b l 20 divS
/-- R104. -/
def execDivn (d a b : BitVec 5) (l : Bool) (s : State) : Res := s.sr2 d a b l 20 divU
/-- R104. -/
def execRem (d a b : BitVec 5) (l : Bool) (s : State) : Res := s.sr2 d a b l 20 remS
/-- R104. -/
def execRemn (d a b : BitVec 5) (l : Bool) (s : State) : Res := s.sr2 d a b l 20 remU
/-- R105. -/
def execScmp (d a b : BitVec 5) (l : Bool) (c : SCc) (s : State) : Res :=
  s.sr2 d a b l 1 fun x y => ofBool (scmpHolds c x y)
/-- R106. -/
def execSel (d a b : BitVec 5) (l : Bool) (c : BitVec 5) (s : State) : Res :=
  s.sr2 d a b l 1 fun x y => if s.rs c ≠ 0 then x else y
/-- R107. -/
def execAddi (d a : BitVec 5) (i : BitVec 16) (s : State) : Res := s.si d a i (· + ·)
/-- R107. -/
def execAndi (d a : BitVec 5) (i : BitVec 16) (s : State) : Res := s.si d a i (· &&& ·)
/-- R107. -/
def execOri (d a : BitVec 5) (i : BitVec 16) (s : State) : Res := s.si d a i (· ||| ·)
/-- R107. -/
def execXori (d a : BitVec 5) (i : BitVec 16) (s : State) : Res := s.si d a i (· ^^^ ·)
/-- R107. -/
def execShli (d a : BitVec 5) (i : BitVec 6) (s : State) : Res := s.siShift d a i (· <<< ·)
/-- R107. -/
def execShri (d a : BitVec 5) (i : BitVec 6) (s : State) : Res := s.siShift d a i (· >>> ·)
/-- R107. -/
def execSrai (d a : BitVec 5) (i : BitVec 6) (s : State) : Res := s.siShift d a i BitVec.sshiftRight
/-- R108: s[sd] := the literal. -/
def execMovl (d : BitVec 5) (k : BitVec 3) (s : State) : Res := .next (s.ws d 1 (literalValue s.word k.toNat))

end Sys2Proof.Machine
end

