-- ==== Sys2Proof/Machine/Control.lean ====
section
/-! DEFINITION. Sys2Proof/Machine/Control.lean: control flow, the hardware loop (R110 to R121), traps by program,
cards and status registers (R122, R123, R126 to R137). -/

namespace Sys2Proof.Machine

/-! ### Control-flow outcomes in a consist (R43, R116) -/

/-- A control-flow outcome: in a consist the lead's is noted, and a member's that differs raises the
consist-divergence trap (R43, R116); otherwise the instruction goes on with k. -/
def State.compare (s : State) (outcome : Word) (k : State → State) : State :=
  let c := s.cur
  match c.cons with
  | none => k s
  | some i =>
    let n := c.cfCount
    let lead := (s.consists.find? (·.id = i)).bind fun x => x.log[n]?
    if c.cpos ≠ 0 ∧ lead.isSome ∧ lead ≠ some outcome then s.raise (s.issTrap 0x09)
    else
      let s := if c.cpos = 0 then
          { s with consists := s.consists.map fun x => if x.id = i then { x with log := x.log.take n ++ [outcome] } else x }
        else s
      k (s.modCur fun c => { c with cfCount := n + 1 })

/-- PC + 32 x a signed count of bundles (R73). -/
def State.pcRel (s : State) {n : Nat} (o : BitVec n) : Word := s.iss.pc + BitVec.ofInt 64 (o.toInt * 32)

/-- The comparisons of the SB format with zero (R77). -/
def bccHolds (c : BCc) (a : Word) : Bool :=
  match c with
  | .eq => a == 0
  | .ne => a != 0
  | .lt => a.slt 0
  | .ge => (0 : Word).sle a
  | .le => a.sle 0
  | .gt => (0 : Word).slt a

/-- R111. -/
def execBr (o : BitVec 26) (s : State) : Res := .next (s.compare 1 fun s => s.transfer (s.pcRel o) true)

/-- R111. -/
def execBcc (a : BitVec 5) (c : BCc) (o : BitVec 18) (s : State) : Res :=
  let t := bccHolds c (s.rs a)
  .next (s.compare (ofBool t) fun s => if t then s.transfer (s.pcRel o) true else s)

/-- R112. -/
def execJmp (o : BitVec 26) (s : State) : Res :=
  .next (s.compare 1 fun s =>
    s.transfer ((s.iss.pc &&& 0xFFFFFFFF80000000) + BitVec.ofNat 64 (32 * o.toNat)) true)

/-- R113: s23 := PC + 32 at 1 cy. -/
def execCall (o : BitVec 26) (s : State) : Res :=
  .next (s.compare 1 fun s => (s.ws 23 1 (s.iss.pc + 32)).transfer (s.pcRel o) false)

/-- A transfer to a register's value (R114, R115): an address that is not a possible target raises the address-fault
trap. -/
def State.toRegister (s : State) (t : Word) (pops : Bool) (link : State → State) : State :=
  s.compare t fun s => if targetOk t then (link s).transfer t pops else s.raise (s.issTrap 0x03 t)

/-- R114: s[sd] := PC + 32 at 1 cy. -/
def execJr (d a : BitVec 5) (s : State) : Res :=
  .next (s.toRegister (s.rs a) (d = 0) fun s => s.ws d 1 (s.iss.pc + 32))

/-- R114. -/
def execRet (a : BitVec 5) (s : State) : Res := .next (s.toRegister (s.rs a) false id)

/-! ### The hardware loop (R117 to R121) -/

/-- Whether an address lies in a loop's body, from start to end inclusive (R121). -/
def LoopEntry.holds (e : LoopEntry) (a : Word) : Bool := e.start.ule a && a.ule e.fin

/-- The loop state that the bundle leaves as it issues: its other slots read the state before it (R86). -/
def State.setLoops (s : State) (ls : List LoopEntry) (steps : List (BitVec 5 × Word)) : State :=
  { s with iss := { s.iss with loops := some (ls, steps) } }

/-- R119. -/
def execLoop (a : BitVec 5) (o : BitVec 18) (s : State) : Res :=
  let count := s.rs a
  let fin := s.iss.pc + BitVec.ofNat 64 (32 * o.toNat)
  .next (s.compare count fun s =>
    let v := s.cur.vis
    if (v.loops.head?.map fun e => e.holds s.iss.pc && e.fin.ult fin).getD false then s.raise (s.issTrap 0x0B)
    else if count = 0 then
      (s.setLoops v.loops []).transfer (fin + 32) false
    else if v.loops.length ≥ 4 then s.raise (s.issTrap 0x0B)
    else
      s.setLoops ({ start := s.iss.pc + 32, fin := fin, remaining := count, steps := v.steps } :: v.loops) [])

/-- R118: the step (sd, B) joins the pending list; a fifth raises the loop-stack trap. -/
def execLstep (d b : BitVec 5) (l : Bool) (s : State) : Res :=
  .next (if s.cur.vis.steps.length ≥ 4 then s.raise (s.issTrap 0x0B)
    else s.setLoops s.cur.vis.loops (s.cur.vis.steps ++ [(d, s.opB b l)]))

/-- The loop-back rule at the end bundle of the innermost entry (R120): the next address, the loop stack, and the steps
applied. The steps of an entry that is popped are not applied. -/
def loopBack (pc : Word) : List LoopEntry → Word × List LoopEntry × List (BitVec 5 × Word)
  | [] => (pc + 32, [], [])
  | e :: r =>
    if e.fin ≠ pc then (pc + 32, e :: r, [])
    else if (1 : Word).ult e.remaining then (e.start, { e with remaining := e.remaining - 1 } :: r, e.steps)
    else loopBack pc r

/-- The loop stack after a transfer that pops: entries whose body holds the bundle and not the target, innermost first
(R121). -/
def popLoops (pc target : Word) : List LoopEntry → List LoopEntry
  | [] => []
  | e :: r => if e.holds pc && !e.holds target then popLoops pc target r else e :: r

/-- The step writes of a loop-back: each register named gets its value as read at issue plus the sum of its steps
(R120). -/
def stepWrites (v : Vis) (steps : List (BitVec 5 × Word)) : List (BitVec 5 × Word) :=
  (steps.map (·.1)).dedup.map fun r => (r, v.s r + ((steps.filter (·.1 = r)).map (·.2)).sum)

/-- CONTROL PASSES from the issued bundle (R110, R120, R121): by its transfer, by loop-back, or to PC + 32. Step writes
arrive 1 cy later, as issued after the bundle. -/
def State.passControl (s : State) : State :=
  let pc := s.iss.pc
  let s := match s.iss.loops with
    | none => s
    | some l => s.modVis fun v => { v with loops := l.1, steps := l.2 }
  match s.iss.xfer with
  | some x =>
    s.modCur fun c => { c with
      pc := x.target
      vis := { c.vis with loops := if x.pops then popLoops pc x.target c.vis.loops else c.vis.loops } }
  | none =>
    let v := s.cur.vis
    let (next, loops, steps) := loopBack pc v.loops
    let s := (stepWrites v steps).foldl (fun s w => s.ws w.1 1 w.2) s
    s.modCur fun c => { c with pc := next, vis := { c.vis with loops := loops } }

/-! ### Yield, trap -/

/-- R123: the bundle holds `yield`; its issue resets the watchdog count and lets the core choose (R38, R39). In a consist with a skew
the lead's own `yield` alone resets the consist's count (DESIGN CHOICE, log 40). -/
def execYield (s : State) : Res :=
  .next { (s.modCur fun c => { c with wdog := 0 }) with iss := { s.iss with yields := true } }

/-- R126: the program trap, with the code and the argument as read at issue. -/
def execTrap (c a : BitVec 5) (s : State) : Res :=
  .next (s.raise { (s.issTrap 0x0A 0 (s.rs a)) with code := c.setWidth 8 })

/-! ### Cards (R30 to R33, R44) -/

/-- The number of cards that logical cluster g of P owns of N (R30). -/
def ownedCount (cyclic : Bool) (n p g : Nat) : Nat :=
  if p = 0 then 0
  else if cyclic then (if g < n then (n - g - 1) / p + 1 else 0)
  else n / p + (if g < n % p then 1 else 0)

/-- The card at local position i of logical cluster g (R30). -/
def cardAt (cyclic : Bool) (n p g i : Nat) : Nat :=
  if p = 0 then 0 else if cyclic then g + i * p else g * (n / p) + min g (n % p) + i

/-- The number of cards context l of the n used contexts of a cluster owns (R30). -/
def ownedBy (count l n : Nat) : Nat := if l < count then (count - l - 1) / (max n 1) + 1 else 0

/-- The card a context takes as its s-th (R30). -/
def State.cardIndex (s : State) (c taken : Nat) : Nat :=
  match s.launchOf c with
  | none => 0
  | some l =>
    let x := s.ctx c
    cardAt l.pkt.pol l.pkt.n l.clus.length x.g (taken * (l.c * l.m) + x.l)

/-- The writes of a delivered card at 1 cy: word w into s24 + w (R32). -/
def State.dealCard (s : State) (d : BitVec 5) (idx : Word) (words : List Word) : State :=
  let s := s.ws d 1 idx
  (List.range 8).foldl (fun s w => s.ws (BitVec.ofNat 5 (24 + w)) 1 (words.getD w 0)) s

/-- R32, and R44 inside a consist. A card held with a fault raises it (R33). A card not yet prefetched blocks, asking
for its place in the sequence. -/
def execCnext (d : BitVec 5) (s : State) : Res :=
  let c := s.cur
  let n := c.vis.taken
  .next (if n < c.owned then
      match c.cards.find? (·.pos = n) with
      | none => s.blocked .cardWait [n] [] [] []
      | some card =>
        match card.bad with
        | some t => s.raise { t with pc := s.iss.pc, slot := BitVec.ofNat 8 s.iss.slot }
        | none =>
          (s.dealCard d (BitVec.ofNat 64 card.gidx) card.words).modCur fun c => { c with
            vis := { c.vis with taken := n + 1 }, cards := c.cards.filter (·.pos ≠ n) }
    else if (s.peers s.iss.ctx).any fun p => n < (s.ctx p).owned then
      (s.dealCard d (-2) (List.replicate 8 0)).modVis fun v => { v with taken := n + 1 }
    else s.ws d 1 (-1))

/-! ### Status registers (R128 to R137) -/

/-- ID.SELF of a context (R27). -/
def State.idSelf (s : State) (c : Nat) : Word :=
  let x := s.ctx c
  BitVec.ofNat 64 (c % 4 + c / 4 % 4 * 2 ^ 2 + x.l * 2 ^ 4 + c / 16 % 8 * 2 ^ 8 + dieOf c * 2 ^ 11 + x.g * 2 ^ 17
    + s.luvex.pos % 2 ^ 12 * 2 ^ 26)

/-- ID.LNCH of a context (R28). -/
def State.idLnch (s : State) (c : Nat) : Word :=
  match s.launchOf c with
  | none => 0
  | some l =>
    let x := s.ctx c
    BitVec.ofNat 64 (l.c + l.m * 2 ^ 3 + l.c * l.m * 2 ^ 6 + l.clus.length * 2 ^ 11 + bit l.pkt.pol * 2 ^ 20
      + (if l.pkt.det then 2 ^ 21 + l.pkt.skew * 2 ^ 22 + x.cpos * 2 ^ 26 + (s.peers c).length * 2 ^ 31 else 0))

/-- ID.CARDS of a context (R28). -/
def State.idCards (s : State) (c : Nat) : Word :=
  BitVec.ofNat 64 (((s.launchOf c).map (·.pkt.n)).getD 0 + (s.ctx c).owned * 2 ^ 32)

/-- CYCLE of the issuing context: 0 in deterministic mode (R136). -/
def State.cycleReg (s : State) : Word :=
  if s.detOf s.iss.ctx then 0 else BitVec.ofNat 64 (s.now - s.cur.startCycle.getD s.now)

/-- A status register as it stands at issue (R130 to R136, R27, R28). -/
def State.readCsr (s : State) (n : Nat) : Word :=
  let v := s.cur.vis
  match n with
  | 0x000 => v.fpFlags.setWidth 64
  | 0x001 => v.fpMode.setWidth 64
  | 0x002 => v.cntMal.setWidth 64
  | 0x003 => v.cntSat.setWidth 64
  | 0x004 => v.batch.setWidth 64
  | 0x005 => v.loopWord
  | 0x006 => s.cycleReg
  | 0x007 => v.cntBank
  | 0x008 => v.cntGrp
  | 0x010 => s.idSelf s.iss.ctx
  | 0x011 => s.idLnch s.iss.ctx
  | 0x012 => s.idCards s.iss.ctx
  | _ => 0

/-- R128. -/
def execCsrr (d : BitVec 5) (i : BitVec 16) (s : State) : Res := .next (s.ws d 1 (s.readCsr i.toNat))

/-- R129: the write at 1 cy, and the previous value into s[sd]. -/
def execCsrw (d a : BitVec 5) (i : BitVec 16) (s : State) : Res :=
  .next ((s.ws d 1 (s.readCsr i.toNat)).push 1 (.csr i (s.rs a)))

end Sys2Proof.Machine
end

