-- ==== Sys2Proof/Machine/Translate.lean ====
section
/-! DEFINITION. Sys2Proof/Machine/Translate.lean: translation (R371 to R382), the access tables (R405 to R407), the
tiers (R383), heat counters (R388), bytes behind module addresses. -/

namespace Sys2Proof.Machine

/-! ### Bytes behind module addresses (R383) -/

/-- Whether a module address is populated (R383, R412). -/
def State.populated (s : State) (m : Nat) : Bool :=
  match targetOf m with
  | none => false
  | some t => if t < 26 then m - targetBase t < s.pop.getD t 0 else if t = 26 then true else s.guest.fitted

/-- A byte at a module address: memory's own, or what the host or the guest returns in this cycle (R383; log 17). -/
def State.gbyte (s : State) (m : Nat) : Byte :=
  match targetOf m with
  | some 26 => Config.outsideByte s.now m
  | some 27 => Config.outsideByte s.now m
  | _ => memRead s.mem m

/-- n bytes at a module address. -/
def State.gbytes (s : State) (m n : Nat) : List Byte := (List.range n).map fun i => s.gbyte (m + i)

/-- The number in n bytes at a module address. -/
def State.gnat (s : State) (m n : Nat) : Nat := leNat (s.gbytes m n)

/-! ### Access tables (R405 to R407) -/

/-- What an access needs at the leaf (R375). -/
inductive Need where
  | r
  | w
  | rw
  | x
  deriving DecidableEq, Repr

/-- On whose behalf an access is made: address space, partition, executive level (R377, R406). -/
structure Who where
  asid : Nat
  part : Nat
  exec : Bool
  deriving DecidableEq, Repr

/-- The accesses of context c and of the engines that act for it. -/
def State.who (s : State) (c : Nat) : Who := { asid := s.asidOf c, part := s.partOf c, exec := (s.ctx c).exec }

/-- The accesses of the contexts of a launch. -/
def Launch.who (l : Launch) : Who := { asid := l.pkt.asid, part := l.part, exec := l.exec }

/-- Whether a need is met by read and write permissions; a fetch needs R at the access table (R407). -/
def Need.met (n : Need) (r w : Bool) : Bool :=
  match n with
  | .r => r
  | .w => w
  | .rw => r && w
  | .x => r

/-- Whether a module address lies in a region that Krytzin has carved for the device: those of the module map (R13, R430). -/
def State.carved (s : State) (m : Nat) : Bool := (s.regions.take 15).any fun r => decide (r.1 ≤ m) && decide (m < r.1 + r.2)

/-- The access-table check of a module address for a master (R407, R415, R418). A kernel context, and what acts for it, is
rejected in every region of the module map (R13); an access that the host link completes with an error is reported as a
rejection (R383; log 17). -/
def State.allowed (s : State) (m master : Nat) (exec : Bool) (n : Need) : Bool :=
  match targetOf m with
  | none => false
  | some t =>
    if s.retired.contains (m / 4096) then false
    else if !s.populated m then false
    else if 8 ≤ t ∧ t < 24 ∧ (s.depots.getD (t - 8) .retired = .offline ∨ s.depots.getD (t - 8) .retired = .retired) then false
    else if 0x200FFFFFF000 ≤ m ∧ m < 0x201000000000 then false
    else if master = 9 ∧ s.guest.shut then false
    else if master < 8 ∧ !exec ∧ s.carved m then false
    else if t = 26 ∧ Config.outsideError s.now m then false
    else
      match (aget [] s.access t).find? fun e =>
        e.master = master && (!e.exo || exec) && decide (e.base ≤ m / 4096) && decide (m / 4096 < e.limit) with
      | none => false
      | some e => n.met e.r e.w

/-- The check of n bytes from a module address: of each page's bytes the first and the last, between which only the end of a
target's populated bytes could lie (R383, R407). -/
def State.allowedRun (s : State) (m n master : Nat) (exec : Bool) (need : Need) : Bool :=
  (List.range (ceilDiv (m % 4096 + n) 4096)).all fun i =>
    let page := m / 4096 * 4096 + 4096 * i
    s.allowed (max m page) master exec need && s.allowed (min (m + n) (page + 4096) - 1) master exec need

/-! ### The walk (R372 to R374, R376) -/

/-- What a read of eight bytes of a table by a walker finds. -/
inductive PtRead where
  | ok (p : Nat)
  | denied
  | poison (key : Nat)
  deriving DecidableEq, Repr

/-- A walker's read of a table entry, checked as an access of the master for which it walks (R374, R406, R427). -/
def State.ptRead (s : State) (w : Who) (a : Nat) : PtRead :=
  if !s.allowed a w.part w.exec .r then .denied
  else
    match s.poison.find? fun k => a / 64 * 64 ≤ k && k < a / 64 * 64 + 64 with
    | some k => .poison k
    | none => .ok (s.gnat a 8)

/-- The ASID entry a: its ROOT and PART, when it is valid (R376). -/
def State.asidEntry (s : State) (a : Nat) : Option (Nat × Nat) :=
  let w0 := s.gnat (s.sys.asidBase.toNat + 16 * a) 8
  let w1 := s.gnat (s.sys.asidBase.toNat + 16 * a + 8) 8
  if s.sys.asidEn ∧ tst w0 0 ∧ bits w0 4 8 = 0 ∧ bits w0 52 12 = 0 ∧ w1 = 0 then
    some (bits w0 12 40 * 4096, bits w0 1 3)
  else none

/-- What a walk finds: a valid leaf; the fault's reason and level; a rejected read of a table; a poisoned entry (R374, R406,
R427). -/
inductive Walk where
  | ok (e : Tlb)
  | bad (reason lev : Nat)
  | denied
  | poison (key : Nat)
  deriving DecidableEq, Repr

/-- The index of a virtual address at a level (R372). -/
def vaIndex (va lev : Nat) : Nat := if lev = 3 then bits va 39 17 else bits va (12 + 9 * lev) 9

/-- The page size of a leaf at a level. -/
def leafSize (lev : Nat) (p : Nat) : Nat :=
  if lev = 2 then 2 ^ 30 else if lev = 1 then 2 ^ 21 else if tst p 5 then 2 ^ 16 else 2 ^ 12

/-- The leaf reached at a level, or the fault it raises. -/
def leafOf (asid va lev p : Nat) : Walk :=
  let size := leafSize lev p
  let frame := bits p 12 40 * 4096
  if frame % size ≠ 0 then .bad 3 lev
  else .ok { asid := asid, va := va / size * size, size := size, frame := frame, leaf := BitVec.ofNat 64 p }

/-- A walk that goes on with an entry once it has been read. -/
def PtRead.walk (r : PtRead) (k : Nat → Walk) : Walk :=
  match r with
  | .ok p => k p
  | .denied => .denied
  | .poison x => .poison x

/-- The levels of the walk from table t down (R374). -/
def State.walkFrom (s : State) (w : Who) (va : Nat) : List Nat → Nat → Walk
  | [], _ => .bad 1 0
  | lev :: rest, t =>
    (s.ptRead w (t + 8 * vaIndex va lev)).walk fun p0 =>
    let group := lev = 0 ∧ tst p0 0 ∧ tst p0 5
    (if group then s.ptRead w (t + 8 * (vaIndex va 0 / 16 * 16)) else .ok p0).walk fun p =>
    if group ∧ ¬(tst p 0 ∧ tst p 5) then .bad 3 0
    else if ¬tst p 0 then .bad 1 lev
    else if bits p 52 12 ≠ 0 ∨ tst p 11 then .bad 4 lev
    else if lev = 3 ∧ tst p 1 then .bad 2 3
    else if lev > 0 ∧ ¬tst p 1 then s.walkFrom w va rest (bits p 12 40 * 4096)
    else leafOf w.asid va lev p

/-- The walk for an access and a virtual address (R374). While SYS.ASIDTAB.EN is 0 it takes reason 6 (R376). -/
def State.walk (s : State) (w : Who) (va : Nat) : Walk :=
  if !s.sys.asidEn then .bad 6 3
  else
    (s.ptRead w (s.sys.asidBase.toNat + 16 * w.asid)).walk fun _ =>
    match s.asidEntry w.asid with
    | none => .bad 6 3
    | some (root, _) => if bits root 12 8 ≠ 0 then .bad 6 3 else s.walkFrom w va [3, 2, 1, 0] root

/-- The translations held for a virtual address (R378). -/
def State.held (s : State) (asid va : Nat) : List Tlb :=
  s.tlb.filter fun e => e.asid = asid && decide (e.va ≤ va) && decide (va < e.va + e.size)

/-- The translation of a virtual address for an access: for an entry that is being performed, the one under which it was checked,
for an access uses exactly one (R379). Where no translation is held that differs from what the page tables
say now, it is the walk's; where one is, the access uses an old one or the new one, and which of them is free (R379; log 4).
While SYS.ASIDTAB.EN is 0 no translation is used (R376). -/
def State.find (s : State) (w : Who) (va : Nat) : Walk :=
  match s.fixed.find? fun e => e.asid = w.asid && decide (e.va ≤ va) && decide (va < e.va + e.size) with
  | some e => .ok e
  | none =>
    let new := s.walk w va
    if !s.sys.asidEn then new
    else
      match (s.held w.asid va).filter fun e => decide (new ≠ Walk.ok e) with
      | [] => new
      | e :: rest => ((e :: rest).map Walk.ok ++ [new]).getD (Config.translation s.now w.asid e.va % (rest.length + 2)) new

/-- The module address and the page of a virtual address for an access, where it translates. -/
def State.page? (s : State) (w : Who) (va : Nat) : Option Tlb :=
  match s.find w va with
  | .ok e => some e
  | _ => none

/-- The module address of a virtual address on a page. -/
def Tlb.addr (e : Tlb) (va : Nat) : Nat := e.frame + (va - e.va)

/-- The level of a page's leaf, from its size. -/
def Tlb.level (e : Tlb) : Nat := if e.size = 2 ^ 30 then 2 else if e.size = 2 ^ 21 then 1 else 0

/-- Whether the page is SYNC (R315, R373). -/
def Tlb.sync (e : Tlb) : Bool := tst e.leaf.toNat 6

/-- Whether a leaf's permissions meet a need (R375). -/
def Tlb.permits (e : Tlb) (n : Need) : Bool :=
  match n with
  | .r => tst e.leaf.toNat 2
  | .w => tst e.leaf.toNat 3
  | .rw => tst e.leaf.toNat 2 && tst e.leaf.toNat 3
  | .x => tst e.leaf.toNat 4

/-- The outcome of translating and checking an access (R374, R375, R407): the module address, a translation fault, a rejection
by the access tables, a page-table entry with an uncorrectable error. -/
inductive XRes where
  | ok (m : Nat) (e : Tlb)
  | fault (reason lev : Nat)
  | denied
  | poison (key : Nat)
  deriving DecidableEq, Repr

/-- An access to a virtual address translated and checked. -/
def State.translate (s : State) (a : Who) (va : Nat) (n : Need) : XRes :=
  match s.find a va with
  | .bad r l => .fault r l
  | .denied => .denied
  | .poison k => .poison k
  | .ok e =>
    if !e.permits n then .fault 5 e.level
    else if s.allowed (e.addr va) a.part a.exec n then .ok (e.addr va) e
    else .denied

/-- The addresses of the entries that a walk reads from table t down. -/
def State.entriesFrom (s : State) (va : Nat) : List Nat → Nat → List Nat
  | [], _ => []
  | lev :: rest, t =>
    let a := t + 8 * vaIndex va lev
    let p := s.gnat a 8
    a :: (if lev = 0 then (if tst p 5 then [t + 8 * (vaIndex va 0 / 16 * 16)] else [])
      else if tst p 0 && !tst p 1 then s.entriesFrom va rest (bits p 12 40 * 4096) else [])

/-- The addresses of the entries that the walk of a virtual address reads (R374). -/
def State.walkReads (s : State) (asid va : Nat) : List Nat :=
  (s.sys.asidBase.toNat + 16 * asid) :: match s.asidEntry asid with
    | some (root, _) => s.entriesFrom va [3, 2, 1, 0] root
    | none => []

/-- Corrected errors that a walk finds in the entries that it reads are logged (R427; log 19). -/
def State.walkCorrected (s : State) (asid va : Nat) : State :=
  (s.walkReads asid va).foldl (fun s a => s.corrected 0 (a / 64 * 64) 64) s

/-- What a walk that ends without a translation leaves: its corrected errors, and an entry that could not be corrected, are logged, the
latter's frame retired (R427, R428). -/
def State.walkSeen (s : State) (w : Who) (va : Nat) : State :=
  let s := s.walkCorrected w.asid va
  match s.walk w va with
  | .poison k => s.memError 0 k
  | _ => s

/-- A translation that was used is held from then on (R378). Corrected errors that its walk found are logged (R427; log 19). -/
def State.learn (s : State) (e : Tlb) : State :=
  if s.tlb.contains e then s
  else ({ s with tlb := e :: s.tlb } : State).walkCorrected e.asid e.va

/-- A translation, and the state that holds it. -/
def State.access1 (s : State) (a : Who) (va : Nat) (n : Need) : XRes × State :=
  match s.translate a va n with
  | .ok m e => (.ok m e, s.learn e)
  | x => (x, s)

/-- The trap that a failed access raises, without the place of its instruction: 0x05 with the reason and level, 0x06, or 0x10
(R355, R374, R427). -/
def XRes.trap (x : XRes) (va : Word) : TrapInfo :=
  match x with
  | .fault r l => { kind := 0x05, pc := 0, faddr := va, arg := BitVec.ofNat 64 (r + 16 * l) }
  | .poison k => { kind := 0x10, pc := 0, faddr := va, key := k }
  | _ => { kind := 0x06, pc := 0, faddr := va }

/-- The trap that a failed access of the instruction in the issuing slot raises (R355, R374). -/
def State.xTrap (s : State) (x : XRes) (va : Word) : TrapInfo :=
  { x.trap va with pc := s.iss.pc, slot := BitVec.ofNat 8 s.iss.slot }

/-- The STATUS of an engine read that fails: 0x10 translation fault, 0x11 access rejection, 0x14 uncorrectable error (R239,
R374, R427). -/
def XRes.status : XRes → BitVec 8
  | .fault _ _ => 0x10
  | .poison _ => 0x14
  | _ => 0x11

/-- A module address aligned down to its line. -/
def lineOf (m : Nat) : Nat := m / 64

/-! ### Heat counters (R388) -/

/-- The place of a module address's heat counter, in counters from SYS.HEATBASE. -/
def State.heatIndex (s : State) (m : Nat) : Nat :=
  let t := (targetOf m).getD 0
  ((List.range t).map fun i => ceilDiv (s.pop.getD i 0) 65536).sum + (m - targetBase t) / 65536

/-- A 64-byte read or write through a leaf: with HE = 1, when it reaches the memory device and is not satisfied in L2,
which the model leaves open, its counter grows by one, saturating (R388; log 1). -/
def State.heat (s : State) (m : Nat) (leaf : Word) : State :=
  if !tst leaf.toNat 10 || !onDevice m then s
  else
    let (reaches, s) := s.choose
    if !reaches then s
    else
      let a := s.sys.heatBase.toNat + 2 * s.heatIndex m
      s.write (runAt a (leBytes 2 (min (s.nat a 2 + 1) 0xFFFF)))

end Sys2Proof.Machine
end

