-- ==== Sys2Proof/Machine/Races.lean ====
section
/-! DEFINITION. Sys2Proof/Machine/Races.lean: parties, kinds of memory, race tags and their checks (R314 to R322). -/

namespace Sys2Proof.Machine

/-! ### Parties (R290, R314) -/

/-- The module-local rank bits of cluster k = 6 x die + cl (R290). -/
def localRank (k : Nat) : Nat := k % 6 + 8 * (k / 6)

/-- The rank of cluster k of this module (R290). -/
def State.rank (s : State) (k : Nat) : Nat := localRank k + s.modNo * 512

/-- The party that context c is (R314). -/
def State.party (s : State) (c : Nat) : Party := .ctx (clOf c) (s.ctx c).l

/-- A party's module-local identity: 0x1FFF for one on another module (R314, R363). -/
def Party.code : Party → Nat
  | .ctx k l => k / 6 * 128 + k % 6 * 16 + l
  | .far _ _ => 0x1FFF
  | .guest => 0x70
  | .host => 0x71

/-- ARG of a memory-model exception: ST, ID, PH of the tag found (R363). -/
def Tag.arg (t : Tag) : Word :=
  let st := match t.st with
    | .none => 0
    | .written => 1
    | .read1 => 2
    | .readN => 3
    | .atomic => 4
  BitVec.ofNat 64 (st + ((t.id.map Party.code).getD 0) * 8 + t.ph * 2 ^ 16)

/-- RRANK and RL of a memory-model exception (R363). -/
def Tag.far (t : Tag) : BitVec 32 × BitVec 8 :=
  match t.id with
  | some (.far r l) => (BitVec.ofNat 32 r, BitVec.ofNat 8 (l + 128))
  | _ => (0, 0)

/-! ### Kinds of scratchpad bytes (R315, R398) -/

/-- The region of a cluster that a local address lies in. -/
def State.regionAt (s : State) (k a : Nat) : Option Region :=
  (s.cluster k).regions.find? fun r => decide (r.base ≤ a) && decide (a < r.base + r.size)

/-- The platform a local address belongs to (R315). -/
def State.platAt (s : State) (k a : Nat) : Option Nat :=
  match s.regionAt k a with
  | some { kind := .plat pn, .. } => some pn
  | _ => none

/-- Whether a local address is SYNC (R315). -/
def State.syncAt (s : State) (k a : Nat) : Bool :=
  match s.regionAt k a with
  | some { kind := .sync, .. } => true
  | _ => false

/-- Local address of a platform's front half (R220). -/
def Platform.frontAt (p : Platform) : Nat := p.base + if p.front then p.half else 0

/-- Local address of a platform's shadow half (R220). -/
def Platform.shadowAt (p : Platform) : Nat := p.base + if p.front then 0 else p.half

/-- Whether a byte of a platform lies in the published front (R222). -/
def Platform.published (p : Platform) (a : Nat) : Bool :=
  (p.st = .full || p.st = .draining) && decide (p.frontAt ≤ a) && decide (a < p.frontAt + p.half)

/-- A publish: the halves swap and GEN advances (R221). -/
def Platform.publish (p : Platform) : Platform := { p with st := .full, held := false, front := !p.front, gen := p.gen + 1 }

/-! ### Tags (R317, R318, R321, R322) -/

/-- Kinds of checked access (R318). -/
inductive AccKind where
  | load
  | store
  | atomic
  deriving DecidableEq, Repr

/-- The ACC code of a memory-model exception (R363). -/
def AccKind.code : AccKind → BitVec 8
  | .load => 0
  | .store => 1
  | .atomic => 2

/-- The tag with no access. -/
def Tag.none : Tag := { st := .none, id := Option.none, ph := 0 }

/-- A race-tagged granule: its space (0 for scratchpads, otherwise the launch plus one, R321), its number and its
current phase. -/
structure Gran where
  space : Nat
  n     : Nat
  ph    : Nat
  deriving DecidableEq, Repr

/-- The granule of a scratchpad byte (R322). -/
def State.spGran (s : State) (k a : Nat) : Gran := { space := 0, n := spKey k a / 64, ph := (s.cluster k).epoch }

/-- The granule of a module address in the launch of context c (R321). -/
def State.gGran (s : State) (c m : Nat) : Gran := { space := (s.ctx c).launch.getD 0 + 1, n := m / 64, ph := 0 }

/-- The tag kept under a key. -/
def tagGet : List ((Nat × Nat) × Tag) → Nat × Nat → Tag
  | [], _ => Tag.none
  | (k', t) :: r, k => if k' = k then t else tagGet r k

/-- The tags with one replaced. -/
def tagSet (ts : List ((Nat × Nat) × Tag)) (k : Nat × Nat) (t : Tag) : List ((Nat × Nat) × Tag) :=
  (k, t) :: ts.filter fun x => x.1 ≠ k

/-- The tag of a granule; one of another phase reads as NONE (R317). -/
def State.tag (s : State) (g : Gran) : Tag :=
  let t := tagGet s.tags (g.space, g.n)
  if t.ph = g.ph then t else { Tag.none with ph := g.ph }

/-- The table of R318: the tag after an access by party x, or none where the access raises the exception. -/
def Tag.step (t : Tag) (x : Party) (ph : Nat) (k : AccKind) : Option Tag :=
  let own := t.id = some x
  let set := fun st => some { st := st, id := some x, ph := ph : Tag }
  match k, t.st with
  | .load, .none => set .read1
  | .load, .written => if own then some t else Option.none
  | .load, .read1 => if own then some t else some { st := .readN, id := Option.none, ph := ph }
  | .load, .readN => some t
  | .load, .atomic => Option.none
  | .store, .none => set .written
  | .store, .written => if own then some t else Option.none
  | .store, .read1 => if own then set .written else Option.none
  | .store, .readN => Option.none
  | .store, .atomic => Option.none
  | .atomic, .none => set .atomic
  | .atomic, .written => if own then set .atomic else Option.none
  | .atomic, .read1 => if own then set .atomic else Option.none
  | .atomic, .readN => Option.none
  | .atomic, .atomic => some t

/-- The first granule of an access that raises the exception, with its tag (R318). -/
def State.conflict (s : State) (x : Party) (k : AccKind) (gs : List Gran) : Option (Gran × Tag) :=
  (gs.find? fun g => ((s.tag g).step x g.ph k).isNone).map fun g => (g, s.tag g)

/-- The tags after an access that raises none (R318). -/
def State.register (s : State) (x : Party) (k : AccKind) (gs : List Gran) : State :=
  gs.foldl (fun s g =>
    match (s.tag g).step x g.ph k with
    | some t => if t = s.tag g then s else { s with tags := tagSet s.tags (g.space, g.n) t }
    | Option.none => s) s

/-- Whether a global load of a granule is decided at issue against the tag copy that L1 holds: WRITTEN X, READ1 X or
READN (R319). -/
def State.readable (s : State) (x : Party) (g : Gran) : Bool :=
  let t := s.tag g
  match t.st with
  | .written => t.id = some x
  | .read1 => t.id = some x
  | .readN => true
  | _ => false

/-- A memory-model exception of the instruction in the issuing slot, with the tag found (R319, R363). -/
def State.raceTrap (s : State) (ea : Word) (acc : BitVec 8) (t : Tag) : TrapInfo :=
  { (s.issTrap 0x07 ea t.arg acc) with rrank := t.far.1, rl := t.far.2 }

/-! ### The global range of RD memory (R397) -/

/-- Whether a virtual address lies in the launch's global RD range. -/
def State.inRd (s : State) (c va : Nat) : Bool :=
  match s.launchOf c with
  | Option.none => false
  | some l => decide (l.pkt.rdlo ≤ va) && decide (va < l.pkt.rdhi)

end Sys2Proof.Machine
end

