-- ==== Sys2Proof/Machine/Tables.lean ====
section
/-! DEFINITION. Sys2Proof/Machine/Tables.lean: the table registry and its descriptors (R267, R268, R270, R279), the
command blocks of `pool`, `upd` and `a2a` (R272, R284, R305), the arrays that a command in flight protects (R274, R286). -/

namespace Sys2Proof.Machine

/-! ### Descriptors (R268) -/

/-- The fields of a table descriptor. -/
structure Table where
  base   : Nat
  rows   : Nat
  w      : Nat
  rpb    : Nat
  poole  : Int
  hgrp   : Nat
  hot    : Bool
  ro     : Bool
  opt    : Nat
  sr     : Bool
  dmask  : Nat
  shf    : Nat
  hthr   : Nat
  shcnt  : Nat
  rblk   : Nat
  shpar  : Word
  lr     : Nat
  eps    : Nat
  abase  : Nat
  srseed : Word
  valid  : Bool

/-- The descriptor that 64 bytes hold, and whether it keeps the limits of R268. -/
def tableOf (x : BitVec 512) : Table :=
  let n := x.toNat
  let f := fun (w lo k : Nat) => bits n (64 * w + lo) k
  { base := f 0 0 56, rows := f 1 0 40, w := f 1 40 13, rpb := f 1 56 8, poole := toSigned 8 (f 2 0 8), hgrp := f 2 8 8,
    hot := f 2 16 1 = 1, ro := f 2 17 1 = 1, opt := f 2 18 2, sr := f 2 20 1 = 1, dmask := f 2 24 16, shf := f 2 40 2,
    hthr := f 3 0 16, shcnt := f 3 16 32, rblk := f 3 48 16, shpar := BitVec.ofNat 64 (f 4 0 64), lr := f 5 0 32,
    eps := f 5 32 32, abase := f 6 0 64, srseed := BitVec.ofNat 64 (f 7 0 64),
    valid := f 0 0 6 = 0 && f 0 56 8 = 0 && f 1 53 3 = 0 && f 2 23 1 = 0 && f 2 42 22 = 0 &&
      decide (1 ≤ f 1 40 13 ∧ f 1 40 13 ≤ 4096) && decide (1 ≤ f 1 56 8 ∧ f 1 56 8 ≤ 124) && f 2 18 2 != 3 &&
      f 2 21 2 != 3 && f 2 24 16 != 0 && f 2 40 2 != 3 && f 3 48 16 != 0 && (f 1 56 8 = 1 || f 3 48 16 = 1) }

/-- The descriptor of a table of the launch that uses context c, when its identifier and the descriptor are valid
(R267). -/
def State.table? (s : State) (c tid : Nat) : Option Table :=
  match (s.launchOf c).bind fun l => l.registry[tid]? with
  | none => none
  | some x => if (tableOf x).valid then some (tableOf x) else none

/-- The Depots of a table, ascending. -/
def Table.depots (t : Table) : List Nat := (List.range 16).filter (tst t.dmask)

/-- The Depot that serves a row (R270). -/
def Table.depotOf (t : Table) (row : Nat) : Nat :=
  let ds := t.depots
  ds.getD ((if t.rpb > 1 then row / t.rpb else row) % ds.length) 0

/-- The first virtual address of a row's blocks, and their count (R269). -/
def Table.rowVa (t : Table) (row : Nat) : Nat :=
  if t.rpb = 1 then t.base + 64 * t.rblk * row else t.base + 64 * (row / t.rpb)
def Table.rowBlks (t : Table) : Nat := if t.rpb = 1 then t.rblk else 1

/-- Sets per stack of the hot-row cache (R279). -/
def State.hotSets (s : State) : Nat := s.luvex.hotBytes / 524288

/-- Stack and set of a row (R279). -/
def State.hotPlace (s : State) (tid row : Nat) : Nat × Nat :=
  let h := (row * 0x9E3779B97F4A7C15 + tid * 0xBF58476D1CE4E5B9) % 2 ^ 64
  (bits h 61 3, bits h 0 61 % s.hotSets)

/-! ### Command blocks (R272, R284, R305) -/

/-- Fields of a `pool` or `a2a` block. -/
structure PoolBlk where
  tid   : Nat
  nbags : Nat
  nidx  : Nat
  doff  : Nat
  ibase : Word
  obase : Word
  dstr  : Nat
  baddr : Nat
  baren : Bool
  clean : Bool

/-- The fields of R272 in eight words; words from the 5th on are judged by the command's own rule. -/
def poolBlk (b : List Word) : PoolBlk :=
  let w := fun i => b.getD i 0
  { tid := fld (w 0) 0 16, nbags := fld (w 0) 16 32, nidx := fld (w 1) 0 32, doff := fld (w 1) 32 23, ibase := w 2,
    obase := w 3, dstr := fld (w 4) 0 24, baddr := fld (w 4) 24 23, baren := tst (w 4).toNat 47,
    clean := fld (w 0) 48 16 = 0 && fld (w 1) 55 9 = 0 && fld (w 4) 48 16 = 0 }

/-- Fields of an `upd` block. -/
structure UpdBlk where
  tid   : Nat
  npair : Nat
  step  : Word
  ibase : Word
  gbase : Word
  gstr  : Nat
  baddr : Nat
  baren : Bool
  clean : Bool

/-- The fields of R284. -/
def updBlk (b : List Word) : UpdBlk :=
  let w := fun i => b.getD i 0
  { tid := fld (w 0) 0 16, npair := fld (w 0) 16 32, step := w 1, ibase := w 2, gbase := w 3, gstr := fld (w 4) 0 24,
    baddr := fld (w 4) 24 23, baren := tst (w 4).toNat 47,
    clean := fld (w 0) 48 16 = 0 && fld (w 4) 48 16 = 0 && w 5 = 0 && w 6 = 0 && w 7 = 0 }

/-! ### Arrays in flight (R274, R286) -/

/-- An array in memory: rows of span bytes at a stride from an effective address, len bytes in all. -/
structure Arr where
  base   : Word
  len    : Nat
  stride : Nat
  span   : Nat

/-- An array without gaps. -/
def Arr.flat (base : Word) (len : Nat) : Arr := { base := base, len := len, stride := max len 1, span := len }

/-- Whether an effective address lies in an array. -/
def Arr.covers (r : Arr) (ea : Word) : Bool :=
  let off := (ea - r.base).toNat
  decide (off < r.len) && decide (off % r.stride < r.span)

/-- Index bytes of a command. -/
def idxSize (n64 : Bool) : Nat := if n64 then 8 else 4

/-- Gradient element bytes of an `upd`. -/
def gradSize (bf16 : Bool) : Nat := if bf16 then 2 else 4

/-- The arrays that a released command protects until its record arrives (R274, R284, R293, R305). -/
def State.arraysOf (s : State) (x : Cmd) : List Arr :=
  if x.release.isNone then []
  else
    match x.k with
    | .pool blk _ _ n64 =>
      let b := poolBlk blk
      [Arr.flat b.ibase (idxSize n64 * b.nidx), Arr.flat b.obase (4 * (b.nbags + 1))]
    | .a2a blk _ _ n64 _ =>
      let b := poolBlk blk
      [Arr.flat b.ibase (idxSize n64 * b.nidx), Arr.flat b.obase (4 * (b.nbags + 1))]
    | .upd blk bf16 n64 =>
      let b := updBlk blk
      let row := ((s.table? x.ctx b.tid).map (·.w)).getD 0 * gradSize bf16
      [Arr.flat b.ibase (idxSize n64 * b.npair),
       { base := b.gbase, len := b.gstr * (b.npair - 1) + row, stride := max b.gstr 1, span := row }]
    | .msend blk => [Arr.flat (blk.getD 2 0) (fld (blk.getD 1 0) 16 32)]
    | _ => []

/-- Whether a local byte of cluster k lies in an array in flight. -/
def State.arrayLocal (s : State) (k a : Nat) : Bool :=
  s.cmds.any fun x => clOf x.ctx = k && (s.arraysOf x).any fun r => r.covers (BitVec.ofNat 64 (2 ^ 56 + a))

/-- Whether a module address lies in a global array in flight, whatever address space names it. -/
def State.arrayGlobal (s : State) (m : Nat) : Bool :=
  s.cmds.any fun x => (s.arraysOf x).any fun r =>
    fld r.base 56 8 = 0 && r.len ≠ 0 &&
      (List.range ((r.base.toNat + r.len - 1) / 4096 - r.base.toNat / 4096 + 1)).any fun i =>
        let va := (r.base.toNat / 4096 + i) * 4096
        (s.page? { asid := x.asid, part := x.part, exec := x.exec } va).any fun e =>
          e.addr va / 4096 = m / 4096 && r.covers (BitVec.ofNat 64 (va + m % 4096))

/-- The Adagrad accumulators that a command changes: the first address and the end; none for another command, or before its
release (R286). -/
def State.accOf (s : State) (x : Cmd) : Option (Nat × Nat) :=
  match x.k with
  | .upd blk _ _ =>
    if x.release.isNone then none
    else (s.table? x.ctx (updBlk blk).tid).bind fun t => if t.opt = 2 then some (t.abase, t.abase + 4 * t.rows) else none
  | _ => none

/-- Whether some of n bytes of one granule at a module address lie in the Adagrad accumulators of a table that an update in
flight changes, whatever address space names them (R286). -/
def State.accGlobal (s : State) (m n : Nat) : Bool :=
  s.cmds.any fun x => (s.accOf x).any fun r =>
    (List.range ((r.2 + 4095) / 4096 - r.1 / 4096)).any fun i =>
      let va := (r.1 / 4096 + i) * 4096
      (s.page? { asid := x.asid, part := x.part, exec := x.exec } va).any fun e =>
        e.addr va / 4096 = m / 4096 && decide (va + m % 4096 < r.2) && decide (r.1 < va + m % 4096 + n)

/-- Whether some of n bytes of one granule at an address of context c lie in the accumulators of an update in flight (R286). -/
def State.accumulates (s : State) (c : Nat) (ea : Word) (n : Nat) : Bool :=
  (s.cmds.any fun x => (s.accOf x).isSome) && fld ea 56 8 = 0 &&
    (s.page? { asid := s.asidOf c, part := s.partOf c, exec := (s.ctx c).exec } ea.toNat).any fun e => s.accGlobal (e.addr ea.toNat) n

end Sys2Proof.Machine
end

