-- ==== Sys2Proof/Machine/Access.lean ====
section
/-! DEFINITION. Sys2Proof/Machine/Access.lean: what every access to memory shares: L1 (R189 to R191), a context's own
stores (R195), the checks of loads and of stores at issue (R194, R196, R222, R254, R319), bank stalls (R185 to R187). -/

namespace Sys2Proof.Machine

/-! ### L1 (R189, R190, R191) -/

/-- The core whose L1 holds a line for context c: its own, or with fused L1 the cluster's slice (R189). Which address bits
choose the slice R189 leaves open: the model takes the line number modulo 4 (log 72). -/
def State.l1Of (s : State) (c line : Nat) : Nat :=
  if (s.cluster (clOf c)).fuse then c / 16 * 4 + line % 4 else coreOf c

/-- Whether a line is present for context c (R190). -/
def State.inL1 (s : State) (c line : Nat) : Bool := (s.core (s.l1Of c line)).lines.contains line

/-- A line used: it becomes the most recently used. -/
def State.touch (s : State) (c line : Nat) : State :=
  s.modCore (s.l1Of c line) fun co =>
    if co.lines.contains line then { co with lines := co.lines.erase line ++ [line] } else co

/-- Latency of a global load from a present line (R87). -/
def State.loadLat (s : State) (c : Nat) : Nat := if (s.cluster (clOf c)).fuse then 14 else 10

/-- Latency of an atomic on a present global line (R87). -/
def State.amoLat (s : State) (c : Nat) : Nat := if (s.cluster (clOf c)).fuse then 16 else 12

/-! ### The bytes an effective address names -/

/-- The lowest-numbered window of context c that names the peer of window w. -/
def State.windowOf (s : State) (c w : Nat) : Nat :=
  let x := s.win c w
  ((List.range 32).find? fun i => (s.win c i).peer = x.peer && (s.win c i).mod = x.mod).getD w

/-- The key of a byte behind a window: the peer's scratchpad on this module, otherwise a key of the model's own for
that peer. -/
def State.windowKey (s : State) (c w a : Nat) : Nat :=
  let x := s.win c w
  if x.mod = s.modNo then spKey x.peer a else 2 ^ 54 + s.windowOf c w * 2 ^ 23 + a

/-- The key of a byte of the remote buffer of context c (R196). -/
def bufferKey (c w a : Nat) : Nat := 2 ^ 53 + c * 2 ^ 28 + w * 2 ^ 23 + a

/-- The key of the byte an effective address of context c names. -/
def State.keyAt (s : State) (c : Nat) (ea : Word) : Option Nat :=
  match spaceOf ea with
  | .global va =>
    (s.page? (s.who c) va).map (·.addr va)
  | .localSp a => some (spKey (clOf c) a)
  | .window w a => some (s.windowKey c w a)
  | _ => none

/-! ### Atomic operations (R207) -/

/-- The value an atomic leaves, from the old value and the operand, at 32 or 64 bits (R207). -/
def amoNew (op : AmoOp) (w64 : Bool) (old b : Nat) : Nat :=
  let w := if w64 then 64 else 32
  let b := b % 2 ^ w
  let so := toSigned w old
  let sb := toSigned w b
  match op with
  | .add => (old + b) % 2 ^ w
  | .and => old &&& b
  | .or => old ||| b
  | .xor => old ^^^ b
  | .min => if so < sb then old else b
  | .max => if so < sb then b else old
  | .minn => min old b
  | .maxn => max old b
  | .xchg => b

/-- The old value as a register receives it (R207): the signed operations and `add`, `xchg` sign-extend at 32 bits. -/
def amoOld (op : AmoOp) (w64 : Bool) (old : Nat) : Word :=
  if w64 then BitVec.ofNat 64 old
  else
    match op with
    | .and => BitVec.ofNat 64 old
    | .or => BitVec.ofNat 64 old
    | .xor => BitVec.ofNat 64 old
    | .minn => BitVec.ofNat 64 old
    | .maxn => BitVec.ofNat 64 old
    | _ => (BitVec.ofNat 32 old).signExtend 64

/-! ### A context's own stores (R86, R195) -/

/-- The byte a list of writes leaves at a key, the last one winning. -/
def lookLast (ov : List (Nat × Byte)) (k : Nat) : Option Byte :=
  ov.foldl (fun r p => if p.1 = k then some p.2 else r) none

/-- A byte as context c sees it, its own writes first. -/
def State.seen (s : State) (ov : List (Nat × Byte)) (k : Nat) : Byte := (lookLast ov k).getD (s.gbyte k)

/-- The number in n bytes at a key as a context sees it. -/
def State.seenNat (s : State) (ov : List (Nat × Byte)) (k n : Nat) : Nat :=
  leNat ((List.range n).map fun i => s.seen ov (k + i))

/-- The released writes of context c that have not reached memory, oldest first: window writes that have not landed, but for
the bytes that a later store of the context has overtaken, and stores at any barrier unit (R195, R214, R217). -/
def State.released (s : State) (c : Nat) : List (Nat × Byte) :=
  let win := (s.ctx c).winq.map fun w =>
    (w.ord, (w.bytes.filter fun p => !w.dead.contains p.1).map fun p => (s.windowKey c w.win p.1, p.2))
  let bar := s.clusters.flatMap fun k => k.2.barq.filterMap fun r => match r.op with
    | .store bs => if r.ctx = c then some (r.ord, bs.map fun p => (spKey k.1 p.1, p.2)) else none
    | _ => none
  ((win ++ bar).insertionSort fun a b => a.1 ≤ b.1).flatMap (·.2)

/-- The writes of context c that are not yet performed, oldest first, by key: released ones that have not reached memory,
those still to leave the context, withheld stores, and the atomics of the issuing bundle's earlier slots (R86, R195); for a load whose
value is taken now, those before it. -/
def State.own (s : State) (c : Nat) : List (Nat × Byte) :=
  let before := fun (e : Entry) => s.iss.paid.all fun p => decide (e.ord < p.2.1)
  let amo := fun (ov : List (Nat × Byte)) (op : AmoOp) (w64 : Bool) (addr b : Nat) =>
    match s.keyAt c (BitVec.ofNat 64 addr) with
    | none => ov
    | some k =>
      let n := if w64 then 8 else 4
      ov ++ runAt k (leBytes n (amoNew op w64 (s.seenNat ov k n) b))
  ((s.entries c).filter before).foldl (fun ov e =>
    match e.k with
    | .store bs _ _ => ov ++ bs.filterMap fun p => (s.keyAt c (BitVec.ofNat 64 p.1)).map (·, p.2)
    | .amo op w64 addr b _ _ => amo ov op w64 addr.toNat b.toNat
    | .vamo op w64 _ lanes _ _ => lanes.foldl (fun ov l => amo ov op w64 l.2.1.toNat l.2.2.toNat) ov
    | .cas w64 addr new cmp _ _ =>
      match s.keyAt c addr with
      | none => ov
      | some k =>
        let n := if w64 then 8 else 4
        if s.seenNat ov k n = cmp.toNat % 2 ^ (8 * n) then ov ++ runAt k (leBytes n new.toNat) else ov
    | _ => ov) (s.released c)

/-- The remote buffer of context c with its own writes to bytes that it holds, as they land: a load of the waiting bundle returns
the context's latest store (R195, R196, R323, R328). -/
def State.refresh (s : State) (c : Nat) (bs : List (Nat × Byte)) : State :=
  s.put ((s.ctx c).remote.flatMap fun id =>
    let w := id / 2 ^ 23
    let a := id % 2 ^ 23 * 64
    (List.range 64).filterMap fun i => (lookLast bs (s.windowKey c w (a + i))).map (bufferKey c w (a + i), ·))

/-- The bytes of lines that the home has read for context c's waiting load, with the context's own writes to them, as they are
performed: the load returns the context's latest store (R195, R319, R323). -/
def State.recheck (s : State) (c : Nat) (bs : List (Nat × Byte)) : State :=
  if (s.ctx c).checked = [] then s
  else s.modCtx c fun x => { x with checked := x.checked.map fun l =>
    (l.1, l.2.zipIdx.map fun b => (lookLast bs (64 * l.1 + b.2)).getD b.1) }

/-! ### What fences order (R212) -/

/-- Whether an entry is an atomic. -/
def EntryK.isAtomic : EntryK → Bool
  | .amo _ _ _ _ _ _ => true
  | .cas _ _ _ _ _ _ => true
  | .vamo _ _ _ _ _ _ => true
  | .famo _ _ _ _ => true
  | _ => false

/-- Whether an entry writes memory as a store or an atomic. -/
def EntryK.writes (k : EntryK) : Bool :=
  k.isAtomic || match k with
    | .store _ _ _ => true
    | _ => false

/-- Whether a load of context c has to wait for what a fence or an ordered atomic put before it: an atomic released and not yet
performed, or, behind a full fence, a store released before it that is not visible yet: scratchpad stores are, from their release
on (R212, R326; log 74). -/
def State.loadFenced (s : State) (c : Nat) : Bool :=
  let x := s.ctx c
  (s.queued c).any (fun e => (e.k.isAtomic && decide (e.ord < x.acqAt)) || (e.k.writes && decide (e.ord < x.fullAt))) ||
    x.winq.any fun e => decide (e.ord < x.fullAt)

/-! ### Matrix operands in the scratchpad (R247, R248, R252, R254) -/

/-- The byte span of a stored row of an operand of the given plain type (R247, R248). -/
def MxOp.span (o : MxOp) (ty : Nat) : Nat := if o.desc then 64 * (o.k / 31) else o.k * (if ty ≤ 1 then 2 else 1)

/-- The feed length F and L = 96 + F (R252). -/
def MxOp.feed (o : MxOp) : Nat := ceilDiv o.k o.rho
def MxOp.len (o : MxOp) : Nat := 96 + o.feed

/-- Whether a local address lies in a row of n rows from base with a stride and span. -/
def inRows (base stride span n a : Nat) : Bool :=
  decide (base ≤ a) && decide ((a - base) / (64 * stride) < n) && decide ((a - base) % (64 * stride) < span)

/-- Whether a local address is a byte of the operation's operands. -/
def MxOp.operand (o : MxOp) (a : Nat) : Bool :=
  inRows o.abase o.astr (o.span o.aty) 32 a || inRows o.bbase o.bstr (o.span o.bty) 64 a

/-- The cores of cluster k. -/
def coresOf (k : Nat) : List Nat := (List.range 4).map fun q => coreOf (ctxidOf k q 0)

/-- Whether the operation's consumption window, from its release to t + L - 1, holds a cycle (R254). -/
def MxOp.window (o : MxOp) (t : Nat) : Bool :=
  match o.release with
  | none => false
  | some r => decide (r ≤ t) && (match o.start with
    | none => true
    | some b => decide (t < b + o.len))

/-- Whether a byte of cluster k is an operand in a consumption window in a cycle (R254). -/
def State.consumed (s : State) (k a t : Nat) : Bool :=
  (coresOf k).any fun q => (s.core q).mx.any fun o => o.window t && o.operand a

/-- The start cycle of the earliest operation that streams an operand from a bank group of cluster k in a cycle (R187). -/
def State.streaming (s : State) (k grp t : Nat) : Option Nat :=
  let ts := (coresOf k).flatMap fun q => (s.core q).mx.filterMap fun o =>
    match o.start with
    | none => none
    | some b => if b ≤ t ∧ t < b + o.len ∧ (o.abase / 2 ^ 21 = grp ∨ o.bbase / 2 ^ 21 = grp) then some b else none
  ts.min?

/-! ### Bank stalls (R185 to R187) -/

/-- The stall d of the local addresses that a bundle's active elements touch (R186). -/
def bankStall (addrs : List Nat) : Nat :=
  let rows := (addrs.map (· / 64)).dedup
  let bank := fun a => a / 2 ^ 15 * 16 + a % 16
  ((rows.map fun r => rows.countP fun r' => bank r' = bank r).foldl max 1) - 1

/-- The wait g: the longest of the waits for the serving cycles of the streamed groups that the addresses touch (R187). -/
def State.groupWait (s : State) (k : Nat) (addrs : List Nat) (t : Nat) : Nat :=
  (((addrs.map (· / 2 ^ 21)).dedup.map fun g =>
    match s.streaming k g t with
    | none => 0
    | some b => (3 - (t - b) % 4 : Nat)).foldl max 0)

/-! ### Loads (R190, R192, R194, R196, R222, R319) -/

/-- What stands between a load of one granule and its value: a line to ask for (by virtual address div 64), a remote
granule or a race check, a trap; and what issuing it registers. -/
structure GLoad where
  line  : Option Nat := none
  gran  : Option Nat := none
  check : Option Nat := none
  trap  : Option TrapInfo := none
  reg   : List (Party × Gran) := []
  tlb   : List Tlb := []
  used  : List Nat := []
  /-- the key of the scratchpad granule that it reads -/
  sp    : List Nat := []
  lat   : Nat := 0

/-- A trap kept for the instruction that needs it, with that instruction's bundle, slot and address. -/
def State.keptTrap (s : State) (t : TrapInfo) (ea : Word) : TrapInfo :=
  { t with pc := s.iss.pc, slot := BitVec.ofNat 8 s.iss.slot, faddr := ea }

/-- Platform pn of cluster k as the accesses of this cycle find it: a publish of the cycle is seen by all of them, whichever
core releases the `prel` that it waits for (R221, R222). -/
def State.platNow (s : State) (k pn : Nat) : Platform :=
  let p := s.plat k pn
  if s.pubs.contains (k, pn) && p.held then p.publish else p

/-- A load of a scratchpad granule of cluster k by the issuing context, outside platforms (R315, R319, R333). -/
def State.loadTagged (s : State) (k a : Nat) (ea : Word) : GLoad :=
  let x := s.party s.iss.ctx
  if s.syncAt k a then (if s.detOf s.iss.ctx then { trap := some (s.issTrap 0x07 ea) } else {})
  else
    let g := s.spGran k a
    match s.conflict x .load [g] with
    | some (_, t) => { trap := some (s.raceTrap ea 0 t) }
    | none => { reg := [(x, g)] }

/-- The trap of a load of a platform's byte that is not in the published front as this cycle's accesses find it (R222). -/
def State.frontTrap (s : State) (k a : Nat) (ea : Word) : Option TrapInfo :=
  match s.platAt k a with
  | some pn => if (s.platNow k pn).published a then none else some (s.issTrap 0x07 ea 0 3)
  | none => none

/-- A load of a scratchpad granule of cluster k by the issuing context (R222, R315, R319, R333). Of a bundle that stalls, a platform's
byte is looked at when the stall ends (R222). -/
def State.loadLocal (s : State) (k a : Nat) (ea : Word) : GLoad :=
  if (s.platAt k a).isNone then s.loadTagged k a ea
  else if s.iss.stall then {} else { trap := s.frontTrap k a ea }

/-- The same of a granule that stands in the remote buffer: a platform's byte was checked when it was fetched (R196, R222). -/
def State.loadFetched (s : State) (k a : Nat) (ea : Word) : GLoad :=
  if (s.platAt k a).isSome then {} else s.loadTagged k a ea

/-- A load of one granule from the first address needed in it (R190, R192, R196, R319, R374, R397, R427). -/
def State.loadGran (s : State) (ea : Word) : GLoad :=
  let c := s.iss.ctx
  match spaceOf ea with
  | .localSp a =>
    let r := { s.loadLocal (clOf c) a ea with lat := 6, sp := [spKey (clOf c) (a / 64 * 64)] }
    match s.poisoned (spKey (clOf c) (a / 64 * 64)) 64 with
    | some k => { r with trap := some { (s.issTrap 0x10 ea) with key := k } }
    | none => r
  | .window w a =>
    let id := w * 2 ^ 23 + a / 64
    let x := s.win c w
    if !(s.iss.held || s.cur.remote.contains id) then { gran := some id, lat := 10 }
    else
      match s.cur.raceAns.find? (·.1 = 2 ^ 60 + id) with
      | some t => { trap := some (s.keptTrap t.2 ea), lat := 10 }
      | none =>
        if x.mod = s.modNo then
          let r := { s.loadFetched x.peer a ea with lat := 10, sp := [spKey x.peer (a / 64 * 64)] }
          match s.poisoned (spKey x.peer (a / 64 * 64)) 64 with
          | some k => { r with trap := some { (s.issTrap 0x10 ea) with key := k } }
          | none => r
        else { lat := 10 }
  | .global va =>
    let x := s.translate (s.who c) va .r
    match x with
    | .ok m e =>
      let line := lineOf m
      let here := s.iss.held || s.inL1 c line
      let ask := if here then none else some (va / 64)
      let r : GLoad := { line := ask, tlb := [e], used := [line], lat := s.loadLat c }
      match (s.cur.blocks.flatMap (·.bad)).find? (·.1 = va / 64 * 64) with
      | some t => { r with trap := some (s.keptTrap t.2 ea) }
      | none =>
        match s.poisoned (m / 64 * 64) 64 with
        | some k => { r with trap := some { (s.issTrap 0x10 ea) with key := k } }
        | none =>
          if e.sync then (if s.detOf c then { r with trap := some (s.issTrap 0x07 ea) } else r)
          else if !s.inRd c va then { r with trap := some (s.issTrap 0x07 ea) }
          else
            match s.cur.checked.find? (·.1 = line) with
            | some (_, []) => (match s.conflict (s.party c) .load [s.gGran c m] with
              | some (_, t) => { r with trap := some (s.raceTrap ea 0 t) }
              | none => { r with reg := [(s.party c, s.gGran c m)] })
            | some _ => r
            | none =>
              if s.readable (s.party c) (s.gGran c m) || s.iss.held then r
              else
                match s.cur.raceAns.find? (·.1 = line) with
                | some t => { r with trap := some (s.keptTrap t.2 ea) }
                | none => { r with check := some line }
    | x => { trap := some (s.xTrap x ea), lat := s.loadLat c }
  | _ => { trap := some (s.issTrap 0x03 ea) }

/-- Spaces an instruction accepts (R194); now says that it takes the value in its bundle's first cycle even where that stalls, as a
command takes its block (R89, R235; log 72). -/
structure Accepts where
  glob : Bool := true
  loc  : Bool := true
  win  : Bool := true
  now  : Bool := false

/-- Whether the issuing context may name an address with an instruction that accepts these spaces, at an alignment
(R15, R194). -/
def State.nameable (s : State) (acc : Accepts) (align : Nat) (ea : Word) : Bool :=
  ea.toNat % align = 0 &&
  match spaceOf ea with
  | .global _ => acc.glob
  | .localSp _ => acc.loc
  | .window w _ => acc.win && (s.win s.iss.ctx w).valid
  | _ => false

/-- The n effective addresses from an address upward. -/
def eaRun (ea : Word) (n : Nat) : List Word := (List.range n).map fun (i : Nat) => ea + BitVec.ofNat 64 i

/-- Whether an effective address of context c names a SYNC byte of a scratchpad (R315): a region may begin inside a granule. -/
def State.syncByte (s : State) (c : Nat) (ea : Word) : Bool :=
  match spaceOf ea with
  | .localSp a => s.syncAt (clOf c) a
  | .window w a => (s.win c w).mod = s.modNo && s.syncAt (s.win c w).peer a
  | _ => false

/-- The first address of each granule that a list of addresses touches, its SYNC bytes apart from its RD bytes, in list
order: what is checked of an access (R315, R318). -/
def State.granules (s : State) (c : Nat) (eas : List Word) : List Word :=
  eas.foldl (fun acc ea =>
    if acc.any fun e => e.toNat / 64 = ea.toNat / 64 && s.syncByte c e == s.syncByte c ea then acc else acc ++ [ea]) []

/-- The first address of each granule that a list of addresses touches, in list order. -/
def firstOfGranule (eas : List Word) : List Word :=
  eas.foldl (fun acc ea => if acc.any fun e => e.toNat / 64 = ea.toNat / 64 then acc else acc ++ [ea]) []

/-- What a load of the elements at addresses needs before it issues, or the trap it raises, or the state in which it
has registered its reads and its latency. -/
inductive LRes where
  | block (lines grans checks : List Nat)
  | trap (t : TrapInfo)
  | ok (lat : Nat) (s : State)

/-- The trap of the load of one element: an optimiser's accumulator of an update in flight (R286), else what its granules raise. -/
def State.elementTrap (s : State) (align : Nat) (ea : Word) : Option TrapInfo :=
  if s.accumulates s.iss.ctx ea align then some (s.issTrap 0x07 ea)
  else (s.granules s.iss.ctx (eaRun ea align)).findSome? fun g => (s.loadGran g).trap

/-- What the granules of a load that issues register: translations, reads, lines used, and corrected errors found (R190, R318,
R378, R427). -/
def State.loaded (s : State) (gs : List GLoad) : State :=
  let die := dieOf s.iss.ctx
  let s := (gs.flatMap (·.tlb)).foldl State.learn s
  let s := (gs.flatMap (·.reg)).foldl (fun s r => s.register r.1 .load [r.2]) s
  let s := (gs.flatMap (·.used)).foldl (fun s l => (s.touch s.iss.ctx l).corrected die (64 * l) 64) s
  (gs.flatMap (·.sp)).foldl (fun s k => s.corrected die k 64) s

/-- Mark of a line in a race check that registers nothing: the access touches scratchpads too, and its granules are registered
together, at its issue, when none of them rejects it (R318). -/
def jointCheck : Nat := 2 ^ 61

/-- A remote granule to ask for: of a peer on another module with a mask, from bit 28 on, of the bytes that the load reaches
(R196, R315). -/
def State.granAsk (s : State) (bytes : List Word) (id : Nat) : Nat :=
  let w := id / 2 ^ 23
  if (s.win s.iss.ctx w).mod = s.modNo then id
  else
    let hit := fun (i : Nat) => bytes.any fun ea => match spaceOf ea with
      | .window w' a => w' = w && a = id % 2 ^ 23 * 64 + i
      | _ => false
    id + 2 ^ 28 * ((List.range 64).map fun i => if hit i then 2 ^ i else 0).sum

/-- A load whose value is taken now: a platform's byte is looked at as this cycle's accesses find it; all else of it has been checked
as its bundle issued (R89, R222). -/
def State.loadPaid (s : State) (align : Nat) (eas : List Word) (lat : Nat) : LRes :=
  let bad := fun (ea : Word) => match spaceOf ea with
    | .localSp a => s.frontTrap (clOf s.iss.ctx) a ea
    | _ => none
  match eas.findSome? fun ea => (firstOfGranule (eaRun ea align)).findSome? bad with
  | some t => .trap t
  | none => .ok lat s

/-- A load of the elements at the addresses by the issuing context. Blocking is found before any issue fault (R356), behind what a
fence orders before it too: nothing that stands for its value is asked for until that is visible (R212, R329); of the faults of its
elements the first raises. -/
def State.loadAt (s : State) (acc : Accepts) (align : Nat) (eas : List Word) : LRes :=
  match s.iss.paid with
  | some (lat, _, _) => s.loadPaid align eas lat
  | none =>
  let good := eas.filter (s.nameable acc align)
  let bytes := good.flatMap fun ea => eaRun ea align
  let h := if acc.now then { s with iss := { s.iss with stall := false } } else s
  let gs := (s.granules s.iss.ctx bytes).map h.loadGran
  let lines := (gs.filterMap (·.line)).dedup
  let grans := (gs.filterMap (·.gran)).map (s.granAsk bytes)
  let checks := (gs.filterMap (·.check)).dedup
  let fenced := !s.iss.held && good ≠ [] && s.loadFenced s.iss.ctx
  if fenced = true then .block lines [] []
  else if lines ≠ [] ∨ grans ≠ [] ∨ checks ≠ [] then
    .block lines grans (if gs.any fun g => g.sp ≠ [] || g.gran.isSome then checks.map (· + jointCheck) else checks)
  else
    match eas.find? (fun ea => !s.nameable acc align ea) with
    | some ea => .trap (s.issTrap 0x03 ea)
    | none =>
      match eas.findSome? (h.elementTrap align) with
      | some t => .trap t
      | none => .ok ((gs.map (·.lat)).foldl max 0) (s.loaded gs)

/-- Scratchpad memory as the issuing load finds it: as it stood before the releases of this cycle (R188, R324), for one behind an
atomic of its own bundle as that left it (R212, R327). -/
def State.bankView (s : State) : List Host.Cell := if s.iss.paid.any (·.2.2) then s.mem else s.memCyc

/-- Whether a byte behind a window is read at the peer's bank and not in the remote buffer: in a bundle with acquire ordering before
the load, whose buffer was filled before it issued, of a peer on this module (R212, R215, R328; log 74). -/
def State.rereads (s : State) (w a : Nat) : Bool :=
  let x := s.win s.iss.ctx w
  s.iss.acq && x.mod = s.modNo && (s.platAt x.peer a).all fun pn => (s.platNow x.peer pn).published a

/-- The issuing context's bytes at an address, by its own writes first. One behind a window stands in the remote buffer (R196); one
of a line that its home has checked is the byte read then (R319). -/
def State.loadByte (s : State) (ov : List (Nat × Byte)) (ea : Word) : Byte :=
  let c := s.iss.ctx
  match s.keyAt c ea with
  | none => 0
  | some k =>
    match (lookLast ov k).or (lookLast s.iss.view k), spaceOf ea with
    | some b, _ => b
    | none, .window w a => if s.rereads w a then memRead s.bankView k else memRead s.mem (bufferKey c w a)
    | none, .localSp _ => memRead s.bankView k
    | none, _ =>
      match s.cur.checked.find? fun x => x.1 = lineOf k && x.2 ≠ [] with
      | some x => x.2.getD (k % 64) 0
      | none => s.gbyte k

/-- The number in n bytes at an address as the issuing context loads it (R195). -/
def State.loadNat (s : State) (ov : List (Nat × Byte)) (ea : Word) (n : Nat) : Nat :=
  leNat ((List.range n).map fun (i : Nat) => s.loadByte ov (ea + BitVec.ofNat 64 i))

/-- A load ends by blocking, by its trap, or by what k does with the latency and the state. -/
def State.loading (s : State) (r : LRes) (k : Nat → State → State) : Res :=
  match r with
  | .block lines grans checks => .next (s.blocked .loadBlock lines grans checks [])
  | .trap t => .next (s.raise t)
  | .ok lat s => .next (k lat s)

/-! ### Stores at issue (R194, R216, R222, R254, R333) -/

/-- The local bytes' check of a store, scatter, window write or atomic at issue: platforms and consumption windows. -/
def State.storeLocal (s : State) (k a n : Nat) (ea : Word) (acc : BitVec 8) : Option TrapInfo :=
  if (s.platAt k a).isSome then some (s.issTrap 0x07 ea 0 3)
  else if s.detOf s.iss.ctx && (List.range n).any (fun i => s.syncAt k (a + i)) && acc = 1 then some (s.issTrap 0x07 ea 0 acc)
  else none

/-- Whether a byte may not be written now: an operand in a consumption window, an array of a command in flight, an
optimiser's accumulator (R254, R274, R286). -/
def State.guarded (s : State) (c : Nat) (ea : Word) : Bool :=
  let at_ := fun k a => s.consumed k a s.now || s.arrayLocal k a
  match spaceOf ea with
  | .localSp a => at_ (clOf c) a
  | .window w a => (s.win c w).mod = s.modNo && at_ (s.win c w).peer a
  | .global va =>
    s.accumulates c ea 1 || (s.page? (s.who c) va).any fun e => s.arrayGlobal (e.addr va)
  | _ => false

/-- The check of a store or atomic against consumption windows and arrays in flight, which comes before any wait (R187,
R254, R274). -/
def State.storeWindow (s : State) (n : Nat) (ea : Word) (acc : BitVec 8) : Option TrapInfo :=
  if (List.range n).any fun i => s.guarded s.iss.ctx (ea + BitVec.ofNat 64 i) then some (s.issTrap 0x07 ea 0 acc) else none

/-- The trap that a store of one element of n bytes raises at issue. -/
def State.storeTrap (s : State) (acc : BitVec 8) (n : Nat) (ea : Word) : Option TrapInfo :=
  (s.storeWindow n ea acc).or <|
    match spaceOf ea with
    | .localSp a => s.storeLocal (clOf s.iss.ctx) a n ea acc
    | .window w a =>
      if (s.win s.iss.ctx w).mod = s.modNo then s.storeLocal (s.win s.iss.ctx w).peer a n ea acc else none
    | .global va =>
      if s.detOf s.iss.ctx && acc = 1 then
        if (s.page? (s.who s.iss.ctx) va).any (·.sync) then some (s.issTrap 0x07 ea 0 acc) else none
      else none
    | _ => none

/-- Released window writes of window w that the peer has not accepted (R216). -/
def Ctx.outstanding (x : Ctx) (w : Nat) : Nat := x.winq.countP fun e => e.win = w && decide (e.st < 2)

/-- The posted remote writes that an entry makes through window w (R216). -/
def EntryK.writesTo (k : EntryK) (w : Nat) : Nat :=
  match k with
  | .store bs _ unit =>
    let n := bs.countP fun p => match spaceOf (BitVec.ofNat 64 p.1) with
      | .window w' _ => decide (w' = w)
      | _ => false
    if n = 0 then 0 else if unit = 0 then 1 else ceilDiv n unit
  | _ => 0

/-- Whether a store blocks on a window at its allowance: released writes that the peer has not accepted, those still to enter the
send queue among them (R216). -/
def State.windowFull (s : State) (ea : Word) : Bool :=
  match spaceOf ea with
  | .window w _ => !s.iss.held && (s.win s.iss.ctx w).valid &&
      decide ((s.win s.iss.ctx w).allow ≤ s.cur.outstanding w + ((s.queued s.iss.ctx).map (·.k.writesTo w)).sum)
  | _ => false

/-- A withheld entry of the issuing slot is appended (R357). -/
def State.withhold (s : State) (k : EntryK) : State :=
  s.modCur fun c => { c with
    wb := c.wb ++ [{ pc := s.iss.pc, slot := s.iss.slot, k := k, ord := c.ents }], ents := c.ents + 1 }

/-- A load i as `loading`; in a bundle that stalls, or behind an acquiring atomic of its bundle, its value is taken later: it is
withheld with the registers that it reads (R86, R89, R212, R222). -/
def State.loadingOf (s : State) (i : Instr) (r : LRes) (k : Nat → State → State) : Res :=
  match r with
  | .ok lat s' =>
    if s.iss.paid.isNone && (s.iss.stall || s.iss.late) then .next (s'.withhold (.load i s.cur.vis lat s.iss.late))
    else .next (k lat s')
  | r => s.loading r k

/-- A store form: elements with their bytes, in lane order. Blocking first, then issue faults in lane order; then one
entry that carries the batch tag of its issue. A posted remote write covers unit bytes of it, 0 all of them (R134, R194,
R216, R357). -/
def State.storeAt (s : State) (acc : Accepts) (align : Nat) (els : List (Word × List Byte)) (unit : Nat := 0) : Res :=
  if els.any fun e => s.windowFull e.1 then .next (s.blocked .engineQueue [] [] [] [])
  else
    match els.find? (fun e => !s.nameable acc align e.1) with
    | some e => .next (s.raise (s.issTrap 0x03 e.1))
    | none =>
      match els.findSome? fun e => s.storeTrap 1 e.2.length e.1 with
      | some t => .next (s.raise t)
      | none => .next (s.withhold (.store (els.flatMap fun e => runAt e.1.toNat e.2) s.cur.vis.batch unit))

end Sys2Proof.Machine
end

