-- ==== Sys2Proof/Machine/Platforms.lean ====
section
/-! DEFINITION. Sys2Proof/Machine/Platforms.lean: the platform table (R220 to R223), commands, acceptance words and
delivery bounds (R235 to R238), the barrier unit's queue (R214), engine reads (R314), the platform and engine-register
instructions (R224 to R228). -/

namespace Sys2Proof.Machine

/-! ### Deferred traps (R360) -/

/-- A trap whose cause is found after its bundle issued is kept for context c's next due bundle; a DONE context drops it
(R360). -/
def State.defer (s : State) (c : Nat) (t : TrapInfo) : State :=
  s.modCtx c fun x => match x.status with
    | .done => x
    | .idle => x
    | _ => { x with deferred := x.deferred ++ [{ t with deferred := true }] }

/-- Deferred traps in the order of their operations' release, those of one operation as they were found (R360). -/
def inRelease (ts : List TrapInfo) : List TrapInfo := ts.insertionSort fun a b => a.ord ≤ b.ord

/-! ### The barrier unit's queue (R214) -/

/-- The first address of the barrier object that holds a local address. -/
def barObj (a : Nat) : Nat := a / 16 * 16

/-- Whether a local address of cluster k lies in a barrier object: one of `cbar`, or one that has been named (R214). -/
def State.isBarrier (s : State) (k a : Nat) : Bool :=
  let named := (s.cluster k).named.contains (barObj a)
  match s.regionAt k a with
  | some { kind := .cbar, .. } => true
  | _ => named

/-- An operation on its way to the barrier unit of cluster k. The unit applies one operation per object and cycle; while
operations wait, an apply is due for the object. -/
def State.barAdd (s : State) (k : Nat) (r : BarReq) : State :=
  let s := s.modCluster k fun c => { c with barq := c.barq ++ [r] }
  let due := s.agenda.any fun a => a.ev = .barrierUnitApply && a.due.id = k && a.due.arg = r.addr && decide (a.at_ ≤ r.at_)
  if due then s else s.schedule r.at_ .barrierUnitApply { id := k, arg := r.addr }

/-- A location named as a barrier object of cluster k, from the cycle in which the bundle that names it issues: the stores to it that
this cycle has written to banks go to the barrier unit like those to come, and the banks hold what stood there (R214). -/
def State.nameBarrier (s : State) (k a : Nat) : State :=
  if (s.cluster k).named.contains (barObj a) then s
  else
    let at_ := fun (p : Nat × Byte) => barObj p.1 = barObj a
    let hit := fun (b : Nat × BarReq × List (Nat × Byte)) => b.1 = k && b.2.2.any at_
    let of := s.banked.filter hit
    let s := of.reverse.foldl (fun s b => s.put ((b.2.2.filter at_).map fun p => (spKey k p.1, p.2))) s
    let s := s.modCluster k fun c => { c with named := barObj a :: c.named }
    let s := { s with banked := s.banked.map fun b => (b.1, b.2.1, if hit b then b.2.2.filter fun p => !at_ p else b.2.2) }
    of.foldl (fun s b => s.barAdd k { b.2.1 with
      addr := barObj a
      op := match b.2.1.op with
        | .store bs => .store (bs.filter at_)
        | o => o }) s

/-! ### Delivery bounds (R237, R423) -/

/-- The bound-table entry of an engine and class, or its chapter's default. -/
def State.boundEntry (s : State) (eng cls : Nat) (d : BoundEntry) : BoundEntry :=
  ((s.bounds.find? (·.1 = (eng, cls))).map (·.2)).getD d

/-- The default entries of R237 for the copy engine. -/
def copyBound (cls : Nat) : BoundEntry :=
  match cls with
  | 0 => { base := 1000, unit := 1, unit2 := 0, limit := 0 }
  | 1 => { base := 4000, unit := 1, unit2 := 0, limit := 0 }
  | 2 => { base := 20000, unit := 2, unit2 := 0, limit := 0 }
  | _ => { base := 200000, unit := 4, unit2 := 0, limit := 0 }

/-! ### Acceptance (R235, R238) -/

/-- The acceptance word of an accepted command; BOUND is written as 0 in deterministic mode (R235, R333). -/
def State.acceptWord (s : State) (bound : Nat) (seq : BitVec 16) (cls : Nat) : Word :=
  BitVec.ofNat 64 ((if s.detOf s.iss.ctx then 0 else bound % 2 ^ 32) + seq.toNat * 2 ^ 32 + cls % 4 * 2 ^ 48)

/-- The acceptance word of a refused command (R235). -/
def refuseWord (code : Nat) (seq : BitVec 16) (cls : Nat) : Word :=
  BitVec.ofNat 64 (seq.toNat * 2 ^ 32 + cls % 4 * 2 ^ 48 + code * 2 ^ 56 + 2 ^ 63)

/-- Refusals that raise the memory-model exception in deterministic mode (R333). -/
def detRefusal (code : Nat) : Bool := [0x01, 0x02, 0x05, 0x07, 0x14, 0x17].contains code

/-- The next command takes the context's SEQ (R235). -/
def State.takeSeq (s : State) : BitVec 16 × State :=
  (s.cur.vis.seq, s.modVis fun v => { v with seq := v.seq + 1 })

/-- A command of the issuing context refused with a code: its word goes where put puts it; in deterministic mode the
refusals that depend on timing raise the memory-model exception instead (R235, R333). -/
def State.refuse (s : State) (code cls : Nat) (put : Word → State → State) : State :=
  if s.detOf s.iss.ctx && detRefusal code then s.raise (s.issTrap 0x07)
  else
    let (seq, s) := s.takeSeq
    put (refuseWord code seq cls) s

/-- A command of the issuing context accepted with a bound: it takes a SEQ and a record slot, reserves its platform and
is withheld (R221, R235, R238, R357). -/
def State.accept (s : State) (k : CmdK) (kind cls bound : Nat) (pn : Option (BitVec 6)) (bar : Option Nat)
    (put : Word → State → State) : State :=
  let (seq, s) := s.takeSeq
  let (id, s) := s.fresh
  let c := s.iss.ctx
  let who := s.who c
  let cmd : Cmd :=
    { id := id, ctx := c, k := k, seq := seq, cls := BitVec.ofNat 2 cls, pn := pn, bar := bar, asid := who.asid,
      part := who.part, exec := who.exec, pc := s.iss.pc, slot := s.iss.slot, release := none, deadline := bound,
      ended := false,
      record := { seq := seq, kind := BitVec.ofNat 8 kind, pn := (pn.map fun p => p.setWidth 16).getD 0xFFFF, key := id },
      out := [], past := [], snap := none }
  let s := { s with cmds := s.cmds ++ [cmd] }
  let s := match pn with
    | none => s
    | some p => s.modPlat (clOf c) p.toNat fun x => { x with resv := some id }
  put (s.acceptWord bound seq cls) (s.withhold (.cmd id))

/-- The command of an identity. -/
def State.cmd? (s : State) (id : Nat) : Option Cmd := s.cmds.find? (·.id = id)

/-- The state with a command changed. -/
def State.modCmd (s : State) (id : Nat) (f : Cmd → Cmd) : State :=
  { s with cmds := s.cmds.map fun x => if x.id = id then f x else x }

/-- On whose behalf a command's accesses are made (R377). -/
def Cmd.who (x : Cmd) : Who := { asid := x.asid, part := x.part, exec := x.exec }

/-- A command's account is complete: its record arrives after its barrier delivery, when it has one, has been applied
(R234, R239). -/
def State.finish (s : State) (id : Nat) (r : Record) : State :=
  match s.cmd? id with
  | none => s
  | some x =>
    let s := s.modCmd id fun x => { x with ended := true, record := r }
    match x.bar with
    | none => s.schedule (s.now + 1) .eventRecordArrival { id := id, ctx := x.ctx }
    | some a =>
      s.barAdd (clOf x.ctx) { at_ := s.now + 1, addr := barObj a, op := .deliver id, ctx := x.ctx, l := 16, pc := x.pc,
                              slot := x.slot }

/-! ### The platform table (R221, R222, R223) -/

/-- A fill released (R221). -/
def Platform.fillReleased (p : Platform) (id : Nat) : Platform :=
  { p with st := if p.st = .full then .draining else .filling, held := false, fill := some id }

/-- A fill completed (R221). -/
def Platform.fillCompleted (p : Platform) : Platform :=
  let p := { p with fill := Option.none, resv := Option.none }
  if p.st = .draining then { p with held := true } else p.publish

/-- A fill failed (R221). -/
def Platform.fillFailed (p : Platform) : Platform :=
  { p with fill := Option.none, resv := Option.none, st := if p.st = .draining then .full else .free }

/-- A `prel` applied; none where it finds the platform FREE or FILLING (R221, R225). -/
def Platform.released (p : Platform) : Option Platform :=
  match p.st with
  | .full => some { p with st := .free }
  | .draining => some (if p.held then p.publish else { p with st := .filling })
  | _ => Option.none

/-- An engine writes the shadow of platform pn of cluster k with bytes at local addresses (R221). -/
def State.writeShadow (s : State) (k : Nat) (bs : List (Nat × Byte)) : State :=
  s.put (bs.map fun p => (spKey k p.1, p.2))

/-- A fill of platform pn of cluster k completes with its bytes; the answer says whether it is held (R221). -/
def State.completeFill (s : State) (k pn : Nat) (bs : List (Nat × Byte)) : Bool × State :=
  let s := s.writeShadow k bs
  let held := (s.plat k pn).st = .draining
  (held, s.modPlat k pn Platform.fillCompleted)

/-- A fill of platform pn of cluster k fails: the bytes it would have written become zero, but for operand bytes in a
consumption window (R223). -/
def State.failFill (s : State) (k pn : Nat) (addrs : List Nat) : State :=
  let zero := (addrs.filter fun a => !s.consumed k a s.now).map fun a => (a, (0 : Byte))
  (s.writeShadow k zero).modPlat k pn Platform.fillFailed

/-- A `prel` performed at its release for a context (R221, R225). Of several in one cycle the one with the highest
logical index that finds the platform FREE or FILLING raises the exception: they count in ascending index. -/
def State.applyPrel (s : State) (r : PrelRec) : State :=
  let k := clOf r.ctx
  let bad := fun (s : State) (r : PrelRec) =>
    s.defer r.ctx { kind := 0x07, pc := r.pc, acc := 3, slot := BitVec.ofNat 8 r.slot, ord := r.ord }
  match (s.plat k r.pn).released with
  | some p => (s.modPlat k r.pn fun _ => p).modCluster k fun c => { c with prelLog := r :: c.prelLog }
  | none =>
    let later := (s.cluster k).prelLog.filter fun x => x.cy = r.cy && x.pn = r.pn && decide (r.l < x.l)
    match later.foldl (fun (m : Option PrelRec) x => match m with
        | some y => if y.l < x.l then some x else some y
        | none => some x) none with
    | none => bad s r
    | some x =>
      let s := s.modCluster k fun c => { c with prelLog := r :: c.prelLog.filter (· ≠ x) }
      bad s x

/-- Whether a platform is held by a sparse operation (R264). -/
def Platform.sparseHeld (p : Platform) : Bool := p.holds ≠ []

/-! ### Engine reads on a context's behalf (R223, R314, R318) -/

/-- What an engine read of bytes finds, with the state it leaves: an uncorrectable word is logged (R428). A race conflict comes with
the rank and index of the party that the tag names, where that is one on another module (R363). -/
inductive ERead where
  | ok (bytes : List Byte) (s : State)
  | fail (status : BitVec 8) (at_ : Word) (far : BitVec 32 × BitVec 8) (s : State)

/-- The state that a read leaves. -/
def ERead.state : ERead → State
  | .ok _ s => s
  | .fail _ _ _ s => s

/-- An engine's read, for context c, of n bytes of one granule at an effective address: local or global, checked as a
load by the context (R286, R314, R318, R397, R427). -/
def State.engGran (s : State) (c : Nat) (w : Who) (ea : Word) (n : Nat) : ERead :=
  let x := s.party c
  match spaceOf ea with
  | .localSp a =>
    let k := clOf c
    match s.poisoned (spKey k (a / 64 * 64)) 64 with
    | some p => .fail 0x14 ea (0, 0) (s.memError (dieOf c) p)
    | none =>
      let s := s.corrected (dieOf c) (spKey k (a / 64 * 64)) 64
      let bytes := memBytes s.mem (spKey k a) n
      match s.platAt k a with
      | some pn => if (s.plat k pn).published a then .ok bytes s else .fail 0x12 ea (0, 0) s
      | none =>
        if (List.range n).all fun i => s.syncAt k (a + i) then .ok bytes s
        else
          match s.conflict x .load [s.spGran k a] with
          | some (_, t) => .fail 0x12 ea t.far s
          | none => .ok bytes (s.register x .load [s.spGran k a])
  | .global va =>
    match s.translate w va .r with
    | .ok m e =>
      match s.poisoned (m / 64 * 64) 64 with
      | some p => .fail 0x14 ea (0, 0) (s.memError (dieOf c) p)
      | none =>
        let s := (s.learn e).heat m e.leaf
        let s := s.corrected (dieOf c) (m / 64 * 64) 64
        if s.accGlobal m n then .fail 0x12 ea (0, 0) s
        else if e.sync then .ok (s.gbytes m n) s
        else if !s.inRd c va then .fail 0x12 ea (0, 0) s
        else
          match s.conflict x .load [s.gGran c m] with
          | some (_, t) => .fail 0x12 ea t.far s
          | none => .ok (s.gbytes m n) (s.register x .load [s.gGran c m])
    | .poison k => .fail 0x14 ea (0, 0) (s.memError (dieOf c) k)
    | r => .fail r.status ea (0, 0) (s.walkCorrected w.asid va)
  | _ => .fail 0x10 ea (0, 0) s

/-- An engine's read of n bytes in ascending address, granule by granule; fuel counts granules. -/
def State.engReadAux (s : State) (c : Nat) (w : Who) : Nat → Word → Nat → List Byte → ERead
  | 0, _, _, acc => .ok acc s
  | fuel + 1, ea, n, acc =>
    if n = 0 then .ok acc s
    else
      let m := min n (64 - ea.toNat % 64)
      match s.engGran c w ea m with
      | .ok bs s => s.engReadAux c w fuel (ea + BitVec.ofNat 64 m) (n - m) (acc ++ bs)
      | .fail st a far s => .fail st a far s

/-- An engine's read of n bytes. -/
def State.engRead (s : State) (c : Nat) (w : Who) (ea : Word) (n : Nat) : ERead :=
  s.engReadAux c w (n / 64 + 2) ea n []

/-! ### Platform instructions (R224, R225, R226) -/

/-- The platform of the issuing cluster at the end of the previous cycle. -/
def State.prevPlat (s : State) (pn : Nat) : Platform := (s.cluster (clOf s.iss.ctx)).prev.getD pn Platform.none

/-- Whether the wait of the issuing context's bundle has reached a bound, counted from the first cycle in which the
bundle was due; in deterministic mode a bound is ignored (R215, R333). -/
def State.boundReached (s : State) (bound : Word) : Bool :=
  !s.detOf s.iss.ctx && decide (bound.toNat ≤ s.now - (s.cur.wait.getD s.now))

/-- A wait of the issuing bundle: it blocks for a reason, naming the bound, until done holds or the bound is reached, and then k goes on;
once a stall holds the bundle no condition is evaluated again (R89, R215). -/
def State.waiting (s : State) (r : Block) (done : Bool) (bound : Word) (k : State → State := id) : State :=
  if s.iss.held || done || s.boundReached bound then k s else s.blocked r [bound.toNat] [] [] []

/-- The condition of `pwait` (R224). -/
def Platform.meets (p : Platform) (c : PCond) : Bool :=
  match c with
  | .pub => p.st = .full || p.st = .draining
  | .idle => (p.st = .free || p.st = .full) && p.resv.isNone
  | .free => p.st = .free && p.resv.isNone

/-- R225: it blocks while the platform is FILLING, or held by a sparse operation (R264). -/
def execPrel (n : BitVec 6) (s : State) : Res :=
  let p := s.plat (clOf s.iss.ctx) n.toNat
  .next (if !p.decl then s.raise (s.issTrap 0x03)
    else if !s.iss.held && (p.st = .filling || p.sparseHeld) then s.blocked .platform [] [] [] []
    else s.withhold (.prel n))

/-- The `pstat` word (R226). -/
def Platform.word (p : Platform) : Word :=
  if !p.decl then 0
  else
    let st := match p.st with
      | .free => 0
      | .filling => 1
      | .full => 2
      | .draining => 3
    BitVec.ofNat 64 (st + bit (p.held && p.st = .draining) * 2 ^ 2 + bit p.resv.isSome * 2 ^ 3 + 2 ^ 4 + p.frontAt * 2 ^ 8
      + bit p.front * 2 ^ 31 + p.half / 64 % 2 ^ 16 * 2 ^ 32 + p.gen.toNat * 2 ^ 48)

/-- R226. In deterministic mode it raises the memory-model exception (R333). -/
def execPstat (d : BitVec 5) (n : BitVec 6) (s : State) : Res :=
  .next (if s.detOf s.iss.ctx then s.raise (s.issTrap 0x07) else s.ws d 2 (s.prevPlat n.toNat).word)

/-! ### Engine registers (R227, R228, R246, R256) -/

/-- EMX.STAT of a core (R246): the oldest operation not complete of each accumulator, and the unit's queue. Where a dense and a
sparse operation are pending on one accumulator R246 does not say which ACST shows: the oldest here (DESIGN CHOICE, log 72). -/
def Core.stat (co : Core) : Word :=
  BitVec.ofNat 64 (((List.range 4).map fun a =>
    match co.mx.find? (·.acc = a) with
    | none => 0
    | some o => (if o.sparse then 2 else 1) * 4 ^ a).sum + co.mx.countP (!·.fed) * 2 ^ 8)

/-- An engine register as it stands at issue. -/
def State.engReg (s : State) (r : BitVec 16) : Word :=
  let h := s.cur.vis.shadow
  match r.toNat with
  | 0x0000 => h.ecpTmpl
  | 0x1000 => h.emxAbase
  | 0x1001 => h.emxBbase
  | 0x1002 => h.emxStride
  | 0x1003 => h.emxShape
  | 0x1004 => h.emxSparse
  | 0x1010 => h.emxAcc
  | 0x1011 => (s.core (coreOf s.iss.ctx)).stat
  | 0x2000 => h.eepDst
  | 0x2001 => h.eepVec
  | 0x2002 => h.eepAct
  | 0x2003 => h.eepOut
  | 0x2010 => h.eepAcc
  | n =>
    if 1 ≤ n ∧ n ≤ 4 then
      let t := (s.cluster (clOf s.iss.ctx)).tmpl.getD (h.ecpTmpl.toNat % 256) 0
      (t >>> (64 * (n - 1))).setWidth 64
    else if 0x10 ≤ n ∧ n ≤ 0x1F then h.ecpAcc.getD (n - 0x10) 0
    else 0

/-- R227. -/
def execEwr (b : BitVec 5) (r : BitVec 16) (s : State) : Res := .next (s.push 1 (.eng r (s.rs b)))

/-- R227. -/
def execErd (d : BitVec 5) (r : BitVec 16) (s : State) : Res := .next (s.ws d 2 (s.engReg r))

end Sys2Proof.Machine
end

