-- ==== Sys2Proof/Machine/Copies.lean ====
section
/-! DEFINITION. Sys2Proof/Machine/Copies.lean: the copy engine: templates, the copy's checks at issue, its work
(R229 to R234). -/

namespace Sys2Proof.Machine

/-! ### Templates (R230) -/

/-- Fields of a template. -/
structure Tmpl where
  sbase   : Word
  sstride : Int
  rows    : Nat
  rbytes  : Nat
  dstride : Nat
  pn      : Nat
  cls     : Nat
  conv    : Nat
  doff    : Nat
  baren   : Bool
  baddr   : Nat
  clean   : Bool

/-- The fields of a template's 32 bytes (R230). -/
def tmplOf (x : BitVec 256) : Tmpl :=
  let n := x.toNat
  { sbase := BitVec.ofNat 64 n, sstride := toSigned 32 (bits n 64 32), rows := bits n 96 16, rbytes := bits n 128 24,
    dstride := bits n 152 24, pn := bits n 192 6, cls := bits n 198 2, conv := bits n 200 8, doff := bits n 208 23,
    baren := tst n 231, baddr := bits n 232 23,
    clean := bits n 112 16 = 0 && bits n 176 16 = 0 && !tst n 255 }

/-- Source element size and output bytes for n input bytes of a conversion (R231). -/
def convSize (conv : Nat) : Nat := if conv = 0 then 1 else if conv = 1 ∨ conv = 3 then 4 else 2
def convOut (conv n : Nat) : Nat :=
  if conv = 1 ∨ conv = 3 then n / 2 else if conv = 2 ∨ conv = 4 then n * 2 else n

/-- Output bytes of a row. -/
def Tmpl.rowOut (t : Tmpl) : Nat := convOut t.conv t.rbytes

/-- Source address of row r (R231). -/
def Tmpl.src (t : Tmpl) (a0 : Word) (r : Nat) : Word := a0 + BitVec.ofInt 64 (t.sstride * r)

/-- Whether a row's span lies wholly in the one local or global space of a0 (R232). -/
def Tmpl.rowOk (t : Tmpl) (a0 : Word) (r : Nat) : Bool :=
  let lo := t.src a0 r
  let hi := lo + BitVec.ofNat 64 (t.rbytes - 1)
  let tag := fld a0 56 8
  fld lo 56 8 = tag && fld hi 56 8 = tag && (tag = 0 || (fld lo 23 33 = 0 && fld hi 23 33 = 0))

/-- The refusal code of a copy, in the order of R232 point 4; none when it is accepted. Rows lie at equal steps far
shorter than a space, so the first and the last row decide for all. -/
def copyRefusal (t : Tmpl) (p : Platform) (data a0 : Word) : Option Nat :=
  if t.rows = 0 ∨ t.rbytes = 0 ∨ t.rbytes > 2 ^ 21 ∨ !t.clean then some 0x03
  else if fld a0 56 8 > 1 ∨ !t.rowOk a0 0 ∨ !t.rowOk a0 (t.rows - 1) then some 0x03
  else if t.conv > 6 ∨ t.rbytes % convSize t.conv ≠ 0 then some 0x03
  else if !p.decl then some 0x04
  else if t.doff + (t.rows - 1) * t.dstride + t.rowOut > p.half then some 0x06
  else if t.rows > 1 ∧ t.dstride < t.rowOut then some 0x03
  else if tst data.toNat 15 then some 0x03
  else if t.baren ∧ t.baddr % 16 ≠ 0 then some 0x03
  else none

/-- The record of a copy (R239, R240). -/
def copyRecord (seq : BitVec 16) (status : BitVec 8) (pn : BitVec 6) (faddr : Word) (rows tidx ch : Nat) : Record :=
  { seq := seq, kind := 0x01, status := status, pn := pn.setWidth 16,
    detail := BitVec.ofNat 128 (faddr.toNat + (rows + tidx * 2 ^ 32 + ch * 2 ^ 40) * 2 ^ 64) }

/-- COPY START: a 64-bit store of data to an aperture address by the issuing bundle (R229, R232). Of two copies of one bundle to one
platform R232 does not say what the second finds: here it finds the reservation that the first makes, and the bundle blocks for as long
as it is due (DESIGN CHOICE, log 72). -/
def State.copyStart (s : State) (ea : Word) (data : Word) : State :=
  let c := s.iss.ctx
  let k := clOf c
  let ch := fld ea 6 4
  let tidx := fld data 0 8
  let raw := (s.cluster k).tmpl.getD tidx 0
  let t := tmplOf raw
  let pn : BitVec 6 := if tst data.toNat 14 then BitVec.ofNat 6 (fld data 8 6) else BitVec.ofNat 6 t.pn
  let p := s.plat k pn.toNat
  let held := s.cmds.countP fun x => x.ctx = c && (match x.k with
    | .copy ch' _ _ _ => ch' = ch
    | _ => false)
  if !s.iss.held && (held ≥ 4 || s.freeSlots c = 0) then s.blocked .engineQueue [] [] [] []
  else if !s.iss.held && (p.resv.isSome || p.st = .filling || p.st = .draining) then s.blocked .platform [] [] [] []
  else if fld ea 10 46 ≠ 0 ∨ fld ea 0 6 ≠ 0 then s.raise (s.issTrap 0x03 ea)
  else
    let a0 := t.sbase + BitVec.ofInt 64 (toSigned 48 (fld data 16 48))
    let put := fun w (s : State) => s.push 1 (.engAcc (BitVec.ofNat 16 (0x10 + ch)) w)
    match copyRefusal t p data a0 with
    | some code =>
      let (id, s) := s.fresh
      let seq := s.cur.vis.seq
      (s.refuse code t.cls put).withhold
        (.refusedCopy { copyRecord seq (BitVec.ofNat 8 code) pn 0 0 tidx ch with key := id })
    | none =>
      let b := s.boundEntry 0 t.cls (copyBound t.cls)
      let bound := b.base + ceilDiv (t.rows * t.rowOut) 64 * b.unit
      s.accept (.copy ch tidx raw a0) 0x01 t.cls bound (some pn) (if t.baren then some t.baddr else none) put

/-! ### The copy's work (R231, R233) -/

/-- One element converted: its bytes and flags (R231). -/
def convElem (conv : Nat) (x : Nat) : List Byte × Nat :=
  match conv with
  | 1 => let r := convF fmtBf16 .rne 0 (decodeF fmtF32 x); (leBytes 2 r.1, r.2)
  | 2 => let r := convF fmtF32 .rne 0 (decodeF fmtBf16 x); (leBytes 4 r.1, r.2)
  | 3 => let r := convF fmtF16 .rne 0 (decodeF fmtF32 x); (leBytes 2 r.1, r.2)
  | 4 => let r := convF fmtF32 .rne 0 (decodeF fmtF16 x); (leBytes 4 r.1, r.2)
  | 5 => let r := convF fmtF16 .rne 0 (decodeF fmtBf16 x); (leBytes 2 r.1, r.2)
  | 6 => let r := convF fmtBf16 .rne 0 (decodeF fmtF16 x); (leBytes 2 r.1, r.2)
  | _ => ([BitVec.ofNat 8 x], 0)

/-- A byte string cut into pieces of n bytes; fuel counts pieces. -/
def pieces (n : Nat) : Nat → List Byte → List (List Byte)
  | 0, _ => []
  | fuel + 1, bs => bs.take n :: pieces n fuel (bs.drop n)

/-- A row's bytes converted, with the flags of its conversions. -/
def convRow (conv : Nat) (bs : List Byte) : List Byte × Nat :=
  if conv = 0 then (bs, 0)
  else
    let n := convSize conv
    let rs := (pieces n (bs.length / n) bs).map fun p => convElem conv (leNat p)
    (rs.flatMap (·.1), orFlags (rs.map (·.2)))

/-- What a fill has come to: its bytes at local addresses, the addresses it would write, its record. -/
structure Fill where
  status : BitVec 8
  bytes  : List (Nat × Byte)
  extent : List Nat
  record : Record

/-- The key of a byte at an effective address of a command. -/
def State.cmdKey (s : State) (x : Cmd) (ea : Word) : Option Nat :=
  match spaceOf ea with
  | .localSp a => some (spKey (clOf x.ctx) a)
  | .global va => (s.page? x.who va).map (·.addr va)
  | _ => none

/-- Bytes that a command reads from an address upward, as the stores released before it left them: what its context has stored
over since its release counts as it was (R331). -/
def State.asReleased (s : State) (x : Cmd) (ea : Word) (bs : List Byte) : List Byte :=
  if x.past = [] then bs
  else bs.mapIdx fun i b => (((s.cmdKey x (ea + BitVec.ofNat 64 i)).bind fun k => x.past.find? (·.1 = k)).map (·.2)).getD b

/-- Local address of a copy's first output byte, and every address that it writes (R223, R231). -/
def State.copyBase (s : State) (x : Cmd) (t : Tmpl) : Nat := (s.plat (clOf x.ctx) (x.pn.getD 0).toNat).shadowAt + t.doff
def State.copyExtent (s : State) (x : Cmd) (t : Tmpl) : List Nat :=
  (List.range t.rows).flatMap fun r => (List.range t.rowOut).map fun i => s.copyBase x t + r * t.dstride + i

/-- What the copy engine finds at row r: its bytes converted, with flags; or the STATUS and address of a read that failed. -/
inductive CopyRow where
  | row (bytes : List (Nat × Byte)) (flags : Nat) (s : State)
  | bad (status : BitVec 8) (at_ : Word) (s : State)

/-- A command's read of n bytes: those that the stores released before it left (R314, R331). -/
def State.cmdRead (s : State) (x : Cmd) (ea : Word) (n : Nat) : ERead :=
  match s.engRead x.ctx x.who ea n with
  | .ok bs s => .ok (s.asReleased x ea bs) s
  | r => r

/-- Row r of a copy read and converted (R231). -/
def State.copyRow (s : State) (x : Cmd) (t : Tmpl) (a0 : Word) (r : Nat) : CopyRow :=
  match s.cmdRead x (t.src a0 r) t.rbytes with
  | .fail st a _ s => .bad st a s
  | .ok bs s =>
    let (out, f) := convRow t.conv bs
    .row (runAt (s.copyBase x t + r * t.dstride) out) f s

/-- The work of a copy whose row r, and with it the ones before, is the last that it reads: its bytes so far, the extent that it
would have written, its record with the rows that were read (R223, R231). -/
def State.copyFill (s : State) (x : Cmd) (ch tidx : Nat) (t : Tmpl) (rows : Nat) (status : BitVec 8) (at_ : Word) : Fill :=
  { status := status, bytes := x.out, extent := s.copyExtent x t,
    record := { copyRecord x.seq status (x.pn.getD 0) at_ rows tidx ch with flags := x.record.flags, key := x.id } }

end Sys2Proof.Machine
end

