-- ==== Sys2Proof/Machine/Vector.lean ====
section
/-! DEFINITION. Sys2Proof/Machine/Vector.lean: vector and predicate instructions (R138 to R159). -/

namespace Sys2Proof.Machine

/-! ### Shared forms -/

/-- Lane results, with their flags, for the active lanes of width w of vd; the inactive lanes keep their value, or
become zero when zero is set (R92, R138). The flags are those of the active lanes (R139). -/
def State.vmap (s : State) (d : BitVec 4) (p : BitVec 5) (w lat : Nat) (zero : Bool) (f : Nat → Nat × Nat) : State :=
  let pr := s.rp p
  let xs := (List.range (2048 / w)).map fun i => if active w pr i then f i else (0, 0)
  let s' := s.wv d lat (ofLanes w (xs.map (·.1))) (if zero then BitVec.allOnes 2048 else laneMask w pr)
  s'.wf lat (BitVec.ofNat 6 (orFlags (xs.map (·.2))))

/-- The whole of vd, lane by lane, whatever the predicate. -/
def State.vall (s : State) (d : BitVec 4) (w lat : Nat) (f : Nat → Nat) : State :=
  s.wv d lat (mkLanes w f) (BitVec.allOnes 2048)

/-- An integer operation on two lanes, both as naturals of width w, at 2 cy (R140, R141). -/
def State.vint2 (s : State) (d a b : BitVec 4) (p : BitVec 5) (t : Ty) (f : Nat → Nat → Nat → Nat) : Res :=
  let w := t.width
  let x := s.rv a
  let y := s.rv b
  .next (s.vmap d p w 2 false fun i => (f w (laneN w x i) (laneN w y i), 0))

/-- A saturating operation on two lanes at 2 cy (R140). -/
def State.vsat2 (s : State) (d a b : BitVec 4) (p : BitVec 5) (t : Ty) (signed : Bool) (f : Int → Int → Int) : Res :=
  let w := t.width
  let x := s.rv a
  let y := s.rv b
  let num := fun (v : VReg) (i : Nat) => if signed then laneI w v i else (laneN w v i : Int)
  .next (s.vmap d p w 2 false fun i => satInt w signed (f (num x i) (num y i)))

/-- A floating-point operation on two lanes at 4 cy, on bit patterns (R142). -/
def State.vflt2 (s : State) (d a b : BitVec 4) (p : BitVec 5) (t : Ty) (f : Fmt → Rm → Nat → Nat → Nat × Nat) : Res :=
  let w := t.width
  let x := s.rv a
  let y := s.rv b
  let rm := s.fpMode
  .next (s.vmap d p w 4 false fun i => f (fmtOf t) rm (laneN w x i) (laneN w y i))

/-- An operation of two values on bit patterns. -/
def onBits (f : Fmt → Rm → FVal → FVal → Nat × Nat) (g : Fmt) (rm : Rm) (x y : Nat) : Nat × Nat :=
  f g rm (decodeF g x) (decodeF g y)

/-- A fused multiply-add, integer or floating point, at 4 cy, with zeroing (R143). -/
def State.vfused (s : State) (d a b c : BitVec 4) (p : BitVec 5) (t : Ty) (z negP negC : Bool) : Res :=
  let w := t.width
  let x := s.rv a
  let y := s.rv b
  let v := s.rv c
  let rm := s.fpMode
  .next (s.vmap d p w 4 z fun i =>
    if t.isFloat then
      let g := fmtOf t
      fmaF g rm negP negC (decodeF g (laneN w x i)) (decodeF g (laneN w y i)) (decodeF g (laneN w v i))
    else
      let prod : Int := (laneN w x i * laneN w y i : Nat)
      let add : Int := (laneN w v i : Nat)
      (ofSigned w ((if negP then -prod else prod) + (if negC then -add else add)), 0))

/-- The low width bits of s[sb] as a lane operand (R144, R146). -/
def State.scalarLane (s : State) (b : BitVec 5) (w : Nat) : Nat := (s.rs b).toNat % 2 ^ w

/-- An integer operation of a lane and a scalar at 2 cy (R144). -/
def State.vsInt (s : State) (d a : BitVec 4) (b p : BitVec 5) (t : Ty) (f : Nat → Nat → Nat → Nat) : Res :=
  let w := t.width
  let x := s.rv a
  let y := s.scalarLane b w
  .next (s.vmap d p w 2 false fun i => (f w (laneN w x i) y, 0))

/-- A shift of every lane by the whole of s[sb] at 2 cy (R144). -/
def State.vsShift (s : State) (d a : BitVec 4) (b p : BitVec 5) (t : Ty) (f : Nat → Nat → Nat → Nat) : Res :=
  let w := t.width
  let x := s.rv a
  let y := (s.rs b).toNat
  .next (s.vmap d p w 2 false fun i => (f w (laneN w x i) y, 0))

/-- A floating-point operation of a lane, operand a, and a scalar, operand b, at 4 cy (R144). -/
def State.vsFlt (s : State) (d a : BitVec 4) (b p : BitVec 5) (t : Ty) (f : Fmt → Rm → Nat → Nat → Nat × Nat) : Res :=
  let w := t.width
  let x := s.rv a
  let y := s.scalarLane b w
  let rm := s.fpMode
  .next (s.vmap d p w 4 false fun i => f (fmtOf t) rm (laneN w x i) y)

/-! ### Lane operations of width w -/

def lAdd (w x y : Nat) : Nat := (x + y) % 2 ^ w
def lSub (w x y : Nat) : Nat := (x + 2 ^ w - y) % 2 ^ w
def lRsub (w x y : Nat) : Nat := (y + 2 ^ w - x) % 2 ^ w
def lMul (w x y : Nat) : Nat := x * y % 2 ^ w
/-- The high bits of the signed and of the natural product. -/
def lMulh (w x y : Nat) : Nat := ofSigned w (toSigned w x * toSigned w y / 2 ^ w)
def lMulhn (w x y : Nat) : Nat := x * y / 2 ^ w
def lMin (w x y : Nat) : Nat := if toSigned w y < toSigned w x then y else x
def lMax (w x y : Nat) : Nat := if toSigned w x < toSigned w y then y else x
def lMinn (_w x y : Nat) : Nat := min x y
def lMaxn (_w x y : Nat) : Nat := max x y
def lAnd (_w x y : Nat) : Nat := x &&& y
def lOr (_w x y : Nat) : Nat := x ||| y
def lXor (_w x y : Nat) : Nat := x ^^^ y
def lNot (w x : Nat) : Nat := 2 ^ w - 1 - x
def lAndn (w x y : Nat) : Nat := x &&& lNot w y
/-- The shifts: an amount of w or more gives 0, or copies of the sign (R141). -/
def lShl (w x n : Nat) : Nat := if n < w then (x <<< n) % 2 ^ w else 0
def lShr (w x n : Nat) : Nat := if n < w then x >>> n else 0
def lSra (w x n : Nat) : Nat := ofSigned w (toSigned w x / 2 ^ min n w)

/-- Subtraction with the operands exchanged. -/
def rsubF (f : Fmt) (rm : Rm) (a b : FVal) : Nat × Nat :=
  match firstNan f [a, b] with
  | some x => (x, snanFlag [a, b])
  | none => addNum f rm b a.neg

/-! ### Integer arithmetic (R140) -/

def execVaddI (d a b : BitVec 4) (p : BitVec 5) (t : Ty) (s : State) : Res := s.vint2 d a b p t lAdd
def execVsubI (d a b : BitVec 4) (p : BitVec 5) (t : Ty) (s : State) : Res := s.vint2 d a b p t lSub
def execVmulI (d a b : BitVec 4) (p : BitVec 5) (t : Ty) (s : State) : Res := s.vint2 d a b p t lMul
def execVmulh (d a b : BitVec 4) (p : BitVec 5) (t : Ty) (s : State) : Res := s.vint2 d a b p t lMulh
def execVmulhn (d a b : BitVec 4) (p : BitVec 5) (t : Ty) (s : State) : Res := s.vint2 d a b p t lMulhn
def execVminI (d a b : BitVec 4) (p : BitVec 5) (t : Ty) (s : State) : Res := s.vint2 d a b p t lMin
def execVmaxI (d a b : BitVec 4) (p : BitVec 5) (t : Ty) (s : State) : Res := s.vint2 d a b p t lMax
def execVminn (d a b : BitVec 4) (p : BitVec 5) (t : Ty) (s : State) : Res := s.vint2 d a b p t lMinn
def execVmaxn (d a b : BitVec 4) (p : BitVec 5) (t : Ty) (s : State) : Res := s.vint2 d a b p t lMaxn
def execVadds (d a b : BitVec 4) (p : BitVec 5) (t : Ty) (s : State) : Res := s.vsat2 d a b p t true (· + ·)
def execVaddsn (d a b : BitVec 4) (p : BitVec 5) (t : Ty) (s : State) : Res := s.vsat2 d a b p t false (· + ·)
def execVsubs (d a b : BitVec 4) (p : BitVec 5) (t : Ty) (s : State) : Res := s.vsat2 d a b p t true (· - ·)
def execVsubsn (d a b : BitVec 4) (p : BitVec 5) (t : Ty) (s : State) : Res := s.vsat2 d a b p t false (· - ·)
def execVabsI (d a : BitVec 4) (p : BitVec 5) (t : Ty) (s : State) : Res :=
  s.vint2 d a a p t fun w x _ => ofSigned w (toSigned w x).natAbs
def execVnegI (d a : BitVec 4) (p : BitVec 5) (t : Ty) (s : State) : Res :=
  s.vint2 d a a p t fun w x _ => ofSigned w (-(toSigned w x))
def execVidx (d : BitVec 4) (p : BitVec 5) (t : Ty) (s : State) : Res :=
  .next (s.vmap d p t.width 2 false fun i => (i % 2 ^ t.width, 0))

/-! ### Logic and shifts (R141) -/

def execVand (d a b : BitVec 4) (p : BitVec 5) (t : Ty) (s : State) : Res := s.vint2 d a b p t lAnd
def execVor (d a b : BitVec 4) (p : BitVec 5) (t : Ty) (s : State) : Res := s.vint2 d a b p t lOr
def execVxor (d a b : BitVec 4) (p : BitVec 5) (t : Ty) (s : State) : Res := s.vint2 d a b p t lXor
def execVandn (d a b : BitVec 4) (p : BitVec 5) (t : Ty) (s : State) : Res := s.vint2 d a b p t lAndn
def execVnot (d a : BitVec 4) (p : BitVec 5) (t : Ty) (s : State) : Res := s.vint2 d a a p t fun w x _ => lNot w x
def execVshl (d a b : BitVec 4) (p : BitVec 5) (t : Ty) (s : State) : Res := s.vint2 d a b p t lShl
def execVshr (d a b : BitVec 4) (p : BitVec 5) (t : Ty) (s : State) : Res := s.vint2 d a b p t lShr
def execVsra (d a b : BitVec 4) (p : BitVec 5) (t : Ty) (s : State) : Res := s.vint2 d a b p t lSra

/-! ### Floating point (R142, R143) -/

def execVaddF (d a b : BitVec 4) (p : BitVec 5) (t : Ty) (s : State) : Res := s.vflt2 d a b p t (onBits addF)
def execVsubF (d a b : BitVec 4) (p : BitVec 5) (t : Ty) (s : State) : Res := s.vflt2 d a b p t (onBits subF)
def execVmulF (d a b : BitVec 4) (p : BitVec 5) (t : Ty) (s : State) : Res := s.vflt2 d a b p t (onBits mulF)
def execVminF (d a b : BitVec 4) (p : BitVec 5) (t : Ty) (s : State) : Res := s.vflt2 d a b p t fun f _ => minF f
def execVmaxF (d a b : BitVec 4) (p : BitVec 5) (t : Ty) (s : State) : Res := s.vflt2 d a b p t fun f _ => maxF f
/-- The sign bit cleared; no flag, no quieting (R142). -/
def execVabsF (d a : BitVec 4) (p : BitVec 5) (t : Ty) (s : State) : Res :=
  s.vflt2 d a a p t fun f _ x _ => (x % 2 ^ (f.width - 1), 0)
/-- The sign bit inverted; no flag, no quieting (R142). -/
def execVnegF (d a : BitVec 4) (p : BitVec 5) (t : Ty) (s : State) : Res :=
  s.vflt2 d a a p t fun f _ x _ => (x ^^^ 2 ^ (f.width - 1), 0)
def execVfma (d a b c : BitVec 4) (p : BitVec 5) (t : Ty) (z : Bool) (s : State) : Res :=
  s.vfused d a b c p t z false false
def execVfms (d a b c : BitVec 4) (p : BitVec 5) (t : Ty) (z : Bool) (s : State) : Res :=
  s.vfused d a b c p t z false true
def execVfnma (d a b c : BitVec 4) (p : BitVec 5) (t : Ty) (z : Bool) (s : State) : Res :=
  s.vfused d a b c p t z true false

/-! ### Vector and scalar (R144) -/

def execVaddVsI (d a : BitVec 4) (b p : BitVec 5) (t : Ty) (s : State) : Res := s.vsInt d a b p t lAdd
def execVsubVsI (d a : BitVec 4) (b p : BitVec 5) (t : Ty) (s : State) : Res := s.vsInt d a b p t lSub
def execVrsubVsI (d a : BitVec 4) (b p : BitVec 5) (t : Ty) (s : State) : Res := s.vsInt d a b p t lRsub
def execVmulVsI (d a : BitVec 4) (b p : BitVec 5) (t : Ty) (s : State) : Res := s.vsInt d a b p t lMul
def execVminVsI (d a : BitVec 4) (b p : BitVec 5) (t : Ty) (s : State) : Res := s.vsInt d a b p t lMin
def execVmaxVsI (d a : BitVec 4) (b p : BitVec 5) (t : Ty) (s : State) : Res := s.vsInt d a b p t lMax
def execVminnVs (d a : BitVec 4) (b p : BitVec 5) (t : Ty) (s : State) : Res := s.vsInt d a b p t lMinn
def execVmaxnVs (d a : BitVec 4) (b p : BitVec 5) (t : Ty) (s : State) : Res := s.vsInt d a b p t lMaxn
def execVandVs (d a : BitVec 4) (b p : BitVec 5) (t : Ty) (s : State) : Res := s.vsInt d a b p t lAnd
def execVorVs (d a : BitVec 4) (b p : BitVec 5) (t : Ty) (s : State) : Res := s.vsInt d a b p t lOr
def execVxorVs (d a : BitVec 4) (b p : BitVec 5) (t : Ty) (s : State) : Res := s.vsInt d a b p t lXor
def execVshlVs (d a : BitVec 4) (b p : BitVec 5) (t : Ty) (s : State) : Res := s.vsShift d a b p t lShl
def execVshrVs (d a : BitVec 4) (b p : BitVec 5) (t : Ty) (s : State) : Res := s.vsShift d a b p t lShr
def execVsraVs (d a : BitVec 4) (b p : BitVec 5) (t : Ty) (s : State) : Res := s.vsShift d a b p t lSra
def execVaddVsF (d a : BitVec 4) (b p : BitVec 5) (t : Ty) (s : State) : Res := s.vsFlt d a b p t (onBits addF)
def execVsubVsF (d a : BitVec 4) (b p : BitVec 5) (t : Ty) (s : State) : Res := s.vsFlt d a b p t (onBits subF)
def execVrsubVsF (d a : BitVec 4) (b p : BitVec 5) (t : Ty) (s : State) : Res := s.vsFlt d a b p t (onBits rsubF)
def execVmulVsF (d a : BitVec 4) (b p : BitVec 5) (t : Ty) (s : State) : Res := s.vsFlt d a b p t (onBits mulF)
def execVminVsF (d a : BitVec 4) (b p : BitVec 5) (t : Ty) (s : State) : Res := s.vsFlt d a b p t fun f _ => minF f
def execVmaxVsF (d a : BitVec 4) (b p : BitVec 5) (t : Ty) (s : State) : Res := s.vsFlt d a b p t fun f _ => maxF f

/-! ### Select, broadcast, insert, extract, copy (R145 to R148) -/

/-- Every lane is written, whatever the predicate (R145). -/
def execVsel (d a b : BitVec 4) (p : BitVec 5) (t : Ty) (s : State) : Res :=
  let x := s.rv a
  let y := s.rv b
  let pr := s.rp p
  .next (s.vall d t.width 2 fun i => if active t.width pr i then laneN t.width x i else laneN t.width y i)

/-- R146. -/
def execVbcst (d : BitVec 4) (b p : BitVec 5) (t : Ty) (s : State) : Res :=
  let x := s.scalarLane b t.width
  .next (s.vmap d p t.width 2 false fun _ => (x, 0))

/-- R146: lane k x 16 + j. -/
def execVins (d k : BitVec 4) (b : BitVec 5) (t : Ty) (j : BitVec 4) (s : State) : Res :=
  let w := t.width
  let i := k.toNat * 16 + j.toNat
  .next (s.wv d 2 (BitVec.ofNat 2048 (s.scalarLane b w <<< (i * w))) (BitVec.ofNat 2048 ((2 ^ w - 1) <<< (i * w))))

/-- R147: lane k x 16 + j sign-extended. -/
def execVext (k a : BitVec 4) (d : BitVec 5) (t : Ty) (j : BitVec 4) (s : State) : Res :=
  .next (s.ws d 2 (BitVec.ofInt 64 (laneI t.width (s.rv a) (k.toNat * 16 + j.toNat))))

/-- R147: the lane's bit pattern zero-extended. -/
def execVextn (k a : BitVec 4) (d : BitVec 5) (t : Ty) (j : BitVec 4) (s : State) : Res :=
  .next (s.ws d 2 (BitVec.ofNat 64 (laneN t.width (s.rv a) (k.toNat * 16 + j.toNat))))

/-- The number of a group (R148). -/
def grpNo : Grp → Nat
  | .ga => 0
  | .gb => 1
  | .gc => 2

/-- R148: the active lanes of va into register d of another group. -/
def execVxc (d a : BitVec 4) (p : BitVec 5) (t : Ty) (g : Grp) (s : State) : Res :=
  .next (s.push 1 (.vec (grpNo g * 16 + d.toNat) (s.rv a) (laneMask t.width (s.rp p))))

/-! ### Compares, class tests, predicates (R149 to R153) -/

/-- A predicate whose element i of width w has all its bits set to f i (R149). -/
def mkPred (w : Nat) (f : Nat → Bool) : PReg :=
  BitVec.ofNat 256 (packNat (w / 8) ((List.range (2048 / w)).map fun i => if f i then 2 ^ (w / 8) - 1 else 0))

/-- A compare: true for the active elements for which f holds, with flags at 2 cy (R149). -/
def State.compare2 (s : State) (d : BitVec 5) (a b : BitVec 4) (p : BitVec 5) (t : Ty) (f : Nat → Nat → Bool)
    (flags : Nat → Nat → Nat) : Res :=
  let w := t.width
  let x := s.rv a
  let y := s.rv b
  let pr := s.rp p
  let s' := s.wp d 2 (mkPred w fun i => active w pr i && f (laneN w x i) (laneN w y i))
  .next (s'.wf 2 (BitVec.ofNat 6 (orFlags ((activeLanes w pr).map fun i => flags (laneN w x i) (laneN w y i)))))

/-- The conditions of R150 on integers. -/
def vccHolds (c : VCc) (x y : Int) : Bool :=
  match c with
  | .eq => x = y
  | .ne => x ≠ y
  | .lt => x < y
  | .ge => y ≤ x
  | .le => x ≤ y
  | .gt => y < x

/-- R150, signed. -/
def execVcmp (d : BitVec 5) (a b : BitVec 4) (p : BitVec 5) (t : Ty) (c : VCc) (s : State) : Res :=
  s.compare2 d a b p t (fun x y => vccHolds c (toSigned t.width x) (toSigned t.width y)) fun _ _ => 0

/-- R150, natural. -/
def execVcmpn (d : BitVec 5) (a b : BitVec 4) (p : BitVec 5) (t : Ty) (c : VCc) (s : State) : Res :=
  s.compare2 d a b p t (fun x y => vccHolds c x y) fun _ _ => 0

/-- The conditions of R151 on bit patterns. -/
def fccHolds (f : Fmt) (c : FCc) (x y : Nat) : Bool :=
  let nan := (decodeF f x).isNan || (decodeF f y).isNan
  let i := numKey f x
  let j := numKey f y
  match c with
  | .eq => !nan && decide (i = j)
  | .ne => nan || decide (i ≠ j)
  | .lt => !nan && decide (i < j)
  | .le => !nan && decide (i ≤ j)
  | .gt => !nan && decide (j < i)
  | .ge => !nan && decide (j ≤ i)
  | .un => nan
  | .ord => !nan

/-- R151, the quiet form: NV for a signalling NaN. -/
def execVfcmp (d : BitVec 5) (a b : BitVec 4) (p : BitVec 5) (t : Ty) (c : FCc) (s : State) : Res :=
  s.compare2 d a b p t (fccHolds (fmtOf t) c) fun x y => snanFlag [decodeF (fmtOf t) x, decodeF (fmtOf t) y]

/-- R151, the signalling form: NV for any NaN. -/
def execVfcmpSig (d : BitVec 5) (a b : BitVec 4) (p : BitVec 5) (t : Ty) (c : FCc) (s : State) : Res :=
  s.compare2 d a b p t (fccHolds (fmtOf t) c) fun x y =>
    if (decodeF (fmtOf t) x).isNan || (decodeF (fmtOf t) y).isNan then fNV else 0

/-- The class of a bit pattern (R152). -/
def classOf (f : Fmt) (x : Nat) : Nat :=
  let sub := bits x f.mb f.eb = 0
  match decodeF f x with
  | .nan _ m => if m < 2 ^ 22 then 7 else 8
  | .inf s => if s then 0 else 6
  | .fin s m _ => if m = 0 then 3 else if s then (if sub then 2 else 1) else (if sub then 4 else 5)

/-- R152: the mask is m in bits 3:0, n in 6:4, k in 8:7. -/
def execVclass (d : BitVec 5) (a m : BitVec 4) (p : BitVec 5) (t : Ty) (n : BitVec 3) (k : BitVec 2) (s : State) : Res :=
  let mask := m.toNat + n.toNat * 2 ^ 4 + k.toNat * 2 ^ 7
  s.compare2 d a a p t (fun x _ => tst mask (classOf (fmtOf t) x)) fun _ _ => 0

/-- R153. -/
def execPand (d a b : BitVec 5) (s : State) : Res := .next (s.wp d 1 (s.rp a &&& s.rp b))
/-- R153. -/
def execPor (d a b : BitVec 5) (s : State) : Res := .next (s.wp d 1 (s.rp a ||| s.rp b))
/-- R153. -/
def execPxor (d a b : BitVec 5) (s : State) : Res := .next (s.wp d 1 (s.rp a ^^^ s.rp b))
/-- R153. -/
def execPandn (d a b : BitVec 5) (s : State) : Res := .next (s.wp d 1 (s.rp a &&& ~~~s.rp b))
/-- R153. -/
def execPnot (d a : BitVec 5) (s : State) : Res := .next (s.wp d 1 (~~~s.rp a))
/-- R153. -/
def execPsel (d a b c : BitVec 5) (s : State) : Res :=
  .next (s.wp d 1 ((s.rp a &&& s.rp c) ||| (s.rp b &&& ~~~s.rp c)))
/-- R153: the lowest set bit alone. -/
def execPfirst (d a : BitVec 5) (s : State) : Res := .next (s.wp d 1 (s.rp a &&& -(s.rp a)))

/-! ### Permutes (R154 to R157) -/

/-- Lanes taken from the operands at active lanes, at 2 cy. -/
def State.vperm2 (s : State) (d a b : BitVec 4) (p : BitVec 5) (t : Ty) (f : Nat → VReg → VReg → Nat → Nat) : Res :=
  let x := s.rv a
  let y := s.rv b
  .next (s.vmap d p t.width 2 false fun i => (f t.width x y i, 0))

/-- R154. -/
def execVperm (d a b : BitVec 4) (p : BitVec 5) (t : Ty) (s : State) : Res :=
  s.vperm2 d a b p t fun w x y i => laneN w x (laneN w y i % (2048 / w))

/-- R155. -/
def execVrot (d a : BitVec 4) (b p : BitVec 5) (t : Ty) (s : State) : Res :=
  let k := (s.rs b).toNat
  s.vperm2 d a a p t fun w x _ i => laneN w x ((i + k) % (2048 / w))

/-- R155. -/
def execVslideDn (d a : BitVec 4) (b p : BitVec 5) (t : Ty) (s : State) : Res :=
  let k := (s.rs b).toNat
  s.vperm2 d a a p t fun w x _ i => if i + k < 2048 / w then laneN w x (i + k) else 0

/-- R155. -/
def execVslideUp (d a : BitVec 4) (b p : BitVec 5) (t : Ty) (s : State) : Res :=
  let k := (s.rs b).toNat
  s.vperm2 d a a p t fun w x _ i => if k ≤ i then laneN w x (i - k) else 0

/-- R156. -/
def execVzipLo (d a b : BitVec 4) (p : BitVec 5) (t : Ty) (s : State) : Res :=
  s.vperm2 d a b p t fun w x y i => if i % 2 = 0 then laneN w x (i / 2) else laneN w y (i / 2)

/-- R156. -/
def execVzipHi (d a b : BitVec 4) (p : BitVec 5) (t : Ty) (s : State) : Res :=
  s.vperm2 d a b p t fun w x y i =>
    let j := i / 2 + 2048 / w / 2
    if i % 2 = 0 then laneN w x j else laneN w y j

/-- Element i of va below vb (R156). -/
def concatLane (w : Nat) (x y : VReg) (i : Nat) : Nat := if i < 2048 / w then laneN w x i else laneN w y (i - 2048 / w)

/-- R156. -/
def execVunzipEv (d a b : BitVec 4) (p : BitVec 5) (t : Ty) (s : State) : Res :=
  s.vperm2 d a b p t fun w x y i => concatLane w x y (2 * i)

/-- R156. -/
def execVunzipOd (d a b : BitVec 4) (p : BitVec 5) (t : Ty) (s : State) : Res :=
  s.vperm2 d a b p t fun w x y i => concatLane w x y (2 * i + 1)

/-- R157: compress; every lane is written. -/
def execVcmpr (d a : BitVec 4) (p : BitVec 5) (t : Ty) (s : State) : Res :=
  let w := t.width
  .next (s.wv d 2 (ofLanes w ((activeLanes w (s.rp p)).map (laneN w (s.rv a)))) (BitVec.allOnes 2048))

/-- R157: expand; the m-th active lane takes lane m. -/
def execVexpd (d a : BitVec 4) (p : BitVec 5) (t : Ty) (s : State) : Res :=
  let pr := s.rp p
  s.vperm2 d a a p t fun w x _ i => laneN w x ((List.range i).countP (active w pr))

/-! ### Reductions (R158) and scans (R159) -/

/-- One level of the tree: neighbours combined, lower lane first, with the flags of every node. -/
def pairUp (op : Nat → Nat → Nat × Nat) : List Nat → List Nat × Nat
  | x :: y :: r =>
    let z := op x y
    let t := pairUp op r
    (z.1 :: t.1, z.2 ||| t.2)
  | xs => (xs, 0)

/-- n levels of the tree. -/
def treeFold (op : Nat → Nat → Nat × Nat) : Nat → List Nat → List Nat × Nat
  | 0, xs => (xs, 0)
  | n + 1, xs =>
    let y := pairUp op xs
    let z := treeFold op n y.1
    (z.1, y.2 ||| z.2)

/-- A reduction: the inactive lanes are the identity, the initial value is lane 0 of vb, and every other bit of vd
becomes zero (R158). -/
def State.vred (s : State) (d a b : BitVec 4) (p : BitVec 5) (t : Ty) (lat ident : Nat) (op : Nat → Nat → Nat × Nat) : Res :=
  let w := t.width
  let pr := s.rp p
  let x := s.rv a
  let ls := (List.range (2048 / w)).map fun i => if active w pr i then laneN w x i else ident
  let r := treeFold op 8 ls
  let z := op (laneN w (s.rv b) 0) (r.1.headD ident)
  .next ((s.wv d lat (BitVec.ofNat 2048 z.1) (BitVec.allOnes 2048)).wf lat (BitVec.ofNat 6 (r.2 ||| z.2)))

/-- A scan, carried in from lane 0 of vb; inactive lanes keep their value (R159). -/
def State.vscan (s : State) (d a b : BitVec 4) (p : BitVec 5) (t : Ty) (lat : Nat) (op : Nat → Nat → Nat × Nat) : Res :=
  let w := t.width
  let pr := s.rp p
  let x := s.rv a
  let r := (List.range (2048 / w)).foldl (fun (acc : Nat × Nat × List Nat) i =>
    if active w pr i then
      let z := op acc.1 (laneN w x i)
      (z.1, acc.2.1 ||| z.2, acc.2.2 ++ [z.1])
    else (acc.1, acc.2.1, acc.2.2 ++ [0])) (laneN w (s.rv b) 0, 0, [])
  .next ((s.wv d lat (ofLanes w r.2.2) (laneMask w pr)).wf lat (BitVec.ofNat 6 r.2.1))

/-- An operation without flags. -/
def quiet (f : Nat → Nat → Nat → Nat) (w x y : Nat) : Nat × Nat := (f w x y, 0)

/-- The largest and the smallest of the signed type of width w, as bit patterns. -/
def typeMax (w : Nat) : Nat := 2 ^ (w - 1) - 1
def typeMin (w : Nat) : Nat := 2 ^ (w - 1)

def execVredAddI (d a b : BitVec 4) (p : BitVec 5) (t : Ty) (s : State) : Res := s.vred d a b p t 4 0 (quiet lAdd t.width)
def execVredMin (d a b : BitVec 4) (p : BitVec 5) (t : Ty) (s : State) : Res :=
  s.vred d a b p t 4 (typeMax t.width) (quiet lMin t.width)
def execVredMax (d a b : BitVec 4) (p : BitVec 5) (t : Ty) (s : State) : Res :=
  s.vred d a b p t 4 (typeMin t.width) (quiet lMax t.width)
def execVredMinn (d a b : BitVec 4) (p : BitVec 5) (t : Ty) (s : State) : Res :=
  s.vred d a b p t 4 (2 ^ t.width - 1) (quiet lMinn t.width)
def execVredMaxn (d a b : BitVec 4) (p : BitVec 5) (t : Ty) (s : State) : Res := s.vred d a b p t 4 0 (quiet lMaxn t.width)
def execVredAnd (d a b : BitVec 4) (p : BitVec 5) (t : Ty) (s : State) : Res :=
  s.vred d a b p t 4 (2 ^ t.width - 1) (quiet lAnd t.width)
def execVredOr (d a b : BitVec 4) (p : BitVec 5) (t : Ty) (s : State) : Res := s.vred d a b p t 4 0 (quiet lOr t.width)
def execVredXor (d a b : BitVec 4) (p : BitVec 5) (t : Ty) (s : State) : Res := s.vred d a b p t 4 0 (quiet lXor t.width)
/-- The identity is -0 (R158). -/
def execVredAddF (d a b : BitVec 4) (p : BitVec 5) (t : Ty) (s : State) : Res :=
  s.vred d a b p t 8 ((fmtOf t).signed true 0) (onBits addF (fmtOf t) s.fpMode)
def execVredMinF (d a b : BitVec 4) (p : BitVec 5) (t : Ty) (s : State) : Res :=
  s.vred d a b p t 8 (fmtOf t).infMag (minF (fmtOf t))
def execVredMaxF (d a b : BitVec 4) (p : BitVec 5) (t : Ty) (s : State) : Res :=
  s.vred d a b p t 8 ((fmtOf t).signed true (fmtOf t).infMag) (maxF (fmtOf t))
/-- The number of active elements, in bits 63:0 (R158). -/
def execVredCnt (d : BitVec 4) (p : BitVec 5) (t : Ty) (s : State) : Res :=
  .next (s.wv d 4 (BitVec.ofNat 2048 (activeLanes t.width (s.rp p)).length) (BitVec.allOnes 2048))

def execVscanAddI (d a b : BitVec 4) (p : BitVec 5) (t : Ty) (s : State) : Res := s.vscan d a b p t 4 (quiet lAdd t.width)
def execVscanMin (d a b : BitVec 4) (p : BitVec 5) (t : Ty) (s : State) : Res := s.vscan d a b p t 4 (quiet lMin t.width)
def execVscanMax (d a b : BitVec 4) (p : BitVec 5) (t : Ty) (s : State) : Res := s.vscan d a b p t 4 (quiet lMax t.width)
def execVscanMinn (d a b : BitVec 4) (p : BitVec 5) (t : Ty) (s : State) : Res := s.vscan d a b p t 4 (quiet lMinn t.width)
def execVscanMaxn (d a b : BitVec 4) (p : BitVec 5) (t : Ty) (s : State) : Res := s.vscan d a b p t 4 (quiet lMaxn t.width)
def execVscanAddF (d a b : BitVec 4) (p : BitVec 5) (t : Ty) (s : State) : Res :=
  s.vscan d a b p t 8 (onBits addF (fmtOf t) s.fpMode)
def execVscanMinF (d a b : BitVec 4) (p : BitVec 5) (t : Ty) (s : State) : Res := s.vscan d a b p t 8 (minF (fmtOf t))
def execVscanMaxF (d a b : BitVec 4) (p : BitVec 5) (t : Ty) (s : State) : Res := s.vscan d a b p t 8 (maxF (fmtOf t))

end Sys2Proof.Machine
end

