-- ==== Sys2Proof/Machine/Special.lean ====
section
/-! DEFINITION. Sys2Proof/Machine/Special.lean: the X slot: transcendental functions and division (R165 to R171), the
Skink (R172 to R179), histogram, scale and packing (R180 to R184). -/

namespace Sys2Proof.Machine

/-! ### Enclosures of the exact values

Fixed-point integers at scale 2^P. Every helper errs by less than 2^24 units of 2^-P in the uses below (log 9). -/

/-- The sum over k from i to i + n - 1 of the terms t, t r/(i+1), t r^2/((i+1)(i+2)), ... of the exponential series. -/
def expTerms (P : Nat) (r : Int) : Nat → Nat → Int → Int
  | 0, _, _ => 0
  | n + 1, i, t => t + expTerms P r n (i + 1) (t * r / 2 ^ P / (i + 1))

/-- e^r for 0 ≤ r < 1. -/
def expFix (P : Nat) (r : Int) : Int := expTerms P r 90 0 (2 ^ P)

/-- The sum of z^(2i+1)/(2i+1) over n terms, p the power, z2 the square. -/
def atanhTerms (P : Nat) (z2 : Int) : Nat → Nat → Int → Int
  | 0, _, _ => 0
  | n + 1, i, p => p / (2 * i + 1) + atanhTerms P z2 n (i + 1) (p * z2 / 2 ^ P)

/-- atanh z for |z| ≤ 1/3. -/
def atanhFix (P : Nat) (z : Int) : Int := atanhTerms P (z * z / 2 ^ P) 120 0 z

/-- ln 2 = 2 atanh(1/3). -/
def ln2Fix (P : Nat) : Int := 2 * atanhFix P (2 ^ P / 3)

/-- m x 2^e at scale 2^P, rounded down. -/
def fixOf (P : Nat) (m e : Int) : Int := if 0 ≤ e + P then m * 2 ^ (e + P).toNat else m / 2 ^ (-(e + P)).toNat

/-- An approximation a x 2^(k-P) of an exponential, as (a, k). -/
def expPair (P : Nat) (x : Int) : Int × Int :=
  let l := ln2Fix P
  let k := x / l
  (expFix P (x - k * l), k)

/-- 2^x as (a, k). -/
def exp2Pair (P : Nat) (x : Int) : Int × Int :=
  let k := x / 2 ^ P
  (expFix P ((x - k * 2 ^ P) * ln2Fix P / 2 ^ P), k)

/-- ln of m x 2^e (m > 0) at scale 2^P. -/
def lnFix (P : Nat) (m : Nat) (e : Int) : Int :=
  let n := m.log2
  let u := fixOf P m (-(n : Int))
  let big := 4 * 2 ^ P ≤ 3 * u
  let u' := if big then u / 2 else u
  let k : Int := n + e + (if big then 1 else 0)
  k * ln2Fix P + 2 * atanhFix P ((u' - 2 ^ P) * 2 ^ P / (u' + 2 ^ P))

/-- The slack of the helpers, in units of 2^-P. -/
def fixSlack : Int := 2 ^ 24

/-- n/d x 2^k, of a sign. -/
structure Quot where
  s : Bool
  n : Nat
  d : Nat
  k : Int
  deriving DecidableEq, Repr

/-- a x 2^k for an integer a. -/
def Quot.ofInt (a k : Int) : Quot := { s := a < 0, n := a.natAbs, d := 1, k := k }

/-- A bound rounded to nearest. -/
def Quot.round (f : Fmt) (q : Quot) : Nat × Nat := if q.n = 0 then (f.signed q.s 0, fUF ||| fNX) else roundQ f .rne 0 q.s q.n q.d q.k

/-- The rational (a x 2^k + u)/(a x 2^k + v) for a > 0. -/
def ratio1 (a k : Int) (u v : Int) : Quot :=
  let n : Int × Int := if 0 ≤ k then (a * 2 ^ k.toNat + u, a * 2 ^ k.toNat + v)
    else (a + u * 2 ^ (-k).toNat, a + v * 2 ^ (-k).toNat)
  { s := n.1 < 0, n := n.1.natAbs, d := max n.2.natAbs 1, k := 0 }

/-- The functions that are transcendental at every operand but the exact ones of R169. -/
inductive TFn where
  | exp2
  | log2
  | exp
  | log
  | tanh
  | sig
  deriving DecidableEq, Repr

/-- Bounds below and above the function of m x 2^e (m a nonzero integer) computed at scale 2^P; m > 0 for the logarithms
and for tanh. -/
def enclose (fn : TFn) (P : Nat) (m e : Int) : Quot × Quot :=
  let w := fixSlack
  match fn with
  | .exp2 =>
    let p := exp2Pair P (fixOf P m e)
    (Quot.ofInt (p.1 - w) (p.2 - P), Quot.ofInt (p.1 + w) (p.2 - P))
  | .exp =>
    let p := expPair P (fixOf P m e)
    (Quot.ofInt (p.1 - w) (p.2 - P), Quot.ofInt (p.1 + w) (p.2 - P))
  | .log =>
    let y := lnFix P m.natAbs e
    (Quot.ofInt (y - w) (-(P : Int)), Quot.ofInt (y + w) (-(P : Int)))
  | .log2 =>
    let y := lnFix P m.natAbs e * 2 ^ P / ln2Fix P
    (Quot.ofInt (y - w) (-(P : Int)), Quot.ofInt (y + w) (-(P : Int)))
  | .tanh =>
    let p := expPair P (fixOf P m (e + 1))
    (ratio1 (p.1 - w) (p.2 - P) (-1) 1, ratio1 (p.1 + w) (p.2 - P) (-1) 1)
  | .sig =>
    let p := expPair P (fixOf P m e)
    (ratio1 (p.1 - w) (p.2 - P) 0 1, ratio1 (p.1 + w) (p.2 - P) 0 1)

/-- The result both bounds round to, at the first of the precisions where they agree; where none decides, a free value
(log 9). -/
def decideRound (f : Fmt) (fn : TFn) (m e : Int) (x : Nat) : List Nat → Nat × Nat
  | [] => ((Config.freeRounding f.mb (BitVec.ofNat 32 x)).toNat % 2 ^ f.width, fNX)
  | P :: r =>
    let b := enclose fn P m e
    let lo := b.1.round f
    if lo = b.2.round f then lo else decideRound f fn m e x r

/-- UF as R170 gives it for the functions of R167: a result below the smallest normal that differs from y. -/
def xFlags (f : Fmt) (r : Nat × Nat) : Nat × Nat :=
  let sub := bits r.1 f.mb f.eb = 0
  (r.1, (r.2 &&& (63 - fUF)) ||| (if r.2 &&& fNX ≠ 0 ∧ sub then fUF else 0))

/-- The value one, and one half, in a format. -/
def Fmt.one (f : Fmt) : Nat := f.bias <<< f.mb
def Fmt.half (f : Fmt) : Nat := (f.bias - 1) <<< f.mb

/-- rne of an exact dyadic bound that stands for every value of a range that rounds alike. -/
def near (f : Fmt) (s : Bool) (n : Nat) (k : Int) : Nat × Nat := roundQ f .rne 0 s n 1 k

/-- The function of a finite nonzero operand, x its bits (R168, R169): shortcuts where the whole range rounds alike, the
exact points, otherwise the enclosure. -/
def tFinite (f : Fmt) (fn : TFn) (s : Bool) (m : Nat) (e : Int) (x : Nat) : Nat × Nat :=
  let top : Int := (m.log2 : Int) + e
  let mi : Int := if s then -(m : Int) else m
  let ps := [160, 320]
  match fn with
  | .exp2 =>
    if 9 < top then (if s then near f false 1 (-1000) else f.overflow .rne false)
    else if 0 ≤ e ∨ m % 2 ^ (-e).toNat = 0 then near f false 1 (fixOf 0 mi e)
    else decideRound f fn mi e x ps
  | .exp =>
    if 9 < top then (if s then near f false 1 (-1000) else f.overflow .rne false) else decideRound f fn mi e x ps
  | .log2 =>
    if s then (f.cnan, fNV)
    else if m = 2 ^ m.log2 then convIF f .rne 0 top
    else decideRound f fn mi e x ps
  | .log =>
    if s then (f.cnan, fNV) else if top = 0 ∧ m = 2 ^ m.log2 then (f.signed false 0, 0) else decideRound f fn mi e x ps
  | .tanh =>
    let r := if top < -40 then near f false (m * (2 ^ 75 - 1)) (e - 75)
      else if 6 < top then near f false (2 ^ 100 - 1) (-100)
      else decideRound f fn m e (x % 2 ^ (f.eb + f.mb)) ps
    (r.1 % 2 ^ (f.eb + f.mb) ||| (bit s <<< (f.eb + f.mb)), r.2)
  | .sig =>
    if 9 < top then (if s then near f false 1 (-1000) else near f false (2 ^ 100 - 1) (-100))
    else decideRound f fn mi e x ps

/-- The functions of R167 decided by enclosure, on a bit pattern (R168 to R170). -/
def tEval (f : Fmt) (fn : TFn) (x : Nat) : Nat × Nat :=
  match decodeF f x with
  | .nan s m => (f.nan s m, if m < 2 ^ 22 then fNV else 0)
  | .inf s =>
    match fn with
    | .exp2 => if s then (0, 0) else (f.infMag, 0)
    | .exp => if s then (0, 0) else (f.infMag, 0)
    | .log2 => if s then (f.cnan, fNV) else (f.infMag, 0)
    | .log => if s then (f.cnan, fNV) else (f.infMag, 0)
    | .tanh => (f.signed s f.one, 0)
    | .sig => if s then (0, 0) else (f.one, 0)
  | .fin s m e =>
    if m = 0 then
      match fn with
      | .exp2 => (f.one, 0)
      | .exp => (f.one, 0)
      | .log2 => (f.signed true f.infMag, fDZ)
      | .log => (f.signed true f.infMag, fDZ)
      | .tanh => (f.signed s 0, 0)
      | .sig => (f.half, 0)
    else xFlags f (tFinite f fn s m e x)

/-- 1/x, rounded to nearest (R167, R168, R170). -/
def rcpEval (f : Fmt) (x : Nat) : Nat × Nat :=
  match decodeF f x with
  | .nan s m => (f.nan s m, if m < 2 ^ 22 then fNV else 0)
  | .inf s => (f.signed s 0, 0)
  | .fin s m e => if m = 0 then (f.signed s f.infMag, fDZ) else xFlags f (roundQ f .rne 0 s 1 m (-e))

/-- 1/sqrt x, rounded to nearest (R167, R168, R170): the root of 2^200/m, an inexact one put between two neighbours. -/
def rsqrtEval (f : Fmt) (x : Nat) : Nat × Nat :=
  match decodeF f x with
  | .nan s m => (f.nan s m, if m < 2 ^ 22 then fNV else 0)
  | .inf s => if s then (f.cnan, fNV) else (0, 0)
  | .fin s m e =>
    if m = 0 then (f.signed s f.infMag, fDZ)
    else if s then (f.cnan, fNV)
    else
      let m' := if e % 2 = 0 then m else 2 * m
      let e' := if e % 2 = 0 then e else e - 1
      let q := 2 ^ 200 / m'
      let r := isqrt q (q.log2 / 2 + 1) 0
      xFlags f (roundQ f .rne 0 false (if r * r * m' = 2 ^ 200 then 2 * r else 2 * r + 1) 1 (-(e' / 2) - 101))

/-- One function of each active lane at 8 cy (R167). -/
def State.vfun (s : State) (d a : BitVec 4) (p : BitVec 5) (t : Ty) (f : Fmt → Nat → Nat × Nat) : Res :=
  let w := t.width
  let x := s.rv a
  .next (s.vmap d p w 8 false fun i => f (fmtOf t) (laneN w x i))

/-- R167. -/
def execFexp2 (d a : BitVec 4) (p : BitVec 5) (t : Ty) (s : State) : Res := s.vfun d a p t fun f => tEval f .exp2
/-- R167. -/
def execFlog2 (d a : BitVec 4) (p : BitVec 5) (t : Ty) (s : State) : Res := s.vfun d a p t fun f => tEval f .log2
/-- R167. -/
def execFexp (d a : BitVec 4) (p : BitVec 5) (t : Ty) (s : State) : Res := s.vfun d a p t fun f => tEval f .exp
/-- R167. -/
def execFlog (d a : BitVec 4) (p : BitVec 5) (t : Ty) (s : State) : Res := s.vfun d a p t fun f => tEval f .log
/-- R167. -/
def execFrcp (d a : BitVec 4) (p : BitVec 5) (t : Ty) (s : State) : Res := s.vfun d a p t rcpEval
/-- R167. -/
def execFrsqrt (d a : BitVec 4) (p : BitVec 5) (t : Ty) (s : State) : Res := s.vfun d a p t rsqrtEval
/-- R167: rounded in FP.MODE. -/
def execFsqrt (d a : BitVec 4) (p : BitVec 5) (t : Ty) (s : State) : Res :=
  s.vfun d a p t fun f x => sqrtF f s.fpMode (decodeF f x)
/-- R167. -/
def execFtanh (d a : BitVec 4) (p : BitVec 5) (t : Ty) (s : State) : Res := s.vfun d a p t fun f => tEval f .tanh
/-- R167. -/
def execFsig (d a : BitVec 4) (p : BitVec 5) (t : Ty) (s : State) : Res := s.vfun d a p t fun f => tEval f .sig

/-- R171. -/
def execFdiv (d a b : BitVec 4) (p : BitVec 5) (t : Ty) (s : State) : Res :=
  let w := t.width
  let x := s.rv a
  let y := s.rv b
  let rm := s.fpMode
  .next (s.vmap d p w 8 false fun i => onBits divF (fmtOf t) rm (laneN w x i) (laneN w y i))

/-! ### The Skink -/

/-- The Skink point of a dimension at an index (R174). -/
def SkinkDim.point (dm : SkinkDim) (i : BitVec 32) : BitVec 32 :=
  let y := (List.range 32).foldl (fun y b => if i.getLsbD b then y ^^^ dm.v.getD b 0 else y) (0 : BitVec 32)
  let x := packNat 1 ((List.range 32).map fun k => popNat 32 (dm.l.getD k 0 &&& y).toNat % 2)
  BitVec.ofNat 32 x ^^^ dm.h

/-- The lane value of an output form (R175). -/
def qrLane (o : QOut) (x : BitVec 32) : Nat :=
  match o with
  | .raw => x.toNat
  | .co => (roundDy fmtF32 .rne 0 false (x.toNat >>> 8 : Nat) (-24)).1
  | .oo => (roundDy fmtF32 .rne 0 false (2 * (x.toNat >>> 9) + 1 : Nat) (-24)).1

/-- R175: m is the mode, idx or dim. -/
def execQrgen (d : BitVec 4) (b p : BitVec 5) (_t : Ty) (m : Bool) (o : QOut) (s : State) : Res :=
  let a := s.rs b
  let i0 := fld a 0 32
  let d0 := fld a 32 5
  let tab := s.cur.vis.skink
  .next (s.vmap d p 32 6 false fun j =>
    let dm := if m then (d0 + j) % 32 else d0
    let i := if m then i0 + (d0 + j) / 32 else i0 + j
    (qrLane o ((tab.getD dm SkinkDim.reset).point (BitVec.ofNat 32 i)), 0))

/-- Word w of the sequence that a seed gives dimension d (R177). -/
def scrambleWord (seed : Word) (d w : Nat) : BitVec 32 :=
  let g : Word := 0x9E3779B97F4A7C15
  let z := (seed ^^^ (BitVec.ofNat 64 (d + 1) * g)) + BitVec.ofNat 64 (w + 1) * g
  let t := (z ^^^ (z >>> 30)) * 0xBF58476D1CE4E5B9
  let t := (t ^^^ (t >>> 27)) * 0x94D049BB133111EB
  let t := t ^^^ (t >>> 31)
  (t >>> 32).setWidth 32

/-- The dimensions d0 to d0 + n, each changed by an effect at latency lat. -/
def State.eachDim (s : State) (n d : BitVec 5) (lat : Nat) (f : Nat → Eff) : State :=
  (List.range (n.toNat + 1)).foldl (fun s i => s.push lat (f (d.toNat + i))) s

/-- R177. n holds the count less one. -/
def execQrscr (a n d : BitVec 5) (s : State) : Res :=
  let seed := s.rs a
  .next (s.eachDim n d 36 fun k =>
    .skinkScr k (Vector.ofFn fun r => canonRow r.val (scrambleWord seed k r.val)) (scrambleWord seed k 32))

/-- R177, the identity. -/
def execQrscrId (n d : BitVec 5) (s : State) : Res := .next (s.eachDim n d 36 fun k => .skinkScr k identityRows 0)

/-! ### Histogram, scale, packing -/

/-- R182: each active lane counts in its arrival cycle. The base is the one that stands then; only `hclr` changes it, and
in issue order, so the base of the newest `hclr` in flight is used. -/
def execHist (a : BitVec 4) (p : BitVec 5) (t : Ty) (s : State) : Res :=
  let w := t.width
  let x := s.rv a
  let base := s.cur.pend.foldl (fun (b : BitVec 9) q => match q.eff with
    | .histClear b' => b'
    | _ => b) s.cur.vis.hist.base
  .next (s.push 2 (.histAdd ((activeLanes w (s.rp p)).filterMap fun i => histSlot base.toInt (decodeF (fmtOf t) (laneN w x i)))))

/-- R182: the bins. -/
def execHistRd (d : BitVec 4) (s : State) : Res :=
  .next (s.vall d 32 2 fun i => (s.cur.vis.hist.bins.getD i 0).toNat)

/-- R182: under, over, base, the saturating sum of all counters. -/
def execHistRdx (d : BitVec 4) (s : State) : Res :=
  let h := s.cur.vis.hist
  let sum := h.under.toNat + h.above.toNat + (h.bins.toList.map (·.toNat)).sum
  .next (s.vall d 32 2 fun i =>
    if i = 0 then h.under.toNat else if i = 1 then h.above.toNat else if i = 2 then ofSigned 32 h.base.toInt
    else if i = 3 then min sum 0xFFFFFFFF else 0)

/-- R181. -/
def execHclr (a : BitVec 5) (s : State) : Res := .next (s.push 2 (.histClear ((s.rs a).setWidth 9)))

/-- R183. -/
def execQscale (d : BitVec 4) (b p : BitVec 5) (s : State) : Res :=
  let h := s.cur.vis.hist
  let bins := h.bins.toList.map (·.toNat)
  let total := h.under.toNat + h.above.toNat + bins.sum
  let sc := chooseScale h.base.toInt bins h.under.toNat total (min (s.rs b).toNat 256)
  .next (s.vmap d p 32 4 false fun _ => (sc, 0))

/-- R184: one Q4O block into bytes 64q + 63 : 64q. -/
def execQpack (d a b : BitVec 4) (p : BitVec 5) (t : Ty) (q : BitVec 2) (s : State) : Res :=
  let w := t.width
  let x := s.rv a
  let pr := s.rp p
  let lay := laneN 32 (s.rv b) 0
  let w0 := if bits lay 8 7 = 0 then 124 else bits lay 8 7
  let r0 := bits lay 15 7
  let bad := r0 = 0 ∨ 124 < w0 ∨ 62 < r0 * ((w0 + 1) / 2)
  let rw := if bad then 124 else w0
  let rpb := if bad then 1 else r0
  let elem := fun (m : Nat) => if m < 2048 / w ∧ active w pr m then decodeF (fmtOf t) (laneN w x m) else intVal 0
  let e := encodeBlock 1 (bits lay 0 8) rw ((List.range rpb).map fun r => fun k => elem (r * rw + k))
  let s' := s.wv d 4 (BitVec.ofNat 2048 (e.blk <<< (512 * q.toNat))) (BitVec.ofNat 2048 ((2 ^ 512 - 1) <<< (512 * q.toNat)))
  let s' := s'.wf 4 (BitVec.ofNat 6 e.flags)
  .next (if e.sats = 0 then s' else s'.push 4 (.sat e.sats))

end Sys2Proof.Machine
end

