-- ==== Sys2Proof/Machine/Memory.lean ====
section
/-! DEFINITION. Sys2Proof/Machine/Memory.lean: loads and stores, scalar, vector and described, load-blocks and locks,
Skink images in memory (R176, R190 to R204), the arrival of lines and granules (R190, R196). -/

namespace Sys2Proof.Machine

/-! ### Addresses of the forms -/

/-- The address of `ld` and `st` with n-byte accesses (R197). -/
def State.scalarEa (s : State) (b : BitVec 5) (o : BitVec 16) (n : Nat) : Word := eaOff (s.rs b) o n

/-- The address of `vld` and `vst` (R198), of `vldd` (R201). -/
def State.vectorEa (s : State) (b : BitVec 5) (o : BitVec 12) : Word := eaOff (s.rs b) o 256
def State.blockEa (s : State) (b : BitVec 5) (o : BitVec 12) : Word := eaOff (s.rs b) o 64

/-- Bytes of an access size. -/
def Sz.bytes : Sz → Nat
  | .b8 => 1
  | .b16 => 2
  | .b32 => 4
  | .b64 => 8

/-- The active bytes of a vector access at a: lane and address (R198). -/
def State.byteEls (s : State) (a : Word) (p : BitVec 5) : List (Nat × Word) :=
  (activeLanes 8 (s.rp p)).map fun i => (i, a + BitVec.ofNat 64 i)

/-- The active elements of `vlds` (R199). -/
def State.strideEls (s : State) (b st p : BitVec 5) (z : Sz) : List (Nat × Word) :=
  (activeLanes (8 * Sz.bytes z) (s.rp p)).map fun i => (i, s.rs b + BitVec.ofNat 64 i * s.rs st)

/-- The active elements of `vgath` and `vscat`, by the index lanes of vi: signed when sg, scaled when sc (R200). -/
def State.indexEls (s : State) (b : BitVec 5) (i : BitVec 4) (p : BitVec 5) (z : Sz) (sg sc : Bool) : List (Nat × Word) :=
  let w := 8 * Sz.bytes z
  let v := s.rv i
  (activeLanes w (s.rp p)).map fun k =>
    let idx : Int := if sg then laneI w v k else laneN w v k
    (k, s.rs b + BitVec.ofInt 64 (idx * (if sc then (Sz.bytes z : Int) else 1)))

/-! ### Scalar loads and stores (R197) -/

/-- A scalar load of n bytes, sign-extended when sg. -/
def State.ld (s : State) (i : Instr) (t b : BitVec 5) (o : BitVec 16) (n : Nat) (sg : Bool) : Res :=
  let ea := s.scalarEa b o n
  s.loadingOf i (s.loadAt {} n [ea]) fun lat s' =>
    let x := s.loadNat (s.own s.iss.ctx) ea n
    s'.ws t lat (if sg then BitVec.ofInt 64 (toSigned (8 * n) x) else BitVec.ofNat 64 x)

/-- A scalar store of the low n bytes. -/
def State.st (s : State) (t b : BitVec 5) (o : BitVec 16) (n : Nat) : Res :=
  s.storeAt {} n [(s.scalarEa b o n, leBytes n (s.rs t).toNat)]

def execLdI64 (t b : BitVec 5) (o : BitVec 16) (s : State) : Res := s.ld (.ldI64 t b o) t b o 8 false
def execLdI32 (t b : BitVec 5) (o : BitVec 16) (s : State) : Res := s.ld (.ldI32 t b o) t b o 4 true
def execLdN32 (t b : BitVec 5) (o : BitVec 16) (s : State) : Res := s.ld (.ldN32 t b o) t b o 4 false
def execLdI16 (t b : BitVec 5) (o : BitVec 16) (s : State) : Res := s.ld (.ldI16 t b o) t b o 2 true
def execLdN16 (t b : BitVec 5) (o : BitVec 16) (s : State) : Res := s.ld (.ldN16 t b o) t b o 2 false
def execLdI8 (t b : BitVec 5) (o : BitVec 16) (s : State) : Res := s.ld (.ldI8 t b o) t b o 1 true
def execLdN8 (t b : BitVec 5) (o : BitVec 16) (s : State) : Res := s.ld (.ldN8 t b o) t b o 1 false

/-- R197; to the copy aperture it starts a copy (R229). -/
def execSt64 (t b : BitVec 5) (o : BitVec 16) (s : State) : Res :=
  let ea := s.scalarEa b o 8
  match spaceOf ea with
  | .aperture _ => .next (s.copyStart ea (s.rs t))
  | _ => s.st t b o 8

def execSt32 (t b : BitVec 5) (o : BitVec 16) (s : State) : Res := s.st t b o 4
def execSt16 (t b : BitVec 5) (o : BitVec 16) (s : State) : Res := s.st t b o 2
def execSt8 (t b : BitVec 5) (o : BitVec 16) (s : State) : Res := s.st t b o 1

/-- COPY START as a step of its own: the issuing bundle's store of the word due to the aperture address in arg. -/
def execCopyStart (s : State) : Res := .next (s.copyStart (BitVec.ofNat 64 s.due.arg) s.due.word)

/-! ### Vector loads and stores (R198 to R200) -/

/-- A load of elements of w bits into the lanes of vt; no active element, no result. -/
def State.vload (s : State) (i : Instr) (t : BitVec 4) (w : Nat) (els : List (Nat × Word)) : Res :=
  s.loadingOf i (s.loadAt {} (w / 8) (els.map (·.2))) fun lat s' =>
    if els = [] then s'
    else
      let ov := s.own s.iss.ctx
      let at_ := fun i => (els.find? (·.1 = i)).map (·.2)
      s'.wv t lat (mkLanes w fun i => ((at_ i).map fun ea => s.loadNat ov ea (w / 8)).getD 0)
        (mkLanes w fun i => if (at_ i).isSome then 2 ^ w - 1 else 0)

/-- A store of the lanes of vt to elements of w bits. -/
def State.vstore (s : State) (t : BitVec 4) (w : Nat) (els : List (Nat × Word)) (unit : Nat := 0) : Res :=
  let v := s.rv t
  s.storeAt {} (w / 8) (els.map fun e => (e.2, leBytes (w / 8) (laneN w v e.1))) unit

/-- The check of a vector access's own address: 64-byte aligned, in a space the instruction accepts (R194). -/
def State.vectorOk (s : State) (acc : Accepts) (a : Word) (k : Res) : Res :=
  if s.nameable acc 64 a then k else .next (s.raise (s.issTrap 0x03 a))

/-- R198. -/
def execVld (t : BitVec 4) (b p : BitVec 5) (o : BitVec 12) (s : State) : Res :=
  let a := s.vectorEa b o
  s.vectorOk {} a (s.vload (.vld t b p o) t 8 (s.byteEls a p))

/-- R198. -/
def execVst (t : BitVec 4) (b p : BitVec 5) (o : BitVec 12) (s : State) : Res :=
  let a := s.vectorEa b o
  s.vectorOk {} a (s.vstore t 8 (s.byteEls a p))

/-- R199. -/
def execVlds (t : BitVec 4) (b st p : BitVec 5) (z : Sz) (s : State) : Res :=
  s.vload (.vlds t b st p z) t (8 * Sz.bytes z) (s.strideEls b st p z)

/-- R200. -/
def execVgath (t : BitVec 4) (b : BitVec 5) (i : BitVec 4) (p : BitVec 5) (z : Sz) (n m : Bool) (s : State) : Res :=
  s.vload (.vgath t b i p z n m) t (8 * Sz.bytes z) (s.indexEls b i p z n m)

/-- R200. -/
def execVscat (t : BitVec 4) (b : BitVec 5) (i : BitVec 4) (p : BitVec 5) (z : Sz) (n m : Bool) (s : State) : Res :=
  s.vstore t (8 * Sz.bytes z) (s.indexEls b i p z n m) (Sz.bytes z)

/-! ### Described loads and stores (R201, R202) -/

/-- One half of a described load: lanes of f32, flags, malformed codes counted (R201). -/
def describedLanes (blk : Nat) (hi : Bool) (p : PReg) : VReg × Nat × Nat :=
  let dec := decodeWhole blk
  let act := activeLanes 32 p
  let off := if hi then 64 else 0
  let one := fun i : Nat => match dec with
    | none => (0x7FC00B01, 0)
    | some xs => match xs[off + i]? with
      | none => (0, 0)
      | some x => convF fmtF32 .rne 0 x.1
  let mal := match dec with
    | none => 0
    | some xs => act.countP fun i => ((xs[off + i]?).map (·.2)).getD false
  (mkLanes 32 fun i => (one i).1, orFlags (act.map fun i => (one i).2), mal)

/-- A described load (R201). -/
def State.vldd (s : State) (t : BitVec 4) (b p : BitVec 5) (o : BitVec 12) (hi : Bool) : Res :=
  let a := s.blockEa b o
  s.loadingOf (if hi then .vlddHi t b p o else .vlddLo t b p o) (s.loadAt { win := false } 64 [a]) fun lat s' =>
    let (v, fl, mal) := describedLanes (s.loadNat (s.own s.iss.ctx) a 64) hi (s.rp p)
    let s' := (s'.wv t lat v (laneMask 32 (s.rp p))).wf lat (BitVec.ofNat 6 fl)
    if mal = 0 then s' else s'.push lat (.mal mal)

def execVlddLo (t : BitVec 4) (b p : BitVec 5) (o : BitVec 12) (s : State) : Res := s.vldd t b p o false
def execVlddHi (t : BitVec 4) (b p : BitVec 5) (o : BitVec 12) (s : State) : Res := s.vldd t b p o true

/-- R202: the flags arrive 4 cy after issue. -/
def execVstd (t : BitVec 4) (b p : BitVec 5) (f : BitVec 3) (sc : BitVec 8) (s : State) : Res :=
  let v := s.rv t
  let pr := s.rp p
  let fmt := f.toNat
  let e := encodeBlock fmt sc.toNat (blkElems fmt)
    [fun i => if i < 64 ∧ active 32 pr i then decodeF fmtF32 (laneN 32 v i) else intVal 0]
  match s.storeAt { win := false } 64 [(s.rs b, leBytes 64 e.blk)] with
  | .next s' => .next (match s'.iss.sig with
    | .ok => s'.wf 4 (BitVec.ofNat 6 e.flags)
    | _ => s')
  | r => r

/-! ### Skink images (R176) -/

/-- The addresses of the n + 1 dimensions' words at a. -/
def skinkWords (a : Word) (n : BitVec 5) : List Word :=
  (List.range (65 * (n.toNat + 1))).map fun (i : Nat) => a + BitVec.ofNat 64 (4 * i)

/-- R176: every word is taken in the issue cycle; the tables change at 130 cy. -/
def execQrload (a n d : BitVec 5) (s : State) : Res :=
  let ws := skinkWords (s.rs a) n
  s.loadingOf (.qrload a n d) (s.loadAt { win := false } 4 ws) fun _ s' =>
    let ov := s.own s.iss.ctx
    let xs := ws.map fun w => BitVec.ofNat 32 (s.loadNat ov w 4)
    s'.eachDim n d 130 fun k => .skinkDim k (SkinkDim.ofWords ((xs.drop (65 * (k - d.toNat))).take 65))

/-- R176: the tables as they stand at issue, withheld as one entry. -/
def execQrsave (a n d : BitVec 5) (s : State) : Res :=
  let v := s.cur.vis
  let bytes := (List.range (n.toNat + 1)).flatMap fun i => (v.skink.getD (d.toNat + i) SkinkDim.reset).bytes
  s.storeAt { win := false } 4 ((skinkWords (s.rs a) n).zipIdx.map fun w => (w.1, (bytes.drop (4 * w.2)).take 4))

/-! ### Load-blocks (R191, R192, R203) -/

/-- The load-block of a tag. -/
def Ctx.block? (x : Ctx) (g : BitVec 4) : Option LoadBlock := x.blocks.find? (·.tag = g.toNat)

/-- A load-block made FREE: the lines that have arrived become ordinary lines (R203). -/
def State.releaseBlock (s : State) (c : Nat) (g : Nat) : State :=
  let lines := ((s.ctx c).blocks.filter (·.tag = g)).flatMap (·.lines)
  let s := s.modCtx c fun x => { x with blocks := x.blocks.filter (·.tag ≠ g) }
  lines.foldl (fun s l => s.modCore (s.l1Of c l) fun co =>
    if co.lines.contains l then co else { co with lines := co.lines ++ [l] }) s

/-- A load-block declared: its lines are requested (R203). -/
def State.declareBlock (s : State) (c g : Nat) (a : Word) (n : Nat) : State :=
  let (id, s) := s.fresh
  let want := (List.range n).map fun i => (a + BitVec.ofNat 64 (64 * i)).toNat
  let s := s.modCtx c fun x => { x with
    blocks := x.blocks ++ [{ tag := g, want := want, lines := [], bad := [], decl := id }] }
  want.foldl (fun s v => s.later 1900 .lineArrival { id := id + 1, ctx := c, arg := v }) s

/-- R203, form 0. n holds the number of lines less one. -/
def execLdblk (a d : BitVec 5) (g : BitVec 4) (n : BitVec 6) (s : State) : Res :=
  let c := s.iss.ctx
  let ea := s.rs a
  let go := fun (s : State) => (s.declareBlock c g.toNat ea (n.toNat + 1)).ws d 1 0
  .next (if !s.nameable { loc := false, win := false } 64 ea then s.raise (s.issTrap 0x03 ea)
    else if (s.cur.block? g).isNone then go s
    else if s.detOf c then go (s.releaseBlock c g.toNat)
    else s.ws d 1 1)

/-- R203, form 1. In deterministic mode it raises the memory-model exception (R333). -/
def execLdblkQ (d : BitVec 5) (g : BitVec 4) (s : State) : Res :=
  .next (if s.detOf s.iss.ctx then s.raise (s.issTrap 0x07)
    else s.ws d 1 (match s.cur.block? g with
      | none => 0
      | some b => if b.want = [] then 2 else 1))

/-- R203, form 2. -/
def execLdblkRel (g : BitVec 4) (s : State) : Res := .next (s.releaseBlock s.iss.ctx g.toNat)

/-! ### Locks (R193, R204) -/

/-- The line that a global address names, for an instruction on lines: blocked, trapped, or found. -/
def State.lineAt (s : State) (ea : Word) (k : Nat → State → State) : State :=
  if !s.nameable { loc := false, win := false } 64 ea then s.raise (s.issTrap 0x03 ea)
  else
    match s.access1 (s.who s.iss.ctx) (fld ea 0 56) .r with
    | (.ok m _, s) => k (lineOf m) s
    | (x, s) => s.raise (s.xTrap x ea)

/-- R204. -/
def execLock (a d : BitVec 5) (s : State) : Res :=
  .next (s.lineAt (s.rs a) fun line s =>
    let v := s.cur.vis
    if v.locks.contains line then s.ws d 1 0
    else if v.locks.length ≥ (s.cluster (clOf s.iss.ctx)).lockq then s.ws d 1 1
    else if !(s.iss.held || s.inL1 s.iss.ctx line) then s.blocked .loadBlock [fld (s.rs a) 0 56 / 64] [] [] []
    else (s.modVis fun v => { v with locks := v.locks ++ [line] }).ws d 1 0)

/-- R204. -/
def execUnlock (a : BitVec 5) (s : State) : Res :=
  .next (s.lineAt (s.rs a) fun line s => s.modVis fun v => { v with locks := v.locks.filter (· ≠ line) })

/-! ### Room in L1, arrivals (R190, R191, R196) -/

/-- The contexts whose lines the L1 of a core holds. -/
def State.l1Users (s : State) (q : Nat) : List Nat :=
  if (s.cluster (q / 32 * 6 + q / 4 % 8)).fuse then (List.range 16).map fun i => q / 4 * 16 + i
  else (List.range 4).map fun h => 4 * q + h

/-- Lines of the users' blocks that are FILLING and have arrived, at a core. -/
def State.fillingLines (s : State) (q : Nat) : List Nat :=
  ((s.l1Users q).flatMap fun c => ((s.ctx c).blocks.filter (·.want ≠ [])).flatMap fun b =>
    b.lines.filter fun l => s.l1Of c l = q).dedup

/-- A COMPLETE block evicted whole: its tag becomes FREE, its lines leave L1 unless locked, kept or in another block
(R191). -/
def State.evictBlock (s : State) (c : Nat) (b : LoadBlock) : State :=
  let s := s.modCtx c fun x => { x with blocks := x.blocks.filter (· ≠ b) }
  b.lines.foldl (fun s l =>
    let q := s.l1Of c l
    let us := s.l1Users q
    if us.any (fun u => (s.ctx u).vis.locks.contains l || (s.ctx u).blocks.any (·.lines.contains l))
        || (s.core q).kept.any (·.2 = l) then s
    else s.modCore q fun co => { co with lines := co.lines.erase l }) s

/-- Whether a core's L1 has a free line (R190). -/
def State.roomy (s : State) (q : Nat) : Bool :=
  decide ((s.core q).lines.length + ((s.fillingLines q).filter fun l => !(s.core q).lines.contains l).length < 4096)

/-- The users' COMPLETE block declared earliest that holds no locked line: the next victim (R191). -/
def State.victim (s : State) (q : Nat) : Option (Nat × LoadBlock) :=
  let us := s.l1Users q
  let locked := us.flatMap fun u => (s.ctx u).vis.locks
  let cands := us.flatMap fun u => ((s.ctx u).blocks.filter fun b => b.want = [] && !b.lines.any locked.contains).map (u, ·)
  cands.foldl (fun (m : Option (Nat × LoadBlock)) x => match m with
    | some y => if x.2.decl < y.2.decl then some x else some y
    | none => some x) none

/-- COMPLETE blocks evicted, the earliest declared first, until a core's L1 has a free line; fuel counts blocks. None where
no more can be evicted: the fill waits (R191). -/
def State.evictUntil (s : State) (q : Nat) : Nat → Option State
  | 0 => none
  | fuel + 1 =>
    match s.victim q with
    | none => none
    | some (u, b) =>
      let s := s.evictBlock u b
      if s.roomy q then some s else s.evictUntil q fuel

/-- Room for a line in a core's L1: a free line, else the least recently used line that is neither locked, in a block nor
kept, else COMPLETE blocks evicted; none while nothing can be evicted (R190, R191). That an ordinary line goes before a
COMPLETE block is the model's choice (log 72). -/
def State.makeRoom (s : State) (q : Nat) : Option State :=
  let co := s.core q
  let us := s.l1Users q
  if s.roomy q then some s
  else
    let locked := us.flatMap fun u => (s.ctx u).vis.locks
    let inBlock := us.flatMap fun u => (s.ctx u).blocks.flatMap (·.lines)
    match co.lines.find? fun l => !(locked.contains l || inBlock.contains l || co.kept.any (·.2 = l)) with
    | some l => some (s.setCore q { co with lines := co.lines.erase l })
    | none => s.evictUntil q (16 * us.length)

/-- A line put into a core's L1 as the most recently used. -/
def State.addLine (s : State) (q l : Nat) : State :=
  s.modCore q fun co => { co with lines := co.lines.erase l ++ [l] }

/-! ### Loads whose value is taken after their bundle's first cycle (R89, R212, R222) -/

/-- The meaning of a load. -/
def execLoad (i : Instr) (s : State) : Res :=
  match i with
  | .ldI64 t b o => execLdI64 t b o s
  | .ldI32 t b o => execLdI32 t b o s
  | .ldN32 t b o => execLdN32 t b o s
  | .ldI16 t b o => execLdI16 t b o s
  | .ldN16 t b o => execLdN16 t b o s
  | .ldI8 t b o => execLdI8 t b o s
  | .ldN8 t b o => execLdN8 t b o s
  | .vld t b p o => execVld t b p o s
  | .vlds t b st p z => execVlds t b st p z s
  | .vgath t b i p z n m => execVgath t b i p z n m s
  | .vlddLo t b p o => execVlddLo t b p o s
  | .vlddHi t b p o => execVlddHi t b p o s
  | .qrload a n d => execQrload a n d s
  | _ => .next s

/-- The results of a withheld load of context c whose value is taken now, in a bundle like iss, or the trap of a byte that its platform
no longer shows (R222); fresh says that it comes after an atomic of its bundle (R212). Its latency counts from the cycle in which
its bundle counts as issued. -/
def State.reload (s : State) (c : Nat) (iss : Issue) (e : Entry) (fresh : Bool) : Option TrapInfo × List Pending :=
  match e.k with
  | .load i regs lat _ =>
    let t := s.modCtx c fun x => { x with vis := regs, pend := [] }
    let j : Issue := { iss with ctx := c, slot := e.slot, pc := e.pc, held := true, sig := .ok, acq := iss.acq || fresh,
                                paid := some (lat, e.ord, fresh) }
    match execLoad i { t with iss := j } with
    | .next u => (match u.iss.sig with
      | .trap t => (some t, [])
      | _ => (none, (u.ctx c).pend))
    | _ => (none, [])
  | _ => (none, [])

/-- LINE ARRIVAL. With due.id 0 the demand line due.arg of context due.ctx arrives, its leaf in due.nats;
otherwise the line at virtual address due.arg of the load-block declared as due.id less one. A line that finds no room
waits (R190, R191); a line that cannot be had is marked faulting (R192). -/
def execLineArrival (s : State) : Res :=
  let d := s.due
  let c := d.ctx
  .next (
    if d.id = 0 then
      let q := s.l1Of c d.arg
      if (s.core q).lines.contains d.arg then s.modCore q fun co => { co with asked := co.asked.erase d.arg }
      else
        match s.makeRoom q with
        | none => s.schedule (s.now + 1) .lineArrival d
        | some s =>
          let s := s.addLine q d.arg
          (s.modCore q fun co => { co with asked := co.asked.erase d.arg }).heat (64 * d.arg) (BitVec.ofNat 64 (d.nats.getD 0 0))
    else
      match (s.ctx c).blocks.find? (·.decl + 1 = d.id) with
      | none => s
      | some b =>
        let ea := BitVec.ofNat 64 d.arg
        let upd := fun (s : State) (f : LoadBlock → LoadBlock) =>
          s.modCtx c fun x => { x with blocks := x.blocks.map fun b' => if b'.decl = b.decl then f b' else b' }
        let settle := fun (s : State) =>
          match (s.ctx c).blocks.find? (·.decl = b.decl) with
          | none => s
          | some b' => if b'.want = [] then b'.lines.foldl (fun s l => s.addLine (s.l1Of c l) l) s else s
        let mark := fun (s : State) (t : TrapInfo) =>
          settle (upd s fun b => { b with want := b.want.filter (· ≠ d.arg), bad := b.bad ++ [(d.arg, t)] })
        if fld ea 56 8 ≠ 0 then mark s { kind := 0x03, pc := 0 }
        else
          match s.access1 (s.who c) d.arg .r with
          | (.ok m e, s) =>
            let l := lineOf m
            match s.makeRoom (s.l1Of c l) with
            | none => s.schedule (s.now + 1) .lineArrival d
            | some s =>
              (settle (upd s fun b => { b with want := b.want.filter (· ≠ d.arg), lines := b.lines ++ [l] })).heat m e.leaf
          | (x, s) => mark s (x.trap ea))

/-- The memory that an access to a peer's banks finds in this cycle, whatever is released in it (R188, R324). -/
def State.bankMem (s : State) : List Host.Cell := if s.opened then s.memCyc else s.mem

/-- Whether a granule at address a of the scratchpad of cluster k lies in a platform and outside its published front (R222). -/
def State.unpublished (s : State) (k a : Nat) : Bool := (s.platAt k a).any fun pn => !(s.plat k pn).published a

/-- REMOTE GRANULE ARRIVAL: granule due.arg (window x 2^23 + granule) reaches the remote buffer of context due.ctx with its
bytes: those of a peer on this module as they stand in this cycle, with a rejection where they are no platform's published front;
from another module in due.bytes, or, with wr, with its rejection there: ST, ID, PH in due.word, rank, index and ACC in due.nats
(R196, R222, R319; log 78). -/
def execRemoteGranuleArrival (s : State) : Res :=
  let d := s.due
  let c := d.ctx
  let w := d.arg / 2 ^ 23
  let a := d.arg % 2 ^ 23 * 64
  let far : TrapInfo := { kind := 0x07, pc := 0, arg := d.word, rrank := BitVec.ofNat 32 (d.nats.getD 0 0),
                          rl := BitVec.ofNat 8 (d.nats.getD 1 0), acc := BitVec.ofNat 8 (d.nats.getD 2 0) }
  let peer := (s.win c w).peer
  let (bytes, no) :=
    if (s.win c w).mod = s.modNo then
      (memBytes s.bankMem (spKey peer a) 64,
        if s.unpublished peer a then some ({ kind := 0x07, pc := 0, acc := 3 } : TrapInfo) else none)
    else (d.bytes.take 64, if d.wr then some far else none)
  .next (if !(s.ctx c).remAsk.contains d.arg then s
    else
      (s.put (runAt (bufferKey c w a) bytes)).modCtx c fun x => { x with
        remAsk := x.remAsk.erase d.arg, remote := d.arg :: x.remote,
        raceAns := (no.map fun t => (2 ^ 60 + d.arg, t)).toList ++ x.raceAns })

/-- A load by a context of another module, at logical index l of rank, of the granule at address a of cluster k: checked as
an access of that context, registered, and answered. Of the granule the load reaches the bytes of a mask, all of them with 0: a SYNC
byte among them is refused to a deterministic launch (det), and SYNC bytes alone are not checked (R196, R222, R314, R315, R319, R333;
log 78). -/
def State.farLoad (s : State) (k a rank l mask : Nat) (det : Bool) : State :=
  let hit := (List.range 64).filter fun i => mask = 0 || tst mask i
  let x := Party.far rank l
  let no := fun (acc : BitVec 8) (arg : Word) (far : BitVec 32 × BitVec 8) =>
    s.emit (.granule rank l k a (some (acc, arg, far.1, far.2)) [])
  let yes := fun (s : State) => s.emit (.granule rank l k a none (memBytes s.bankMem (spKey k a) 64))
  if (s.platAt k a).isSome then (if s.unpublished k a then no 3 0 (0, 0) else yes s)
  else if det && hit.any fun i => s.syncAt k (a + i) then no 0 0 (0, 0)
  else if hit.all fun i => s.syncAt k (a + i) then yes s
  else
    match s.conflict x .load [s.spGran k a] with
    | some (_, t) => no 0 t.arg t.far
    | none => yes (s.register x .load [s.spGran k a])

/-- RACE CHECK ANSWER: the home performs the load of context due.ctx on the lines due.nats, one access, against their tags as
they stand: it registers the reads and the bytes read, or no tag changes and the first rejection is kept for the load's issue: the
access is rejected whole, and its other lines are not asked for again (R318, R319). The lines of an access that touches scratchpads
too are only looked at: it registers at its issue, if no granule of it is rejected (`jointCheck`). With due.wr the load is one by a
context of another module through a window: the granule at due.arg of cluster due.id, the mask of the bytes that it reaches in
due.arg2, its rank, logical index and whether its launch is deterministic (1) in due.nats (R314, R315). -/
def execRaceCheckAnswer (s : State) : Res :=
  let d := s.due
  let c := d.ctx
  let joint := d.nats.any fun n => decide (jointCheck ≤ n)
  let ls := d.nats.map (· % jointCheck)
  let bytes := fun (s : State) (ls : List Nat) => ls.map fun l => (l, if joint then [] else s.gbytes (64 * l) 64)
  .next (if d.wr then s.farLoad d.id (d.arg / 64 * 64) (d.nats.getD 0 0) (d.nats.getD 1 0) d.arg2 (decide (d.nats.getD 2 0 = 1))
    else if !(s.ctx c).raceAsk.contains d.nats then s
    else
      let s := s.modCtx c fun x => { x with raceAsk := x.raceAsk.erase d.nats }
      match ls.find? fun l => (s.conflict (s.party c) .load [s.gGran c (64 * l)]).isSome with
      | none =>
        let s := if joint then s else s.register (s.party c) .load (ls.map fun l => s.gGran c (64 * l))
        s.modCtx c fun x => { x with checked := bytes s ls ++ x.checked }
      | some l =>
        let t := s.tag (s.gGran c (64 * l))
        s.modCtx c fun x => { x with
          checked := bytes s (ls.filter (· ≠ l)) ++ x.checked
          raceAns := (l, { kind := 0x07, pc := 0, arg := t.arg, rrank := t.far.1, rl := t.far.2 }) :: x.raceAns })

end Sys2Proof.Machine
end

