-- ==== Sys2Proof/Machine/Sync.lean ====
section
/-! DEFINITION. Sys2Proof/Machine/Sync.lean: atomics and fences (R205 to R212), barrier objects (R213 to R215), the
event queue's instructions (R241, R242), batches (R218, R219), and the events of these units. -/

namespace Sys2Proof.Machine

/-! ### Atomics at issue (R194, R205, R211) -/

/-- The trap one element of an atomic raises at issue, the line it needs, its latency; ret marks a value-returning
atomic. -/
def State.atomGran (s : State) (ret : Bool) (n : Nat) (ea : Word) : GLoad :=
  let c := s.iss.ctx
  let det := ret && s.detOf c
  match spaceOf ea with
  | .localSp a =>
    let t := match s.storeTrap 2 n ea with
      | some t => some t
      | none =>
        if det then some (s.issTrap 0x07 ea 0 2)
        else (s.poisoned (spKey (clOf c) (a / 64 * 64)) 64).map fun k => { (s.issTrap 0x10 ea) with key := k }
    { trap := t, lat := 8, sp := [spKey (clOf c) (a / 64 * 64)] }
  | .global va =>
    match s.translate (s.who c) va .rw with
    | .ok m e =>
      let line := lineOf m
      { line := if s.iss.held || s.inL1 c line then none else some (va / 64)
        trap := (s.storeWindow n ea 2).or <| if det && e.sync then some (s.issTrap 0x07 ea 0 2)
          else (s.poisoned (m / 64 * 64) 64).map fun k => { (s.issTrap 0x10 ea) with key := k }
        tlb := [e], used := [line], lat := s.amoLat c }
    | x => { trap := some (s.xTrap x ea), lat := s.amoLat c }
  | _ => { trap := some (s.issTrap 0x03 ea) }

/-- Whether context c has released window writes to another module that are not visible yet (R326). -/
def State.farPending (s : State) (c : Nat) : Bool := (s.ctx c).winq.any fun e => (s.win c e.win).mod ≠ s.modNo

/-- Whether an atomic of context c has to wait for what is before it: something released that is still to leave the context, or
stores to another module that a release fence before it, or its own release ordering, puts before it (R212, R326; log 74). -/
def State.atomFenced (s : State) (c : Nat) (rel : Bool) : Bool :=
  s.queued c ≠ [] || s.loadFenced c || (s.farPending c && (rel || (s.ctx c).wb.any (·.k = .fence)))

/-- An atomic on the elements at the addresses: what it needs before it issues, its trap, or its latency; rel says that it has
release ordering (R205, R212). -/
def State.atomAt (s : State) (ret : Bool) (align : Nat) (eas : List Word) (rel : Bool := false) : LRes :=
  let acc : Accepts := { win := false }
  let good := eas.filter (s.nameable acc align)
  let gs := good.map (s.atomGran ret align)
  let lines := (gs.filterMap (·.line)).dedup
  let fenced := !s.iss.held && good ≠ [] && s.atomFenced s.iss.ctx rel
  if lines ≠ [] ∨ fenced = true then .block lines [] []
  else
    match eas.find? (fun ea => !s.nameable acc align ea) with
    | some ea => .trap (s.issTrap 0x03 ea)
    | none =>
      match gs.findSome? (·.trap) with
      | some t => .trap t
      | none => .ok ((gs.map (·.lat)).foldl max 0) (s.loaded gs)

/-- Bytes of an operand size. -/
def opBytes (w64 : Bool) : Nat := if w64 then 8 else 4

/-- The release ordering of an instruction at a scope: what follows it leaves the context behind the accesses before it.
At the scope of the context alone it asks for nothing (R206, R212, R326). -/
def State.ordered (s : State) (rel : Bool) (sc : Scope) : State := if rel && sc != .ctx then s.withhold .fence else s

/-- The acquire ordering of an instruction at a scope: later loads and atomics of the context take their values after its atomics
so far (R206, R212). A load takes its value in its bundle's cycle, and bundles issue in program order, so of what is before it
only atomics can be under way (log 6). -/
def State.acquires (s : State) (acq : Bool) (sc : Scope) : State :=
  if acq && sc != .ctx then
    ({ s with iss := { s.iss with acq := true } } : State).modCur fun c => { c with acqAt := c.ents }
  else s

/-- An atomic with acquire ordering: the loads in later slots of its bundle take their values once it is performed (R206, R212). -/
def State.atomAcquires (s : State) (acq : Bool) (sc : Scope) : State :=
  if acq && sc != .ctx then
    let s := s.acquires true sc
    { s with iss := { s.iss with late := true } }
  else s

/-- Whether an atomic has release ordering (R206). -/
def Ord.releases : Ord → Bool
  | .rel => true
  | .ar => true
  | _ => false

/-- Whether an atomic has acquire ordering (R206). -/
def Ord.acquires : Ord → Bool
  | .acq => true
  | .ar => true
  | _ => false

/-- Whether an atomic's release ordering reaches beyond the context (R206, R212). -/
def Ord.fences (o : Ord) (sc : Scope) : Bool := Ord.releases o && sc != .ctx

/-- R207, R212. -/
def execAmo (d a b : BitVec 5) (o : Ord) (sc : Scope) (z : Bool) (f : AmoOp) (s : State) : Res :=
  let ea := s.rs a
  s.loading (s.atomAt true (opBytes z) [ea] (Ord.fences o sc)) fun lat s' =>
    ((s'.ordered (Ord.releases o) sc).withhold (.amo f z ea (s.rs b) d lat)).atomAcquires (Ord.acquires o) sc

/-- R208, R212. -/
def execCas (d a b c : BitVec 5) (sc : Scope) (o : Ord) (z : Bool) (s : State) : Res :=
  let ea := s.rs a
  s.loading (s.atomAt true (opBytes z) [ea] (Ord.fences o sc)) fun lat s' =>
    ((s'.ordered (Ord.releases o) sc).withhold (.cas z ea (s.rs b) (s.rs c) d lat)).atomAcquires (Ord.acquires o) sc

/-- Whether an address may name a barrier object: local and 16-byte aligned (R194). -/
def State.barOk (s : State) (ea : Word) : Bool := s.nameable { glob := false, win := false } 16 ea

/-- Whether an entry is a `famo`. -/
def EntryK.isFamo : EntryK → Bool
  | .famo _ _ _ _ => true
  | _ => false

/-- `famo`s of the issuing cluster on their way to the ordered atomic unit, or gathered in it: those that any context of the cluster
has released among them (R209). -/
def State.gathering (s : State) : Nat :=
  let k := clOf s.iss.ctx
  (s.cluster k).famo.length
    + s.agenda.countP (fun x => x.ev = .famoArrival && clOf x.due.ctx = k)
    + s.l2q.countP (fun r => clOf r.ctx = k && r.entry.k.isFamo) + s.cur.wb.countP (·.k.isFamo)

/-- Bytes of a `famo`'s type. -/
def FTy.bytes : FTy → Nat
  | .f32 => 4
  | .bf16 => 2

/-- R209: sc names a barrier object from the issue cycle on. In deterministic mode the target must be local, and the
477th gathered add raises the memory-model exception. -/
def execFamo (a b c : BitVec 5) (t : FTy) (s : State) : Res :=
  let ea := s.rs a
  let bar := s.rs c
  s.loading (s.atomAt false (FTy.bytes t) [ea]) fun _ s' =>
    if !s.barOk bar then s.raise (s.issTrap 0x03 bar)
    else if s.detOf s.iss.ctx && (fld ea 56 8 = 0 || s.gathering ≥ 476) then s.raise (s.issTrap 0x07 ea 0 2)
    else (s'.nameBarrier (clOf s.iss.ctx) (fld bar 0 23)).withhold (.famo t ea ((s.rs b).setWidth 32) bar)

/-- R210. -/
def execVamo (t : BitVec 4) (b : BitVec 5) (i : BitVec 4) (p : BitVec 5) (z : Sz) (r : Bool) (f : AmoOp) (s : State) : Res :=
  let w := 8 * Sz.bytes z
  let els := s.indexEls b i p z false true
  let v := s.rv t
  s.loading (s.atomAt r (Sz.bytes z) (els.map (·.2))) fun lat s' =>
    s'.withhold (.vamo f (w = 64) r (els.map fun e => (e.1, e.2, BitVec.ofNat 64 (laneN w v e.1))) (s.vix t) lat)

/-! ### Barrier instructions (R215) -/

/-- A barrier instruction on the object at s[sa], which it names from its issue cycle on. -/
def State.onBarrier (s : State) (ea : Word) (k : Nat → State → State) : Res :=
  .next (if s.barOk ea then k (fld ea 0 23) (s.nameBarrier (clOf s.iss.ctx) (fld ea 0 23)) else s.raise (s.issTrap 0x03 ea))

/-- Bits 63:0 of the object at local address a of the issuing cluster, at the end of the previous cycle (R215). -/
def State.objPrev (s : State) (a : Nat) : Nat := memNat s.memPrev (spKey (clOf s.iss.ctx) a) 8

def execBarArr (a : BitVec 5) (k : BitVec 8) (s : State) : Res :=
  s.onBarrier (s.rs a) fun x s => s.withhold (.barArr x k.toNat)

def execBarExp (a b : BitVec 5) (s : State) : Res :=
  s.onBarrier (s.rs a) fun x s => s.withhold (.barExp x (s.rs b).toNat)

/-- The byte at a key as it stands in memory. -/
def State.byteNow (s : State) (k : Nat) : Byte := if k < 2 ^ 52 then s.gbyte k else memRead s.mem k

/-- The bytes at keys that context c is about to store over are kept for its commands that were released before: their reads
observe the stores released before them alone (R331). -/
def State.notePast (s : State) (c : Nat) (keys : List Nat) : State :=
  if s.cmds.any fun x => x.ctx = c && x.release.isSome && !x.ended then
    { s with cmds := s.cmds.map fun x =>
        if x.ctx = c && x.release.isSome && !x.ended then
          { x with past := x.past ++ ((keys.filter fun k => !x.past.any (·.1 = k)).map fun k => (k, s.byteNow k)) }
        else x }
  else s

/-! ### The barrier unit (R214) -/

/-- A local address of cluster k as its contexts' effective address. -/
def localEa (a : Nat) : Word := BitVec.ofNat 64 (2 ^ 56 + a)

/-- One gathered add applied: the location plus the operand, rounded with rne (R209). -/
def State.famoApply (s : State) (key : Nat) (ty : FTy) (x : BitVec 32) : State :=
  let n := FTy.bytes ty
  let f := match ty with
    | .f32 => fmtF32
    | .bf16 => fmtBf16
  let r := addF f .rne (decodeF f (s.gnat key n)) (decodeF f (x.toNat % 2 ^ (8 * n)))
  s.write (runAt key (leBytes n r.1))

/-- An add put into a list ordered by location, then logical index, then issue position; equal ones stay in the order they
came (R209). -/
def insertGathered (g : Gathered) : List Gathered → List Gathered
  | [] => [g]
  | h :: r =>
    if g.loc < h.loc ∨ (g.loc = h.loc ∧ (g.l < h.l ∨ (g.l = h.l ∧ g.ord < h.ord))) then g :: h :: r
    else h :: insertGathered g r

/-- The gathered adds that sel picks are applied in sorted order and leave the unit (R209). -/
def State.famoFlush (s : State) (k : Nat) (sel : Gathered → Bool) : State :=
  let gs := ((s.cluster k).famo.filter sel).foldl (fun l g => insertGathered g l) []
  let s := s.modCluster k fun c => { c with famo := c.famo.filter fun g => !sel g }
  gs.foldl (fun s g =>
    (s.notePast g.ctx ((List.range (FTy.bytes g.ty)).map (spKey k g.loc + ·))).famoApply (spKey k g.loc) g.ty g.x) s

/-- A phase of the object at local address a completes: gathered adds first, then PH and PEND, and for `cbar` the
cluster epoch (R209, R214, R322). The object's word is w. -/
def State.phaseDone (s : State) (k a w : Nat) : State :=
  let s := s.famoFlush k fun g => barObj g.bar = a
  let w' := w - bits w 48 4 * 2 ^ 48 + (bits w 48 4 + 1) % 16 * 2 ^ 48 - bits w 16 16 * 2 ^ 16 + bits w 0 16 * 2 ^ 16
  let s := s.putNat (spKey k a) 8 w'
  match s.regionAt k a with
  | some { kind := .cbar, .. } => s.modCluster k fun c => { c with epoch := c.epoch + 1 }
  | _ => s

/-- An operation applied to the object at local address a of cluster k (R214). A store completes no phase. -/
def State.barApply (s : State) (k a : Nat) (r : BarReq) : State :=
  let key := spKey k a
  let w := s.nat key 8
  let pend := bits w 16 16
  let txn := bits w 32 16
  let ovr := w ||| 2 ^ 52
  let bad := fun (s : State) => (s.putNat key 8 ovr).defer r.ctx
    { kind := 0x07, pc := r.pc, faddr := localEa a, acc := 4, slot := BitVec.ofNat 8 r.slot, ord := r.ord }
  let done := fun (s : State) (w : Nat) =>
    if bits w 16 16 = 0 ∧ bits w 32 16 = 0 then s.phaseDone k a w else s.putNat key 8 w
  match r.op with
  | .arrive n => if pend < n then bad s else done s (w - n * 2 ^ 16)
  | .expect x => if 65535 < txn + x then bad s else s.putNat key 8 (w + x * 2 ^ 32)
  | .deliver id =>
    let post := fun (s : State) => s.schedule (s.now + 1) .eventRecordArrival { id := id, ctx := r.ctx }
    if txn = 0 then
      post ((s.putNat key 8 ovr).modCmd id fun x => { x with record := { x.record with
        pfl := x.record.pfl ||| 2, status := if x.record.status = 0 then 0x13 else x.record.status } })
    else post (done s (w - 2 ^ 32))
  | .store bs =>
    let bs := bs.map fun p => (spKey k p.1, p.2)
    (s.put bs).refresh r.ctx bs

/-- The order of operations at one object: by arrival cycle, deliveries after context operations, ascending l (R214). -/
def BarReq.before (x y : BarReq) : Bool :=
  let d := fun (r : BarReq) => match r.op with
    | .deliver _ => 1
    | _ => 0
  decide (x.at_ < y.at_) || (x.at_ = y.at_ && (decide (d x < d y) || (d x = d y && decide (x.l < y.l))))

/-- BARRIER UNIT APPLY: the unit of cluster due.id applies the first operation that has arrived at the object at
due.arg; the next one is due in a later cycle. -/
def execBarrierUnitApply (s : State) : Res :=
  let k := s.due.id
  let a := s.due.arg
  let mine := (s.cluster k).barq.filter (·.addr = a)
  let first := (mine.filter fun r => decide (r.at_ ≤ s.now)).foldl (fun (m : Option BarReq) r => match m with
    | some x => if r.before x then some r else some x
    | none => some r) none
  .next (match first with
    | none => s
    | some r =>
      let s := s.modCluster k fun c => { c with barq := c.barq.erase r }
      let s := s.barApply k a r
      let rest := (s.cluster k).barq.filter (·.addr = a)
      let waits := s.agenda.any fun x => x.ev = .barrierUnitApply && x.due.id = k && x.due.arg = a
      if rest = [] || waits then s
      else s.schedule (max (s.now + 1) ((rest.map (·.at_)).min?.getD 0)) .barrierUnitApply { id := k, arg := a })

/-! ### Rejection of a released access (R319) -/

/-- The granule of a key that context c accesses; none for SYNC bytes. -/
def State.granAt (s : State) (c : Nat) (ea : Word) : Option Gran :=
  match spaceOf ea with
  | .localSp a => if s.syncAt (clOf c) a then none else some (s.spGran (clOf c) a)
  | .global va =>
    (s.page? (s.who c) va).bind fun e => if e.sync then none else some (s.gGran c (e.addr va))
  | _ => none

/-- The check, at the home, of a released access by context c to the addresses: consumption windows and arrays in flight,
the launch's RD range, race tags (R254, R318, R397). The trap names the bundle and slot that held it. -/
def State.homeCheck (s : State) (c : Nat) (k : AccKind) (pc : Word) (slot : Nat) (eas : List Word) : Option TrapInfo :=
  let t := fun (ea : Word) (tag : Tag) =>
    ({ kind := 0x07, pc := pc, faddr := ea, arg := tag.arg, slot := BitVec.ofNat 8 slot, acc := k.code,
       rrank := tag.far.1, rl := tag.far.2 } : TrapInfo)
  ((eas.find? (s.guarded c)).map fun ea => t ea Tag.none).or <|
  (s.granules c eas).findSome? fun ea =>
    let out := match spaceOf ea with
      | .global va => (s.granAt c ea).isSome && !s.inRd c va
      | _ => false
    if out then some (t ea Tag.none)
    else
      match s.granAt c ea with
      | none => none
      | some g => if ((s.tag g).step (s.party c) g.ph k).isNone then some (t ea (s.tag g)) else none

/-- A released access by context c to the addresses, at a place in its program order: rejected under a deferred trap, or
registered and performed by k (R318, R319, R360). -/
def State.atHome (s : State) (c : Nat) (k : AccKind) (pc : Word) (slot ord : Nat) (eas : List Word) (act : State → State) :
    State :=
  match s.homeCheck c k pc slot eas with
  | some t => s.defer c { t with ord := ord }
  | none => act (s.register (s.party c) k ((s.granules c eas).filterMap (s.granAt c)))

/-- Heat of the global granules of an access of context c (R388). -/
def State.heatAll (s : State) (c : Nat) (eas : List Word) : State :=
  (firstOfGranule eas).foldl (fun s ea =>
    match spaceOf ea with
    | .global va => (match s.page? (s.who c) va with
      | some e => s.heat (e.addr va) e.leaf
      | none => s)
    | _ => s) s

/-- A `famo` at its home: in deterministic mode the ordered atomic unit of the cluster gathers it; otherwise it is applied,
at the key that its location was translated to, and counted in its region's heat (R209, R381, R388). -/
def State.famoHome (s : State) (c : Nat) (pc : Word) (slot ord : Nat) (ty : FTy) (ea : Word) (x : BitVec 32) (bar : Word)
    (key : Option Nat) : State :=
  s.atHome c .atomic pc slot ord (eaRun ea (FTy.bytes ty)) fun s =>
    if s.detOf c then
      s.modCluster (clOf c) fun cl => { cl with
        famo := cl.famo ++ [{ loc := fld ea 0 23, bar := fld bar 0 23, ty := ty, l := (s.ctx c).l, x := x, ord := ord, ctx := c }] }
    else
      match key with
      | some k =>
        let s := ((s.heatAll c [ea]).notePast c ((List.range (FTy.bytes ty)).map (k + ·))).famoApply k ty x
        let bs := (List.range (FTy.bytes ty)).map fun i => (k + i, s.byteNow (k + i))
        let s := (s.refresh c bs).recheck c bs
        if k < 2 ^ 52 then s.modCtx c fun x => { x with homeAt := some s.now } else s
      | none => s

/-- A translation as five numbers, and the translation that five numbers are. -/
def Tlb.nats (e : Tlb) : List Nat := [e.asid, e.va, e.size, e.frame, e.leaf.toNat]
def tlbOfNats : List Nat → List Tlb
  | [a, v, z, f, l] => [{ asid := a, va := v, size := z, frame := f, leaf := BitVec.ofNat 64 l }]
  | _ => []

/-- An entry performed by k under the translations that it was checked under (R379). -/
def State.under (s : State) (maps : List Tlb) (k : State → State) : State :=
  if maps = [] then k s else { k { s with fixed := maps } with fixed := [] }

/-- A `famo` under way reaches its home; what it carries stands in an event's fields (see `execFamoArrival`). -/
def State.famoLand (s : State) (d : Due) : State :=
  s.under (tlbOfNats (d.nats.drop 4)) fun s =>
    s.famoHome d.ctx (BitVec.ofNat 64 (d.nats.getD 0 0)) (d.nats.getD 1 0) (d.nats.getD 2 0) (if d.wr then .bf16 else .f32)
      (BitVec.ofNat 64 d.arg) (BitVec.ofNat 32 d.arg2) d.word d.nats[3]?

/-- FAMO ARRIVAL: a `famo` of context due.ctx, released outside deterministic mode, reaches its home: location in due.arg,
barrier in due.word, operand in due.arg2, bf16 in due.wr, bundle, slot, place in program order and the key that the location
was translated to at the release in due.nats, for a global one its translation too (R209, R379, R381). -/
def execFamoArrival (s : State) : Res := .next (s.famoLand s.due)

/-- The `famo`s of context c that are under way reach their homes, before anything that its program has after them is performed
(R125, R358). -/
def State.famoLandAll (s : State) (c : Nat) : State :=
  let mine := fun (a : Agendum) => decide (a.ev = .famoArrival) && decide (a.due.ctx = c)
  if s.agenda.any mine then
    (s.agenda.filter mine).foldl (fun s a => s.famoLand a.due) { s with agenda := s.agenda.filter fun a => !mine a }
  else s

/-! ### The event queue (R238 to R242, R334, R335) -/

/-- EVENT RECORD ARRIVAL: the record of command due.id enters the queue of its context; a DONE context drops it
(R124, R239). -/
def execEventRecordArrival (s : State) : Res :=
  .next (match s.cmd? s.due.id with
    | none => s
    | some x => ({ s with cmds := s.cmds.filter (·.id ≠ x.id) }).postRecord x.ctx x.record)

/-- The places in issue order of the records that context c is still to receive, those of the issuing bundle's own
commands apart (R334). -/
def State.awaited (s : State) (c : Nat) : List Nat :=
  let x := s.ctx c
  let mine := x.wb.filterMap fun e => match e.k with
    | .cmd id => if e.pc = s.iss.pc then some id else none
    | _ => none
  ((s.cmds.filter fun m => m.ctx = c && !mine.contains m.id).map (·.id)) ++ ((x.batches.filter (·.closed)).map (·.key)) ++
    (s.queued c).filterMap fun e => match e.k with
      | .bclose _ key => some key
      | _ => none

/-- The record an `evpop` takes: in arrival order, in deterministic mode in issue order; none on an empty queue. The
second answer says that the record due has not arrived (R239, R334). -/
def State.nextRecord (s : State) (c : Nat) : Option Record × Bool :=
  let q := (s.ctx c).evq
  if !s.detOf c then (q.head?, false)
  else
    let low := q.foldl (fun (m : Option Record) r => match m with
      | some x => if r.key < x.key then some r else some x
      | none => some r) none
    match low, (s.awaited c).min? with
    | some r, some k => if r.key < k then (some r, false) else (none, true)
    | some r, none => (some r, false)
    | none, some _ => (none, true)
    | none, none => (none, false)

/-- R241, R334, R335: the record's four words at 2 cy, its flags and counts with them. -/
def execEvpop (d : BitVec 5) (s : State) : Res :=
  let c := s.iss.ctx
  let put := fun (s : State) (x : Nat) => (List.range 4).foldl (fun s w =>
    s.ws (d + BitVec.ofNat 5 w) 2 (BitVec.ofNat 64 (x >>> (64 * w)))) s
  .next (match s.nextRecord c with
    | (_, true) => if s.iss.held then put s 0 else s.blocked .engineQueue [] [] [] []
    | (none, false) => put s 0
    | (some r, false) =>
      if s.detOf c && [0x22, 0x23, 0x26, 0x29].contains r.status.toNat then s.raise (s.issTrap 0x07)
      else
        let s := s.modCur fun x => { x with
          evq := x.evq.erase r, freeing := x.freeing + 1, popped := x.popped ++ [(x.chkNo, r)] }
        let s := ((put s (leNat r.bytes)).wf 2 r.flags).push 2 .freeSlot
        let s := if r.mal = 0 then s else s.push 2 (.mal r.mal.toNat)
        if r.satc = 0 then s else s.push 2 (.sat r.satc.toNat))

/-- R242. In deterministic mode it raises the memory-model exception (R333). Whether a record that `evpop` takes is still held, and
the head, for an `evpeek` in a later slot of its bundle, or in the 2 cy before its slot is free, R241 and R242 leave open: here it has
left the queue at `evpop`'s issue (DESIGN CHOICE, log 72). -/
def execEvpeek (d : BitVec 5) (s : State) : Res :=
  let c := s.iss.ctx
  let q := s.cur.evq
  .next (if s.detOf c then s.raise (s.issTrap 0x07)
    else s.ws d 1 (BitVec.ofNat 64 (q.length + s.reserved c * 2 ^ 7 + match q.head? with
      | none => 0
      | some r => r.seq.toNat * 2 ^ 16 + r.kind.toNat * 2 ^ 32 + r.status.toNat * 2 ^ 40)))

/-! ### Batches and windows (R216 to R219) -/

/-- R218: it blocks while no event-queue slot can be reserved (R238). -/
def execBclose (t : BitVec 2) (s : State) : Res :=
  .next (if !s.iss.held && s.freeSlots s.iss.ctx = 0 then s.blocked .engineQueue [] [] [] []
    else
      let (id, s) := s.fresh
      s.withhold (.bclose t id))

/-- Whether the issuing bundle, a checkpoint bundle, closes a batch of tag t that has touched a peer (R219). -/
def State.closesHere (s : State) (t : BitVec 2) : Bool :=
  s.iss.ckpt &&
  (s.cur.wb.any fun e => e.pc = s.iss.pc && (match e.k with
    | .bclose t' _ => t' = t
    | _ => false)) &&
  ((s.cur.batches.any fun b => b.tag = t && !b.closed && b.touched ≠ []) ||
   ((s.entries s.iss.ctx).any fun e => match e.k with
    | .store bs t' _ => t' = t && bs.any fun p => (match spaceOf (BitVec.ofNat 64 p.1) with
      | .window _ _ => true
      | _ => false)
    | _ => false))

/-- Whether a released `bclose` of tag t of context c is still to leave it (R326). -/
def State.closingNow (s : State) (c : Nat) (t : BitVec 2) : Bool :=
  (s.queued c).any fun e => match e.k with
    | .bclose t' _ => t' = t
    | _ => false

/-- R219. -/
def execBwait (b : BitVec 5) (t : BitVec 2) (s : State) : Res :=
  .next (s.waiting .barrier (!(s.cur.batches.any fun x => x.tag = t && x.closed) && !s.closingNow s.iss.ctx t && !s.closesHere t)
    (s.rs b))

/-- The record of a batch (R218, R240). -/
def Batch.record (b : Batch) : Record :=
  { seq := 0, kind := 0x09, detail := BitVec.ofNat 128 (b.errs.toNat + b.tag.toNat * 2 ^ 32), key := b.key }

/-- The closed batches of context c and tag t whose summaries are all in post their records, in the order of their
`bclose`, up to the first that still waits (R218). -/
def State.postBatches (s : State) (c : Nat) (t : BitVec 2) : State :=
  let ready := ((s.ctx c).batches.filter fun b => b.tag = t && b.closed).takeWhile (·.waiting = [])
  ready.foldl (fun s b =>
    (s.modCtx c fun x => { x with batches := x.batches.filter (·.id ≠ b.id) }).postRecord c b.record) s

/-- Context c with one of its batches changed. -/
def State.modBatch (s : State) (c id : Nat) (f : Batch → Batch) : State :=
  s.modCtx c fun x => { x with batches := x.batches.map fun b => if b.id = id then f b else b }

/-- Whether two windows of context c name one peer. -/
def State.samePeer (s : State) (c w w' : Nat) : Bool :=
  (s.win c w).peer = (s.win c w').peer && (s.win c w).mod = (s.win c w').mod

/-- One window for each peer that a list of windows names, the first of the list: the batch asks each peer once (R218). -/
def State.peersOf (s : State) (c : Nat) (ws : List Nat) : List Nat :=
  ws.foldl (fun acc w => if acc.any (s.samePeer c w) then acc else acc ++ [w]) []

/-- A peer on this module that a closed batch asked replies once all the batch's writes to it have landed or failed, through
whichever windows they went (R218). Window w names the peer. -/
def State.summarise (s : State) (c id w : Nat) : State :=
  let x := s.ctx c
  match x.batches.find? fun b => b.id = id && b.closed with
  | none => s
  | some b =>
    match b.waiting.find? (s.samePeer c w) with
    | none => s
    | some r =>
      if !(x.winq.any fun e => s.samePeer c e.win w && e.batch = id) && (s.win c w).mod = s.modNo then
        s.later 200 .batchSummary { id := id, ctx := c, arg := r }
      else s

/-- The request of a `bclose` of context c to the peer on another module that window w names: the summary of the batch's writes to it
(R218). -/
def State.askSummary (s : State) (c id w : Nat) : State :=
  let x := s.win c w
  if x.mod = s.modNo then s
  else
    let n := (((s.ctx c).batches.filter (·.id = id)).flatMap (·.sent)).countP (s.samePeer c w)
    s.emit (.summaryAsk (localRank x.peer + x.mod * 512) (s.rank (clOf c)) (s.ctx c).l id n)

/-- What has landed here of a batch of another module's context, changed by f; the summary is given once it is asked for and all of
the batch's writes have landed or failed (R218). -/
def State.farSum (s : State) (rank l batch : Nat) (f : FarSum → FarSum) : State :=
  let this := fun (x : FarSum) => x.rank = rank && x.l = l && x.batch = batch
  let x := f ((s.farSums.find? this).getD { rank := rank, l := l, batch := batch, landed := 0, failed := false, asked := none })
  let s := { s with farSums := s.farSums.filter fun y => !this y }
  if x.asked.any fun n => decide (n ≤ x.landed) then s.emit (.summary rank l batch x.failed)
  else { s with farSums := s.farSums ++ [x] }

/-- BATCH SUMMARY: the peer behind window due.arg answers for batch due.id of context due.ctx; wr says that a write
through it failed there. With due.arg2 1 another module's context asks for the summary of a batch of its writes to this module: its
rank, its logical index, the batch and the number of the writes in due.nats (R218). -/
def execBatchSummary (s : State) : Res :=
  let d := s.due
  let n := fun i => d.nats.getD i 0
  .next (if d.arg2 = 1 then s.farSum (n 0) (n 1) (n 2) fun x => { x with asked := some (n 3) }
    else match (s.ctx d.ctx).batches.find? (·.id = d.id) with
    | none => s
    | some b =>
      (s.modBatch d.ctx d.id fun b => { b with
        waiting := b.waiting.erase d.arg
        errs := if d.wr then b.errs ||| (1#32 <<< d.arg) else b.errs }).postBatches d.ctx b.tag)

/-- BATCH SUMMARY BOUND EXPIRY: a summary of batch due.id of context due.ctx that is not in counts as an error of every
window through which the batch touched its peer (R218). -/
def execBatchSummaryBoundExpiry (s : State) : Res :=
  let d := s.due
  .next (match (s.ctx d.ctx).batches.find? (·.id = d.id) with
    | none => s
    | some b =>
      (s.modBatch d.ctx d.id fun b => { b with
        waiting := []
        errs := (b.touched.filter fun w => b.waiting.any (s.samePeer d.ctx w)).foldl (fun e w => e ||| (1#32 <<< w)) b.errs
      }).postBatches d.ctx b.tag)

/-- The oldest write of window w of context c in one of the states that sel picks. -/
def Ctx.oldest (x : Ctx) (w : Nat) (sel : Nat → Bool) : Option WinWrite := x.winq.find? fun e => e.win = w && sel e.st

/-- WINDOW WRITE ACCEPT: the peer's interface accepts the oldest write of window due.arg of context due.ctx that it has
not accepted (R216). -/
def execWindowWriteAccept (s : State) : Res :=
  let d := s.due
  let x := s.ctx d.ctx
  .next (match x.oldest d.arg (· < 2) with
    | none => s
    | some e =>
      let s := s.modCtx d.ctx fun x => { x with winq := x.winq.replace e { e with st := 2 } }
      s.later 200 .windowWriteLand { ctx := d.ctx, arg := d.arg })

/-- The check of a write by party x into the scratchpad of cluster k of this module: platforms, consumption windows, race
tags with the writer's identity. The answer is the address, the ACC code and the tag found (R217, R222, R254, R318). -/
def State.landCheck (s : State) (x : Party) (k : Nat) (bytes : List (Nat × Byte)) : Option (Nat × BitVec 8 × Tag) :=
  bytes.findSome? fun p =>
    if (s.platAt k p.1).isSome then some (p.1, 3, Tag.none)
    else if s.consumed k p.1 s.now || s.arrayLocal k p.1 then some (p.1, 1, Tag.none)
    else if s.syncAt k p.1 then none
    else
      let g := s.spGran k p.1
      if ((s.tag g).step x g.ph .store).isNone then some (p.1, 1, s.tag g) else none

/-- The granules of RD bytes that a write into the scratchpad of cluster k touches. -/
def State.landGrans (s : State) (k : Nat) (bytes : List (Nat × Byte)) : List Gran :=
  ((bytes.filter fun p => !s.syncAt k p.1).map fun p => s.spGran k p.1).dedup

/-- Bytes of the scratchpad of cluster k that context c stores at a place in its program order: its older window writes to
these bytes, still under way, leave them as they are (R195, R324; log 74). -/
def State.overtake (s : State) (c k ord : Nat) (addrs : List Nat) : State :=
  if (s.ctx c).winq = [] then s
  else s.modCtx c fun x => { x with winq := x.winq.map fun e =>
    if e.ord < ord ∧ (s.win c e.win).mod = s.modNo ∧ (s.win c e.win).peer = k then
      { e with dead := e.dead ++ addrs.filter fun a => e.bytes.any (·.1 = a) }
    else e }

/-- A store that is about to be written to the banks of cluster k is noted for the cycle, with the bytes that stand there: a barrier
name that the cycle gives takes it to the unit (R214). -/
def State.noteBanked (s : State) (k : Nat) (r : BarReq) (bs : List (Nat × Byte)) : State :=
  if bs = [] then s else { s with banked := s.banked ++ [(k, r, bs.map fun p => (p.1, s.byteNow (spKey k p.1)))] }

/-- Bytes written to the scratchpad of cluster k by context c, at logical index l and a place in its program order: those of
barrier objects go to the barrier unit (R214), the others to their banks. -/
def State.writeLocal (s : State) (k c : Nat) (l : Nat) (pc : Word) (slot ord : Nat) (bs : List (Nat × Byte)) : State :=
  let s := (s.notePast c (bs.map fun p => spKey k p.1)).overtake c k ord (bs.map (·.1))
  let objs := ((bs.filter fun p => s.isBarrier k p.1).map fun p => barObj p.1).dedup
  let bank := bs.filter fun p => !s.isBarrier k p.1
  let now := bank.map fun p => (spKey k p.1, p.2)
  let req := fun (addr : Nat) (bs : List (Nat × Byte)) =>
    ({ at_ := s.now + 2, addr := addr, op := .store bs, ctx := c, l := l, pc := pc, slot := slot, ord := ord } : BarReq)
  let s := ((s.noteBanked k (req 0 bank) bank).write now).refresh c now
  objs.foldl (fun s o => s.barAdd k (req o (bs.filter fun p => barObj p.1 = o))) s

/-- A window write of context c was rejected: the batch's error bit of its window, and a deferred trap (R218, R319). -/
def State.landRejected (s : State) (c : Nat) (e : WinWrite) (a : Nat) (acc : BitVec 8) (arg : Word) (far : BitVec 32 × BitVec 8) :
    State :=
  (s.modBatch c e.batch fun b => { b with errs := b.errs ||| (1#32 <<< e.win) }).defer c
    { kind := 0x07, pc := e.pc, faddr := BitVec.ofNat 64 ((0x20 + e.win) * 2 ^ 56 + a), arg := arg,
      slot := BitVec.ofNat 8 e.slot, acc := acc, rrank := far.1, rl := far.2, ord := e.ord }

/-- A write in a window's queue of context c lands at the peer on this module, or is rejected there; one to a peer on another
module leaves this one, and its answer is awaited (R217, R319). -/
def State.landWrite (s : State) (c : Nat) (e : WinWrite) : State :=
  let w := s.win c e.win
  if w.mod ≠ s.modNo then
    (s.modCtx c fun x => { x with winq := x.winq.replace e { e with st := 3 } }).emit
      (.window (localRank w.peer + w.mod * 512) (s.rank (clOf c)) (s.ctx c).l e.batch e.bytes)
  else
    let s := s.modCtx c fun x => { x with winq := x.winq.erase e }
    let s := match s.landCheck (s.party c) w.peer e.bytes with
      | some (a, acc, t) => s.landRejected c e a acc t.arg t.far
      | none => (s.register (s.party c) .store (s.landGrans w.peer e.bytes)).writeLocal w.peer c (s.ctx c).l e.pc e.slot e.ord
          (e.bytes.filter fun p => !e.dead.contains p.1)
    s.summarise c e.batch e.win

/-- Every released window write of context c that is under way lands now, in the order of its program: what a release fence
waits for has happened when it is performed (R212, R326; log 74). -/
def State.landAll (s : State) (c : Nat) : State :=
  ((s.ctx c).winq.filter fun e => decide (e.st < 3)).foldl (fun s e =>
    match (s.ctx c).winq.find? fun y => y.ord = e.ord && y.bytes == e.bytes && y.win = e.win && decide (y.st < 3) with
    | some y => s.landWrite c y
    | none => s) s

/-- A window write by a context of another module, at logical index l of rank, into cluster k of this one: checked and
registered as that context's, performed, and answered. It is no store of a context here (R217, R314, R319). One to a SYNC byte by
a deterministic launch (det) is rejected (R333; log 78). It counts in the summary of its batch (R218). -/
def State.farWrite (s : State) (k a rank l batch : Nat) (data : List Byte) (det : Bool) : State :=
  let bytes := runAt a data
  let sum := fun (s : State) (no : Bool) =>
    s.farSum rank l batch fun x => { x with landed := x.landed + 1, failed := x.failed || no }
  match (s.landCheck (.far rank l) k bytes).or
      (((bytes.find? fun p => det && s.syncAt k p.1)).map fun p => (p.1, 1, Tag.none)) with
  | some (x, acc, t) => sum (s.emit (.landed rank l k x (some (acc, t.arg, t.far.1, t.far.2)))) true
  | none =>
    let s := s.register (.far rank l) .store (s.landGrans k bytes)
    let objs := ((bytes.filter fun p => s.isBarrier k p.1).map fun p => barObj p.1).dedup
    let req := fun (addr : Nat) (bs : List (Nat × Byte)) =>
      ({ at_ := s.now + 2, addr := addr, op := .store bs, ctx := 2 ^ 13, l := l, pc := 0, slot := 0 } : BarReq)
    let bank := bytes.filter fun p => !s.isBarrier k p.1
    let s := (s.noteBanked k (req 0 bank) bank).write (bank.map fun p => (spKey k p.1, p.2))
    let s := objs.foldl (fun s o => s.barAdd k (req o (bytes.filter fun p => barObj p.1 = o))) s
    sum (s.emit (.landed rank l k a none)) false

/-- WINDOW WRITE LAND. With due.arg2 0 the oldest accepted write of window due.arg of context due.ctx reaches its peer. With
due.arg2 1 a write by a context of another module lands at address due.arg of cluster due.id: its bytes, its rank, logical index,
whether its launch is deterministic (1), and its batch in due.nats. With due.arg2 2 another module answers for the oldest write that went there through window due.arg of
context due.ctx; wr says that it was rejected: ST, ID, PH in due.word, address, ACC, rank and index in due.nats (R217, R314,
R319). -/
def execWindowWriteLand (s : State) : Res :=
  let d := s.due
  let c := d.ctx
  let n := fun i => d.nats.getD i 0
  .next (match d.arg2 with
    | 0 => (match (s.ctx c).oldest d.arg (· = 2) with
      | none => s
      | some e => s.landWrite c e)
    | 1 => s.farWrite d.id d.arg (n 0) (n 1) (n 3) d.bytes (decide (n 2 = 1))
    | _ => (match (s.ctx c).oldest d.arg (· = 3) with
      | none => s
      | some e =>
        let s := s.modCtx c fun x => { x with winq := x.winq.erase e }
        if d.wr then s.landRejected c e (n 0) (BitVec.ofNat 8 (n 1)) d.word (BitVec.ofNat 32 (n 2), BitVec.ofNat 8 (n 3))
        else s.refresh c ((e.bytes.filter fun p => !e.dead.contains p.1).map fun p => (s.windowKey c e.win p.1, p.2))))

/-! ### Fences (R212) -/

/-- The keys of the bytes that the issuing context's `famo`s and window writes under way write on this module. -/
def State.underWayKeys (s : State) : List Nat :=
  let c := s.iss.ctx
  let famo := (s.agenda.filter fun a => a.ev = .famoArrival && a.due.ctx = c).flatMap fun a =>
    (a.due.nats[3]?).toList.flatMap fun k => (List.range 4).map (k + ·)
  famo ++ s.cur.winq.flatMap fun w =>
    if (s.win c w.win).mod = s.modNo then w.bytes.map fun p => s.windowKey c w.win p.1 else []

/-- What the issuing context's fence makes reach its home: the loads in later slots of the bundle find it there (R86, R212). -/
def State.making (s : State) (f : State → State) : State :=
  let t := f s
  let new := ((s.underWayKeys).filter fun k => s.byteNow k ≠ t.byteNow k).map fun k => (k, t.byteNow k)
  if new = [] then t else { t with iss := { t.iss with view := t.iss.view ++ new } }

/-- What is under way of the context reaches its homes at an acquire fence: its `famo`s; at a full one its window writes too. Those
to another module, and what waits behind them, hold later loads back until they are visible (R212; log 74). -/
def State.acquireFence (sc : Scope) (s : State) : State :=
  if sc = .ctx then s else (s.making fun s => s.famoLandAll s.iss.ctx).acquires true sc
def State.fullFence (s : State) (sc : Scope) : State :=
  if sc = .ctx then s
  else ((s.acquireFence sc).making fun s => s.landAll s.iss.ctx).modCur fun c =>
    { c with fullAt := (c.wb.head?.map (·.ord)).getD c.ents }

/-- R212: a fence holds no bundle and no pipeline. A release fence takes its place among the entries that the context releases;
an acquire fence puts later loads and atomics behind the atomics before it; a full one does both, and puts later loads behind the
stores released before it (R326; log 74). -/
def execFence (k : FKind) (sc : Scope) (s : State) : Res :=
  .next (match k with
    | .acq => s.acquireFence sc
    | .rel => s.ordered true sc
    | .full => (s.fullFence sc).ordered true sc)

/-- It has acquire ordering at cluster scope (R212, R215). -/
def execBarWait (a b : BitVec 5) (h : BitVec 4) (s : State) : Res :=
  s.onBarrier (s.rs a) fun x s =>
    s.waiting .barrier (bits (s.objPrev x) 48 4 ≠ h.toNat) (s.rs b) (State.acquireFence .cl)

/-- It has acquire ordering at cluster scope (R212, R215). In deterministic mode it raises the memory-model exception (R333). -/
def execBarTry (a d : BitVec 5) (s : State) : Res :=
  if s.detOf s.iss.ctx then .next (s.raise (s.issTrap 0x07))
  else s.onBarrier (s.rs a) fun x s => (s.ws d 1 (BitVec.ofNat 64 (s.objPrev x))).acquireFence .cl

/-- R224, with acquire ordering at cluster scope (R212, R327). -/
def execPwait (b : BitVec 5) (c : PCond) (n : BitVec 6) (s : State) : Res :=
  let p := s.prevPlat n.toNat
  .next (if !p.decl then s.raise (s.issTrap 0x03)
    else s.waiting .platform (p.meets c) (s.rs b) (State.acquireFence .cl))

/-- WAIT BOUND EXPIRY: the bound of the wait of context due.ctx is reached, so its bundle can issue: it becomes READY
(R35, R215). -/
def execWaitBoundExpiry (s : State) : Res :=
  .next (s.modCtx s.due.ctx fun x => match x.status with
    | .blocked .barrier => { x with status := .ready }
    | .blocked .platform => { x with status := .ready }
    | _ => x)

end Sys2Proof.Machine
end

