-- ==== Sys2Proof/Machine/Matrix.lean ====
section
/-! DEFINITION. Sys2Proof/Machine/Matrix.lean: the matrix unit, its exact chunked accumulation, the epilogue engine and
the sparse operations (R70, R71, R244 to R266). -/

namespace Sys2Proof.Machine

/-! ### Chunks and accumulation (R70, R71) -/

/-- The exact sum of the products of a chunk: a NaN, an infinity or an exact number, zero being +0 whatever the products' signs
(R70, R266), with NV. The NaN at the lowest k
counts, A before B (R71). Whether products without a value set NV in a chunk that also holds a NaN element R71 leaves open:
here only a signalling NaN sets it then (log 72). -/
def chunkSum (xs ys : List FVal) : FVal × Nat :=
  let ps := xs.zip ys
  let nv := snanFlag (xs ++ ys)
  match (ps.flatMap fun p => [p.1, p.2]).find? FVal.isNan with
  | some n => (n, nv)
  | none =>
    let prods := ps.map fun p => mulExact p.1 p.2
    let pos := prods.contains (some (.inf false))
    let neg := prods.contains (some (.inf true))
    if prods.contains none || (pos && neg) then (.nan false (2 ^ 22), fNV)
    else if pos || neg then (.inf neg, 0)
    else
      (prods.foldl (fun acc p => match acc, p with
        | .fin s1 m1 e1, some (.fin s2 m2 e2) =>
          let x := sumDy s1 m1 e1 s2 m2 e2
          .fin (decide (x.1 < 0)) x.1.natAbs x.2
        | a, _ => a) (intVal 0), 0)

/-- One element of C over the chunks of its row of A and of B, in ascending order, one rounding per chunk. -/
def accumElem (c : Nat) (a b : List (List FVal)) : Nat × Nat :=
  (a.zip b).foldl (fun acc ch =>
    let s := chunkSum ch.1 ch.2
    let r := addF fmtF32 .rne s.1 (decodeF fmtF32 acc.1)
    (r.1, acc.2 ||| s.2 ||| r.2)) (c, 0)

/-- The accumulator's flag bits OF, NV, UF, the lowest first, from sticky flags (R244), and back. In which of image bits 3a+4 to 3a+6
each stands R245 and R368 leave open: OF lowest, then NV, UF (DESIGN CHOICE, log 72). -/
def accFlags (f : Nat) : BitVec 3 :=
  BitVec.ofNat 3 (bit (f &&& fOF ≠ 0) + 2 * bit (f &&& fNV ≠ 0) + 4 * bit (f &&& fUF ≠ 0))
def stickyOfAcc (f : BitVec 3) : Nat := (if f.getLsbD 0 then fOF else 0) + (if f.getLsbD 1 then fNV else 0) + (if f.getLsbD 2 then fUF else 0)

/-- The accumulator after an operation on 32 rows of A and 64 of B, in chunks. -/
def accumulate (c : BitVec 65536) (a b : List (List (List FVal))) : BitVec 65536 × BitVec 3 :=
  let es := (List.range 2048).map fun i =>
    accumElem (bits c.toNat (32 * i) 32) (a.getD (i / 64) []) (b.getD (i % 64) [])
  (BitVec.ofNat 65536 (packNat 32 (es.map (·.1))), accFlags (orFlags (es.map (·.2))))

/-! ### Operand rows (R247 to R249, R254) -/

/-- A plain element's value (R247). -/
def plainVal (ty : Nat) (bs : List Byte) : FVal :=
  let x := leNat bs
  match ty with
  | 0 => decodeF fmtBf16 x
  | 1 => decodeF fmtF16 x
  | 2 => decodeF fmtE4m3 x
  | 3 => decodeF fmtE5m2 x
  | _ => intVal (toSigned 8 x)

/-- Bytes of a plain element. -/
def plainSize (ty : Nat) : Nat := if ty ≤ 1 then 2 else 1

/-- A list cut into chunks of n; fuel counts chunks. -/
def chunksOf {α : Type} (n : Nat) : Nat → List α → List (List α)
  | 0, _ => []
  | fuel + 1, xs => if xs.isEmpty then [] else xs.take n :: chunksOf n fuel (xs.drop n)

/-- What streaming operand rows finds: elements along K with the malformed codes so far, or the kind and the local
address of a fault. -/
inductive MxRead where
  | ok (rows : List (List FVal)) (mal : Nat) (s : State)
  | bad (kind : BitVec 8) (addr mal : Nat) (far : BitVec 32 × BitVec 8) (s : State)

/-- The bytes of an operand at a local address, read as the operation's context reads them (R254): as the stores released before it
left them, those on their way to a barrier unit too (R331). -/
def State.mxBytes (s : State) (o : MxOp) (a n : Nat) : ERead :=
  match s.engRead o.ctx (s.who o.ctx) (localEa a) n with
  | .ok bs s => .ok (bs.mapIdx fun i b => (lookLast o.past (spKey (clOf o.ctx) (a + i))).getD b) s
  | r => r

/-- The trap kind of a read that failed: an uncorrectable word, otherwise a race conflict (R255, R427). -/
def mxKind (st : BitVec 8) : BitVec 8 := if st = 0x14 then 0x10 else 0x07

/-- A plain row (R247). -/
def State.plainRow (s : State) (o : MxOp) (ty a : Nat) : MxRead :=
  match s.mxBytes o a (o.k * plainSize ty) with
  | .fail st ea far s => .bad (mxKind st) (fld ea 0 23) 0 far s
  | .ok bs s => .ok [(pieces (plainSize ty) o.k bs).map (plainVal ty)] 0 s

/-- A described row, block by block from local address a, with k elements of K still to come (R248, R249). -/
def State.descRow (o : MxOp) : Nat → State → Nat → Nat → List FVal → Nat → MxRead
  | 0, s, _, _, acc, mal => .ok [acc] mal s
  | fuel + 1, s, a, k, acc, mal =>
    if k = 0 then .ok [acc] mal s
    else
      match s.mxBytes o a 64 with
      | .fail st ea far s => .bad (mxKind st) (fld ea 0 23) mal far s
      | .ok bs s =>
        let blk := leNat bs
        let fmt := blkFmt blk
        if fmt = 7 ∨ blkRate fmt < o.rho then .bad 0x0F a mal (0, 0) s
        else
          let n := min (blkElems fmt) k
          let xs := (decodeSeg blk 0 n).getD (List.replicate n (invalidNan, false))
          State.descRow o fuel s (a + 64) (k - n) (acc ++ xs.map (·.1)) (mal + xs.countP (·.2))

/-- n rows of an operand, ascending, up to the first fault. -/
def State.mxRows (o : MxOp) (ty base stride : Nat) (s : State) (n : Nat) : MxRead :=
  (List.range n).foldl (fun acc i =>
    match acc with
    | .bad kd a m far s => .bad kd a m far s
    | .ok rows m s =>
      let at_ := base + 64 * stride * i
      match (if o.desc then State.descRow o (o.k / 31 + 1) s at_ o.k [] 0 else s.plainRow o ty at_) with
      | .ok r m' s => .ok (rows ++ r) (m + m') s
      | .bad kd a m' far s => .bad kd a (m + m') far s) (.ok [] 0 s)

/-- The list of R265: every k whose bits are set in both masks. -/
def condensed (k amask bmask : Nat) : List Nat := (List.range k).filter fun i => tst amask i && tst bmask i

/-- The chunk length (R70). -/
def MxOp.chunk (o : MxOp) : Nat := if o.desc then 31 else 32

/-- An operation of core q with its outcome computed. -/
def State.modMx (s : State) (q id : Nat) (f : MxOp → MxOp) : State :=
  s.modCore q fun co => { co with mx := co.mx.map fun o => if o.id = id then f o else o }

/-- The quiet NaN of R255 in every element. -/
def stopNan : BitVec 65536 := BitVec.ofNat 65536 (packNat 32 (List.replicate 2048 0x7FC00B0C))

/-- The accumulator as an operation finds it: what the last operation before it leaves, or the accumulator itself; +0
under `.z` (R250, R252). -/
def Core.before (co : Core) (o : MxOp) : Acc :=
  if o.z then Acc.launch
  else
    let here := co.acc.getD o.acc Acc.launch
    match (co.mx.takeWhile (·.id ≠ o.id)).reverse.find? fun p => p.acc = o.acc && p.result.isSome with
    | some p => { here with c := p.result.getD 0, flags := p.flags }
    | none => here

/-- Malformed codes found as operation o of core q reads its blocks are added to its accumulator's count, which `.z` clears
(R244, R249, R250). -/
def State.mxMal (s : State) (q : Nat) (o : MxOp) (n : Nat) : State :=
  s.modCore q fun co =>
    let a := co.acc.getD o.acc Acc.launch
    { co with acc := co.acc.setIfInBounds o.acc { a with mal := satAdd32 (if o.z then 0 else a.mal) n } }

/-- MATRIX OPERATION START: operation due.id of core due.arg reads its operands and feeds (R252, R254, R265). Its
outcome is what the accumulator will hold once the result is in. R249 and R255 read each block in a cycle from t to t + F - 1 and
do not say which: the model reads all of them, and counts their malformed codes, in cycle t. R255 stops the feed of an operation
at a fault, and does not say when it leaves the queue then: here at t + F, as without one (DESIGN CHOICE, log 72). -/
def execMatrixOperationStart (s : State) : Res :=
  let q := s.due.arg
  let id := s.due.id
  .next (match (s.core q).mx.find? (·.id = id) with
    | none => s
    | some o =>
      let k := clOf o.ctx
      let was := (s.core q).before o
      let s := s.schedule (s.now + o.feed) .matrixFeedEnd { id := id, arg := q }
      let (extra, s) := if o.sparse then s.draw 32 else (0, s)
      let s := s.schedule (s.now + o.len + extra) .matrixResult { id := id, arg := q }
      let bad := fun (kd : BitVec 8) (a m : Nat) (far : BitVec 32 × BitVec 8) (s : State) =>
        let t : TrapInfo := { kind := kd, pc := o.pc, faddr := localEa a, arg := o.seq.setWidth 64,
                              slot := BitVec.ofNat 8 o.slot, key := spKey k a, ord := o.ord, rrank := far.1, rl := far.2 }
        let s := (s.mxMal q o m).modMx q id fun o => { o with
          result := some stopNan, flags := was.flags ||| accFlags fNV, fault := some t }
        s.later o.feed .matrixStreamFault { id := id, arg := q }
      match (if o.sparse then s.mxBytes o (s.plat k o.plats.2.2).frontAt 1024 else .ok [] s) with
      | .fail st ea far s => bad (mxKind st) (fld ea 0 23) 0 far s
      | .ok masks s =>
        match State.mxRows o o.aty o.abase o.astr s 32 with
        | .bad kd a m far s => bad kd a m far s
        | .ok ra ma s =>
          match State.mxRows o o.bty o.bbase o.bstr s 64 with
          | .bad kd a m far s => bad kd a (ma + m) far s
          | .ok rb mb s =>
            let ks := condensed o.k (leNat (masks.take 512)) (leNat (masks.drop 512))
            let cut := fun (xs : List FVal) =>
              chunksOf o.chunk (o.k / o.chunk + 1) (if o.sparse then ks.map fun i => xs.getD i (intVal 0) else xs)
            let r := accumulate was.c (ra.map cut) (rb.map cut)
            (s.mxMal q o (ma + mb)).modMx q id fun o => { o with result := some r.1, flags := was.flags ||| r.2 })

/-- MATRIX FEED END: operation due.id of core due.arg leaves the unit's queue (R251, R252). -/
def execMatrixFeedEnd (s : State) : Res := .next (s.modMx s.due.arg s.due.id fun o => { o with fed := true })

/-- MATRIX STREAM FAULT: the fault found while operation due.id of core due.arg streamed is raised on its context's next
due bundle (R255, R360). -/
def execMatrixStreamFault (s : State) : Res :=
  .next (match (s.core s.due.arg).mx.find? (·.id = s.due.id) with
    | some o => match o.fault with
      | some t => s.defer o.ctx t
      | none => s
    | none => s)

/-- Operation o of core q is complete: its accumulator holds its result, and a sparse one's holds end (R252, R264). -/
def State.mxComplete (s : State) (q : Nat) (o : MxOp) : State :=
  let s := s.modCore q fun co => { co with
    mx := co.mx.filter (·.id ≠ o.id)
    acc := co.acc.setIfInBounds o.acc { (co.acc.getD o.acc Acc.launch) with c := o.result.getD 0, flags := o.flags } }
  if !o.sparse then s
  else (s.modCluster (clOf o.ctx) fun cl => { cl with
    plats := cl.plats.map fun p => { p with holds := p.holds.filter (· ≠ o.id) } }).wakePrels (clOf o.ctx)

/-- MATRIX RESULT: the accumulator holds the result of operation due.id of core due.arg, and those of the operations released
before it on that accumulator, whose own cycle R264 leaves open when they are sparse, are complete by then (R252, R255). -/
def execMatrixResult (s : State) : Res :=
  let q := s.due.arg
  .next (match (s.core q).mx.find? (·.id = s.due.id) with
    | none => s
    | some o =>
      let ahead := ((s.core q).mx.takeWhile (·.id ≠ o.id)).filter fun p => p.acc = o.acc && p.result.isSome
      (ahead ++ [o]).foldl (fun s p => s.mxComplete q p) s)

/-- PREL HOLD APPLY: the `prel`s of platform due.arg of cluster due.id that were released during a sparse hold are
applied, in release order (R264). -/
def execPrelHoldApply (s : State) : Res :=
  let k := s.due.id
  let pn := s.due.arg
  .next (if (s.plat k pn).sparseHeld then s
    else
      let mine := (s.cluster k).prels.filter (·.pn = pn)
      let s := s.modCluster k fun c => { c with prels := c.prels.filter (·.pn ≠ pn) }
      mine.foldl (fun s r => s.applyPrel { r with cy := s.now }) s)

/-! ### `mxgo` and `mxsgo` (R250 to R253, R263, R264) -/

/-- Whether the issuing context owns an accumulator (R244). -/
def State.owns (s : State) (a : BitVec 2) : Bool :=
  a.toNat % (((s.launchOf s.iss.ctx).map (·.c)).getD 1) = s.iss.ctx % 4

/-- Whether the unit's queue holds a matrix operation back (R251). -/
def State.mxBlocked (s : State) : Bool :=
  let mx := (s.core (coreOf s.iss.ctx)).mx
  decide (2 ≤ mx.countP (!·.fed)) || mx.any fun o => o.release.isNone && o.ctx != s.iss.ctx

/-- The operation that the shadow registers describe, as captured at issue. -/
def State.mxOp (s : State) (z sparse : Bool) (a : BitVec 2) (id : Nat) : MxOp :=
  let h := s.cur.vis.shadow
  let sh := h.emxShape.toNat
  let sp := h.emxSparse.toNat
  let desc := tst sh 16
  let aty := bits sh 17 3
  let bty := bits sh 20 3
  let k := clOf s.iss.ctx
  let pa := bits sp 0 6
  let pb := bits sp 8 6
  { id := id, ctx := s.iss.ctx, seq := s.cur.vis.seq, sparse := sparse, z := z, acc := a.toNat,
    abase := if sparse then (s.plat k pa).frontAt else fld h.emxAbase 0 23,
    bbase := if sparse then (s.plat k pb).frontAt else fld h.emxBbase 0 23,
    astr := fld h.emxStride 0 16, bstr := fld h.emxStride 16 16, k := bits sh 0 16, desc := desc, aty := aty, bty := bty,
    rho := if desc then 2 ^ bits sh 23 2 else if aty ≤ 1 ∨ bty ≤ 1 then 1 else 2, plats := (pa, pb, bits sp 16 6),
    pc := s.iss.pc, slot := s.iss.slot, ord := s.cur.ents, release := none, start := none, fed := false, result := none, flags := 0,
    fault := none }

/-- The end of an operand's last stored row of n (R251). -/
def mxEnd (base stride span n : Nat) : Nat := base + 64 * stride * (n - 1) + span

/-- Conditions 2 to 7 of R251. -/
def MxOp.badDense (o : MxOp) : Bool :=
  (if o.desc then o.rho = 8 else decide (4 < o.aty) || decide (4 < o.bty)) ||
  o.k = 0 || o.k % o.chunk != 0 || o.abase % 64 != 0 || o.bbase % 64 != 0 ||
  decide (o.astr * 64 < o.span o.aty) || decide (o.bstr * 64 < o.span o.bty) ||
  o.abase / 2 ^ 21 = o.bbase / 2 ^ 21 ||
  (mxEnd o.abase o.astr (o.span o.aty) 32 - 1) / 2 ^ 21 != o.abase / 2 ^ 21 ||
  (mxEnd o.bbase o.bstr (o.span o.bty) 64 - 1) / 2 ^ 21 != o.bbase / 2 ^ 21

/-- An operation accepted: it enters the queue, its word reaches EMX.ACC at 1 cy, it is withheld (R251, R253). -/
def State.mxAccept (s : State) (o : MxOp) (condense : Nat) : State :=
  let q := coreOf s.iss.ctx
  let ahead := (((s.core q).mx.find? fun p => !p.fed).map (·.feed)).getD 0
  let bound := ceilDiv (10 * (1 + ahead + o.len + condense)) 19
  let (seq, s) := s.takeSeq
  let s := s.modCore q fun co => { co with mx := co.mx ++ [o] }
  (s.push 1 (.engAcc 0x1010 (s.acceptWord bound seq 0))).withhold (.cmd o.id)

/-- R251. -/
def execMxgo (z : Bool) (a : BitVec 2) (s : State) : Res :=
  .next (if !s.iss.held && s.mxBlocked then s.blocked .engineQueue [] [] [] []
    else
      let (id, s') := s.fresh
      let o := s'.mxOp z false a id
      if !s.owns a || o.badDense then s.raise (s.issTrap 0x0D) else s'.mxAccept o 0)

/-- The checks of R264 after ownership, in order: the trap kind of the first that holds. -/
def State.badSparse (s : State) (o : MxOp) : Option (BitVec 8) :=
  let k := clOf o.ctx
  let a := s.plat k o.plats.1
  let b := s.plat k o.plats.2.1
  let m := s.plat k o.plats.2.2
  if o.desc || decide (4 < o.aty) || decide (4 < o.bty) || o.k = 0 || o.k % 32 != 0 || decide (4096 < o.k) then some 0x0D
  else if !(a.decl && b.decl && m.decl) then some 0x03
  else if a.frontAt / 2 ^ 21 = b.frontAt / 2 ^ 21 || a.st = .free || b.st = .free || m.st = .free || decide (m.half < 1024) ||
      decide (a.half < mxEnd 0 o.astr (o.span o.aty) 32) || decide (b.half < mxEnd 0 o.bstr (o.span o.bty) 64) then some 0x0D
  else none

/-- R263, R264: at issue it takes a hold on its three platforms. -/
def execMxsgo (z : Bool) (a : BitVec 2) (s : State) : Res :=
  let (id, s') := s.fresh
  let o := s'.mxOp z true a id
  let k := clOf s.iss.ctx
  let ps := [o.plats.1, o.plats.2.1, o.plats.2.2]
  .next (if !s.iss.held && ps.any fun p => (s.plat k p).st = .filling then s.blocked .platform [] [] [] []
    else if !s.iss.held && s.mxBlocked then s.blocked .engineQueue [] [] [] []
    else if !s.owns a then s.raise (s.issTrap 0x0D)
    else
      match s.badSparse o with
      | some kd => s.raise (s.issTrap kd)
      | none =>
        let s' := ps.dedup.foldl (fun s p => s.modPlat k p fun p => { p with holds := id :: p.holds }) s'
        s'.mxAccept o 32)

/-- A matrix operation released: its start cycle (R252). -/
def State.mxRelease (s : State) (q id : Nat) : State :=
  let co := s.core q
  let ahead := (co.mx.takeWhile (·.id ≠ id)).map fun o => (o.start.map (· + o.feed)).getD 0
  let t := max (s.now + 1) (ahead.foldl max 0)
  (s.modMx q id fun o => { o with release := some s.now, start := some t, past := s.released o.ctx }).schedule t .matrixOperationStart
    { id := id, arg := q }

/-! ### The epilogue engine (R256 to R262) -/

/-- The default entries of R262. -/
def epBound (cls : Nat) : BoundEntry :=
  match cls with
  | 0 => { base := 800, unit := 1, unit2 := 0, limit := 0 }
  | 1 => { base := 2000, unit := 1, unit2 := 0, limit := 0 }
  | 2 => { base := 10000, unit := 2, unit2 := 0, limit := 0 }
  | _ => { base := 100000, unit := 4, unit2 := 0, limit := 0 }

/-- Row bytes of an output type; 0 for an unassigned one (R260). -/
def epRowBytes (oty : Nat) : Nat :=
  match oty with
  | 0 => 256
  | 1 => 128
  | 2 => 128
  | 3 => 64
  | 4 => 64
  | 8 => 64
  | 9 => 128
  | 10 => 128
  | 11 => 128
  | 12 => 192
  | 13 => 192
  | _ => 0

/-- The refusal code of an `epgo`, in the order of R257. -/
def State.epRefusal (s : State) (dst vec act out : Word) : Option Nat :=
  let oty := fld out 0 4
  let doff := fld dst 8 23
  let dstr := fld dst 31 24
  let p := s.plat (clOf s.iss.ctx) (fld dst 0 6)
  if fld act 0 4 > 5 ∨ epRowBytes oty = 0 ∨ (tst out.toNat 4 ∧ oty ≠ 8) ∨ fld out 25 9 > 256 ∨
      (tst vec.toNat 23 ∧ fld vec 0 23 % 64 ≠ 0) ∨ (tst vec.toNat 47 ∧ fld vec 24 23 % 64 ≠ 0) ∨
      doff % 64 ≠ 0 ∨ dstr % 64 ≠ 0 ∨ dstr < epRowBytes oty then some 0x03
  else if !p.decl then some 0x04
  else if doff + 31 * dstr + epRowBytes oty > p.half then some 0x06
  else if s.freeSlots s.iss.ctx = 0 then some 0x07
  else none

/-- R257. -/
def execEpgo (a : BitVec 2) (s : State) : Res :=
  let c := s.iss.ctx
  let q := coreOf c
  let h := s.cur.vis.shadow
  let pn : BitVec 6 := BitVec.ofNat 6 (fld h.eepDst 0 6)
  let cls := fld h.eepDst 6 2
  let p := s.plat (clOf c) pn.toNat
  let mine := (s.core q).mx.filter (·.acc = a.toNat)
  let busy := s.cmds.countP fun x => match x.k with
    | .epgo q' _ _ _ _ _ => q' = q
    | _ => false
  let put := fun w (s : State) => s.push 1 (.engAcc 0x2010 w)
  .next (if !s.iss.held && ((s.owns a && mine.any (·.sparse)) || decide (2 ≤ busy)) then s.blocked .engineQueue [] [] [] []
    else if !s.iss.held && (p.resv.isSome || p.st = .filling || p.st = .draining) then s.blocked .platform [] [] [] []
    else if !s.owns a then s.raise (s.issTrap 0x0D)
    else if mine.any (!·.sparse) then s.raise (s.issTrap 0x0E)
    else
      match s.epRefusal h.eepDst h.eepVec h.eepAct h.eepOut with
      | some code => s.refuse code cls put
      | none =>
        let b := s.boundEntry 1 cls (epBound cls)
        let bound := b.base + ceilDiv (32 * epRowBytes (fld h.eepOut 0 4)) 64 * b.unit
        s.accept (.epgo q a.toNat h.eepDst h.eepVec h.eepAct h.eepOut) 0x02 cls bound (some pn) none put)

/-- 64 f32 patterns in 256 bytes. -/
def f32s (bs : List Byte) : List (BitVec 32) := words32 bs

/-- What a released `epgo` takes at its release: the snapshot, the flag bits and count, which are cleared, and the
enabled vectors (R258). The answer says whether a vector read failed, and how. -/
def State.epSnapshot (s : State) (x : Cmd) (q acc : Nat) (vec : Word) : Option (BitVec 8) × State :=
  let a := (s.core q).acc.getD acc Acc.launch
  let s := s.modCore q fun co => { co with acc := co.acc.setIfInBounds acc { a with flags := 0, mal := 0 } }
  let read := fun (on : Bool) (at_ : Nat) (s : State) =>
    if !on then ((none : Option (BitVec 8)), ([] : List (BitVec 32)), s)
    else match s.cmdRead x (localEa at_) 256 with
      | .ok bs s => (none, f32s bs, s)
      | .fail st _ _ s => (some st, [], s)
  let (e1, bv, s) := read (tst vec.toNat 23) (fld vec 0 23) s
  let (e2, sv, s) := read (tst vec.toNat 47) (fld vec 24 23) s
  (e1.or e2, s.modCmd x.id fun x => { x with
    snap := some (a.c, bv, sv)
    record := { x.record with
      flags := BitVec.ofNat 6 (stickyOfAcc a.flags), mal := a.mal
      detail := match x.k with
        | .epgo _ acc _ _ _ out => BitVec.ofNat 128 (acc + fld out 0 4 * 2 ^ 8)
        | _ => 0 } })

/-- act(y) of R259 on an f32 pattern, with its flags. -/
def activate (fn : Nat) (slope : Nat) (y : Nat) : Nat × Nat :=
  let v := decodeF fmtF32 y
  match fn with
  | 1 => if v.isNan || !v.sign then (y, 0) else (0, 0)
  | 2 => if v.isNan || !v.sign || v.isZero then (y, 0) else mulF fmtF32 .rne v (decodeF fmtF32 slope)
  | 3 => tEval fmtF32 .sig y
  | 4 => tEval fmtF32 .tanh y
  | 5 =>
    let g := tEval fmtF32 .sig y
    let r := mulF fmtF32 .rne v (decodeF fmtF32 g.1)
    (r.1, g.2 ||| r.2)
  | _ => (y, 0)

/-- One element of the tile before its output encoding (R259). -/
def epElem (act : Word) (bv sv : List (BitVec 32)) (j c : Nat) : Nat × Nat :=
  let x := decodeF fmtF32 c
  let b := decodeF fmtF32 ((bv.getD j 0).toNat)
  let k := decodeF fmtF32 ((sv.getD j 0).toNat)
  let y : Nat × Nat :=
    if sv ≠ [] ∧ bv ≠ [] then fmaF fmtF32 .rne false false x k b
    else if sv ≠ [] then mulF fmtF32 .rne x k
    else if bv ≠ [] then addF fmtF32 .rne x b
    else (c, 0)
  let r := activate (fld act 0 4) (fld act 32 32) y.1
  (r.1, y.2 ||| r.2)

/-- A plain output type's format (R260). -/
def epPlain (oty : Nat) : Fmt :=
  match oty with
  | 1 => fmtBf16
  | 2 => fmtF16
  | 3 => fmtE4m3
  | 4 => fmtE5m2
  | _ => fmtF32

/-- The scale of a block under SMODE 1: R183 over its own elements (R260). -/
def epScale (out : Word) (ys : List FVal) : Nat :=
  let beta := toSigned 9 (fld out 16 9)
  let ks := ys.filterMap (histSlot beta)
  chooseScale beta ((List.range 64).map fun b => ks.count b) (ks.count 64) ks.length (fld out 25 9)

/-- A row of 64 elements in its output type: bytes, flags, saturations (R260). -/
def epRow (out : Word) (ys : List Nat) : List Byte × Nat × Nat :=
  let oty := fld out 0 4
  let vs := ys.map (decodeF fmtF32)
  if oty < 8 then
    let f := epPlain oty
    let es := vs.map (convF f .rne 0)
    (es.flatMap fun e => leBytes (f.width / 8) e.1, orFlags (es.map (·.2)), 0)
  else
    let fmt := oty - 7
    let n := blkElems fmt
    let es := (chunksOf n 3 vs).map fun p =>
      let sc := if tst out.toNat 4 then epScale out p else fld out 8 8
      encodeBlock fmt sc p.length [fun i => p.getD i (intVal 0)]
    (es.flatMap fun e => leBytes 64 e.blk, orFlags (es.map (·.flags)), (es.map (·.sats)).sum)

/-- The work of an `epgo` from its snapshot (R259 to R261). -/
def State.epWork (s : State) (x : Cmd) (acc : Nat) (dst act out : Word) : Fill :=
  let oty := fld out 0 4
  let pn := (x.pn.getD 0).toNat
  let base := (s.plat (clOf x.ctx) pn).shadowAt + fld dst 8 23
  let at_ := fun i => base + i * fld dst 31 24
  let n := epRowBytes oty
  let extent := (List.range 32).flatMap fun i => (List.range n).map fun b => at_ i + b
  match x.snap with
  | none => { status := 0, bytes := [], extent := extent, record := x.record }
  | some (c, bv, sv) =>
    let ys := (List.range 2048).map fun e => epElem act bv sv (e % 64) (bits c.toNat (32 * e) 32)
    let rows := (List.range 32).map fun i => epRow out (((ys.drop (64 * i)).take 64).map (·.1))
    let nans := ys.countP fun y => (decodeF fmtF32 y.1).isNan
    let fl := orFlags (ys.map (·.2)) ||| orFlags (rows.map (·.2.1))
    { status := 0
      bytes := (List.range 32).flatMap fun i => runAt (at_ i) ((rows.getD i ([], 0, 0)).1)
      extent := extent
      record := { x.record with
        flags := x.record.flags ||| BitVec.ofNat 6 fl, satc := BitVec.ofNat 32 (rows.map (·.2.2)).sum,
        detail := BitVec.ofNat 128 (acc + oty * 2 ^ 8 + nans * 2 ^ 16) } }

end Sys2Proof.Machine
end

