-- ==== Sys2Proof/Machine/Pooling.lean ====
section
/-! DEFINITION. Sys2Proof/Machine/Pooling.lean: Depots, Sidings and the Turntable: the pool accumulator (R66 to R69), `pool`
(R271 to R278), hot rows (R279 to R283), `upd` (R284 to R288), their bounds and admission (R289). -/

namespace Sys2Proof.Machine

/-! ### The pool accumulator (R66 to R69) -/

/-- fix(x, e): the term of a finite element and whether it was clamped (R66). -/
def fixTerm (e : Int) (s : Bool) (m : Nat) (ex : Int) : Int × Bool :=
  let t := (roundAt .rne 0 s m 1 (ex - e) 0).1
  let v : Int := if s then -(t : Int) else t
  if v < -(2 ^ 63 : Nat) then (-(2 ^ 63 : Nat), true)
  else if (2 ^ 63 : Nat) ≤ v then ((2 ^ 63 : Nat) - 1, true) else (v, false)

/-- The smaller of two faults: first by cause, then by position (R275, R278). -/
def firstFault (a b : Option (Nat × Nat)) : Option (Nat × Nat) :=
  match a, b with
  | some x, some y => if y.1 < x.1 ∨ (y.1 = x.1 ∧ y.2 < x.2) then some y else some x
  | some x, none => some x
  | none, y => y

/-- A bag's partial with nothing in it. -/
def BagPart.zero (bag w : Nat) : BagPart :=
  { bag := bag, sums := List.replicate w 0, nans := List.replicate w false, pinfs := List.replicate w false,
    ninfs := List.replicate w false, sat := false, mal := 0, fault := none }

/-- A partial with a row's elements added (R66, R68). R68 names no e4m3 row among those that mark a lane: the model marks it for a
NaN of e4m3 as well (DESIGN CHOICE, log 72). -/
def BagPart.addRow (p : BagPart) (e : Int) (xs : List FVal) (mal : Nat) : BagPart :=
  let term := fun (x : FVal) => match x with
    | .fin s m ex => fixTerm e s m ex
    | _ => (0, false)
  { p with
    sums := List.zipWith (fun a x => a + (term x).1) p.sums xs
    nans := List.zipWith (fun a (x : FVal) => a || x.isNan) p.nans xs
    pinfs := List.zipWith (fun a (x : FVal) => a || x = .inf false) p.pinfs xs
    ninfs := List.zipWith (fun a (x : FVal) => a || x = .inf true) p.ninfs xs
    sat := p.sat || xs.any fun x => (term x).2
    mal := p.mal + mal }

/-- Two partials of one bag added (R67, R68). -/
def BagPart.merge (p q : BagPart) : BagPart :=
  { p with
    sums := List.zipWith (· + ·) p.sums q.sums, nans := List.zipWith (· || ·) p.nans q.nans
    pinfs := List.zipWith (· || ·) p.pinfs q.pinfs, ninfs := List.zipWith (· || ·) p.ninfs q.ninfs
    sat := p.sat || q.sat, mal := p.mal + q.mal, fault := firstFault p.fault q.fault }

/-- A partial put into a list of partials, one for each bag. -/
def addPart (p : BagPart) : List BagPart → List BagPart
  | [] => [p]
  | q :: r => if q.bag = p.bag then q.merge p :: r else q :: addPart p r

/-- One lane delivered: its bits, flags, whether the clamp of R67 changed it (R68, R69). -/
def deliverLane (f : Fmt) (e : Int) (div : Nat) (sum : Int) (nan pinf ninf : Bool) : Nat × Nat × Bool :=
  let lo : Int := -(2 ^ 63 : Nat)
  let hi : Int := (2 ^ 63 : Nat) - 1
  let c := min (max sum lo) hi
  let r : Nat × Nat :=
    if nan || (pinf && ninf) then (f.cnan, if pinf && ninf then fNV else 0)
    else if pinf || ninf then (f.signed ninf f.infMag, 0)
    else if c = 0 then (0, 0)
    else roundQ f .rne 0 (c < 0) c.natAbs div e
  (r.1, r.2, c != sum)

/-- A bag's output row: bytes, flags, whether a lane is saturated (R275, R276, R307). -/
def Bag.row (b : Bag) (e : Int) (w : Nat) (mean bf16 : Bool) : List Byte × Nat × Bool :=
  let f := if bf16 then fmtBf16 else fmtF32
  let n := gradSize bf16
  let all := fun (x : Nat) => ((List.replicate w (leBytes n (if bf16 then 0x7FC0 else x))).flatten, 0, false)
  if b.late then all 0x7FC00B09
  else
    match b.part.fault with
    | some (1, _) => all 0x7FC00B07
    | some (2, _) => all 0x7FC00B06
    | some _ => all 0x7FC00B08
    | none =>
      if b.count = 0 then (List.replicate (n * w) 0, 0, false)
      else
        let p := b.part
        let ls := (List.range w).map fun j =>
          deliverLane f e (if mean then b.count else 1) (p.sums.getD j 0) (p.nans.getD j false) (p.pinfs.getD j false)
            (p.ninfs.getD j false)
        let sat := p.sat || ls.any (·.2.2)
        (ls.flatMap fun l => leBytes n l.1, orFlags (ls.map (·.2.1)) ||| (if sat then fSAT else 0), sat)

/-! ### Rows (R269) -/

/-- The elements that a row takes from one of its blocks, at most n of them, with their malformed codes. -/
def Table.segment (t : Table) (row blk n : Nat) : List FVal × Nat :=
  let fmt := blkFmt blk
  let rb0 := if t.rpb = 1 then 0 else row % t.rpb * segBytes fmt t.w
  let room := if fmt = 7 then (60 - rb0) / 4 else if fmt = 5 ∨ fmt = 6 then (62 - rb0) / 2
    else if fmt = 2 ∨ fmt = 3 ∨ fmt = 4 then 62 - rb0 else 2 * (62 - rb0)
  let n := min n room
  match decodeSeg blk rb0 n with
  | none => (List.replicate n invalidNan, 0)
  | some xs => (xs.map (·.1), xs.countP (·.2))

/-- n bytes of table memory in one line, read by a Depot without race tags; the STATUS of a read that fails (R274, R374, R407,
R427). -/
def State.tableRead (s : State) (die : Nat) (w : Who) (va n : Nat) : Except (BitVec 8) Nat × State :=
  if 2 ^ 56 ≤ va then (.error 0x10, s)
  else
    match s.translate w va .r with
    | .ok m e =>
      match s.poisoned (m / 64 * 64) 64 with
      | some k => (.error 0x14, s.memError die k)
      | none =>
        let s := ((s.learn e).heat m e.leaf).corrected die (m / 64 * 64) 64
        (.ok (s.gnat m n), s)
    | .poison k => (.error 0x14, s.memError die k)
    | r => (.error r.status, s.walkCorrected w.asid va)

/-- A block of a table row read on a command's behalf; none when it cannot be read (R275). -/
def State.rowBlk (s : State) (die : Nat) (w : Who) (va : Nat) : Option Nat × State :=
  match s.tableRead die w va 64 with
  | (.ok b, s) => (some b, s)
  | (.error _, s) => (none, s)

/-- The key of block i of a cache entry (R279, R371). -/
def State.hotKey (s : State) (place set i : Nat) : Nat := (s.region (place / 16)).1 + set * 65536 + place % 16 * 4096 + 64 * i

/-- A block of a row's cache entry with the bytes of its home, which every write of these keeps it equal to: no result depends on
whether a row is cached (R20, R67, R281). -/
def State.hotSync (s : State) (place set i : Nat) : State :=
  match (s.hot.find? fun h => 16 * h.stack + h.way = place && h.set = set).bind fun h => h.what.at_[i]? with
  | none => s
  | some m =>
    let key := s.hotKey place set i
    if (s.poisoned m 64).isSome || s.gbytes m 64 = memBytes s.mem key 64 then s else s.write (runAt key (s.gbytes m 64))

/-- A block of a row's cache entry, by module address; none when it stands in retired memory or cannot be corrected (R279, R371,
R390). -/
def State.hotBlk (s : State) (die place set i : Nat) : Option Nat × State :=
  let key := s.hotKey place set i
  if s.retired.contains (key / 4096) then (none, s)
  else
    match s.poisoned key 64 with
    | some k => (none, s.memError die k)
    | none => (some (s.nat key 64), s.corrected die key 64)

/-- A row's W elements with its malformed codes, its blocks read by get until W elements have been taken; missing
elements are the invalid-block NaN (R269). -/
def State.readRow (s : State) (t : Table) (row : Nat) (get : Nat → State → Option Nat × State) :
    Option (List FVal × Nat) × State :=
  let r := (List.range t.rowBlks).foldl (fun (acc : Option (List FVal × Nat) × State) i =>
    match acc with
    | (none, s) => (none, s)
    | (some (xs, mal), s) =>
      if t.w ≤ xs.length then (some (xs, mal), s)
      else
        match get i s with
        | (none, s) => (none, s)
        | (some b, s) =>
          let y := t.segment row b (t.w - xs.length)
          (some (xs ++ y.1, mal + y.2), s)) (some ([], 0), s)
  (r.1.map fun x => (x.1 ++ List.replicate (t.w - x.1.length) invalidNan, x.2), r.2)

/-- The published entry that caches a row, all its blocks, for the accesses of w (R280): one whose blocks stand where these accesses
find them, so that they are permitted here where they are for a row that is cold (R20, R275, R405). -/
def State.hotOf (s : State) (w : Who) (tid row : Nat) (t : Table) : Option HotEntry :=
  s.hot.find? fun h => h.pub.isSome && h.what.tid = tid && h.what.row = row && h.what.asid = w.asid &&
    h.what.va = t.rowVa row && h.what.nblk = t.rowBlks &&
    (List.range t.rowBlks).all fun i => match s.translate w (t.rowVa row + 64 * i) .r with
      | .ok m _ => h.what.at_[i]? = some m
      | _ => false

/-! ### Issue (R271 to R273, R284, R289) -/

/-- The default entries of R289 for `pool` and for `upd`. -/
def poolBound (cls : Nat) : BoundEntry :=
  match cls with
  | 0 => { base := 4000, unit := 2, unit2 := 1, limit := 16384 }
  | 1 => { base := 10000, unit := 2, unit2 := 1, limit := 262144 }
  | 2 => { base := 50000, unit := 4, unit2 := 2, limit := 2 ^ 24 }
  | _ => { base := 500000, unit := 8, unit2 := 4, limit := 2 ^ 24 }
def updBound (cls : Nat) : BoundEntry :=
  match cls with
  | 0 => { base := 6000, unit := 4, unit2 := 0, limit := 16384 }
  | 1 => { base := 15000, unit := 4, unit2 := 0, limit := 262144 }
  | 2 => { base := 60000, unit := 8, unit2 := 0, limit := 2 ^ 24 }
  | _ => { base := 600000, unit := 16, unit2 := 0, limit := 2 ^ 24 }

/-- A command block: the 64 bytes at a 64-byte aligned local address, read at issue as one access of the bundle (R272). -/
def State.withBlock (s : State) (ea : Word) (k : List Word → State → State) : Res :=
  s.loading (s.loadAt { glob := false, win := false, now := true } 64 [ea]) fun _ s' =>
    k ((List.range 8).map fun (i : Nat) =>
      BitVec.ofNat 64 (s.loadNat (s.own s.iss.ctx) (ea + BitVec.ofNat 64 (8 * i)) 8)) s'

/-- The table and the entry count that a command charges to each Depot of the table (R289). -/
def Cmd.charge (x : Cmd) : Option (Nat × Nat) :=
  match x.k with
  | .pool blk _ _ _ => some ((poolBlk blk).tid, (poolBlk blk).nidx)
  | .a2a blk _ _ _ _ => some ((poolBlk blk).tid, (poolBlk blk).nidx)
  | .upd blk _ _ => some ((updBlk blk).tid, (updBlk blk).npair)
  | _ => none

/-- Rows that a command charges to Depot d: all its entries until they are routed, then the cold ones routed there that
are not yet gathered; none once its work has ended (R289). -/
def State.charged (s : State) (x : Cmd) (d : Nat) : Nat :=
  match if x.ended then none else x.charge with
  | none => 0
  | some (tid, n) =>
    match s.table? x.ctx tid with
    | none => 0
    | some t =>
      if !tst t.dmask d then 0
      else if s.jobs.any fun j => j.cmd = x.id then
        ((s.jobs.filter fun j => j.cmd = x.id).map fun j => j.routed.countP fun r => r.depot = d && r.hot.isNone).sum
      else match s.upds.find? (·.id = x.id) with
        | some u => ((u.rows.filter fun r => t.depotOf r.1 = d).map fun r => r.2.length).sum
        | none => n

/-- Whether every Depot of a table can serve n more rows of a class within a bound in ns, at 6.25 rows per ns (R289). -/
def State.admits (s : State) (t : Table) (cls n bound : Nat) : Bool :=
  t.depots.all fun d =>
    let load := ((s.cmds.filter fun x => x.cls.toNat = cls).map fun x => s.charged x d).sum
    decide ((load + n) * 4 ≤ bound * 25)

/-- A table that the issuing context may name: valid, its Depots within the partition (R267, R396). -/
def State.nameable? (s : State) (tid : Nat) : Option Table :=
  match s.table? s.iss.ctx tid with
  | none => none
  | some t =>
    let own := (s.parts.getD (s.partOf s.iss.ctx) { cmask := 0, dmask := 0, guest := false, privq := 0 }).dmask
    if t.dmask &&& own.toNat = t.dmask then some t else none

/-- Whether some Depot of a table is not in service (R270, R410). -/
def State.depotDown (s : State) (t : Table) : Bool := t.depots.any fun d => s.depots.getD d .retired != .serving

/-- Accepted `pool` and `upd` commands of the issuing context whose records have not arrived (R273). -/
def State.poolCount (s : State) : Nat :=
  s.cmds.countP fun x => x.ctx = s.iss.ctx && (match x.k with
    | .pool _ _ _ _ => true
    | .upd _ _ _ => true
    | _ => false)

/-- Whether an engine may read an array at an effective address: local or global (R272). -/
def arrayOk (ea : Word) : Bool :=
  match spaceOf ea with
  | .global _ => true
  | .localSp _ => true
  | _ => false

/-- Whether a platform blocks a command that would fill it (R232, R273). -/
def Platform.busy (p : Platform) : Bool := p.resv.isSome || p.st = .filling || p.st = .draining

/-- The checks that `pool` and `a2a` share, code 0x03 of R273; tail is the rule of words 5 to 7. -/
def poolMalformed (b : PoolBlk) (n64 tail : Bool) (rowBytes : Nat) : Bool :=
  !b.clean || tail || b.nbags = 0 || decide (2 ^ 24 < b.nbags) || b.doff % 4 != 0 || b.dstr % 4 != 0 ||
  b.ibase.toNat % idxSize n64 != 0 || b.obase.toNat % 4 != 0 || decide (b.dstr < rowBytes) || !arrayOk b.ibase ||
  !arrayOk b.obase || (b.baren && b.baddr % 16 != 0)

/-- R273. -/
def execPool (a d : BitVec 5) (i o m : Bool) (c : BitVec 2) (p : BitVec 6) (s : State) : Res :=
  let cls := c.toNat
  let put := fun w (s : State) => s.ws d 1 w
  let pl := s.plat (clOf s.iss.ctx) p.toNat
  if !s.iss.held && decide (16 ≤ s.poolCount) then .next (s.blocked .engineQueue [] [] [] [])
  else if !s.iss.held && pl.busy then .next (s.blocked .platform [] [] [] [])
  else s.withBlock (s.rs a) fun blk s =>
    let b := poolBlk blk
    let t := s.nameable? b.tid
    let row := ((s.table? s.iss.ctx b.tid).map (·.w)).getD 0 * gradSize o
    let e := s.boundEntry 2 cls (poolBound cls)
    let bound := e.base + e.unit * b.nidx + e.unit2 * ceilDiv (b.nbags * row) 64
    if poolMalformed b i (blk.getD 5 0 != 0 || blk.getD 6 0 != 0 || blk.getD 7 0 != 0) row then s.refuse 0x03 cls put
    else if !pl.decl then s.refuse 0x04 cls put
    else
      match t with
      | none => s.refuse 0x10 cls put
      | some t =>
        if s.depotDown t then s.refuse 0x01 cls put
        else if e.limit < b.nidx then s.refuse 0x11 cls put
        else if pl.half < b.doff + (b.nbags - 1) * b.dstr + row then s.refuse 0x06 cls put
        else if s.freeSlots s.iss.ctx = 0 then s.refuse 0x07 cls put
        else if !s.admits t cls b.nidx bound then s.refuse 0x02 cls put
        else s.accept (.pool blk m o i) 0x03 cls bound (some p) (if b.baren then some b.baddr else none) put

/-- In a deterministic launch, whether another of its contexts has an accepted `upd` on a table whose record has not
arrived (R335). -/
def State.updElsewhere (s : State) (tid : Nat) : Bool :=
  s.detOf s.iss.ctx && s.cmds.any fun x => x.ctx != s.iss.ctx && (s.ctx x.ctx).launch = s.cur.launch && (match x.k with
    | .upd blk _ _ => (updBlk blk).tid = tid
    | _ => false)

/-- R284. That states no alignment for GBASE: the model refuses one that is no multiple of the gradient element's size with 0x03, as it
refuses IBASE (DESIGN CHOICE, log 72). -/
def execUpd (a d : BitVec 5) (i g : Bool) (c : BitVec 2) (s : State) : Res :=
  let cls := c.toNat
  let put := fun w (s : State) => s.ws d 1 w
  if !s.iss.held && decide (16 ≤ s.poolCount) then .next (s.blocked .engineQueue [] [] [] [])
  else s.withBlock (s.rs a) fun blk s =>
    let b := updBlk blk
    let row := ((s.table? s.iss.ctx b.tid).map (·.w)).getD 0 * gradSize g
    let e := s.boundEntry 3 cls (updBound cls)
    let bound := e.base + e.unit * b.npair
    if s.updElsewhere b.tid then s.raise (s.issTrap 0x07)
    else if !b.clean || b.npair = 0 || decide (2 ^ 24 < b.npair) || b.gstr % 4 != 0 || decide (b.gstr < row) ||
        b.ibase.toNat % idxSize i != 0 || b.gbase.toNat % gradSize g != 0 || !arrayOk b.ibase || !arrayOk b.gbase ||
        (b.baren && b.baddr % 16 != 0) then s.refuse 0x03 cls put
    else
      match s.nameable? b.tid with
      | none => s.refuse 0x10 cls put
      | some t =>
        if t.ro || t.opt = 0 then s.refuse 0x12 cls put
        else if s.depotDown t then s.refuse 0x01 cls put
        else if e.limit < b.npair then s.refuse 0x11 cls put
        else if s.freeSlots s.iss.ctx = 0 then s.refuse 0x07 cls put
        else if !s.admits t cls b.npair bound then s.refuse 0x02 cls put
        else s.accept (.upd blk g i) 0x04 cls bound none (if b.baren then some b.baddr else none) put

/-! ### Dispatch (R274, R275) -/

/-- Cycles in which one stage of a command's work falls, so that its record arrives within its bound. -/
def State.stage (s : State) (x : Cmd) : Nat := (x.deadline - s.now) / 8

/-- The offsets and the indexes of a lookup, or the status of the read that failed (R274). -/
def State.readArrays (s : State) (x : Cmd) (b : PoolBlk) (n64 : Bool) : (Option (List Nat × List Nat) × BitVec 8) × State :=
  match s.cmdRead x b.obase (4 * (b.nbags + 1)) with
  | .fail st _ _ s => ((none, st), s)
  | .ok ob s =>
    match s.cmdRead x b.ibase (idxSize n64 * b.nidx) with
    | .fail st _ _ s => ((none, st), s)
    | .ok ib s =>
      let nat := fun (n : Nat) (bs : List Byte) => (pieces n (bs.length / n) bs).map leNat
      ((some (nat 4 ob, nat (idxSize n64) ib), 0), s)

/-- Bag b of a lookup, with the faults that its offsets and its entries show, and its entries with their positions
(R272, R275). -/
def bagOf (t : Table) (offs idx : List Nat) (nidx b : Nat) : Bag × List (Nat × Nat) :=
  let lo := offs.getD b 0
  let hi := offs.getD (b + 1) 0
  let z := BagPart.zero b t.w
  if hi < lo ∨ nidx < hi ∨ 65535 < hi - lo then
    ({ part := { z with fault := some (1, lo) }, count := 0, late := false }, [])
  else
    let es := (List.range (hi - lo)).map fun i => (lo + i, idx.getD (lo + i) 0)
    match es.find? fun e => t.rows ≤ e.2 with
    | some e => ({ part := { z with fault := some (2, e.1) }, count := hi - lo, late := false }, [])
    | none => ({ part := z, count := hi - lo, late := false }, es)

/-- A job begun: its Depots' gathers are due; one that serves nothing is merged at once. -/
def State.beginJob (s : State) (x : Cmd) (j : Job) : State :=
  let ds := (j.routed.map (·.depot)).dedup
  let s := { s with jobs := s.jobs ++ [{ j with await := ds }] }
  if ds = [] then s.later (s.stage x) .mergePartialArrival { id := j.id, arg := 16 }
  else ds.foldl (fun s d => s.later (s.stage x) .depotGather { id := j.id, arg := d }) s

/-- LOOKUP DISPATCH: the die's dispatcher reads the arrays of command due.id and routes its entries (R274, R277). -/
def execLookupDispatch (s : State) : Res :=
  .next (match s.cmd? s.due.id with
    | none => s
    | some x =>
      match x.k with
      | .pool blk _ _ n64 =>
        let b := poolBlk blk
        match s.table? x.ctx b.tid, s.readArrays x b n64 with
        | some t, ((some (offs, idx), _), s) =>
          let bs := (List.range b.nbags).map fun i => bagOf t offs idx b.nidx i
          let routed := bs.flatMap fun p => p.2.map fun e =>
            { bag := p.1.part.bag, pos := e.1, row := e.2, depot := t.depotOf e.2, hot := none : Routed }
          s.beginJob x { id := x.id, cmd := x.id, shard := none, routed := routed, served := [], await := [], inbox := [],
                         bags := bs.map (·.1), owners := [], late := 0, lots := [] }
        | _, ((_, st), s) => s.schedule s.now .fillFail { id := x.id, arg := st.toNat }
      | _ => s)

/-! ### Heat sketches, promotion and eviction (R281, R282) -/

/-- Column k of an entry (R281). -/
def sketchCol (tid row k : Nat) : Nat :=
  let m := [0x9E3779B97F4A7C15, 0xBF58476D1CE4E5B9, 0x94D049BB133111EB, 0xD6E8FEB86659FD93].getD k 0
  bits ((row ^^^ (tid <<< 40)) * m) 48 16

/-- The sketch of a Depot for a group; one that counts nothing is not listed. -/
def State.sketch (s : State) (d g : Nat) : Sketch :=
  (s.sketches.find? fun k => k.depot = d && k.grp = g).getD { depot := d, grp := g, cnt := [], total := 0 }
def State.setSketch (s : State) (k : Sketch) : State :=
  { s with sketches := k :: s.sketches.filter fun x => !(x.depot = k.depot && x.grp = k.grp) }

/-- The estimate of a row in a sketch (R281). -/
def Sketch.estimate (k : Sketch) (tid row : Nat) : Nat :=
  ((List.range 4).map fun i => aget 0 k.cnt (i * 65536 + sketchCol tid row i)).foldl min 0xFFFF

/-- An entry counted (R281). -/
def Sketch.count (k : Sketch) (tid row : Nat) : Sketch :=
  { k with
    cnt := (List.range 4).foldl (fun c i =>
      let key := i * 65536 + sketchCol tid row i
      aset c key (min (aget 0 c key + 1) 0xFFFF)) k.cnt
    total := k.total + 1 }

/-- HEAT SKETCH DECAY: every counter of the sketch of Depot due.arg for group due.arg2 is shifted right by one (R281). -/
def execHeatSketchDecay (s : State) : Res :=
  let k := s.sketch s.due.arg s.due.arg2
  .next (s.setSketch { k with cnt := (k.cnt.map fun p => (p.1, p.2 / 2)).filter fun p => p.2 ≠ 0, total := 0 })

/-- Whether two cached rows are one row, whatever the level for which it was copied and wherever its blocks were found. -/
def HotRow.same (x y : HotRow) : Bool := { x with exec := y.exec, at_ := y.at_ } = y

/-- A promotion of a row that has become hot at Depot d: a free entry of its set is taken, or the entry whose row has the
lowest estimate is to be evicted, ties to the one published earliest (R282; log 22). An entry that other promotions have chosen
already is evicted for each of them in turn, once the one before has published. -/
def State.promote (s : State) (d grp : Nat) (t : Table) (what : HotRow) : State :=
  let (stack, set) := s.hotPlace what.tid what.row
  let here := s.hot.filter fun h => h.stack = stack && h.set = set
  let dueAt := fun (s : State) (ev : Instr) (way : Nat) => s.later 2000 ev { id := way, arg := stack, arg2 := set }
  if !t.hot || t.hthr = 0 || decide (64 < what.nblk) || s.hotSets = 0 ||
      here.any (fun h => (h.pub.isNone && h.what.same what) || h.next.any (·.same what)) then s
  else
    match (List.range 16).find? fun w => !here.any fun h => h.way = w with
    | some w =>
      dueAt { s with hot := s.hot ++ [{ stack := stack, set := set, way := w, what := what, pub := none, next := [] }] }
        .promotionPublish w
    | none =>
      let k := s.sketch d grp
      let better := fun (x y : HotEntry) =>
        let ex := k.estimate x.what.tid x.what.row
        let ey := k.estimate y.what.tid y.what.row
        decide (ex < ey) || (ex = ey && decide (x.pub.getD s.nextId < y.pub.getD s.nextId))
      match here.foldl (fun (m : Option HotEntry) h => match m with
          | some b => if better h b then some h else some b
          | none => some h) none with
      | none => s
      | some v =>
        let s := { s with hot := s.hot.map fun h => if h = v then { h with next := h.next ++ [what] } else h }
        if v.next = [] ∧ v.pub.isSome then dueAt s .promotionEviction v.way else s

/-- Whether an entry of the hot-row cache stands at a place. -/
def HotEntry.isAt (h : HotEntry) (stack set way : Nat) : Bool := h.stack = stack && h.set = set && h.way = way

/-- A cache entry is given to the first row that waits for it: it is unpublished, and the row's promotion goes on (R282). -/
def State.giveEntry (s : State) (h : HotEntry) (n : HotRow) : State :=
  let s := { s with hot := s.hot.map fun x => if x = h then { h with what := n, pub := none, next := h.next.drop 1 } else x }
  s.later 2000 .promotionPublish { id := h.way, arg := h.stack, arg2 := h.set }

/-- PROMOTION EVICTION: the entry at stack due.arg, set due.arg2, way due.id is unpublished and given to the row that waits
for it; while its own promotion is in flight the eviction waits for that publish (R282). -/
def execPromotionEviction (s : State) : Res :=
  let d := s.due
  .next (match s.hot.find? fun h => h.isAt d.arg d.arg2 d.id with
    | none => s
    | some h =>
      match h.pub, h.next with
      | some _, n :: _ => s.giveEntry h n
      | _, _ => s)

/-- PROMOTION PUBLISH: the row's blocks are copied into the entry at stack due.arg, set due.arg2, way due.id, which is
published, once no Siding still serves its former row; a row that cannot be read frees the entry, or leaves it to the row that
waits for it (R282, R283). -/
def execPromotionPublish (s : State) : Res :=
  let d := s.due
  let place := 16 * d.arg + d.id
  .next (match s.hot.find? fun h => h.isAt d.arg d.arg2 d.id with
    | none => s
    | some h =>
      if h.pub.isSome then s
      else if s.jobs.any fun j => j.routed.any fun r => r.hot = some place &&
          ((s.cmd? j.cmd).bind (·.charge)).any fun c => s.hotPlace c.1 r.row = (d.arg, d.arg2) then
        s.later 100 .promotionPublish { id := d.id, arg := d.arg, arg2 := d.arg2 }
      else
        let w : Who := { asid := h.what.asid, part := h.what.part, exec := h.what.exec }
        let r := (List.range h.what.nblk).foldl (fun (acc : Option (List Byte) × State) i =>
          match acc with
          | (none, s) => (none, s)
          | (some bs, s) =>
            match s.rowBlk 0 w (h.what.va + 64 * i) with
            | (none, s) => (none, s)
            | (some b, s) => (some (bs ++ leBytes 64 b), s)) (some [], s)
        match r with
        | (none, s) =>
          match h.next with
          | n :: _ => s.giveEntry h n
          | [] => { s with hot := s.hot.filter (· ≠ h) }
        | (some bs, s) =>
          let s := s.write (runAt ((s.region d.arg).1 + d.arg2 * 65536 + d.id * 4096) bs)
          let (n, s) := s.fresh
          let at_ := (List.range h.what.nblk).filterMap fun i => (s.page? w (h.what.va + 64 * i)).map (·.addr (h.what.va + 64 * i))
          let s := { s with hot := s.hot.map fun x =>
            if x = h then { h with pub := some n, what := { h.what with at_ := at_ } } else x }
          if h.next ≠ [] then s.schedule (s.now + 1) .promotionEviction { id := d.id, arg := d.arg, arg2 := d.arg2 } else s)

/-! ### Gathering (R277, R280, R281) -/

/-- The state with a job changed. -/
def State.modJob (s : State) (id : Nat) (f : Job → Job) : State :=
  { s with jobs := s.jobs.map fun j => if j.id = id then f j else j }

/-- One entry gathered into partials: its row's terms, or the fault of a row that cannot be read. -/
def gathered (t : Table) (r : Routed) (x : Option (List FVal × Nat)) (ps : List BagPart) : List BagPart :=
  let z := BagPart.zero r.bag t.w
  addPart (match x with
    | some (xs, mal) => z.addRow t.poole xs mal
    | none => { z with fault := some (3, r.pos) }) ps

/-- A source's partials for a job leave for the merge stage. -/
def State.sendPartial (s : State) (x : Cmd) (j src : Nat) : State :=
  s.later (s.stage x) .mergePartialArrival { id := j, arg := src }

/-- The source number of the Siding of a stack asked by a Depot. -/
def sidingSrc (stack d : Nat) : Nat := 32 + 16 * stack + d

/-- DEPOT GATHER: Depot due.arg classifies its entries of job due.id, gathers the cold ones and asks the Sidings for the hot
ones (R277, R280). Its sketch counts them once the bags they stand in are known to be without fault (R281; log 22). -/
def execDepotGather (s : State) : Res :=
  let id := s.due.id
  let d := s.due.arg
  .next (match s.jobs.find? (·.id = id) with
    | none => s
    | some j =>
      match s.cmd? j.cmd with
      | none => s
      | some x =>
        match x.charge.bind fun c => (s.table? x.ctx c.1).map fun t => (c.1, t) with
        | none => s
        | some (tid, t) =>
          let mine := j.routed.filter fun r => r.depot = d && r.hot.isNone
          let r := mine.foldl (fun (acc : State × List BagPart × List Routed) r =>
            let (s, ps, hot) := acc
            match s.hotOf x.who tid r.row t with
            | some h => (s, ps, hot ++ [{ r with hot := some (16 * h.stack + h.way) }])
            | none =>
              let y := s.readRow t r.row fun i s => s.rowBlk (dieOf x.ctx) x.who (t.rowVa r.row + 64 * i)
              (y.2, gathered t r y.1 ps, hot)) (s, [], [])
          let (s, ps, hot) := r
          let sids := (hot.filterMap fun q => q.hot.map (· / 16)).dedup
          let s := s.modJob id fun j => { j with
            routed := (j.routed.filter fun q => !mine.contains q) ++ hot, served := j.served ++ mine
            inbox := aset j.inbox d ps, await := j.await ++ sids.map fun k => sidingSrc k d }
          let s := sids.foldl (fun s k => s.later (s.stage x) .sidingPartial { id := id, arg := k, arg2 := d }) s
          s.sendPartial x id d)

/-- SIDING PARTIAL: the Siding of stack due.arg gathers the hot entries of job due.id that Depot due.arg2 asked it for
(R277). -/
def execSidingPartial (s : State) : Res :=
  let id := s.due.id
  let k := s.due.arg
  let d := s.due.arg2
  .next (match s.jobs.find? (·.id = id) with
    | none => s
    | some j =>
      match s.cmd? j.cmd with
      | none => s
      | some x =>
        match x.charge.bind fun c => (s.table? x.ctx c.1).map fun t => (c.1, t) with
        | none => s
        | some (tid, t) =>
          let mine := j.routed.filter fun r => r.depot = d && r.hot.any fun p => p / 16 = k
          let r := mine.foldl (fun (acc : State × List BagPart) r =>
            let y := acc.1.readRow t r.row fun i s =>
              (s.hotSync (r.hot.getD 0) (s.hotPlace tid r.row).2 i).hotBlk (dieOf x.ctx) (r.hot.getD 0) (s.hotPlace tid r.row).2 i
            (y.2, gathered t r y.1 acc.2)) (s, [])
          let s := r.1.modJob id fun j => { j with
            routed := j.routed.filter fun q => !mine.contains q, inbox := aset j.inbox (sidingSrc k d) r.2 }
          s.sendPartial x id (sidingSrc k d))

/-- A job's bags with partials added; late bags take none but the count of malformed codes, which each owner that reports adds
to (R277, R307). -/
def Job.take (j : Job) (ps : List BagPart) : Job :=
  { j with bags := j.bags.map fun b => match ps.find? (·.bag = b.part.bag) with
      | some p => if b.late then { b with part := { b.part with mal := b.part.mal + p.mal } } else { b with part := b.part.merge p }
      | none => b }

/-- One served entry counted in its Depot's sketch, with the promotion that its estimate starts (R281, R282). -/
def State.countEntry (s : State) (x : Cmd) (t : Table) (tid : Nat) (r : Routed) : State :=
  let s := s.setSketch ((s.sketch r.depot t.hgrp).count tid r.row)
  if (s.hotOf x.who tid r.row t).isNone && decide (t.hthr ≤ (s.sketch r.depot t.hgrp).estimate tid r.row) then
    s.promote r.depot t.hgrp t
      { tid := tid, row := r.row, asid := x.asid, part := x.part, exec := x.exec, va := t.rowVa r.row, nblk := t.rowBlks }
  else s

/-- The served entries of bags without fault counted in their order, up to one whose sketch is due to decay: the answer is the
entries that are left (R281). -/
def State.countServed (s : State) (x : Cmd) (t : Table) (tid : Nat) (bad : Nat → Bool) : List Routed → List Routed × State
  | [] => ([], s)
  | r :: rest =>
    if bad r.bag then s.countServed x t tid bad rest
    else if (s.sketch r.depot t.hgrp).total = 2 ^ 20 then (r :: rest, s)
    else
      let s := s.countEntry x t tid r
      let full := (s.sketch r.depot t.hgrp).total = 2 ^ 20
      (if full then s.schedule s.now .heatSketchDecay { arg := r.depot, arg2 := t.hgrp } else s).countServed x t tid bad rest

/-- MERGE PARTIAL ARRIVAL: the partials of source due.arg of job due.id reach the merge stage. Once the last is in, its entries
are counted, which goes on behind each decay of a sketch (R281); then a `pool`'s fill completes, and an owner's partials go on to
its `a2a` (R277, R306). -/
def execMergePartialArrival (s : State) : Res :=
  let id := s.due.id
  let src := s.due.arg
  .next (match s.jobs.find? (·.id = id) with
    | none => s
    | some j =>
      let j : Job := { j.take (aget [] j.inbox src) with await := j.await.erase src, inbox := j.inbox.filter (·.1 ≠ src) }
      let s := s.modJob id fun _ => j
      if j.await ≠ [] then s
      else
        match s.cmd? j.cmd with
        | none => s
        | some x =>
          let bad := fun (b : Nat) => j.bags.any fun g => g.part.bag = b && g.part.fault.isSome
          let (left, s) := match x.charge.bind fun c => (s.table? x.ctx c.1).map fun t => (c.1, t) with
            | some (tid, t) => s.countServed x t tid bad j.served
            | none => ([], s)
          let s := s.modJob id fun j => { j with served := left }
          if left ≠ [] then s.schedule s.now .mergePartialArrival { id := id, arg := 16 }
          else
            match j.shard with
            | none => s.later (s.stage x) .fillComplete { id := x.id }
            | some sh =>
              ({ s with jobs := s.jobs.filter (·.id ≠ id) }).later (s.stage x) .ownerPartialArrival
                { id := x.id, arg := sh, parts := j.bags.map fun (g : Bag) => g.part })

/-! ### The fill (R276, R278, R307) -/

/-- The record of a `pool` or an `a2a` that delivered no bag. -/
def poolFailed (x : Cmd) (a2a : Bool) (status : BitVec 8) : Record :=
  { x.record with status := status, detail := if a2a then 0xFFFFFFFF <<< 96 else 0xFFFFFFFF }

/-- Local addresses of the rows a lookup writes. -/
def poolExtent (base : Nat) (b : PoolBlk) (row : Nat) : List Nat :=
  (List.range b.nbags).flatMap fun i => (List.range row).map fun k => base + b.doff + i * b.dstr + k

/-- The output rows of a lookup and its record (R275 to R278, R307). R278 gives FPOS for a faulted FBAG alone: with no bag faulted,
and in the record of a fill that failed, it is 0 (DESIGN CHOICE, log 72). -/
def State.poolWork (s : State) (x : Cmd) (blk : List Word) (mean bf16 a2a : Bool) : Fill :=
  let b := poolBlk blk
  let base := (s.plat (clOf x.ctx) (x.pn.getD 0).toNat).shadowAt
  match s.table? x.ctx b.tid, s.jobs.find? (·.id = x.id) with
  | some t, some j =>
    let rows := j.bags.map fun g => (g, g.row t.poole t.w mean bf16)
    let marked := rows.filter fun (r : Bag × List Byte × Nat × Bool) => r.1.late || r.1.part.fault.isSome
    let fine := rows.filter fun (r : Bag × List Byte × Nat × Bool) => !(r.1.late || r.1.part.fault.isSome)
    let fbag := ((marked.head?).map fun (r : Bag × List Byte × Nat × Bool) => r.1.part.bag).getD 0xFFFFFFFF
    let fpos := ((marked.head?).bind fun (r : Bag × List Byte × Nat × Bool) => r.1.part.fault.map (·.2)).getD 0
    let nsat := fine.countP fun (r : Bag × List Byte × Nat × Bool) => r.2.2.2
    let late := j.bags.any (·.late)
    let mal := ((if a2a then rows else fine).map fun (r : Bag × List Byte × Nat × Bool) => r.1.part.mal).sum
    { status := 0
      bytes := rows.flatMap fun r => runAt (base + b.doff + r.1.part.bag * b.dstr) r.2.1
      extent := poolExtent base b (t.w * gradSize bf16)
      record := { x.record with
        status := if late then 0x29 else if marked = [] then 0 else 0x20
        flags := BitVec.ofNat 6 (orFlags (rows.map (·.2.2.1)))
        mal := BitVec.ofNat 32 (min mal 0xFFFFFFFF)
        detail := BitVec.ofNat 128 (if a2a then j.late.toNat + marked.length * 2 ^ 64 + fbag * 2 ^ 96
          else fbag + fpos * 2 ^ 32 + marked.length * 2 ^ 64 + min nsat 0xFFFF * 2 ^ 96) } }
  | some t, none =>
    { status := 0x12, bytes := [], extent := poolExtent base b (t.w * gradSize bf16), record := poolFailed x a2a 0x12 }
  | none, _ => { status := 0x12, bytes := [], extent := [], record := poolFailed x a2a 0x12 }

/-! ### The Turntable (R285 to R288) -/

/-- A pair put into rows in ascending index, pairs of one row in batch order (R285). -/
def addPair (row : Nat) (g : List (BitVec 32)) : List (Nat × List (List (BitVec 32))) → List (Nat × List (List (BitVec 32)))
  | [] => [(row, [g])]
  | (r, gs) :: rest =>
    if row = r then (r, gs ++ [g]) :: rest
    else if row < r then (row, [g]) :: (r, gs) :: rest else (r, gs) :: addPair row g rest

/-- The record of an `upd` whose arrays cannot be read: no pair is dropped (R288). -/
def updFailed (x : Cmd) (st : BitVec 8) : Record := { x.record with status := st, detail := 0xFFFFFFFF <<< 64 }

/-- UPDATE DISPATCH: the arrays of command due.id are read, its pairs are sorted and routed (R284, R285). -/
def execUpdateDispatch (s : State) : Res :=
  .next (match s.cmd? s.due.id with
    | none => s
    | some x =>
      match x.k with
      | .upd blk bf16 n64 =>
        let b := updBlk blk
        let n := gradSize bf16
        match s.table? x.ctx b.tid, s.cmdRead x b.ibase (idxSize n64 * b.npair) with
        | some t, .ok ib s =>
          let idx := (pieces (idxSize n64) b.npair ib).map leNat
          let r := (List.range b.npair).foldl (fun (acc : Option (List (List (BitVec 32))) × BitVec 8 × State) p =>
            match acc with
            | (none, st, s) => (none, st, s)
            | (some gs, st, s) =>
              match s.cmdRead x (b.gbase + BitVec.ofNat 64 (p * b.gstr)) (t.w * n) with
              | .fail st _ _ s => (none, st, s)
              | .ok bs s =>
                let g := (pieces n t.w bs).map fun y =>
                  if bf16 then BitVec.ofNat 32 (leNat y * 2 ^ 16) else BitVec.ofNat 32 (leNat y)
                (some (gs ++ [g]), st, s)) (some [], 0, s)
          match r with
          | (none, st, s) => s.finish x.id (updFailed x st)
          | (some gs, _, s) =>
            let ps := (List.range b.npair).map fun p => (p, idx.getD p 0)
            let bad := ps.filter fun p => t.rows ≤ p.2
            let good := ps.filter fun p => p.2 < t.rows
            let rows := good.foldl (fun l p => addPair p.2 (gs.getD p.1 []) l) []
            let s := { s with upds := s.upds ++ [{ id := x.id, rows := rows, nrow := 0, ndrop := bad.length,
                                                    fdrop := ((bad.head?).map (·.1)).getD 0xFFFFFFFF, nskip := 0, fail := 0, flags := 0 }] }
            if rows = [] then s.later (s.stage x) .turntableRowUpdate { id := x.id, arg := 2 ^ 64 }
            else rows.foldl (fun s r => s.later (4 * s.stage x) .turntableRowUpdate { id := x.id, arg := r.1 }) s
        | some _, .fail st _ _ s => s.finish x.id (updFailed x st)
        | none, _ => s.finish x.id (updFailed x 0x11)
      | _ => s)

/-- The gradients of a row summed per lane in batch order, with flags (R285). -/
def gradSum (gs : List (List (BitVec 32))) (w : Nat) : List Nat × Nat :=
  let ls := (List.range w).map fun j =>
    (gs.drop 1).foldl (fun (acc : Nat × Nat) g =>
      let r := addF fmtF32 .rne (decodeF fmtF32 acc.1) (decodeF fmtF32 (g.getD j 0).toNat)
      (r.1, acc.2 ||| r.2)) (((gs.headD []).getD j 0).toNat, 0)
  (ls.map (·.1), orFlags (ls.map (·.2)))

/-- w - lr x g exactly, with the NaN rules of R63 and R64, and flags (R286). -/
def stepExact (lr g w : FVal) : FVal × Nat :=
  match [lr, g].find? FVal.isNan with
  | some n => (n, snanFlag [lr, g, w])
  | none =>
    match mulExact lr g with
    | none => (if w.isNan then w else .nan false (2 ^ 22), fNV)
    | some p =>
      if w.isNan then (w, 0)
      else
        match w, p.neg with
        | .inf a, .inf b => if a = b then (.inf a, 0) else (.nan false (2 ^ 22), fNV)
        | .inf a, _ => (.inf a, 0)
        | _, .inf b => (.inf b, 0)
        | .fin s1 m1 e1, .fin s2 m2 e2 =>
          let x := sumDy s1 m1 e1 s2 m2 e2
          (.fin (if x.1 = 0 then zeroSign .rne (m1 = 0) (m2 = 0) s1 s2 else x.1 < 0) x.1.natAbs x.2, 0)
        | _, _ => (w, 0)

/-- The random word of element j of a row at a step (R287). -/
def updRandom (t : Table) (tid : Nat) (step : Word) (row j : Nat) : Nat :=
  let seed := t.srseed ^^^ (BitVec.ofNat 64 tid * 0x9E3779B97F4A7C15) ^^^ step
  let d := j % 32
  let dim : SkinkDim := { SkinkDim.reset with
    l := Vector.ofFn fun k => canonRow k.val (scrambleWord seed d k.val), h := scrambleWord seed d 32 }
  (dim.point (BitVec.ofNat 32 (row * 128 + j / 32))).toNat

/-- A block of a row with its elements from the j0-th on stepped: new block, flags (R286). -/
def stepBlock (t : Table) (tid : Nat) (step : Word) (row blk j0 : Nat) (g : Nat → FVal) : Nat × Nat × Nat :=
  let fmt := blkFmt blk
  let n := (t.segment row blk (t.w - j0)).1.length
  let rb0 := if t.rpb = 1 then 0 else row % t.rpb * segBytes fmt t.w
  let sz := elemBits fmt / 8
  let f := if fmt = 5 then fmtBf16 else fmtF32
  let ws := (t.segment row blk (t.w - j0)).1
  let es := (List.range n).map fun i =>
    let v := stepExact (decodeF fmtF32 t.lr) (g (j0 + i)) (ws.getD i (intVal 0))
    let r := convF f (if t.sr then .sr else .rne) (updRandom t tid step row (j0 + i)) (v.1.scale (127 - (blkScale blk : Int)))
    (r.1, v.2 ||| r.2)
  let bytes := leBytes 64 blk
  let at_ := 2 + rb0
  let new := bytes.take at_ ++ (es.flatMap fun e => leBytes sz e.1) ++ bytes.drop (at_ + n * sz)
  (leNat new, orFlags (es.map (·.2)), n)

/-- The blocks of a row stepped, and flags; none when the row is not of a format that updates (R286). -/
def stepRow (t : Table) (tid : Nat) (step : Word) (row : Nat) (blks : List Nat) (g : Nat → FVal) : Option (List Nat × Nat) :=
  let r := blks.foldl (fun (acc : Option (List Nat × Nat × Nat)) b =>
    match acc with
    | none => none
    | some (out, fl, j) =>
      if t.w ≤ j then some (out ++ [b], fl, j)
      else if blkFmt b ≠ 5 ∧ blkFmt b ≠ 7 then none
      else
        let y := stepBlock t tid step row b j g
        some (out ++ [y.1], fl ||| y.2.1, j + y.2.2)) (some ([], 0, 0))
  r.map fun x => (x.1, x.2.1)

/-- The Adagrad step's new accumulator and divided gradients, with flags (R286). -/
def adagrad (t : Table) (a : Nat) (g : List Nat) : Nat × List Nat × Nat :=
  let d := decodeF fmtF32
  let gs := g.map d
  let sq := chunkSquares gs
  let q := convF fmtF32 .rne 0 sq.1
  let m := divF fmtF32 .rne (d q.1) (intVal t.w)
  let a' := addF fmtF32 .rne (d a) (d m.1)
  let rt := sqrtF fmtF32 .rne (d a'.1)
  let den := addF fmtF32 .rne (d rt.1) (d t.eps)
  let qs := gs.map fun x => divF fmtF32 .rne x (d den.1)
  (a'.1, qs.map (·.1), sq.2 ||| q.2 ||| m.2 ||| a'.2 ||| rt.2 ||| den.2 ||| orFlags (qs.map (·.2)))
where
  /-- The exact sum of squares (R286). -/
  chunkSquares (gs : List FVal) : FVal × Nat :=
    match gs.find? FVal.isNan with
    | some n => (n, 0)
    | none =>
      if gs.any FVal.isInf then (.inf false, 0)
      else
        (gs.foldl (fun acc x => match acc, x with
          | .fin _ m1 e1, .fin _ m2 e2 =>
            let y := sumDy false m1 e1 false (m2 * m2) (2 * e2)
            .fin false y.1.natAbs y.2
          | a, _ => a) (intVal 0), 0)

/-- How a row's update ends: done with flags, skipped for its format (R286), or not done, with the STATUS of the access that
failed (R374, R407). -/
inductive RowEnd where
  | done (flags : Nat)
  | skipped
  | failed (status : BitVec 8)
  deriving DecidableEq, Repr

/-- The blocks of a row that an update changes, read until W elements have been taken; the STATUS of a read that fails
(R269). -/
def State.updBlocks (s : State) (x : Cmd) (t : Table) (row : Nat) : Except (BitVec 8) (List Nat) × State :=
  let r := (List.range t.rowBlks).foldl (fun (acc : Except (BitVec 8) (List Nat × Nat) × State) i =>
    match acc with
    | (.error e, s) => (.error e, s)
    | (.ok (bs, n), s) =>
      if t.w ≤ n then (.ok (bs, n), s)
      else
        match s.tableRead (dieOf x.ctx) x.who (t.rowVa row + 64 * i) 64 with
        | (.error e, s) => (.error e, s)
        | (.ok b, s) => (.ok (bs ++ [b], n + (t.segment row b (t.w - n)).1.length), s)) (.ok ([], 0), s)
  (r.1.map (·.1), r.2)

/-- The places that a write of n blocks or words of a table goes to, at step bytes from a virtual address; the STATUS of a
translation or check that fails. -/
def State.tableHomes (s : State) (w : Who) (va n step : Nat) (need : Need) : Except (BitVec 8) (List (Nat × Tlb)) :=
  (List.range n).foldl (fun acc i =>
    match acc with
    | .error e => .error e
    | .ok ms =>
      if 2 ^ 56 ≤ va + step * i then .error 0x10
      else
        match s.translate w (va + step * i) need with
        | .ok m e => .ok (ms ++ [(m, e)])
        | r => .error r.status) (.ok [])

/-- The cache blocks that hold a copy of the block at a module address: of every published entry whose row lies there, under
whichever address space or table it was promoted (R20, R283). -/
def State.hotCopies (s : State) (m : Nat) : List Nat :=
  s.hot.flatMap fun h =>
    if h.pub.isNone then []
    else
      (List.range h.what.nblk).filterMap fun i =>
        if h.what.at_[i]? = some m then some (s.hotKey (16 * h.stack + h.way) h.set i) else none

/-- The optimiser's part of a row's step: the divided gradients, flags, and the accumulator's home with its new value; the STATUS
of an access that fails (R286). R268 sets no alignment for ABASE: the accumulator's four bytes are read and written contiguously
from where the first one translates to (DESIGN CHOICE, log 72). -/
def State.optimise (s : State) (x : Cmd) (t : Table) (row : Nat) (g : List Nat) :
    Except (BitVec 8) (List Nat × Nat × List (Nat × Tlb × Nat)) × State :=
  if t.opt ≠ 2 then (.ok (g, 0, []), s)
  else
    match s.tableHomes x.who (t.abase + 4 * row) 1 4 .rw, s.tableRead (dieOf x.ctx) x.who (t.abase + 4 * row) 4 with
    | .error e, _ => (.error e, s.walkSeen x.who (t.abase + 4 * row))
    | _, (.error e, s) => (.error e, s)
    | .ok ms, (.ok a, s) =>
      let y := adagrad t a g
      (.ok (y.2.1, y.2.2, ms.map fun p => (p.1, p.2, y.1)), s)

/-- A row takes its optimiser step, or is skipped for its format before anything of it is to be written: its home blocks, every
cached copy of them and its accumulator are written at once (R283,
R285, R286). -/
def State.updateRow (s : State) (x : Cmd) (t : Table) (tid : Nat) (step : Word) (row : Nat) (gs : List (List (BitVec 32))) :
    RowEnd × State :=
  match s.updBlocks x t row with
  | (.error e, s) => (.failed e, s)
  | (.ok blks, s) =>
    let g := gradSum gs t.w
    if blks.any fun b => blkFmt b ≠ 5 && blkFmt b ≠ 7 then (.skipped, s)
    else
      match s.tableHomes x.who (t.rowVa row) blks.length 64 .w with
      | .error e => (.failed e, s)
      | .ok homes =>
        match s.optimise x t row g.1 with
        | (.error e, s) => (.failed e, s)
        | (.ok (qs, fa, acc), s) =>
          match stepRow t tid step row blks (fun j => decodeF fmtF32 (qs.getD j 0)) with
          | none => (.skipped, s)
          | some (new, fl) =>
            let put := (homes.zip new).flatMap fun p =>
              (p.1.1 :: s.hotCopies p.1.1).flatMap fun m => runAt m (leBytes 64 p.2)
            let s := s.write (put ++ acc.flatMap fun a => runAt a.1 (leBytes 4 a.2.2))
            let s := (homes ++ acc.map fun a => (a.1, a.2.1)).foldl (fun s h => (s.learn h.2).heat h.1 h.2.leaf) s
            (.done (g.2 ||| fa ||| fl), s)

/-- The record of an `upd` (R288). The STATUS of a row's access that failed goes before the others (R374, R407; log 23). -/
def Upd.record (u : Upd) (x : Cmd) : Record :=
  { x.record with
    status := if u.fail ≠ 0 then u.fail else if u.ndrop ≠ 0 then 0x20 else if u.nskip ≠ 0 then 0x21 else 0
    flags := u.flags
    detail := BitVec.ofNat 128 (u.nrow + u.ndrop * 2 ^ 32 + u.fdrop * 2 ^ 64 + min u.nskip 0xFFFF * 2 ^ 96) }

/-- Whether a command is an earlier `upd` of the same context on the same table, released and not at its end (R285). -/
def State.updEarlier (s : State) (x : Cmd) (tid id : Nat) : Bool :=
  (s.cmd? id).any fun y => y.ctx = x.ctx && decide (y.id < x.id) && y.release.isSome && !y.ended && (match y.k with
    | .upd blk _ _ => (updBlk blk).tid = tid
    | _ => false)

/-- Whether an earlier `upd` of the same context has still to update a row of the same table (R285). -/
def State.updBefore (s : State) (x : Cmd) (tid row : Nat) : Bool :=
  s.cmds.any fun y => s.updEarlier x tid y.id && (match s.upds.find? (·.id = y.id) with
    | some u => u.rows.any (·.1 = row)
    | none => true)

/-- TURNTABLE ROW UPDATE: row due.arg of update due.id takes its optimiser step and is published; after the last row the
record is built. A row that an earlier update of the same context has still to reach takes that update's step first (R285, R286,
R288). -/
def execTurntableRowUpdate (s : State) : Res :=
  let id := s.due.id
  let row := s.due.arg
  .next (match s.cmd? id, s.upds.find? (·.id = id) with
    | some x, some u =>
      match x.k with
      | .upd blk _ _ =>
        let b := updBlk blk
        match s.table? x.ctx b.tid with
        | none => s
        | some t =>
          if s.updBefore x b.tid row then
            (s.hasten fun a => s.updEarlier x b.tid a.due.id &&
              (a.ev = .updateDispatch || (a.ev = .turntableRowUpdate && a.due.arg = row))).schedule
              s.now .turntableRowUpdate { id := id, arg := row }
          else
            let r : Upd × State := match u.rows.find? (·.1 = row) with
              | none => (u, s)
              | some (_, gs) =>
                let u := { u with rows := u.rows.filter (·.1 ≠ row) }
                match s.updateRow x t b.tid b.step row gs with
                | (.done fl, s) => ({ u with nrow := u.nrow + 1, flags := u.flags ||| BitVec.ofNat 6 fl }, s)
                | (.skipped, s) => ({ u with nskip := u.nskip + 1 }, s)
                | (.failed st, s) => ({ u with fail := if u.fail = 0 then st else u.fail }, s)
            let s := { r.2 with upds := r.2.upds.map fun y => if y.id = id then r.1 else y }
            if r.1.rows ≠ [] then s
            else ({ s with upds := s.upds.filter (·.id ≠ id) }).finish id (r.1.record x)
      | _ => s
    | _, _ => s)

end Sys2Proof.Machine
end

