-- ==== Sys2Proof/Machine/Messaging.lean ====
section
/-! DEFINITION. Sys2Proof/Machine/Messaging.lean: ranks, messages, posts and matching (R290 to R304), the Marshal (R305 to
R307), fabric errors (R310, R311), bounds (R312); then the completion and the failure of every engine's fill (R221, R223). -/

namespace Sys2Proof.Machine

/-! ### Ranks and bounds (R290, R312) -/

/-- The cluster of this module that a rank names. -/
def State.clusterOf (s : State) (rank : Nat) : Option Nat :=
  if rank / 512 = s.modNo ∧ rank % 8 < 6 then some (6 * (rank / 8 % 64) + rank % 8) else none

/-- Whether a rank is valid and its module listed (R290, R293). -/
def State.rankOk (s : State) (rank : Nat) : Bool :=
  decide (rank % 8 < 6) && (rank / 512 = s.modNo || Config.reachable (rank / 512))

/-- Engines 4 to 6 of R423 with the defaults of R312: base, unit and limits. -/
def msgBound (eng cls : Nat) : BoundEntry :=
  let base := match eng with
    | 4 => [2000, 5000, 20000, 200000]
    | 5 => [5000, 15000, 60000, 600000]
    | _ => [20000, 60000, 250000, 2500000]
  let limit := if eng = 4 then [1000, 10000, 100000, 1000000] else if eng = 6 then [50, 500, 5000, 50000] else [0, 0, 0, 0]
  { base := base.getD cls 0, unit := if eng = 4 then [1, 1, 2, 4].getD cls 0 else 0, unit2 := 0, limit := limit.getD cls 0 }

/-- The entry of a messaging engine. -/
def State.msgEntry (s : State) (eng cls : Nat) : BoundEntry := s.boundEntry eng cls (msgBound eng cls)

/-- The engine of R423 for the route to a rank (R290). -/
def State.routeOf (s : State) (rank : Nat) : Nat :=
  if rank / 512 = s.modNo then 4 else if rank / 512 / 4096 = s.luvex.pod then 5 else 6

/-! ### Command blocks (R292, R296) -/

/-- Fields of an `msend` block. -/
structure SendBlk where
  dst   : Nat
  tag   : BitVec 32
  comm  : BitVec 16
  len   : Nat
  sbase : Word
  baddr : Nat
  baren : Bool
  clean : Bool

def sendBlk (b : List Word) : SendBlk :=
  let w := fun i => b.getD i 0
  { dst := fld (w 0) 0 32, tag := BitVec.ofNat 32 (fld (w 0) 32 32), comm := BitVec.ofNat 16 (fld (w 1) 0 16),
    len := fld (w 1) 16 32, sbase := w 2, baddr := fld (w 3) 0 23, baren := tst (w 3).toNat 23,
    clean := fld (w 1) 48 16 = 0 && fld (w 3) 24 40 = 0 && w 4 = 0 && w 5 = 0 && w 6 = 0 && w 7 = 0 }

/-- Fields of an `rpost` block. -/
structure PostBlk where
  src     : BitVec 32
  smask   : BitVec 32
  tag     : BitVec 32
  tmask   : BitVec 32
  comm    : BitVec 16
  conv    : Nat
  doff    : Nat
  maxlen  : Nat
  timeout : Nat
  baddr   : Nat
  baren   : Bool
  clean   : Bool

def postBlk (b : List Word) : PostBlk :=
  let w := fun i => b.getD i 0
  let w32 := fun i lo => BitVec.ofNat 32 (fld (w i) lo 32)
  { src := w32 0 0, smask := w32 0 32, tag := w32 1 0, tmask := w32 1 32, comm := BitVec.ofNat 16 (fld (w 2) 0 16),
    conv := fld (w 2) 16 8, doff := fld (w 2) 24 23, maxlen := fld (w 3) 0 32, timeout := fld (w 3) 32 32,
    baddr := fld (w 4) 0 23, baren := tst (w 4).toNat 23,
    clean := fld (w 2) 47 17 = 0 && fld (w 4) 24 40 = 0 && w 5 = 0 && w 6 = 0 && w 7 = 0 }

/-- Whether a message matches a post by its fields (R299). -/
def PostBlk.matches (p : PostBlk) (m : Msg) : Bool :=
  (BitVec.ofNat 32 m.src ^^^ p.src) &&& p.smask = 0 && (m.tag ^^^ p.tag) &&& p.tmask = 0 && m.comm = p.comm

/-! ### Issue (R293, R297, R298, R303, R304) -/

/-- Accepted `msend`, `rpost` and `a2a` commands of the issuing context whose records have not arrived (R297). -/
def State.msgCount (s : State) : Nat :=
  s.cmds.countP fun x => x.ctx = s.iss.ctx && (match x.k with
    | .msend _ => true
    | .rpost _ => true
    | .a2a _ _ _ _ _ => true
    | _ => false)

/-- Whether a messaging command's bound cannot be assured at the present load: never while the die has fewer than sixteen of them
accepted, which the bounds of R312 allow for; beyond that the device's choice (R236, R345; log 1). -/
def State.overloaded (s : State) : Bool × State :=
  let load := s.cmds.countP fun x => dieOf x.ctx = dieOf s.iss.ctx && (match x.k with
    | .msend _ => true
    | .rpost _ => true
    | .a2a _ _ _ _ _ => true
    | _ => false)
  if load < 16 then (false, s) else s.choose

/-- R293. -/
def execMsend (a d : BitVec 5) (c : BitVec 2) (s : State) : Res :=
  let cls := c.toNat
  let put := fun w (s : State) => s.ws d 1 w
  if !s.iss.held && decide (16 ≤ s.msgCount) then .next (s.blocked .engineQueue [] [] [] [])
  else s.withBlock (s.rs a) fun blk s =>
    let b := sendBlk blk
    if !b.clean || !arrayOk b.sbase || (b.baren && b.baddr % 16 != 0) then s.refuse 0x03 cls put
    else if !s.rankOk b.dst then s.refuse 0x13 cls put
    else if 2 ^ 26 < b.len then s.refuse 0x15 cls put
    else if s.freeSlots s.iss.ctx = 0 then s.refuse 0x07 cls put
    else
      let (full, s) := s.overloaded
      if full then s.refuse 0x02 cls put
      else
        let life := if 32768 < b.len then (s.msgEntry 6 cls).limit * 1000 else 0
        let bound := (s.msgEntry (s.routeOf b.dst) cls).base + (s.msgEntry 4 cls).unit * ceilDiv b.len 64 + life
        s.accept (.msend blk) 0x05 cls bound none (if b.baren then some b.baddr else none) put

/-- Whether a post is decided: matched by a message, or at its end. -/
def State.postDecided (s : State) (x : Cmd) : Bool := x.ended || s.msgs.any fun m => m.post = some x.id

/-- Posts of a die that are accepted and undecided (R297). -/
def State.postsOf (s : State) (die : Nat) : Nat :=
  s.cmds.countP fun x => dieOf x.ctx = die && !s.postDecided x && (match x.k with
    | .rpost _ => true
    | _ => false)

/-- R297, R298. -/
def execRpost (a d : BitVec 5) (c : BitVec 2) (p : BitVec 6) (s : State) : Res :=
  let cls := c.toNat
  let put := fun w (s : State) => s.ws d 1 w
  let pl := s.plat (clOf s.iss.ctx) p.toNat
  if !s.iss.held && decide (16 ≤ s.msgCount) then .next (s.blocked .engineQueue [] [] [] [])
  else if !s.iss.held && pl.busy then .next (s.blocked .platform [] [] [] [])
  else s.withBlock (s.rs a) fun blk s =>
    let b := postBlk blk
    if s.detOf s.iss.ctx && b.smask != 0xFFFFFFFF then s.raise (s.issTrap 0x07)
    else if !b.clean || decide (6 < b.conv) || b.doff % 4 != 0 || b.timeout = 0 || decide ((s.msgEntry 4 cls).limit < b.timeout) ||
        (b.baren && b.baddr % 16 != 0) then s.refuse 0x03 cls put
    else if !pl.decl then s.refuse 0x04 cls put
    else if pl.half < b.doff + b.maxlen then s.refuse 0x06 cls put
    else if 4096 ≤ s.postsOf (dieOf s.iss.ctx) then s.refuse 0x14 cls put
    else if s.freeSlots s.iss.ctx = 0 then s.refuse 0x07 cls put
    else
      let bound := b.timeout * 1000 + (s.msgEntry 6 cls).base + (s.msgEntry 4 cls).unit * ceilDiv b.maxlen 64
      let s := s.modCur fun x => { x with posts := (x.posts ++ [(x.vis.seq, s.nextId, 0)]).drop (x.posts.length - 63) }
      s.accept (.rpost blk) 0x06 cls bound (some p) (if b.baren then some b.baddr else none) put

/-- R303. In deterministic mode it raises the memory-model exception (R333). -/
def execRcancel (a d : BitVec 5) (s : State) : Res :=
  let put := fun w (s : State) => s.ws d 1 w
  .next (if s.detOf s.iss.ctx then s.raise (s.issTrap 0x07)
    else if s.freeSlots s.iss.ctx = 0 then s.refuse 0x07 0 put
    else s.accept (.rcancel ((s.rs a).setWidth 16)) 0x06 0 2000 none none put)

/-- R304: the unexpected queue as it stood at the end of the previous cycle. -/
def execRprobe (a d : BitVec 5) (s : State) : Res :=
  if s.detOf s.iss.ctx then .next (s.raise (s.issTrap 0x07))
  else s.withBlock (s.rs a) fun blk s =>
    let b := postBlk blk
    let me := s.rank (clOf s.iss.ctx)
    let ws := match s.unexpPrev.find? fun m => m.dst = me && b.matches m with
      | some m => [m.len + bit m.pulled * 2 ^ 62 + 2 ^ 63, m.src, m.tag.toNat, m.comm.toNat]
      | none => [0, 0, 0, 0]
    (List.range 4).foldl (fun s i => s.ws (d + BitVec.ofNat 5 i) 1 (BitVec.ofNat 64 (ws.getD i 0))) s

/-! ### Release -/

/-- The header of a released `msend` leaves for its destination (R291, R294). -/
def State.sendRelease (s : State) (x : Cmd) (blk : List Word) : State :=
  let b := sendBlk blk
  let m : Msg :=
    { id := x.id, src := s.rank (clOf x.ctx), dst := b.dst, tag := b.tag, comm := b.comm, len := b.len, cmd := some x.id,
      pulled := decide (32768 < b.len), data := [], st := .flying, post := none, viaUnexp := false
      until_ := s.now + nsCycles ((s.msgEntry 6 x.cls.toNat).limit * 1000) }
  let s := { s with msgs := s.msgs ++ [m] }
  let eager := nsCycles ((s.msgEntry (s.routeOf b.dst) x.cls.toNat).base)
  s.later (eager / 4) .messageHeaderArrival { id := x.id }

/-- A released `rpost` or `rcancel` leaves for its die's Junction, which those of one context reach in the order of their
release (R345; log 32). -/
def State.toJunction (s : State) (ev : Instr) (x : Cmd) : State :=
  let (n, s) := s.draw 400
  let ahead := s.agenda.filter fun a =>
    (a.ev = .postArrival || a.ev = .cancelArrival) && (s.cmd? a.due.id).any fun y => y.ctx = x.ctx
  s.schedule (ahead.foldl (fun t a => max t a.at_) (s.now + n)) ev { id := x.id }

/-- A released `rpost` leaves for its die's Junction, and its TIMEOUT begins (R297, R299). -/
def State.postRelease (s : State) (x : Cmd) (blk : List Word) : State :=
  let s := s.toJunction .postArrival x
  s.schedule (s.now + nsCycles ((postBlk blk).timeout * 1000)) .postTimeout { id := x.id }

/-! ### The Junction (R299 to R301) -/

/-- A message with its fields changed. -/
def State.modMsg (s : State) (id : Nat) (f : Msg → Msg) : State :=
  { s with msgs := s.msgs.map fun m => if m.id = id then f m else m }

/-- A post's outcome kept for `rcancel` (R303). -/
def State.postOutcome (s : State) (x : Cmd) (r : Nat) : State :=
  s.modCtx x.ctx fun c => { c with posts := c.posts.map fun p => if p.2.1 = x.id then (p.1, p.2.1, r) else p }

/-- The record of a send (R295). -/
def sendRecord (x : Cmd) (m : Msg) (status : BitVec 8) : Record :=
  { x.record with
    status := status
    detail := BitVec.ofNat 128 (m.dst + m.tag.toNat * 2 ^ 32 + m.comm.toNat * 2 ^ 64 + m.len * 2 ^ 80
      + (bit m.pulled + 2 * bit (m.post.isSome && !m.viaUnexp)) * 2 ^ 112) }

/-- A send ends with a status: its record is built, or its sender on another module is told (R295). -/
def State.sendEnd (s : State) (m : Msg) (status : BitVec 8) : State :=
  match m.cmd with
  | none => s.emit (.sendEnds m.src m.id status)
  | some c =>
    match s.cmd? c with
    | some x => if x.ended then s else s.finish x.id (sendRecord x m status)
    | none => s

/-- The message is gone. -/
def State.dropMsg (s : State) (id : Nat) : State := { s with msgs := s.msgs.filter (·.id ≠ id) }

/-- The payload of a message, read by its sender's context, or the status of the read that failed (R293); that of an eager
message from another module comes with it. -/
def State.payload (s : State) (m : Msg) : Sum (BitVec 8) (List Byte) × State :=
  match m.cmd.bind s.cmd? with
  | none => (.inr m.data, s)
  | some x =>
    match x.k with
    | .msend blk =>
      match s.cmdRead x (sendBlk blk).sbase m.len with
      | .ok bs s => (.inr bs, s)
      | .fail st _ _ s => (.inl st, s)
    | _ => (.inr [], s)

/-- A match: the post leaves the list and the header the unexpected queue; an eager payload lands, a pulled one is read, from
another module by a pull that its transport answers, or that fails within the receive's bound (R299, R301, R311). -/
def State.matchUp (s : State) (m : Msg) (p : Cmd) (via : Bool) : State :=
  let s := (s.modMsg m.id fun m => { m with st := .pulling, post := some p.id, viaUnexp := via }).postOutcome p 1
  let s := s.modDie (dieOf p.ctx) fun d => { d with posts := d.posts.erase p.id, unexp := d.unexp.erase m.id }
  if m.pulled ∧ m.cmd.isNone then
    (s.emit (.pull m.src m.id)).schedule (max (s.now + 1) (p.deadline - 8)) .uecTransportFailure { id := p.id }
  else if m.pulled then s.later (nsCycles 1000) .pullComplete { id := m.id }
  else s.later 200 .fillComplete { id := p.id }

/-- The first post, in post order, of cluster k that a message matches (R299). -/
def State.postFor (s : State) (k : Nat) (m : Msg) : Option Cmd :=
  ((s.die (k / 6)).posts.filterMap s.cmd?).find? fun x => clOf x.ctx = k && (match x.k with
    | .rpost blk => (postBlk blk).matches m
    | _ => false)

/-- Bytes of eager buffer a message takes (R300). -/
def Msg.space (m : Msg) : Nat := if m.pulled then 0 else ceilDiv m.len 64 * 64

/-- Whether a die's Junction has room for an unmatched message (R300). -/
def State.roomFor (s : State) (die : Nat) (m : Msg) : Bool :=
  let held := s.msgs.filter fun x => (s.die die).unexp.contains x.id
  decide ((s.die die).unexp.length < 2048) && decide ((held.map Msg.space).sum + m.space ≤ 2 ^ 23)

/-- A message's place among those of one source: by its release, in one cycle by ascending logical index, then in program order;
one from another module carries its place (R294). -/
def State.msgPlace (s : State) (m : Msg) : Nat :=
  match m.cmd.bind s.cmd? with
  | some x => ((x.release.getD 0) * 16 + (s.ctx x.ctx).l) * 2 ^ 64 + x.id
  | none => m.seq

/-- The order key of an event at a Junction: its kind, then SRC and sequence, or cluster and l (R299). -/
def State.junctionKey (s : State) (ev : Instr) (d : Due) : Option (Nat × Nat × Nat × Nat) :=
  match ev with
  | .messageHeaderArrival =>
    match d.msg.or (s.msgs.find? (·.id = d.id)) with
    | some m => (s.clusterOf m.dst).map fun k => (k / 6, 0, m.src, s.msgPlace m)
    | none => none
  | .postArrival => (s.cmd? d.id).map fun x => (dieOf x.ctx, 1, clOf x.ctx, (s.ctx x.ctx).l)
  | .cancelArrival => (s.cmd? d.id).map fun x => (dieOf x.ctx, 2, 0, 0)
  | .postTimeout => (s.cmd? d.id).map fun x => (dieOf x.ctx, 3, 0, 0)
  | .headerLifetimeExpiry => ((s.msgs.find? (·.id = d.id)).bind fun m => s.clusterOf m.dst).map fun k => (k / 6, 3, 0, 0)
  | _ => none

/-- Whether one key goes before another of the same Junction (R299). -/
def keyBefore (x y : Nat × Nat × Nat × Nat) : Bool :=
  x.1 = y.1 && (decide (x.2.1 < y.2.1) || (x.2.1 = y.2.1 && (decide (x.2.2.1 < y.2.2.1) || (x.2.2.1 = y.2.2.1 && decide (x.2.2.2 < y.2.2.2)))))

/-- The due event that goes first at the Junction of the event being handled, when it is another one: the first of those with the
lowest key (R299). -/
def State.junctionFirst (s : State) (ev : Instr) : Option Agendum :=
  (s.junctionKey ev s.due).bind fun mine =>
    (s.agenda.foldl (fun (best : Option Agendum × (Nat × Nat × Nat × Nat)) a =>
      match s.junctionKey a.ev a.due with
      | some k => if a.at_ ≤ s.now ∧ keyBefore k best.2 then (some a, k) else best
      | none => best) (none, mine)).1

/-- An event of a Junction handled in the order of R299: one that goes first is put before it, and it stays ahead of the others
that are due. -/
def State.inOrder (s : State) (ev : Instr) (k : State → State) : Res :=
  .next (match s.junctionFirst ev with
    | some a => { s with agenda := a :: { at_ := s.now, ev := ev, due := s.due } :: s.agenda.erase a }
    | none => k s)

/-- Whether a message goes before m at its Junction: same SRC, DST and COMM, and an earlier place (R294). -/
def State.precedes (s : State) (y m : Msg) : Bool :=
  y.src = m.src && y.dst = m.dst && y.comm = m.comm && decide (s.msgPlace y < s.msgPlace m)

/-- Messages that go before m and have not reached its Junction: of this module, and of another one (R294). -/
def State.earlier (s : State) (m : Msg) : List Nat := (s.msgs.filter fun y => y.st = .flying && s.precedes y m).map (·.id)
def State.earlierFar (s : State) (m : Msg) : Bool :=
  s.agenda.any fun a => a.ev = .messageHeaderArrival && a.due.msg.any fun y => s.precedes y m

/-- A message to another module leaves this one: an eager one with its payload, of a pulled one the header. How its send ends
there is the device's answer, a pull among them, whose moment lies within the header's lifetime (R291, R295; log 1). -/
def State.farEnd (s : State) (m : Msg) : State :=
  let s := s.emit (.message m.dst m)
  let (bad, s) := s.choose
  let (which, s) := s.draw 3
  let (arr, s) := s.choose
  if bad ∧ (which < 3 ∨ !m.pulled) then
    (s.sendEnd m (if which = 2 then 0x28 else 0x23)).dropMsg m.id
  else if !m.pulled then (s.sendEnd { m with post := if arr then some 0 else none } 0).dropMsg m.id
  else
    let s := s.modMsg m.id fun _ => { m with st := .pulling, viaUnexp := !arr }
    if bad then s.schedule (max (s.now + 1) m.until_) .headerLifetimeExpiry { id := m.id }
    else s.later (m.until_ - s.now) .pullComplete { id := m.id, wr := true }

/-- MESSAGE HEADER ARRIVAL: the header of message due.id, or of a message from another module in due.msg, reaches the
Junction of its destination (R295, R299, R300). -/
def execMessageHeaderArrival (s : State) : Res :=
  s.inOrder .messageHeaderArrival fun s =>
    match s.due.msg.or (s.msgs.find? (·.id = s.due.id)) with
    | none => s
    | some m =>
      let first := s.earlier m
      if s.earlierFar m then s.schedule (s.now + 1) .messageHeaderArrival s.due
      else if first ≠ [] then
        (s.hasten fun a => a.ev = .messageHeaderArrival && first.contains a.due.id).schedule s.now .messageHeaderArrival s.due
      else
        let s := if s.due.msg.isSome ∧ !s.msgs.any (·.id = m.id) then { s with msgs := s.msgs ++ [m] } else s
        match (if m.pulled then ((.inr m.data : Sum (BitVec 8) (List Byte)), s) else s.payload m) with
        | (.inl st, s) => (s.sendEnd m st).dropMsg m.id
        | (.inr bs, s) =>
          let m := { m with data := bs }
          match s.clusterOf m.dst with
          | none => s.farEnd m
          | some k =>
            if (s.cluster k).launch.isNone || (s.die (k / 6)).st != .serving then (s.sendEnd m 0x28).dropMsg m.id
            else
              let s := s.modMsg m.id fun _ => m
              match s.postFor k m with
              | some p => s.matchUp m p false
              | none =>
                if !s.roomFor (k / 6) m then (s.sendEnd m 0x23).dropMsg m.id
                else
                  let s := (s.modMsg m.id fun m => { m with st := .unexpected }).modDie (k / 6) fun d =>
                    { d with unexp := d.unexp ++ [m.id] }
                  if !m.pulled then s.sendEnd m 0
                  else s.schedule (max (s.now + 1) m.until_) .headerLifetimeExpiry { id := m.id }

/-- POST ARRIVAL: the post of command due.id reaches its die's Junction (R299). -/
def execPostArrival (s : State) : Res :=
  s.inOrder .postArrival fun s =>
    match s.cmd? s.due.id with
    | none => s
    | some x =>
      match x.k with
      | .rpost blk =>
        let k := clOf x.ctx
        let us := (s.die (k / 6)).unexp.filterMap fun i => s.msgs.find? (·.id = i)
        match us.find? fun m => s.clusterOf m.dst = some k && (postBlk blk).matches m with
        | some m => s.matchUp m x true
        | none => s.modDie (k / 6) fun d => { d with posts := d.posts ++ [x.id] }
      | _ => s

/-- A post withdrawn from the list: its fill fails with a status (R299, R303). -/
def State.withdraw (s : State) (x : Cmd) (status : Nat) : State :=
  ((s.modDie (dieOf x.ctx) fun d => { d with posts := d.posts.erase x.id }).postOutcome x 2).schedule s.now .fillFail
    { id := x.id, arg := status }

/-- POST TIMEOUT: the post of command due.id has reached its TIMEOUT unmatched (R299). -/
def execPostTimeout (s : State) : Res :=
  s.inOrder .postTimeout fun s =>
    match s.cmd? s.due.id with
    | some x => if (s.die (dieOf x.ctx)).posts.contains x.id then s.withdraw x 0x26 else s
    | none => s

/-- CANCEL ARRIVAL: the `rcancel` of command due.id is applied (R303). -/
def execCancelArrival (s : State) : Res :=
  s.inOrder .cancelArrival fun s =>
    match s.cmd? s.due.id with
    | none => s
    | some x =>
      match x.k with
      | .rcancel target =>
        let p := (s.ctx x.ctx).posts.reverse.find? (·.1 = target)
        let live := (p.bind fun p => s.cmd? p.2.1).filter fun y => (s.die (dieOf y.ctx)).posts.contains y.id
        let result := if live.isSome then 0 else if (p.map (·.2.2)) = some 1 then 1 else 2
        let s := match live with
          | some y => s.withdraw y 0x27
          | none => s
        s.finish x.id { x.record with detail := BitVec.ofNat 128 (target.toNat + result * 2 ^ 16 + 2 ^ 112) }
      | _ => s

/-- HEADER LIFETIME EXPIRY: the header of the pulled message due.id is withdrawn when it is still unmatched, at a Junction here or
on another module (R295, R299). -/
def execHeaderLifetimeExpiry (s : State) : Res :=
  s.inOrder .headerLifetimeExpiry fun s =>
    match s.msgs.find? (·.id = s.due.id) with
    | none => s
    | some m =>
      match s.clusterOf m.dst with
      | some k =>
        if !(s.die (k / 6)).unexp.contains m.id then s
        else ((s.modDie (k / 6) fun d => { d with unexp := d.unexp.erase m.id }).sendEnd m 0x22).dropMsg m.id
      | none => (s.sendEnd m 0x22).dropMsg m.id

/-- PULL COMPLETE: the last byte of the pulled message due.id has been read, or a read has failed (R295, R301). With wr another
module's Junction has read it, and its bytes leave. A message from another module brings its bytes in due.bytes, or the STATUS of
its sender's failed read in due.arg. -/
def execPullComplete (s : State) : Res :=
  let d := s.due
  .next (match s.msgs.find? (·.id = d.id) with
    | none => s
    | some m =>
      if m.cmd.isNone then
        match m.post with
        | none => s
        | some p =>
          if d.arg ≠ 0 then s.schedule s.now .fillFail { id := p, arg := d.arg }
          else (s.modMsg m.id fun m => { m with data := d.bytes }).schedule s.now .fillComplete { id := p }
      else
        match s.payload m, m.post with
        | (.inl st, s), none => if d.wr then (s.sendEnd m st).dropMsg m.id else s
        | (.inr bs, s), none =>
          if d.wr then
            ((s.emit (.message m.dst { m with data := bs })).sendEnd { m with post := some 0 } 0).dropMsg m.id
          else s
        | (.inl st, s), some p => (s.sendEnd m st).schedule s.now .fillFail { id := p, arg := st.toNat }
        | (.inr bs, s), some p => (s.modMsg m.id fun m => { m with data := bs }).schedule s.now .fillComplete { id := p })

/-- The record of a receive (R302). -/
def recvRecord (x : Cmd) (m : Option Msg) (status : BitVec 8) (flags : Nat) : Record :=
  { x.record with
    status := status, flags := BitVec.ofNat 6 flags
    detail := match m with
      | none => 0
      | some m => BitVec.ofNat 128 (m.src + m.tag.toNat * 2 ^ 32 + m.comm.toNat * 2 ^ 64 + m.len * 2 ^ 80
          + (bit m.pulled + 2 * bit m.viaUnexp) * 2 ^ 120) }

/-- Local addresses that a receive of message m writes (R223, R301). -/
def State.recvExtent (s : State) (x : Cmd) (b : PostBlk) (m : Msg) : List Nat :=
  let base := (s.plat (clOf x.ctx) (x.pn.getD 0).toNat).shadowAt + b.doff
  let n := convSize b.conv
  (List.range (min b.maxlen (convOut b.conv (m.len / n * n)))).map fun i => base + i

/-- What a receive lands: its message converted into the shadow (R301). Whether the flags of output bytes beyond MAXLEN, which are
dropped, count in FLAGS R301 does not say: those of the whole payload count here (DESIGN CHOICE, log 72). -/
def State.recvWork (s : State) (x : Cmd) (blk : List Word) : Fill :=
  let b := postBlk blk
  let base := (s.plat (clOf x.ctx) (x.pn.getD 0).toNat).shadowAt + b.doff
  match s.msgs.find? fun m => m.post = some x.id with
  | none => { status := 0x26, bytes := [], extent := [], record := recvRecord x none 0x26 0 }
  | some m =>
    let n := convSize b.conv
    let row := convRow b.conv (m.data.take (m.len / n * n))
    let out := row.1.take b.maxlen
    let extent := s.recvExtent x b m
    if m.len % n ≠ 0 then { status := 0x25, bytes := [], extent := extent, record := recvRecord x (some m) 0x25 0 }
    else { status := 0, bytes := runAt base out, extent := extent,
           record := recvRecord x (some m) (if b.maxlen < row.1.length then 0x24 else 0) row.2 }

/-! ### The Marshal (R305 to R307) -/

/-- The shard of a row (R306). -/
def Table.shard (t : Table) (row : Nat) : Nat :=
  if t.shf = 1 then (if t.shpar = 0 then 0 else min (row / t.shpar.toNat) (t.shcnt - 1))
  else ((row * t.shpar.toNat % 2 ^ 64) / 2 ^ 32 * t.shcnt) / 2 ^ 32

/-- R305. R273's order of refusals names no place for the codes that `a2a` alone has: the model tests 0x16 after 0x10, and 0x13, which
needs the rank table, after 0x16 (DESIGN CHOICE, log 72). -/
def execA2a (a d : BitVec 5) (i o m : Bool) (c : BitVec 2) (p : BitVec 6) (s : State) : Res :=
  let cls := c.toNat
  let put := fun w (s : State) => s.ws d 1 w
  let pl := s.plat (clOf s.iss.ctx) p.toNat
  if !s.iss.held && decide (16 ≤ s.msgCount) then .next (s.blocked .engineQueue [] [] [] [])
  else if !s.iss.held && pl.busy then .next (s.blocked .platform [] [] [] [])
  else
    let ea := s.rs a
    s.loading (s.loadAt { glob := false, win := false, now := true } 64 [ea]) fun _ s' =>
      let word := fun (k : Nat) => BitVec.ofNat 64 (s.loadNat (s.own s.iss.ctx) (ea + BitVec.ofNat 64 (8 * k)) 8)
      let blk := (List.range 8).map word
      let s := s'
      let b := poolBlk blk
      let w5 := blk.getD 5 0
      let w6 := blk.getD 6 0
      let dl := fld w6 0 32
      let row := ((s.table? s.iss.ctx b.tid).map (·.w)).getD 0 * gradSize o
      let e := s.boundEntry 2 cls (poolBound cls)
      let me := s.msgEntry 4 cls
      let bad := fld w5 23 41 != 0 || fld w5 0 2 != 0 || fld w6 32 32 != 0 || blk.getD 7 0 != 0 || decide (dl < 1000) ||
        decide (me.limit * 1000 < dl)
      if poolMalformed b i bad row then s.refuse 0x03 cls put
      else if !pl.decl then s.refuse 0x04 cls put
      else
        match s.nameable? b.tid with
        | none => s.refuse 0x10 cls put
        | some t =>
          if t.shf = 0 || t.shcnt = 0 || decide (64 < t.shcnt) || (t.shf = 2 && t.shpar.toNat % 2 = 0) then s.refuse 0x16 cls put
          else
            let eas := (List.range t.shcnt).map fun (k : Nat) => localEa (fld w5 0 23) + BitVec.ofNat 64 (4 * k)
            match s.loadAt { glob := false, win := false, now := true } 4 eas with
            | .trap t => s.raise t
            | .block l g k => s.blocked .loadBlock l g k []
            | .ok _ s' =>
              let ranks := eas.map fun q => s.loadNat (s.own s.iss.ctx) q 4
              let s := s'
              if ranks.any fun r => !s.rankOk r then s.refuse 0x13 cls put
              else if s.depotDown t then s.refuse 0x01 cls put
              else if e.limit < b.nidx then s.refuse 0x11 cls put
              else if pl.half < b.doff + (b.nbags - 1) * b.dstr + row then s.refuse 0x06 cls put
              else if s.freeSlots s.iss.ctx = 0 then s.refuse 0x07 cls put
              else
                let bound := dl + me.base + me.unit * ceilDiv (b.nbags * row) 64
                if !s.admits t cls b.nidx bound then s.refuse 0x02 cls put
                else s.accept (.a2a blk m o i ranks) 0x03 cls bound (some p) (if b.baren then some b.baddr else none) put

/-- A released `a2a`: its Marshal's work and its deadline are due (R306, R307). -/
def State.a2aRelease (s : State) (x : Cmd) (blk : List Word) : State :=
  let dl := nsCycles (fld (blk.getD 6 0) 0 32)
  (s.later (dl / 8) .marshalDispatch { id := x.id }).schedule (s.now + dl) .roundDeadline { id := x.id }

/-- MARSHAL DISPATCH: the Marshal reads the arrays of command due.id, sends one bucket to each owner, and has the owners of
this module served by its Depots (R306). -/
def execMarshalDispatch (s : State) : Res :=
  .next (match s.cmd? s.due.id with
    | none => s
    | some x =>
      match x.k with
      | .a2a blk _ _ n64 ranks =>
        let b := poolBlk blk
        match s.table? x.ctx b.tid, s.readArrays x b n64 with
        | some t, ((some (offs, idx), _), s) =>
          let any := { t with rows := 2 ^ 64 }
          let bs := (List.range b.nbags).map fun i => bagOf any offs idx b.nidx i
          let es := bs.flatMap fun p => p.2.map fun e => (p.1.part.bag, e.1, e.2)
          let mine := fun (sh : Nat) => es.filter fun e => t.shard e.2.2 = sh
          let shards := (List.range t.shcnt).filter fun sh => mine sh ≠ []
          let parent : Job :=
            { id := x.id, cmd := x.id, shard := none, routed := [], served := [], await := [], inbox := [], bags := bs.map (·.1),
              owners := shards.map fun sh => (sh, ranks.getD sh 0), late := 0,
              lots := shards.flatMap fun sh => ((mine sh).map (·.1)).dedup.map fun g => (sh, g) }
          let s := { s with jobs := s.jobs ++ [parent] }
          if shards = [] then s.later (s.stage x) .fillComplete { id := x.id }
          else shards.foldl (fun s sh =>
            let own := mine sh
            if (s.clusterOf (ranks.getD sh 0)).isNone then
              s.emit (.bucket (ranks.getD sh 0) b.tid (own.map fun e => (e.1, e.2.2)))
            else
              let (id, s) := s.fresh
              let bags := ((own.map (·.1)).dedup).map fun g =>
                let bad := own.find? fun e => e.1 = g && decide (t.rows ≤ e.2.2)
                { part := { BagPart.zero g t.w with fault := bad.map fun e => (2, e.2.1) }, count := 0, late := false : Bag }
              let ok := own.filter fun e => bags.all fun g => g.part.bag != e.1 || g.part.fault.isNone
              s.beginJob x
                { id := id, cmd := x.id, shard := some sh, served := [], await := [], inbox := [], bags := bags, owners := [], late := 0, lots := [],
                  routed := ok.map fun e => { bag := e.1, pos := e.2.1, row := e.2.2, depot := t.depotOf e.2.2, hot := none } }) s
        | _, ((_, st), s) => s.schedule s.now .fillFail { id := x.id, arg := st.toNat }
      | _ => s)

/-- Owners that are late: their shards are marked and the bags in which they have entries (R307). -/
def Job.miss (j : Job) (shards : List Nat) : Job :=
  { j with
    owners := j.owners.filter fun o => !shards.contains o.1
    late := shards.foldl (fun l sh => l ||| (1#64 <<< sh)) j.late
    bags := j.bags.map fun g =>
      if j.lots.any fun p => shards.contains p.1 && p.2 = g.part.bag then { g with late := true } else g }

/-- The round ends once no owner is awaited. -/
def State.roundDone (s : State) (x : Cmd) (j : Job) : State :=
  let s := s.modJob j.id fun _ => j
  if j.owners = [] then s.later (s.stage x) .fillComplete { id := x.id } else s

/-- OWNER PARTIAL ARRIVAL: the partials due.parts of shard due.arg of `a2a` due.id arrive; wr says that the owner refused
its bucket (R306, R307). -/
def execOwnerPartialArrival (s : State) : Res :=
  let d := s.due
  .next (match s.cmd? d.id, s.jobs.find? (·.id = d.id) with
    | some x, some j =>
      if !j.owners.any (·.1 = d.arg) then s
      else if d.wr then s.roundDone x (j.miss [d.arg])
      else s.roundDone x { j.take d.parts with owners := j.owners.filter (·.1 ≠ d.arg) }
    | _, _ => s)

/-- ROUND DEADLINE: the owners of `a2a` due.id that are still awaited are late; partials that arrive in the deadline's own cycle
have arrived by it (R307). -/
def execRoundDeadline (s : State) : Res :=
  let id := s.due.id
  .next (match s.cmd? id, s.jobs.find? (·.id = id) with
    | some x, some j =>
      if j.owners = [] then s
      else if s.agenda.any fun a => a.ev = .ownerPartialArrival && a.due.id = id && decide (a.at_ ≤ s.now) then
        s.schedule s.now .roundDeadline s.due
      else ({ s with jobs := s.jobs.filter fun y => y.cmd ≠ id || y.id = id }).roundDone x (j.miss (j.owners.map fun (o : Nat × Nat) => o.1))
    | _, _ => s)

/-! ### Fabric errors (R310, R311, R428) -/

/-- A command whose traffic is lost ends with a status. -/
def State.loseCmd (s : State) (status : Nat) (id : Nat) : State :=
  match s.cmd? id with
  | none => s
  | some x =>
    if x.ended || x.release.isNone then s
    else
      match x.k with
      | .msend _ =>
        match s.msgs.find? (·.id = id) with
        | some m => (s.sendEnd m (BitVec.ofNat 8 status)).dropMsg id
        | none => s
      | _ => if x.pn.isSome then s.schedule s.now .fillFail { id := id, arg := status }
        else s.finish id { x.record with status := BitVec.ofNat 8 status }

/-- The oldest released write of window w of context c is lost by the fabric: the window's bit in its batch is set (R218,
R310, R311). -/
def State.loseWindow (s : State) (c w : Nat) : State :=
  match (s.ctx c).winq.find? (·.win = w) with
  | none => s
  | some e =>
    let s := s.modCtx c fun x => { x with winq := x.winq.erase e }
    (s.modBatch c e.batch fun b => { b with errs := b.errs ||| (1#32 <<< e.win) }).summarise c e.batch e.win

/-- UNCORRECTABLE LINK ERROR at port due.arg: the commands due.nats that lost traffic end with STATUS 0x10; wr says that
the oldest released write of window due.arg2 of context due.ctx is lost, which sets the window's bit in its batch (R310, R428). -/
def execUncorrectableLinkError (s : State) : Res :=
  let d := s.due
  let s := s.rasLog d.arg 4 0 1
  let s := d.nats.foldl (fun s i => s.loseCmd 0x10 i) s
  .next (if d.wr then s.loseWindow d.ctx d.arg2 else s)

/-- UEC TRANSPORT FAILURE: the operation of command due.id between PODs ends with its error record; with wr it is the oldest
released write of window due.arg2 of context due.ctx that is lost (R311). -/
def execUecTransportFailure (s : State) : Res :=
  let d := s.due
  .next (if d.wr then s.loseWindow d.ctx d.arg2 else s.loseCmd 0x10 d.id)

/-- LINK RETRY at port due.arg: the link's error control resends; the traffic is delivered once, in order, and only the RAS
log changes (R310, R428). -/
def execLinkRetry (s : State) : Res := .next (s.rasLog s.due.arg 3 0 1)

/-! ### Fills (R221, R223, R234, R254) -/

/-- The work of a command's fill: of a copy, what its rows so far have brought. -/
def State.fillWork (s : State) (x : Cmd) : Fill × State :=
  match x.k with
  | .copy ch tidx tm _ => (s.copyFill x ch tidx (tmplOf tm) (tmplOf tm).rows 0 0, s)
  | .epgo _ acc dst _ act out =>
    let f := s.epWork x acc dst act out
    (if x.record.status = 0 then f else { f with status := x.record.status, bytes := [], record := x.record }, s)
  | .pool blk mean bf16 _ => (s.poolWork x blk mean bf16 false, s)
  | .a2a blk mean bf16 _ _ => (s.poolWork x blk mean bf16 true, s)
  | .rpost blk => (s.recvWork x blk, s)
  | _ => ({ status := 0, bytes := [], extent := [], record := x.record }, s)

/-- A failed record of a command, rows rows of whose copy were written: a lookup's names no bag (R240). -/
def failedRecord (x : Cmd) (r : Record) (status : BitVec 8) (rows : Nat) : Record :=
  match x.k with
  | .pool _ _ _ _ => poolFailed x false status
  | .a2a _ _ _ _ _ => poolFailed x true status
  | .copy ch tidx _ _ =>
    { r with
      status := status
      detail := (copyRecord x.seq status (x.pn.getD 0) (r.detail.setWidth 64) rows tidx ch).detail }
  | _ => { r with status := status }

/-- The status with which the send of a message ends when its receive has ended with st: that of a payload read that failed, or was
lost or refused under the race rules, and otherwise 0 (R295, R301, R311). R295 and R301 name no STATUS for an eager send whose receive
fails with 0x25, its payload written nowhere: 0 here, since the payload has been sent (DESIGN CHOICE, log 72). -/
def Msg.sentWith (m : Msg) (st : BitVec 8) : BitVec 8 :=
  if m.pulled && (st = 0x10 || st = 0x11 || st = 0x12 || st = 0x14) then st else 0

/-- A fill has ended with a status: its lookup is forgotten, and the send of the message that landed ends; that of an eager message
which had waited in the buffer has ended before (R295). -/
def State.fillOver (s : State) (x : Cmd) (st : BitVec 8) : State :=
  let s := { s with jobs := s.jobs.filter (·.cmd ≠ x.id) }
  match s.msgs.find? fun m => m.post = some x.id with
  | some m => (if m.viaUnexp ∧ !m.pulled then s else s.sendEnd m (m.sentWith st)).dropMsg m.id
  | none => s

/-- A fill fails with its record: the extent is zeroed and the platform returns (R223). -/
def State.failed (s : State) (x : Cmd) (extent : List Nat) (r : Record) : State :=
  ((s.failFill (clOf x.ctx) (x.pn.getD 0).toNat extent).finish x.id r).fillOver x r.status

/-- The rows of a copy that n of its output bytes make. -/
def Cmd.rowsIn (x : Cmd) (n : Nat) : Nat :=
  match x.k with
  | .copy _ _ tm _ => n / (tmplOf tm).rowOut
  | _ => 0

/-- A command's fill completes with its work, or fails where the work did or would write an operand in a consumption window (R221,
R223, R254). -/
def State.fillEnds (s : State) (x : Cmd) (f : Fill) : State :=
  let k := clOf x.ctx
  if f.status ≠ 0 then s.failed x f.extent (failedRecord x f.record f.status (x.rowsIn f.bytes.length))
  else
    match f.bytes.findIdx? fun p => s.consumed k p.1 s.now with
    | some i => s.failed x f.extent (failedRecord x f.record 0x12 (x.rowsIn i))
    | none =>
      let (held, s) := s.completeFill k (x.pn.getD 0).toNat f.bytes
      (s.finish x.id { f.record with pfl := if held then 1 else 0 }).fillOver x 0

/-- Row r of the copy of command x: read and kept, with the next row due at a moment within the bound, which may be this cycle; the
fill fails at the first row that cannot be read, and completes with the last (R223, R231; log 1). -/
def State.copyStep (s : State) (x : Cmd) (ch tidx : Nat) (t : Tmpl) (a0 : Word) (r : Nat) : State :=
  match s.copyRow x t a0 r with
  | .bad st a s => s.fillEnds x (s.copyFill x ch tidx t r st a)
  | .row bs fl s =>
    let x := { x with out := x.out ++ bs, record := { x.record with flags := x.record.flags ||| BitVec.ofNat 6 fl } }
    if t.rows ≤ r + 1 then s.fillEnds x (s.copyFill x ch tidx t t.rows 0 0)
    else
      let (n, s) := s.draw ((x.deadline - s.now) / (2 * (t.rows - r)) + 1)
      (s.modCmd x.id fun _ => x).schedule (s.now + n - 1) .fillComplete { id := x.id, arg := r + 1 }

/-- FILL COMPLETE: the fill of command due.id completes, and publishes or is held; or, when its work fails or would write an
operand in a consumption window, it fails. Of a copy it is the reading of row due.arg (R221, R223, R231, R234, R254). -/
def execFillComplete (s : State) : Res :=
  let r := s.due.arg
  .next (match s.cmd? s.due.id with
    | none => s
    | some x =>
      if x.ended then s
      else
        match x.k with
        | .copy ch tidx tm a0 => s.copyStep x ch tidx (tmplOf tm) a0 r
        | _ =>
          let (f, s) := s.fillWork x
          s.fillEnds x f)

/-- FILL FAIL: the fill of command due.id fails with STATUS due.arg; a copy's record has the rows written so far, and no source
address, for none is at fault (R223, R240). -/
def execFillFail (s : State) : Res :=
  let st := BitVec.ofNat 8 s.due.arg
  .next (match s.cmd? s.due.id with
    | none => s
    | some x =>
      if x.ended then s
      else
        match x.k with
        | .pool blk _ bf16 _ =>
          s.failed x (poolExtent (s.plat (clOf x.ctx) (x.pn.getD 0).toNat).shadowAt (poolBlk blk)
            (((s.table? x.ctx (poolBlk blk).tid).map (·.w)).getD 0 * gradSize bf16)) (failedRecord x x.record st 0)
        | .a2a blk _ bf16 _ _ =>
          s.failed x (poolExtent (s.plat (clOf x.ctx) (x.pn.getD 0).toNat).shadowAt (poolBlk blk)
            (((s.table? x.ctx (poolBlk blk).tid).map (·.w)).getD 0 * gradSize bf16)) (failedRecord x x.record st 0)
        | .copy ch tidx tm _ =>
          let f := s.copyFill x ch tidx (tmplOf tm) (x.rowsIn x.out.length) st 0
          s.failed x f.extent f.record
        | .rpost blk =>
          let m := s.msgs.find? fun m => m.post = some x.id
          s.failed x ((m.map (s.recvExtent x (postBlk blk))).getD []) (recvRecord x m st 0)
        | _ =>
          let f := s.fillWork x
          s.failed x f.1.extent { x.record with status := st })

end Sys2Proof.Machine
end

