-- ==== Sys2Proof/Machine/Guest.lean ====
section
/-! DEFINITION. Sys2Proof/Machine/Guest.lean: invalidations as every holder of translations applies them (R381, R418), the
Spur guest: `gsub`, completions, translation, coherent requests, quiesce, guest faults (R313, R412 to R420). -/

namespace Sys2Proof.Machine

/-! ### Guest faults (R419) -/

/-- The trap record of a guest fault: cause 4 concerns no context, every other one the context that issued the packet or
the invalidation (R363, R419). PC, RESUME and FADDR are zero: no bundle is concerned (log 24). -/
def State.guestRec (s : State) (cause : Nat) (c : Option Nat) : TrapRec :=
  let info : TrapInfo := { kind := 0x11, pc := 0, arg := BitVec.ofNat 64 cause }
  match c with
  | none => { info := info, src := 1, ctxid := 0xFFFF, lid := 0, asid := 0, lseq := 0, qid := 0, resume := 0, cons := false,
              time := s.now }
  | some c => { s.trapRec c info with src := 1, resume := 0, cons := false }

/-- A GUEST FAULT: its record is raised, or kept pending by a full ring, and a guest in service goes to DRAINING (R365,
R410, R419). -/
def State.guestFault (s : State) (cause : Nat) (c : Option Nat) : State :=
  let r := s.guestRec cause c
  let s := match s.record r with
    | (true, s) => s
    | (false, s) => { s with guest := { s.guest with pend := s.guest.pend ++ [r] } }
  if s.guest.st = .serving then
    ({ s with guest := { s.guest with st := .draining } }).schedule (s.now + 1) .unitOffline { id := 80 }
  else s

/-! ### Queue packets (R313, R414) -/

/-- Whether a packet as the program wrote it keeps the contract of R414. -/
def packetOk (blk : List Word) : Bool :=
  let w0 := blk.getD 0 0
  let naddr := fld w0 16 8
  fld w0 0 8 = 1 && decide (naddr ≤ 4) && fld w0 24 40 = 0 && blk.getD 1 0 = 0 &&
    (List.range 4).all fun i =>
      let a := blk.getD (2 + i) 0
      if i < naddr then fld a 56 8 = 0 else a = 0

/-- A packet with the bytes that the device fills in: SEQ, LID, ASID, CLASS (R414). -/
def packetFilled (blk : List Word) (seq lid asid cls : Nat) : List Word :=
  (blk.getD 0 0 ||| BitVec.ofNat 64 (seq * 2 ^ 32 + lid * 2 ^ 48)) :: BitVec.ofNat 64 (asid + cls * 2 ^ 16) :: blk.drop 2

/-- SEQ and LID of a filled packet. -/
def packetKey (blk : List Word) : Nat × Nat := (fld (blk.getD 0 0) 48 16, fld (blk.getD 0 0) 32 16)

/-- A packet's ASID. -/
def packetAsid (blk : List Word) : Nat := fld (blk.getD 1 0) 0 16

/-- The packet of a `gsub` command. -/
def Cmd.packet? (x : Cmd) : Option (List Word) :=
  match x.k with
  | .gsub blk => some blk
  | _ => none

/-- Accepted packets whose record has not been posted. They count against the submission queue (log 24). -/
def State.packets (s : State) : List Cmd := s.cmds.filter fun x => x.packet?.isSome

/-- R313. -/
def execGsub (a d : BitVec 5) (c : BitVec 2) (s : State) : Res :=
  let cls := c.toNat
  let put := fun w (s : State) => s.ws d 1 w
  s.withBlock (s.rs a) fun blk s =>
    let part := s.parts.getD (s.partOf s.iss.ctx) { cmask := 0, dmask := 0, guest := false, privq := 0 }
    if !s.guest.fitted || s.guest.st != .serving || !part.guest then s.refuse 0x01 cls put
    else if !packetOk blk then s.refuse 0x03 cls put
    else if s.guest.qdepth ≤ s.packets.length then s.refuse 0x17 cls put
    else if s.freeSlots s.iss.ctx = 0 then s.refuse 0x07 cls put
    else
      let (full, s) := if s.packets = [] then (false, s) else s.choose
      if full then s.refuse 0x02 cls put
      else
        let filled := packetFilled blk s.cur.vis.seq.toNat (s.lidOf s.iss.ctx) (s.asidOf s.iss.ctx) cls
        s.accept (.gsub filled) 0x08 cls (s.guest.base.getD cls 0) none none put

/-- The last cycle that lies in or before nanosecond n (R7, R416). -/
def lastCycleOf (n : Nat) : Nat := (19 * (n + 1) - 1) / 10

/-- The release of a packet: the device writes it to the guest's submission queue, and its bound runs (R414, R416). One of a launch
that is being pre-empted and for which the guest's GPRE is over has missed it: it completes with STATUS 0x2C in the next cycle (R420; log 24). -/
def State.gsubRelease (s : State) (x : Cmd) (blk : List Word) : State :=
  let s := { s with guestq := s.guestq ++ [x.id] }
  let s := s.emit (.guestPacket (BitVec.ofNat 512 (packNat 64 (blk.map (·.toNat)))))
  let s := s.schedule (lastCycleOf (s.ns + s.guest.base.getD x.cls.toNat 0)) .guestCompletionTimeout { id := x.id }
  match s.launchOf x.ctx with
  | none => s
  | some l =>
    if l.st = .preempting && !(s.agenda.any fun a => a.ev = .guestQuiesceTimeout && a.due.id = l.id + 1) then
      s.schedule (s.now + 1) .guestQuiesceTimeout { id := l.id + 1, arg := packetAsid blk, arg2 := s.now }
    else s

/-- The record of a packet is posted at once, and the packet is no longer outstanding (R313, R415). -/
def State.packetDone (s : State) (x : Cmd) (status : Nat) (flags : Nat) (gres : Nat) : State :=
  let s := { s with cmds := s.cmds.filter (·.id ≠ x.id), guestq := s.guestq.filter (· ≠ x.id) }
  s.postRecord x.ctx
    { x.record with status := BitVec.ofNat 8 status, flags := BitVec.ofNat 6 flags, detail := BitVec.ofNat 128 gres }

/-- The outstanding packet of an identity: written to the guest, its record not posted. -/
def State.outPacket? (s : State) (id : Nat) : Option Cmd :=
  if s.guestq.contains id then s.cmd? id else none

/-- The first module address of the completion port, and whether an address lies in its page (R415). -/
def portBase : Nat := 0x200FFFFFF000
def inPort (m : Nat) : Bool := decide (portBase ≤ m) && decide (m < portBase + 4096)

/-- The STATUS values that a completion may carry (R415). A packet aborted under R420 carries 0x2C, which lies among the
guest-defined ones. -/
def completionStatusOk (st : Nat) : Bool := st = 0 || st = 0x10 || st = 0x11 || st = 0x12 || (decide (0x20 ≤ st) && decide (st ≤ 0x2F))

/-- GUEST COMPLETION: the guest writes due.bytes to module address due.arg in the page of the completion port (R415). One
for a packet that timed out is discarded without a fault (R416). -/
def execGuestCompletion (s : State) : Res :=
  let d := s.due
  let x := leNat d.bytes
  let key := (bits x 16 16, bits x 0 16)
  let bad := s.guestFault 4 none
  .next (if d.arg ≠ portBase ∨ d.bytes.length ≠ 16 then bad
    else
      match s.packets.find? fun c => s.guestq.contains c.id && (c.packet?.map packetKey) = some key with
      | some c =>
        if completionStatusOk (bits x 32 8) then s.packetDone c (bits x 32 8) (bits x 40 6) (bits x 64 64) else bad
      | none =>
        if s.guest.late.contains key then { s with guest := { s.guest with late := s.guest.late.erase key } } else bad)

/-- GUEST COMPLETION TIMEOUT: packet due.id has reached its bound. A completion that arrives in this cycle is on time and
goes first; otherwise the record is posted with STATUS 0x2B and a guest fault raised (R416). -/
def execGuestCompletionTimeout (s : State) : Res :=
  let d := s.due
  .next (match s.outPacket? d.id with
    | none => s
    | some x =>
      if s.agenda.any fun a => a.ev = .guestCompletion && decide (a.at_ ≤ s.now) then
        s.schedule s.now .guestCompletionTimeout d
      else
        let key := packetKey (x.packet?.getD [])
        let s := (s.packetDone x 0x2B 0 0).guestFault 1 (some x.ctx)
        { s with guest := { s.guest with late := s.guest.late ++ [key] } })

/-! ### Translation and coherent requests (R417, R419) -/

/-- ATS TRANSLATION REQUEST: the guest asks for the translation of virtual address due.word in ASID due.arg, for writing
when wr is set; due.arg2 holds bits 19:16 of the PASID (R417). -/
def execAtsTranslationRequest (s : State) : Res :=
  let d := s.due
  let asid := d.arg
  let busy := s.packets.any fun x => s.guestq.contains x.id && (x.packet?.map packetAsid) = some asid
  .next (if d.arg2 ≠ 0 || !busy || fld d.word 56 8 ≠ 0 then s.emit (.atsAnswer asid none)
    else
      match s.page? { asid := asid, part := ((s.asidEntry asid).map (·.2)).getD 0, exec := false } d.word.toNat with
      | none => s.emit (.atsAnswer asid none)
      | some e =>
        if e.permits (if d.wr then .w else .r) then (s.learn e).emit (.atsAnswer asid (some (e.addr d.word.toNat)))
        else s.emit (.atsAnswer asid none))

/-- The launches whose global RD memory holds a module address: some page of [RDLO, RDHI) that is not SYNC lies on it
(R315, R321, R397). -/
def State.rdLaunches (s : State) (m : Nat) : List Launch :=
  s.launches.filter fun l => (l.st = .running || l.st = .preempting) &&
    (List.range ((l.pkt.rdhi - l.pkt.rdlo) / 4096)).any fun i =>
      (s.page? l.who (l.pkt.rdlo + 4096 * i)).any fun e => !e.sync && e.addr (l.pkt.rdlo + 4096 * i) / 4096 = m / 4096

/-- The granules of a module address that carry tags, one for each launch whose RD memory holds it (R321). -/
def State.outerGrans (s : State) (m : Nat) : List Gran :=
  (s.rdLaunches m).map fun l => ({ space := l.id + 1, n := m / 64, ph := 0 } : Gran)

/-- An access of a party outside the launches, the guest or the host, to n bytes at a module address as a master: checked
at the access table, against optimiser and array protections and race tags, then performed; the answer is the bytes read, or 0x11
where it is rejected or finds an uncorrectable word, 0x12 where it conflicts (R274, R286, R318, R407, R417, R419, R426, R427). -/
def State.outerAccess (s : State) (p : Party) (master m n : Nat) (wr : Bool) (bytes : List Byte) :
    Except (BitVec 8) (List Byte) × State :=
  let k := if wr then AccKind.store else .load
  let gs := (List.range (ceilDiv (m % 64 + n) 64)).flatMap fun i => s.outerGrans (m / 64 * 64 + 64 * i)
  if n = 0 || !s.allowedRun m n master false (if wr then .w else .r) then (.error 0x11, s)
  else if (List.range n).any fun i => s.accGlobal (m + i) 1 || (wr && s.arrayGlobal (m + i)) then (.error 0x12, s)
  else if (s.conflict p k gs).isSome then (.error 0x12, s)
  else
    let s := s.register p k gs
    if wr then (.ok [], s.write (runAt m (bytes.take n)))
    else
      match s.poisoned (m / 64 * 64) (roundUp (m % 64 + n) 64) with
      | some x => (.error 0x11, s.memError 0 x)
      | none => (.ok (s.gbytes m n), s.corrected 0 (m / 64 * 64) (roundUp (m % 64 + n) 64))

/-- GUEST CACHE REQUEST: the guest reads, or with wr writes due.bytes to, the 64 bytes at module address due.arg (R417,
R419). The completion port's page takes no such request (R415). -/
def execGuestCacheRequest (s : State) : Res :=
  let d := s.due
  let m := d.arg / 64 * 64
  let bs := if d.wr then d.bytes.take 64 ++ List.replicate (64 - d.bytes.length) 0 else ([] : List Byte)
  .next (if inPort m then s.guestFault 4 none
    else
      match s.outerAccess .guest 9 m 64 d.wr bs with
      | (.ok r, s) =>
        let s := match s.tlb.find? fun e => decide (e.frame ≤ m) && decide (m < e.frame + e.size) with
          | some e => s.heat m e.leaf
          | none => s
        s.emit (.guestData m 0 (BitVec.ofNat 512 (leNat r)))
      | (.error st, s) => s.emit (.guestData m st 0))

/-! ### Invalidation (R381, R418) -/

/-- Whether context c waits for the homes' answer to the race check of a load, which registers its access there (R318), or has
released accesses that are still on their way to their homes (R326). -/
def State.asking (s : State) (c : Nat) : Bool :=
  (s.ctx c).raceAsk != [] || s.l2q.any (·.ctx = c) || (s.core (coreOf c)).hold.any (·.h = c % 4)

/-- AN INVALIDATION APPLIED for command id: in one cycle every holder loses the entries of the ASID whose page overlaps
[lo, hi), none for an empty range. The drain ends at a free moment within the bound; a fitted guest is told in whatever state it is, and has GINV to
answer (R381, R418). -/
def State.applyInval (s : State) (id asid lo hi : Nat) : State :=
  let s := { s with tlb := s.tlb.filter fun e => !(decide (lo < hi) && e.asid = asid && decide (e.va < hi) && decide (lo < e.va + e.size)) }
  let guest := s.guest.fitted
  let s := { s with invals := s.invals ++ [(Inval.mk id false (!guest))] }
  let s := s.later 2000 .invalidationDrainComplete
    { id := id, nats := (s.ctxs.map (·.1)).filter fun c => s.asidOf c = asid && s.asking c }
  if guest then
    (s.emit (.guestInval asid lo hi)).schedule (lastCycleOf (s.ns + s.guest.ginv)) .guestInvalidationTimeout { id := id }
  else s

/-- Both halves of a drain are in: the invalidation unit lets the command go on. -/
def State.drained (s : State) (id : Nat) : Bool := s.invals.any fun v => v.id = id && v.drained && v.guestAck

/-- The state with an invalidation changed. -/
def State.modInval (s : State) (id : Nat) (f : Inval → Inval) : State :=
  { s with invals := s.invals.map fun v => if v.id = id then f v else v }

/-- The heat counters of n bytes from module address a are added into those from b, and cleared, one that stands for both too; a frame in the host window has
none (R387 point 4, R388). -/
def State.moveHeat (s : State) (a b n : Nat) : State :=
  (List.range (ceilDiv (a % 65536 + n) 65536)).foldl (fun s i =>
    let src := s.sys.heatBase.toNat + 2 * s.heatIndex (a + 65536 * i)
    let dst := s.sys.heatBase.toNat + 2 * s.heatIndex (b + 65536 * i)
    if !onDevice a then s
    else if src = dst || !onDevice b then s.write (runAt src [0, 0])
    else s.write (runAt dst (leBytes 2 (min (s.nat dst 2 + s.nat src 2) 0xFFFF)) ++ runAt src [0, 0])) s

/-- An invalidation whose drain is complete ends: a `tlbir` posts its record, a migration ends its mirroring, moves its
heat and posts its record (R381, R387). -/
def State.endInval (s : State) (id : Nat) : State :=
  if !s.drained id then s
  else
    let s := { s with invals := s.invals.filter (·.id ≠ id) }
    match s.cmd? id with
    | none => s
    | some x =>
      let s := match s.migs.find? (·.id = id) with
        | some g => let s := s.moveHeat g.old g.dst g.size
          { s with migs := s.migs.filter fun m => m.id ≠ id }
        | none => s
      s.finish id x.record

/-- INVALIDATION DRAIN COMPLETE: every access translated through an entry that invalidation due.id removed has been
performed at its home. It is tried again while one of the contexts due.nats, which had accesses under way when the
invalidation was applied, still has (R381). -/
def execInvalidationDrainComplete (s : State) : Res :=
  let still := s.due.nats.filter s.asking
  .next (if still ≠ [] then s.schedule (s.now + 1) .invalidationDrainComplete { s.due with nats := still }
    else (s.modInval s.due.id fun v => { v with drained := true }).endInval s.due.id)

/-- GUEST INVALIDATION COMPLETION: the guest has finished with the translations that invalidation due.id removed (R418). -/
def execGuestInvalidationCompletion (s : State) : Res :=
  .next ((s.modInval s.due.id fun v => { v with guestAck := true }).endInval s.due.id)

/-- GUEST INVALIDATION TIMEOUT: GINV has passed for invalidation due.id without the guest's completion: master 0x09 is shut
out until a reload, the drain no longer waits for the guest, and a guest fault is raised (R418). A completion that arrives
in this cycle goes first. -/
def execGuestInvalidationTimeout (s : State) : Res :=
  let id := s.due.id
  .next (if !(s.invals.any fun v => v.id = id && !v.guestAck) then s
    else if s.agenda.any fun a => a.ev = .guestInvalidationCompletion && a.due.id = id && decide (a.at_ ≤ s.now) then
      s.schedule s.now .guestInvalidationTimeout s.due
    else
      let s := { s with guest := { s.guest with shut := true } }
      let s := s.guestFault 2 ((s.cmd? id).map (·.ctx))
      (s.modInval id fun v => { v with guestAck := true }).endInval id)

/-! ### Quiesce (R420) -/

/-- The guest is told to quiesce an address space, for the pre-emption of launch id, and has GPRE to do so (R420). -/
def State.quiesce (s : State) (asid id : Nat) : State :=
  if !s.guest.fitted then s
  else (s.emit (.guestQuiesce asid)).schedule (max (s.now + 1) (lastCycleOf (s.ns + s.guest.gpre))) .guestQuiesceTimeout
    { id := id + 1, arg := asid, arg2 := s.now }

/-- The times that the guest has for the pre-emption of launch id are over for the launch, which resumes: what it submits from here on
has nothing to do with them (R403, R420). -/
def State.unquiesce (s : State) (id : Nat) : State :=
  { s with agenda := s.agenda.map fun a =>
      if a.ev = .guestQuiesceTimeout ∧ a.due.id = id + 1 then { a with due := { a.due with id := 0 } } else a }

/-- GUEST QUIESCE TIMEOUT: GPRE is over for a quiesce message about ASID due.arg that was sent in cycle due.arg2. The packets of that
ASID that the guest had then, and those that the launch due.id less one, still on its way to its safe point or there, has submitted
since, complete with STATUS 0x2C, each with a guest fault: the pre-emption waits for the guest no longer (R420; log 24). A completion
that arrives in this cycle goes first. -/
def execGuestQuiesceTimeout (s : State) : Res :=
  let d := s.due
  let own := fun (x : Cmd) => (s.launchOf x.ctx).any fun l => l.id + 1 = d.id
  let late := s.packets.filter fun x =>
    s.guestq.contains x.id && (x.packet?.map packetAsid) = some d.arg && (own x || decide (x.release.getD 0 ≤ d.arg2))
  .next (if late ≠ [] ∧ s.agenda.any fun a => a.ev = .guestCompletion && decide (a.at_ ≤ s.now) then
      s.schedule s.now .guestQuiesceTimeout d
    else late.foldl (fun s x => (s.packetDone x 0x2C 0 0).guestFault 3 (some x.ctx)) s)

end Sys2Proof.Machine
end

