-- ==== Sys2Proof/Machine/Sched.lean ====
section
/-! DEFINITION. Sys2Proof/Machine/Sched.lean: command queues, acceptance, start and retirement of launches (R24 to R34, R392
to R404), pre-emption by the scheduler (R366, R403), gangs (R404), live repair (R408 to R411). -/

namespace Sys2Proof.Machine

/-! ### The configuration blob (R422) -/

/-- A number of n bytes at an offset of a byte string. -/
def natAt (bs : List Byte) (o n : Nat) : Nat := leNat ((bs.drop o).take n)

/-- The number of sections of the blob. -/
def blobSecs (b : List Byte) : Nat := natAt b 6 2

/-- The bytes of the blob's first section of a type; none when it has none. -/
def blobSection (b : List Byte) (ty : Nat) : Option (List Byte) :=
  ((List.range (blobSecs b)).find? fun i => natAt b (64 + 16 * i) 4 = ty).map fun i =>
    (b.drop (natAt b (64 + 16 * i + 4) 4)).take (natAt b (64 + 16 * i + 8) 8)

/-- A die's registers as the configuration sets them: SYS.LOCKQ and SYS.WDOGDEF of section 8 (R350, R422; log 30). -/
def configuredDie (b : List Byte) : Die :=
  match blobSection b 8 with
  | none => Die.reset
  | some x => { Die.reset with lockQ := min (natAt x 0 8) 1024, wdogDef := max (2 ^ 16) (min (natAt x 8 8) (2 ^ 32)) }

/-! ### Accesses by the command processors (R406) -/

/-- The accesses of the command processors, master 0x0B, in an address space (R406). -/
def cpWho (asid : Nat) : Who := { asid := asid, part := 0x0B, exec := false }

/-- The check of a module address by master 0x0B (R406, R407). -/
def State.cpMay (s : State) (m : Nat) (n : Need) : Bool := s.allowed m 0x0B false n

/-- n bytes at a module address as the command processor reads them, when all of them may be read and no word is poisoned (R383,
R406, R427). -/
def State.cpBytes? (s : State) (m n : Nat) : Option (List Byte) :=
  if s.allowedRun m n 0x0B false .r && (s.poisoned (m / 64 * 64) (roundUp (m % 64 + n) 64)).isNone then some (s.gbytes m n)
  else none

/-- What the command processor's read of n bytes at a module address leaves beside its data: errors of its words are logged, and
retire frames (R427). -/
def State.cpSees (s : State) (m n : Nat) : State :=
  let lo := m / 64 * 64
  let k := roundUp (m % 64 + n) 64
  if !s.allowedRun m n 0x0B false .r then s
  else
    match s.poisoned lo k with
    | some p => s.memError 0 p
    | none => s.corrected 0 lo k

/-- The command processor's write at module addresses: a byte that it may not write stays as it is (R406, R407; log 26). -/
def State.cpPut (s : State) (bs : List (Nat × Byte)) : State := s.write (bs.filter fun p => s.cpMay p.1 .w)

/-- The command processor's write of a number of n bytes. -/
def State.cpPutNat (s : State) (a n x : Nat) : State := s.cpPut (runAt a (leBytes n x))

/-- The command processor's write of zero to every byte from lo to hi - 1. -/
def State.cpZero (s : State) (lo hi : Nat) : State :=
  s.cpPut ((s.mem.filter fun c => decide (lo ≤ c.1) && decide (c.1 < hi)).map fun c => (c.1, 0))

/-- The module address of a virtual address of an address space for the command processor (log 26). -/
def State.cpAddr? (s : State) (asid va : Nat) (n : Need) : Option (Nat × Tlb) :=
  match s.page? (cpWho asid) va with
  | some e => if e.permits n && s.cpMay (e.addr va) n then some (e.addr va, e) else none
  | none => none

/-- n bytes from a virtual address as the command processor reads them, page by page; fuel counts pages. -/
def State.cpRun (s : State) (asid : Nat) : Nat → Nat → Nat → Option (List Byte)
  | 0, _, n => if n = 0 then some [] else none
  | fuel + 1, va, n =>
    if n = 0 then some []
    else
      let k := min n (4096 - va % 4096)
      match s.cpAddr? asid va .r with
      | none => none
      | some (m, _) =>
        match s.cpBytes? m k with
        | none => none
        | some bs => (s.cpRun asid fuel (va + k) (n - k)).map (bs ++ ·)

/-- n bytes from a virtual address as the command processor reads them. -/
def State.cpRead (s : State) (asid va n : Nat) : Option (List Byte) := s.cpRun asid (n / 4096 + 2) va n

/-- What the command processor's read of n bytes from a virtual address leaves beside its data: the errors of the tables that it
walks and of its words are logged, and its lines count in the heat counters (R388, R427). -/
def State.cpReads (s : State) (asid va n : Nat) : State :=
  (List.range (ceilDiv (va % 4096 + n) 4096)).foldl (fun s i =>
    let a := max va (va / 4096 * 4096 + 4096 * i)
    let k := min (va + n) (va / 4096 * 4096 + 4096 * (i + 1)) - a
    match s.cpAddr? asid a .r with
    | none => s.walkSeen (cpWho asid) a
    | some (m, e) =>
      let s := s.walkCorrected asid a
      ((List.range (ceilDiv (m % 64 + k) 64)).foldl (fun s j => s.heat (m / 64 * 64 + 64 * j) e.leaf) s).cpSees m k) s

/-- Word i of a byte string. -/
def word64 (bs : List Byte) (i : Nat) : Nat := leNat ((bs.drop (8 * i)).take 8)

/-! ### Queues (R393 to R395) -/

/-- A queue descriptor's fields. -/
structure QDesc where
  base : Nat
  en   : Bool
  log2n : Nat
  pri  : Nat
  part : Nat
  wr   : Nat
  rd   : Nat
  save : Nat
  lseq : Nat

/-- Where descriptor q stands (R393). -/
def State.qAddr (s : State) (q : Nat) : Nat := s.sys.qtab.toNat + 64 * q

/-- Descriptor q; one that breaks R393 counts as EN = 0, and nothing is known of one that cannot be read: its fields are 0
(log 26). -/
def State.qdesc (s : State) (q : Nat) : QDesc :=
  let reads := (s.cpBytes? (s.qAddr q) 64).isSome
  let w := fun i => if reads then s.gnat (s.qAddr q + 8 * i) 8 else 0
  let log2n := bits (w 1) 0 5
  let ok := bits (w 0) 52 11 = 0 && bits (w 0) 0 12 = 0 && bits (w 1) 5 3 = 0 && bits (w 1) 11 1 = 0 && bits (w 1) 15 49 = 0 &&
    bits (w 2) 32 32 = 0 && bits (w 3) 32 32 = 0 && bits (w 4) 52 12 = 0 && bits (w 5) 16 48 = 0 && w 6 = 0 && w 7 = 0 &&
    decide (4 ≤ log2n) && decide (log2n ≤ 16)
  { base := bits (w 0) 0 52, en := tst (w 0) 63 && ok, log2n := log2n, pri := bits (w 1) 8 3, part := bits (w 1) 12 3,
    wr := bits (w 2) 0 32, rd := bits (w 3) 0 32, save := bits (w 4) 0 52, lseq := bits (w 5) 0 16 }

/-- What the scheduler keeps of queue q. -/
def State.queue? (s : State) (q : Nat) : Option Queue := s.queues.find? (·.q = q)

/-- The state with a queue's record changed. -/
def State.modQueue (s : State) (q : Nat) (f : Queue → Queue) : State :=
  { s with queues := s.queues.map fun x => if x.q = q then f x else x }

/-- The address of a queue entry (R395). -/
def QDesc.entryAt (d : QDesc) (ix : Nat) : Nat := d.base + 32 * (ix % 2 ^ d.log2n)

/-- RD advances over entries whose DONE is written, fuel of them at most (R395). -/
def advanceRd (doneIx : List Nat) : Nat → Nat → Nat
  | 0, rd => rd
  | fuel + 1, rd => if doneIx.contains rd then advanceRd doneIx fuel ((rd + 1) % 2 ^ 32) else rd

/-- The command processor's write of n bytes at an offset of queue entry ix, which it finds through the descriptor (R395). -/
def State.entryPut (s : State) (q ix off n x : Nat) : State :=
  if (s.cpBytes? (s.qAddr q) 64).isNone then s else s.cpPutNat ((s.qdesc q).entryAt ix + off) n x

/-- An entry is completed: CODE, END and DONE last; RD passes every entry up to the first that is not (R395). -/
def State.entryDone (s : State) (q ix code : Nat) (lseq : Nat) : State :=
  let d := s.qdesc q
  let s := s.entryPut q ix 24 8 s.ns
  let s := s.entryPut q ix 8 8 (code + 2 ^ 8 + lseq * 2 ^ 16)
  let s := s.modQueue q fun x => { x with doneIx := ix :: x.doneIx }
  let dn := ((s.queue? q).map (·.doneIx)).getD []
  let rd := advanceRd dn dn.length d.rd
  (s.cpPutNat (s.qAddr q + 24) 4 rd).modQueue q fun x => { x with
    doneIx := x.doneIx.filter fun i => !((List.range ((rd + 2 ^ 32 - d.rd) % 2 ^ 32)).any fun k => (d.rd + k) % 2 ^ 32 = i) }

/-- An entry is refused: START is 0, no context having started (R395, R399). -/
def State.entryRefused (s : State) (q ix code : Nat) : State :=
  (s.entryPut q ix 16 8 0).entryDone q ix code 0

/-- A scheduling step becomes due when none is (R401); its moment is free (log 1). -/
def State.wakeSched (s : State) : State :=
  if s.agenda.any fun a => a.ev = .schedulingStep then s else s.later 1000 .schedulingStep {}

/-- The LSEQ of queue q is read with the first descriptor that has EN = 1 (R393). -/
def State.readLseq (s : State) (q : Nat) : State :=
  let d := s.qdesc q
  s.modQueue q fun x => { x with lseq := if x.lseq.isNone && d.en then some (BitVec.ofNat 16 d.lseq) else x.lseq }

/-- A DOORBELL of queue q: the scheduler reads WR; a queue that it had disabled and whose descriptor has EN = 1 again counts
once more (R394). Of a descriptor that it may not read, or that cannot be corrected, it takes nothing (R406, R415, R427). -/
def State.doorbell (s : State) (q : Nat) : State :=
  let d := s.qdesc q
  if (s.cpBytes? (s.qAddr q) 64).isNone then s.cpSees (s.qAddr q) 64 else
  let s := s.cpSees (s.qAddr q) 64
  let s := if (s.queue? q).isSome then s
    else { s with queues := s.queues ++ [{ q := q, wr := 0, next := BitVec.ofNat 32 d.rd, lseq := none, off := false,
                                           holdTo := 0, doneIx := [] }] }
  ((s.modQueue q fun x => { x with wr := BitVec.ofNat 32 d.wr, off := x.off && !d.en }).readLseq q).wakeSched

/-- QUEUE DOORBELL: queue due.arg is rung by SYS.QBELL or by the host's doorbell page (R394, R426). -/
def execQueueDoorbell (s : State) : Res := .next (s.doorbell (s.due.arg % 64))

/-! ### The launch packet and the image (R397, R398) -/

/-- The packet's fields. -/
def packetOf (bs : List Byte) : Packet :=
  let w := word64 bs
  { kimg := bits (w 0) 0 56, cbase := bits (w 1) 0 56, n := bits (w 2) 0 32, asid := bits (w 2) 32 16, pol := tst (w 2) 48,
    det := tst (w 2) 49, movl := tst (w 2) 50, fuse := tst (w 2) 51, skew := bits (w 2) 52 4, cw := bits (w 2) 56 3,
    cword := bits (w 3) 0 56, regbase := bits (w 4) 0 56, regcnt := bits (w 5) 0 17, skimg := bits (w 6) 0 56,
    wtab := bits (w 7) 0 56, tagbase := bits (w 8) 0 52, rdlo := bits (w 9) 0 56, rdhi := bits (w 10) 0 56,
    wdog := bits (w 11) 0 33, gid := bits (w 12) 0 16, gn := bits (w 12) 16 13, glim := bits (w 12) 32 16,
    gtab := bits (w 13) 0 56, pmask := BitVec.ofNat 384 (leNat ((bs.drop 112).take 48)) }

/-- Whether the packet's unlisted bits are zero and its addresses and counts in form: refusal code 0x40 otherwise (R399). -/
def packetForm (bs : List Byte) (p : Packet) : Bool :=
  let w := word64 bs
  bits (w 0) 56 8 = 0 && bits (w 1) 56 8 = 0 && bits (w 2) 59 5 = 0 && bits (w 3) 56 8 = 0 && bits (w 4) 56 8 = 0 &&
  bits (w 5) 17 47 = 0 && bits (w 6) 56 8 = 0 && bits (w 7) 56 8 = 0 && bits (w 8) 52 12 = 0 && bits (w 9) 56 8 = 0 &&
  bits (w 10) 56 8 = 0 && bits (w 11) 33 31 = 0 && bits (w 12) 29 3 = 0 && bits (w 12) 48 16 = 0 && bits (w 13) 56 8 = 0 &&
  leNat ((bs.drop 160).take 96) = 0 &&
  p.kimg % 4096 = 0 && p.cbase % 64 = 0 && p.cword % 8 = 0 && p.tagbase % 64 = 0 && p.rdlo % 65536 = 0 && p.rdhi % 65536 = 0 &&
  p.pmask != 0 && decide (p.rdlo ≤ p.rdhi) && decide (p.regcnt ≤ 65536) && p.gn != 1 && decide (p.gn ≤ 4096)

/-- The present clusters of a mask, ascending (R29). -/
def clustersOf (m : BitVec 384) : List Nat := (List.range 384).filter m.getLsbD

/-- Whether the zero fields of a scratch record are zero: byte 7, and PN but for a platform (R398, R399). -/
def scratchClean (x : Nat) : Bool := bits x 56 8 = 0 && (bits x 40 8 = 2 || bits x 48 8 = 0)

/-- A scratch record's region (R398): kind, local address, size, and whether its KIND is one of the four. -/
def scratchOf (x : Nat) : Region × Bool :=
  let kind := bits x 40 8
  ({ kind := if kind = 0 then .rd else if kind = 1 then .sync else if kind = 2 then .plat (bits x 48 8) else .cbar,
     base := bits x 32 8 % 4 * 2 ^ 21 + bits x 64 32, size := bits x 96 32 }, decide (kind ≤ 3))

/-- The image's header, scratch regions and templates by index (R398). -/
structure Image where
  clean : Bool
  magic : Nat
  c     : Nat
  m     : Nat
  entry : Nat
  link  : Nat
  regs  : List (Region × Bool)
  tmpls : List (Nat × BitVec 256)
  tcnt  : Nat

/-- The virtual addresses and sizes of the scratch and template records that a header names. -/
def recordRuns (kimg : Nat) (h : List Byte) : (Nat × Nat) × (Nat × Nat) :=
  let w := word64 h
  ((kimg + bits (w 3) 0 32, 16 * bits (w 3) 32 16), (kimg + bits (w 4) 0 32, 32 * min (bits (w 4) 32 16) 256))

/-- The image of a header, its scratch records and its template records (R398). -/
def imageOf (h rs ts : List Byte) : Image :=
  let w := word64 h
  let recs := (List.range (bits (w 3) 32 16)).map fun i => leNat ((rs.drop (16 * i)).take 16)
  { clean := w 6 = 0 && w 7 = 0 && recs.all scratchClean, magic := bits (w 0) 0 32, c := bits (w 1) 0 3, m := bits (w 1) 8 3
    entry := bits (w 2) 0 32, link := bits (w 5) 0 56, tcnt := bits (w 4) 32 16, regs := recs.map scratchOf
    tmpls := (List.range (min (bits (w 4) 32 16) 256)).map fun i =>
      let x := leNat ((ts.drop (32 * i)).take 32)
      (bits x 112 8, BitVec.ofNat 256 (x - bits x 112 8 * 2 ^ 112)) }

/-- The image at a virtual address, as the command processor reads it. -/
def State.imageAt (s : State) (asid kimg : Nat) : Option Image :=
  match s.cpRead asid kimg 64 with
  | none => none
  | some h =>
    let (r, t) := recordRuns kimg h
    match s.cpRead asid r.1 r.2, s.cpRead asid t.1 t.2 with
    | some rs, some ts => some (imageOf h rs ts)
    | _, _ => none

/-- The virtual addresses and sizes of what the command processor reads of a packet's image and tables (R267, R397 to R399). -/
def State.packetRuns (s : State) (p : Packet) (wins : Nat) : List (Nat × Nat) :=
  let some' := fun (a n : Nat) => if a = 0 then (0, 0) else (a, n)
  let recs := match s.cpRead p.asid p.kimg 64 with
    | some h => [(recordRuns p.kimg h).1, (recordRuns p.kimg h).2]
    | none => []
  (p.kimg, 64) :: recs ++ [(p.regbase, 64 * p.regcnt), some' p.skimg 8320, some' p.wtab wins, (p.gtab, 2 * p.gn)]

/-- Those reads are made: what they leave beside their data (R388, R427). -/
def State.packetSeen (s : State) (p : Packet) (wins : Nat) : State :=
  (s.packetRuns p wins).foldl (fun s r => if r.2 = 0 then s else s.cpReads p.asid r.1 r.2) s

/-- Whether two of a list of regions overlap. -/
def overlapping : List Region → Bool
  | [] => false
  | r :: rest => rest.any (fun x => decide (r.base < x.base + x.size) && decide (x.base < r.base + r.size)) || overlapping rest

/-- Whether an image is valid for KIMG: refusal code 0x46 otherwise (R399). -/
def Image.ok (i : Image) (kimg : Nat) : Bool :=
  i.magic = 0x4E52454B && decide (1 ≤ i.c) && decide (i.c ≤ 4) && decide (1 ≤ i.m) && decide (i.m ≤ 4) &&
  i.regs.all (·.2) && !overlapping (i.regs.map (·.1)) && decide (i.tcnt ≤ 256) &&
  decide (i.tmpls.map (·.1)).Nodup && (i.link = 0 || i.link = kimg)

/-! ### Acceptance (R399, R400) -/

/-- Whether a present cluster stands on a die that is not SERVING (code 0x45). -/
def State.dieDown (s : State) (p : Packet) : Bool := (clustersOf p.pmask).any fun k => (s.die (k / 6)).st ≠ .serving

/-- Window-table bytes of a launch: 256 per used context (R397). -/
def windowBytes (p : Packet) (i : Option Image) : Nat :=
  256 * ((clustersOf p.pmask).length * ((i.map fun i => i.c * i.m).getD 1))

/-- Whether the registry, the Skink image, the window table and GTAB of a packet can be read: refusal code 0x42 otherwise
(R178, R399). -/
def State.packetReads (s : State) (p : Packet) (img : Option Image) : Bool :=
  let reads := fun va n => n = 0 || (s.cpRead p.asid va n).isSome
  reads p.regbase (64 * p.regcnt) && (p.skimg = 0 || reads p.skimg 8320) && (p.wtab = 0 || reads p.wtab (windowBytes p img)) &&
    (p.gn = 0 || reads p.gtab (2 * p.gn))

/-- Whether CWORD translates for reads and writes to a SYNC page (R399). -/
def State.cwordOk (s : State) (p : Packet) : Bool := (s.cpAddr? p.asid p.cword .rw).any fun x => x.2.sync

/-- The refusal code of a packet from a queue of a partition, the first that applies in the table's order; none when it is
accepted (R399). -/
def State.packetRefusal (s : State) (part : Nat) (bs : List Byte) : Option Nat :=
  let p := packetOf bs
  let img := s.imageAt p.asid p.kimg
  let own := (s.parts.getD part { cmask := 0, dmask := 0, guest := false, privq := 0 }).cmask
  let tags := s.region 10
  if !packetForm bs p || (img.any fun i => !i.clean) then some 0x40
  else if (s.cpBytes? (s.sys.asidBase.toNat + 16 * p.asid) 16).isNone || (s.asidEntry p.asid).map (·.2) ≠ some part ||
      p.pmask &&& ~~~own ≠ 0 then some 0x41
  else if !s.packetReads p img || !s.cwordOk p then some 0x42
  else if p.tagbase < tags.1 ∨ tags.1 + tags.2 < p.tagbase + (p.rdhi - p.rdlo) / 32 then some 0x43
  else if (p.det && ((match img with
      | some i => decide (1 < i.c)
      | none => false) || p.cw = 0 || decide (6 < p.cw))) || (!p.det && (p.skew ≠ 0 || p.cw ≠ 0)) then some 0x44
  else if s.dieDown p then some 0x45
  else if !((img.map fun i => i.ok p.kimg).getD false) then some 0x46
  else none

/-- Launches of queue q that are not retired, and the most recent launch of it. -/
def State.liveOf (s : State) (q : Nat) : List Launch := s.launches.filter fun l => l.qid = q && l.st ≠ .retired
def State.lastOf (s : State) (q : Nat) : Option Launch := (s.launches.filter (·.qid = q)).getLast?

/-- GLIM in µs (R397). -/
def Launch.gangLimit (l : Launch) : Nat := if l.pkt.glim = 0 then 200 else l.pkt.glim

/-- Whether a launch has started. -/
def Launch.started (l : Launch) : Bool :=
  match l.st with
  | .waiting => false
  | .gang => false
  | _ => true

/-- An accepted launch of queue q, from its packet and the header of its image; its registry is read when it starts (R267,
R399). -/
def State.launchOfPacket (s : State) (d : QDesc) (q ix id : Nat) (p : Packet) : Launch :=
  let img := s.imageAt p.asid p.kimg
  { id := id, qid := q, idx := ix, pri := d.pri, part := d.part,
    exec := (s.parts.getD d.part { cmask := 0, dmask := 0, guest := false, privq := 0 }).privq.getLsbD q,
    lseq := 0, save := d.save, pkt := p, c := (img.map (·.c)).getD 1, m := (img.map (·.m)).getD 1,
    entry := p.kimg + (img.map (·.entry)).getD 0, clus := clustersOf p.pmask, registry := [],
    st := .waiting, start := 0, contrib := [], ready := [], gate := none, tgo := none,
    gmem := (List.range p.gn).map fun i => leNat ((((s.cpRead p.asid p.gtab (2 * p.gn)).getD []).drop (2 * i)).take 2),
    kept := [], keptCl := [] }

/-- ABANDON of a gang goes from its leader to its other members, whose READYs of that gate are ignored from then on (R404). -/
def State.abandon (s : State) (l : Launch) : State :=
  let s := (l.gmem.filter (· ≠ s.luvex.pos)).foldl (fun s p => s.emit (.gangAbandon p l.pkt.gid)) s
  { s with gangsOut := aset s.gangsOut l.pkt.gid (s.now + nsCycles (l.gangLimit * 1000)) }

/-- A launch that has not started is taken from its queue: a gang's leader that has not sent GO gives the gang up (R404; log
37). -/
def State.giveUp (s : State) (l : Launch) : State :=
  if l.st = .gang && l.gate.isSome && l.tgo.isNone then s.abandon l else s

/-- A queue's head entry is considered: checked once it may start under the first point of R400; refused, or accepted as a
waiting launch (R394, R399, R400). The gang of a leader whose launch goes with a disabled queue is given up (R404; log 37). An
entry that the command processor may not read is not considered (log 26). -/
def State.considerQueue (s : State) (q : Nat) : State :=
  match s.queue? q with
  | none => s
  | some x =>
    let d := s.qdesc q
    let waits := (s.liveOf q).any fun l => !l.started
    let ix := x.next.toNat
    if x.off || !d.en || decide (s.now < x.holdTo) then s
    else
      let s := s.readLseq q
      if 2 ^ d.log2n < (x.wr.toNat + 2 ^ 32 - d.rd) % 2 ^ 32 then
        let s := (s.launches.filter fun l => l.qid = q && !l.started).foldl State.giveUp s
        let s := { s with launches := s.launches.filter fun l => l.qid ≠ q || l.started }
        let s := s.cpPutNat (s.qAddr q) 8 (s.nat (s.qAddr q) 8 - 2 ^ 63)
        (s.entryRefused q ix 0x47).modQueue q fun x => { x with off := true, next := x.next + 1 }
      else if waits || x.next = x.wr then s
      else if (s.cpBytes? (d.entryAt ix) 32).isNone then s.cpSees (d.entryAt ix) 32
      else
        let pkt := bits (s.gnat (d.entryAt ix) 8) 0 52
        let bs := (s.cpBytes? pkt 256).getD []
        let p := packetOf bs
        let free := p.movl || (match s.lastOf q with
          | some l => l.st = .retired
          | none => true)
        let code := if pkt % 256 ≠ 0 ∨ bs = [] then some 0x40 else s.packetRefusal d.part bs
        if bs ≠ [] && !free then s
        else
          let seen := ((s.cpSees (d.entryAt ix) 32).cpSees pkt 256).cpSees (s.sys.asidBase.toNat + 16 * p.asid) 16
          let s' := if bs = [] then seen else seen.packetSeen p (windowBytes p (s.imageAt p.asid p.kimg))
          match code with
          | some c => ((s'.entryRefused q ix c).modQueue q fun x => { x with next := x.next + 1 }).wakeSched
          | none =>
            let (id, s') := s'.fresh
            { s' with launches := s'.launches ++ [s.launchOfPacket d q ix id p] }

/-! ### Start (R26, R29, R31, R41, R42, R400) -/

/-- The completion word's module address, when it translates. -/
def State.cwordAt (s : State) (l : Launch) : Option Nat := (s.cpAddr? l.pkt.asid l.pkt.cword .rw).map (·.1)

/-- The heat that an access to a launch's completion word leaves (R388). -/
def State.heatCword (s : State) (l : Launch) : State :=
  match s.cpAddr? l.pkt.asid l.pkt.cword .rw with
  | some (a, e) => s.heat a e.leaf
  | none => s

/-- The watchdog limit of a launch on a die: the packet's, or the die's SYS.WDOGDEF (R39, R397). -/
def Launch.wdogOn (l : Launch) (d : Die) : Nat :=
  if l.pkt.wdog = 0 then d.wdogDef else max (2 ^ 16) (min l.pkt.wdog (2 ^ 32))

/-- A cluster as a launch finds it (R26, R220, R230, R322): platforms declared and FREE, templates and scratch regions of
the image, epoch 0, fused L1 as the packet says, the die's lock quota. Of two platform records of one PN, which R399 does not refuse, the first
gives the platform (DESIGN CHOICE, log 72). -/
def clusterAtLaunch (l : Launch) (i : Image) (d : Die) : Cluster :=
  let regs := i.regs.map (·.1)
  let plat := fun (pn : Nat) => match regs.find? fun r => r.kind = .plat pn with
    | some r => { Platform.none with decl := true, base := r.base, half := r.size / 2 }
    | none => Platform.none
  let plats := Vector.ofFn fun (p : Fin 64) => plat p.val
  { Cluster.reset with
    launch := some l.id, plats := plats, prev := plats, regions := regs, fuse := l.pkt.fuse, lockq := d.lockQ
    tmpl := Vector.ofFn fun (t : Fin 256) => ((i.tmpls.find? (·.1 = t.val)).map (·.2)).getD 0 }

/-- A used context as a launch starts it, with its watchdog limit (R26, R30, R39, R308). -/
def contextAtLaunch (l : Launch) (h q g : Nat) (cons : Option Nat) (cpos : Nat) (skink : Vector SkinkDim 32) (win : Vector Word 32)
    (wlim : Nat) : Ctx :=
  let i := h * l.m + q
  let v := { Vis.launch with skink := skink }
  let pc := BitVec.ofNat 64 l.entry
  { Ctx.idle with
    status := .ready, pc := pc, vis := v, chk := v, chkPc := pc, exec := l.exec, launch := some l.id, l := i, g := g, win := win
    wlim := wlim, cons := cons, cpos := cpos
    owned := ownedBy (ownedCount l.pkt.pol l.pkt.n l.clus.length g) i (l.c * l.m) }

/-- The consists of a deterministic launch: on each die its present clusters, w at a time, each with its used cores
(R41). -/
def consistGroups (w : Nat) : Nat → List Nat → List (List Nat)
  | 0, _ => []
  | _, [] => []
  | fuel + 1, k :: ks =>
    let g := (k :: ks).takeWhile fun x => x / 6 = k / 6
    let g := g.take (max w 1)
    g :: consistGroups w fuel ((k :: ks).drop g.length)

/-- The members of a group of clusters in position order (R41). -/
def groupMembers (m : Nat) (ks : List Nat) : List Nat := ks.flatMap fun k => (List.range m).map fun q => ctxidOf k q 0

/-- The Skink tables in 8,320 bytes (R178). -/
def skinkOf (bs : List Byte) : Vector SkinkDim 32 :=
  Vector.ofFn fun d => SkinkDim.ofWords (words32 ((bs.drop (260 * d.val)).take 260))

/-- The reads of the Skink image that a context's loading at launch makes (R314, R318). Those outside the launch's RD range are
not registered, and the image is loaded from there too: R397's exception is for the accesses of a context that runs (log 72). -/
def State.registerSkink (s : State) (l : Launch) (c : Nat) : State :=
  if l.pkt.skimg = 0 then s
  else
    let gs := (List.range 132).filterMap fun i =>
      let va := l.pkt.skimg / 64 * 64 + 64 * i
      if va < l.pkt.skimg + 8320 && s.inRd c va then
        (s.page? l.who va).bind fun e => if e.sync then none else some (s.gGran c (e.addr va))
      else none
    s.register (s.party c) .load gs

/-- Measurement register i extended by data d (R424). -/
def State.extend (s : State) (i : Nat) (d : List Byte) : State :=
  let mr := s.luvex.mr.mapIdx fun j m => if j = i then Config.shake256 (m ++ Config.shake256 d 64) 64 else m
  { s with luvex := { s.luvex with mr := mr } }

/-- Unmatched eager messages for a launch's clusters are discarded at its retirement (R300). -/
def State.dropEager (s : State) (l : Launch) : State :=
  (s.msgs.filter fun m => !m.pulled && m.st = .unexpected && (match s.clusterOf m.dst with
    | some k => l.clus.contains k
    | none => false)).foldl (fun s m =>
      let d := ((s.clusterOf m.dst).getD 0) / 6
      (s.modDie d fun x => { x with unexp := x.unexp.erase m.id }).dropMsg m.id) s

/-- The request of cluster k is cleared: its first context resumes (R366). -/
def State.preemptClear (s : State) (k : Nat) : State :=
  s.modDie (k / 6) fun x => { x with
    preReq := x.preReq &&& ~~~(1#6 <<< (k % 6)), preDone := x.preDone &&& ~~~(1#6 <<< (k % 6)) }

/-- The scheduler has carried the request of cluster k out: it stands, and asks nothing of a launch that follows (R366, R403;
log 25). -/
def State.preemptCarried (s : State) (k : Nat) : State :=
  s.modDie (k / 6) fun x => { x with preDone := x.preDone ||| (x.preReq &&& (1#6 <<< (k % 6))) }

/-- A launch retires: CODE 0, END and DONE are written, its contexts become IDLE, its clusters are free from the next cycle
(R34, R35, R400). The requests of a pre-emption that it has outrun are carried out (log 25). -/
def State.retire (s : State) (l : Launch) : State :=
  let s := (s.dropEager l).entryDone l.qid l.idx 0 l.lseq.toNat
  let s := s.modLaunch l.id fun x => { x with st := .retired, kept := [], keptCl := [] }
  let used := if l.st = .preempted then [] else l.ctxids
  let s := used.foldl (fun s c => if (s.ctx c).launch = some l.id then (s.setCtx c Ctx.idle).dropCurrent c else s) s
  let s := l.clus.foldl (fun s k => s.modCluster k fun x => if x.launch = some l.id then { x with launch := none, freeAt := s.now + 1 } else x) s
  let s := if l.st = .preempting then l.clus.foldl State.preemptCarried s else s
  ({ s with consists := s.consists.filter (·.launch ≠ l.id), tags := s.tags.filter fun t => t.1.1 ≠ l.id + 1 }).schedule
    (s.now + 1) .schedulingStep {}

/-- A launch that has not started is refused with a code; the next entry is considered. A gang's leader that has not sent GO
gives the gang up (R399, R404; log 37). -/
def State.refuseLaunch (s : State) (l : Launch) (code : Nat) : State :=
  let s := { s with launches := s.launches.filter (·.id ≠ l.id) }.giveUp l
  ((s.entryRefused l.qid l.idx code).modQueue l.qid fun x => { x with next := x.next + 1 }).wakeSched

/-- What a launch takes from memory as it starts: its image, its registry, the bytes of its Skink image and of its window table,
the module address of its completion word. -/
structure StartData where
  img   : Image
  reg   : List (BitVec 512)
  skink : Vector SkinkDim 32
  wins  : List Byte
  cword : Option Nat
  head  : List Byte

/-- The registry's descriptors in bytes (R267). -/
def registryOf (n : Nat) (bs : List Byte) : List (BitVec 512) :=
  (List.range n).map fun i => BitVec.ofNat 512 (leNat ((bs.drop (64 * i)).take 64))

/-- Bytes that a launch takes as it starts. A launch is checked once, before: where a read that the check could make can no longer
be made, what it gives is a free value (R399; log 71). -/
def State.startRead (s : State) (asid k va n : Nat) : List Byte :=
  if n = 0 then []
  else (s.cpRead asid va n).getD ((List.range n).map fun i => Config.freeByte (s.free + k * 2 ^ 32 + i))

/-- The bytes of a launch's window tables: 256 for each used context (R397). -/
def Launch.winBytes (l : Launch) : Nat := 256 * l.clus.length * (l.c * l.m)

/-- The reads of a launch's start (R178, R267, R398). -/
def State.startData (s : State) (l : Launch) : StartData :=
  let p := l.pkt
  let read := s.startRead p.asid
  let h := read 0 p.kimg 64
  let (r, t) := recordRuns p.kimg h
  { img := imageOf h (read 1 r.1 r.2) (read 2 t.1 t.2), reg := registryOf p.regcnt (read 3 p.regbase (64 * p.regcnt))
    skink := if p.skimg = 0 then Vector.replicate 32 SkinkDim.reset else skinkOf (read 4 p.skimg 8320)
    wins := if p.wtab = 0 then [] else read 5 p.wtab l.winBytes, cword := s.cwordAt l, head := h }

/-- The scratchpad of cluster k and its tags as a launch finds them: zero, with no uncorrectable word (R321, R322, R400). -/
def State.clearScratch (s : State) (k : Nat) : State :=
  let here := fun a => decide (spKey k 0 ≤ a) && decide (a < spKey k 0 + 2 ^ 23)
  { s with
    mem := memZero s.mem (spKey k 0) (spKey k 0 + 2 ^ 23), poison := s.poison.filter fun a => !here a
    tags := s.tags.filter fun t => !(t.1.1 = 0 && here (64 * t.1.2)) }

/-- The contexts of a launch that starts, with its consists (R26, R41). -/
def State.startContexts (s : State) (l : Launch) (d : StartData) : State :=
  let groups := if l.pkt.det then consistGroups l.pkt.cw 384 l.clus else []
  let s := groups.foldl (fun s g =>
    let (id, s) := s.fresh
    { s with consists := s.consists ++ [{ id := id, launch := l.id, members := groupMembers l.m g, skew := l.pkt.skew,
                                          beats := 0, hold := none, log := [] }] }) s
  let s := l.clus.zipIdx.foldl (fun s kg =>
    (List.range l.c).foldl (fun s h => (List.range l.m).foldl (fun s q =>
      let c := ctxidOf kg.1 q h
      let cons := s.consists.find? fun (x : Consist) => x.launch = l.id && x.members.contains c
      let win := Vector.ofFn fun (w : Fin 32) =>
        winWord (BitVec.ofNat 64 (leNat ((d.wins.drop (256 * (kg.2 * (l.c * l.m) + (h * l.m + q)) + 8 * w.val)).take 8)))
      (s.setCtx c (contextAtLaunch l h q kg.2 (cons.map (·.id))
        ((cons.map fun (x : Consist) => x.members.idxOf c).getD 0) d.skink win (l.wdogOn (s.die (kg.1 / 6))))).registerSkink l c) s) s) s
  l.ctxids.foldl (fun s c => if (s.ctx c).owned = 0 then s else s.later 1900 .cardPrefetch { ctx := c, arg := 0 }) s

/-- A core as a launch finds it: the context that last issued there is remembered (R37, R244). -/
def Core.atLaunch (co : Core) : Core := { Core.reset with last := co.last }

/-- A launch starts with what it has read: the tag shadow region, CWORD and the scratchpads are zeroed, cluster and context state
set, START and LSEQ written (R26, R321, R400). A launch with N = 0 starts no context and retires at once (R34). Its measurement
is extended when its queue is privileged (R424). -/
def State.beginLaunch (s : State) (l : Launch) (d : StartData) : State :=
  let lseq := ((s.queue? l.qid).bind (·.lseq)).getD 0
  let s := s.modQueue l.qid fun x => { x with next := x.next + 1, lseq := some (lseq + 1) }
  let s := s.cpPutNat (s.qAddr l.qid + 40) 2 (lseq.toNat + 1)
  let s := { s with lastQ := aset s.lastQ l.pri l.qid }
  let s := if l.exec then s.extend 4 d.head else s
  let s := match d.cword with
    | some a => (s.cpPutNat a 8 0).heatCword l
    | none => s
  if l.pkt.n = 0 then
    let s := (s.modLaunch l.id fun x => { x with lseq := lseq }).entryPut l.qid l.idx 16 8 0
    s.retire { l with lseq := lseq }
  else
    let s := s.cpZero l.pkt.tagbase (l.pkt.tagbase + (l.pkt.rdhi - l.pkt.rdlo) / 32)
    let s := l.clus.foldl State.clearScratch s
    let s := (s.entryPut l.qid l.idx 16 8 s.ns).entryPut l.qid l.idx 10 2 lseq.toNat
    let s := s.modLaunch l.id fun x => { x with st := .running, start := s.now, lseq := lseq, registry := d.reg }
    let s := l.clus.foldl (fun s k => s.setCluster k (clusterAtLaunch l d.img (s.die (k / 6)))) s
    let s := l.clus.foldl (fun s k => (coresOf k).foldl (fun s q => s.modCore q Core.atLaunch) s) s
    (s.startContexts l d).wakeSched

/-- A LAUNCH STARTS on all its clusters at once, with what it reads then (R178, R267, R400). -/
def State.startLaunch (s : State) (l : Launch) : State :=
  let d := s.startData l
  let s := (s.packetSeen { l.pkt with gn := 0 } l.winBytes)
  ({ s with free := s.free + 6 * 2 ^ 32 }).beginLaunch l d

/-! ### Pre-emption (R366, R403) -/

/-- A context counts as taken: PARKED or DONE (R366). -/
def Status.taken : Status → Bool
  | .parked _ => true
  | .done => true
  | _ => false

/-- The used contexts of cluster k. -/
def State.usedOf (s : State) (k : Nat) : List Nat :=
  ((List.range 16).map fun i => ctxidOf k (i / 4) (i % 4)).filter fun c => (s.ctx c).launch.isSome

/-- SYS.PREEMPT.DONE of die d: the clusters whose used contexts have all been taken (R350, R366). -/
def State.preemptDone (s : State) (d : Nat) : Nat :=
  ((List.range 6).map fun cl =>
    let us := s.usedOf (6 * d + cl)
    if us ≠ [] ∧ us.all fun c => (s.ctx c).status.taken then 2 ^ cl else 0).sum

/-- A request of SYS.PREEMPT.REQ on die d: bits are set and never cleared by the write, and what they ask for is to be done
(R350, R366). -/
def State.preemptReq (s : State) (d : Nat) (mask : BitVec 6) : State :=
  s.modDie d fun x => { x with preReq := x.preReq ||| mask, preDone := x.preDone &&& ~~~mask }

/-- PREEMPT REQUEST: SYS.PREEMPT.REQ of die due.id is written with due.arg (R366). -/
def execPreemptRequest (s : State) : Res := .next (s.preemptReq s.due.id (BitVec.ofNat 6 s.due.arg))

/-- Whether a pre-emption of cluster k is requested and not carried out. -/
def State.preemptAsked (s : State) (k : Nat) : Bool :=
  (s.die (k / 6)).preReq.getLsbD (k % 6) && !(s.die (k / 6)).preDone.getLsbD (k % 6)

/-- The scheduler pre-empts a launch: requests on all its clusters; the guest is told to quiesce its address space; the save
waits (R403, R420). -/
def State.preemptLaunch (s : State) (l : Launch) : State :=
  let s := l.clus.foldl (fun s k => s.preemptReq (k / 6) (1#6 <<< (k % 6))) s
  let s := (s.modLaunch l.id fun x => { x with st := .preempting }).quiesce l.pkt.asid l.id
  s.schedule (s.now + 1) .clusterSave { id := l.id }

/-- The slot of cluster k in a save area (R403). -/
def slotAt (save k : Nat) : Nat := save + 0xA00000 * k

/-- Whether the command processor may access every page of a launch's save slots (R403, R406). -/
def State.slotsMay (s : State) (l : Launch) (n : Need) : Bool :=
  l.clus.all fun k => s.allowedRun (slotAt l.save k) 0xA00000 0x0B false n

/-- Whether a released entry of context c has still to be performed at its home. -/
def State.underWay (s : State) (c : Nat) : Bool :=
  (s.ctx c).winq ≠ [] || (s.clusters.any fun k => k.2.barq.any (·.ctx = c)) || (s.cluster (clOf c)).prels.any (·.ctx = c) ||
    s.l2q.any (·.ctx = c) || s.agenda.any fun a => a.ev = .famoArrival && a.due.ctx = c

/-- Whether a pre-empted launch can be saved: every context taken and its results in its registers, every accepted command's
record posted and every closed batch's summary, what it released performed, every operation that has reached the barrier units
applied (R403), and its slots writable (log 25). -/
def State.saveReady (s : State) (l : Launch) : Bool :=
  s.slotsMay l .w && l.ctxids.all (fun c => (s.ctx c).status.taken && (s.ctx c).pend = [] && !(s.cmds.any (·.ctx = c)) &&
      !((s.ctx c).batches.any (·.closed)) && !s.underWay c)
    && l.clus.all fun k => (s.cluster k).barq = [] && (s.cluster k).prels = [] &&
      !(s.agenda.any fun a => a.ev = .famoArrival && clOf a.due.ctx = k) && (coresOf k).all fun q => (s.core q).mx = []

/-- The bytes of a gathered add (R403). -/
def Gathered.bytes (g : Gathered) : List Byte :=
  leBytes 8 (g.loc + g.bar * 2 ^ 23 + (match g.ty with
    | .f32 => 0
    | .bf16 => 1) * 2 ^ 46 + g.l * 2 ^ 47) ++ leBytes 8 g.x.toNat

/-- The gathered add that 16 bytes hold. -/
def Gathered.ofNat (x : Nat) : Gathered :=
  { loc := bits x 0 23, bar := bits x 23 23, ty := if tst x 46 then .bf16 else .f32, l := bits x 47 4, x := BitVec.ofNat 32 (x >>> 64) }

/-- The scratchpad tags of cluster k of its current phase. -/
def State.spTags (s : State) (k : Nat) : List ((Nat × Nat) × Tag) :=
  s.tags.filter fun t => t.1.1 = 0 && decide (spKey k 0 / 64 ≤ t.1.2) && decide (t.1.2 < (spKey k 0 + 2 ^ 23) / 64) &&
    t.2.ph = (s.cluster k).epoch && t.2.st != .none

/-- The eight bytes of a saved tag: ST in bits 2:0 and ID in bits 15:3 as R363 shows them; the rank in bits 47:16 and the logical
index in bits 51:48 of a party on another module. Its phase is the saved epoch (R403; log 25). -/
def tagWord (t : Tag) : Nat := fld t.arg 0 16 + t.far.1.toNat * 2 ^ 16 + t.far.2.toNat % 16 * 2 ^ 48

/-- The party of a saved tag. -/
def partyOfWord (n : Nat) : Party :=
  let code := bits n 3 13
  if code = 0x1FFF then .far (bits n 16 32) (bits n 48 4)
  else if code = Party.guest.code then .guest
  else if code = Party.host.code then .host
  else .ctx (6 * (code / 128) + code % 128 / 16) (code % 16)

/-- The tag that eight bytes hold, of phase ph. -/
def tagOfWord (n ph : Nat) : Tag :=
  match bits n 0 3 with
  | 1 => { st := .written, id := some (partyOfWord n), ph := ph }
  | 2 => { st := .read1, id := some (partyOfWord n), ph := ph }
  | 3 => { st := .readN, id := none, ph := ph }
  | 4 => { st := .atomic, id := some (partyOfWord n), ph := ph }
  | _ => { st := .none, id := none, ph := ph }

/-- The uncorrectable words of n bytes from a key, as they stand at another (R427). -/
def State.carryPoison (s : State) (src dst n : Nat) : State :=
  { s with poison := s.poison ++ ((s.poison.filter fun a => decide (src ≤ a) && decide (a < src + n)).map fun a => dst + (a - src)) }

/-- Cluster k saved into its slot by the command processor: header, scratchpad, tags, images (R403; log 25). -/
def State.saveCluster (s : State) (l : Launch) (k : Nat) : State :=
  let a := slotAt l.save k
  let cl := s.cluster k
  let base := spKey k 0
  let head := leBytes 8 cl.epoch ++ leBytes 8 cl.famo.length ++ List.replicate 48 0
    ++ cl.plats.toList.flatMap (fun p => leBytes 8 p.word.toNat) ++ cl.famo.flatMap Gathered.bytes
    ++ List.replicate (7616 - 16 * cl.famo.length) 0 ++ cl.tmpl.toList.flatMap fun t => leBytes 32 t.toNat
  let scratch := (s.mem.filter fun c => decide (base ≤ c.1) && decide (c.1 < base + 2 ^ 23)).map fun c => (a + 0x4000 + (c.1 - base), c.2)
  let tags := (s.spTags k).flatMap fun t => runAt (a + 0x804000 + 8 * (t.1.2 - base / 64)) (leBytes 8 (tagWord t.2))
  let images := (List.range (l.c * l.m)).flatMap fun i =>
    runAt (a + 0x904000 + 57856 * i) (s.image (ctxidOf k (i % l.m) (i / l.m)))
  ((s.cpZero a (a + 0xA00000)).cpPut (runAt a head ++ scratch ++ tags ++ images)).carryPoison base (a + 0x4000) (2 ^ 23)

/-- CLUSTER SAVE: once launch due.id can be saved, its clusters go into their slots, and are free for the launch that waits
(R403). What was asked of them is carried out (log 25). Checkpoint state that cannot be corrected is fatal (R369, R427). -/
def execClusterSave (s : State) : Res :=
  .next (match s.launch? s.due.id with
    | none => s
    | some l =>
      if l.st ≠ .preempting then s
      else if !s.saveReady l then s.schedule (s.now + 1) .clusterSave s.due
      else
        match l.ctxids.find? fun c => s.poison.contains (chkKey c) with
        | some c => s.fatalError 2 (some c)
        | none =>
          let s := l.clus.foldl (fun s k => s.saveCluster l k) s
          let s := s.modLaunch l.id fun x => { x with
            st := .preempted, kept := l.ctxids.map fun c => (c, s.ctx c), keptCl := l.clus.map fun k => (k, s.cluster k) }
          let s := l.ctxids.foldl (fun s c => (s.setCtx c Ctx.idle).dropCurrent c) s
          let s := l.clus.foldl (fun s k => (s.setCluster k { Cluster.reset with freeAt := s.now + 1 }).preemptCarried k) s
          let s := { s with consists := s.consists.map fun (x : Consist) => if x.launch = l.id then { x with beats := 0, hold := none } else x }
          s.schedule (s.now + 1) .schedulingStep {})

/-- A platform's state as its `pstat` word gives it (R226, R403). -/
def Platform.restored (p : Platform) (w : Nat) : Platform :=
  let st := bits w 0 2
  { p with st := if st = 0 then .free else if st = 1 then .filling else if st = 2 then .full else .draining, held := tst w 2
           front := tst w 31, gen := BitVec.ofNat 16 (bits w 48 16), resv := Option.none, fill := Option.none }

/-- Cluster k restored from its slot: header, templates, scratchpad, tags; what the slot does not give is as the device kept it
(R403; log 25). -/
def State.restoreCluster (s : State) (l : Launch) (k : Nat) : State :=
  let a := slotAt l.save k
  let old := aget Cluster.reset l.keptCl k
  let base := spKey k 0
  let epoch := s.nat a 8
  let plats := old.plats.mapIdx fun i p => p.restored (s.nat (a + 0x40 + 8 * i) 8)
  let words := ((s.mem.filter fun c => decide (a + 0x804000 ≤ c.1) && decide (c.1 < a + 0x904000)).map fun c => (c.1 - (a + 0x804000)) / 8).dedup
  let s := (s.clearScratch k).setCluster k { old with
    epoch := epoch, plats := plats, prev := plats
    famo := (List.range (min (s.nat (a + 8) 8) 476)).map fun i => Gathered.ofNat (s.nat (a + 0x240 + 16 * i) 16)
    tmpl := Vector.ofFn fun (t : Fin 256) => BitVec.ofNat 256 (s.nat (a + 0x2000 + 32 * t.val) 32) }
  let s := s.put ((s.mem.filter fun c => decide (a + 0x4000 ≤ c.1) && decide (c.1 < a + 0x4000 + 2 ^ 23)).map fun c =>
    (base + (c.1 - (a + 0x4000)), c.2))
  { s with tags := words.map (fun i => ((0, base / 64 + i), tagOfWord (s.nat (a + 0x804000 + 8 * i) 8) epoch)) ++ s.tags }.carryPoison
    (a + 0x4000) base (2 ^ 23)

/-- A context of a launch that resumes: its own account, then its image from the slot, resumed with it where it was PARKED in
state 2 or 4 (R354, R367, R403). -/
def State.restoreContext (s : State) (l : Launch) (c : Nat) (x : Ctx) : State :=
  let s := s.setCtx c x
  match x.status with
  | .parked p =>
    let s := s.loadImage c (s.gbytes (slotAt l.save (clOf c) + 0x904000 + 57856 * x.l) 57856)
    if p = .trapPending then s
    else s.modCtx c fun y => { y.unwait with status := .ready, resumeAt := s.now + 1, wdog := 0, chkNo := 0, olds := [] }
  | _ => s

/-- A word of the slots of a launch, but for the scratchpads, that cannot be corrected (R369, R427). -/
def State.badSlot (s : State) (l : Launch) : Bool :=
  l.clus.any fun k =>
    let a := slotAt l.save k
    s.poison.any fun p => (decide (a ≤ p) && decide (p < a + 0x4000)) || (decide (a + 0x804000 ≤ p) && decide (p < a + 0xA00000))

/-- A PRE-EMPTED LAUNCH RESUMES on its clusters: each slot is restored, and every context that was PARKED under R354's states
2 and 4 is resumed with its image in one cycle (R403); its clusters' requests are cleared (R366). A die whose contexts were all
DONE has still to contribute (R34). It stays pre-empted while the command processor may not read its slots (log 25); saved
register state that cannot be corrected is fatal (R369). -/
def State.resumeLaunch (s : State) (l : Launch) : State :=
  if !s.slotsMay l .r then s
  else if s.badSlot l then s.fatalError 2 (l.ctxids.head?)
  else
    let s := s.unquiesce l.id
    let s := l.clus.foldl (fun s k => s.restoreCluster l k) s
    let s := l.clus.foldl (fun s k => (coresOf k).foldl (fun s q => s.modCore q Core.atLaunch) s) s
    let s := l.kept.foldl (fun s p => s.restoreContext l p.1 p.2) s
    let s := l.clus.foldl State.preemptClear s
    let s := ((l.clus.map (· / 6)).dedup).foldl (fun s d => s.schedule (s.now + 1) .dieCompletion { id := l.id, arg := d }) s
    (s.modLaunch l.id fun x => { x with st := .running, kept := [], keptCl := [] }).wakeSched

/-! ### The scheduling step (R401, R402) -/

/-- Whether a launch is considered in a scheduling step: one of an enabled queue that waits for its clusters, or a pre-empted one
(R401, R403). -/
def State.considered (s : State) (l : Launch) : Bool :=
  match l.st with
  | .waiting => (s.qdesc l.qid).en && !((s.queue? l.qid).any fun x => decide (s.now < x.holdTo) || x.off)
  | .preempted => true
  | _ => false

/-- Whether launch w, which waits since an earlier step or an earlier place of this one, keeps clusters from launch l: those of its
PRI or lower start on none of its clusters, those that wait longer than it apart (R401). -/
def State.keepsFrom (s : State) (w l : Launch) : Bool :=
  w.id ≠ l.id && s.considered w && w.clus.any l.clus.contains &&
    match w.waits, l.waits with
    | none, _ => false
    | some _, none => decide (l.pri ≤ w.pri)
    | some a, some b => decide (l.pri < w.pri) || (l.pri = w.pri && decide (a < b))

/-- Launch l waits, from now on if it did not before (R401). -/
def State.waits (s : State) (l : Launch) : State :=
  if l.waits.isSome then s
  else
    let (n, s) := s.fresh
    s.modLaunch l.id fun x => { x with waits := some n }

/-- What holds cluster k against launch l: a launch on it, or a pre-empted one of equal or higher PRI. -/
def State.holders (s : State) (l : Launch) (k : Nat) : List Launch :=
  s.launches.filter fun x => x.id ≠ l.id && x.clus.contains k && (match x.st with
    | .gang => true
    | .running => true
    | .preempting => true
    | .preempted => decide (l.pri ≤ x.pri)
    | _ => false)

/-- The place of a queue in the round-robin of its PRI: queues after the one that last started a launch come first. -/
def rrPlace (last q : Nat) : Nat := (q + 64 - (last + 1) % 64) % 64

/-- The order of R401 and R403: highest PRI first; within a PRI a pre-empted launch first, then round-robin. -/
def State.schedKey (s : State) (l : Launch) : Nat :=
  (7 - l.pri) * 1000 + (if l.st = .preempted then 0 else 100) + rrPlace (aget 63 s.lastQ l.pri) l.qid

/-- A launch put into a list by its key. -/
def State.insertByKey (s : State) (l : Launch) : List Launch → List Launch
  | [] => [l]
  | x :: r => if s.schedKey l < s.schedKey x then l :: x :: r else x :: s.insertByKey l r

/-- A member's READY leaves for the leader, or is the leader's own and opens the gate (R404). -/
def State.gangSelect (s : State) (l : Launch) : State :=
  let lead := l.gmem.foldl min (l.gmem.headD 0)
  let me := s.luvex.pos
  if me = lead then
    let lim := l.gangLimit
    let s := s.modLaunch l.id fun x => { x with st := .gang, gate := some s.now, ready := if x.ready.contains me then x.ready else me :: x.ready }
    (s.schedule (s.now + nsCycles (lim * 1000)) .gangLimitExpiry { id := l.id }).schedule s.now .gangReady { arg := l.pkt.gid, arg2 := me }
  else (s.modLaunch l.id fun x => { x with st := .gang }).emit (.gangReady lead l.pkt.gid)

/-- One launch considered in a scheduling step, with the clusters that waiting launches before it keep, and those that launches waiting
since an earlier step do; a cluster is free from
the cycle after the last retirement on it (R400, R401). A gang launch whose READY is out holds its clusters until the leader's answer
(R404; log 37). -/
def State.schedOne (s : State) (kept : List Nat) (l : Launch) : State × List Nat :=
  let hs := l.clus.flatMap (s.holders l)
  let barred := (l.clus.any fun k => kept.contains k || decide (s.now < (s.cluster k).freeAt)) ||
    s.launches.any fun w => s.keepsFrom w l
  if barred then (s.waits l, kept ++ l.clus)
  else if hs = [] then
    let s := s.modLaunch l.id fun x => { x with waits := none }
    let l := { l with waits := none }
    (if l.st = .preempted then s.resumeLaunch l else if l.pkt.gn = 0 then s.startLaunch l else s.gangSelect l, kept)
  else if l.st = .waiting ∧ hs.all fun x => x.pri < l.pri && x.save ≠ 0 && (x.st = .running || x.st = .preempting) then
    (((hs.filter (·.st = .running)).map (·.id)).dedup.foldl (fun s i =>
      match s.launch? i with
      | some x => s.preemptLaunch x
      | none => s) (s.waits l), kept ++ l.clus)
  else (s.waits l, kept ++ l.clus)

/-- Running launches whose completion word, where it can be read, equals N retire (R34, R427). -/
def State.retireDone (s : State) : State :=
  (s.launches.filter fun l => l.st = .running || l.st = .preempting).foldl (fun s l =>
    match s.cwordAt l with
    | some a => if (s.poisoned (a / 64 * 64) 64).isSome then s else if s.gnat a 8 = l.pkt.n then s.retire l else s
    | none => s) s

/-- Launches that have not started and name a die that is not in service are refused (R399, R409). -/
def State.refuseDown (s : State) : State :=
  (s.launches.filter fun l => !l.started && s.dieDown l.pkt).foldl (fun s l => s.refuseLaunch l 0x45) s

/-- SCHEDULING STEP (R401): launches that are complete retire; those that name a die out of service are refused; the head of every
enabled queue is considered; then every accepted launch of an enabled queue in order, and pre-empted ones to resume. -/
def execSchedulingStep (s : State) : Res :=
  .next (if s.luvex.boot ≠ .ready then s
    else
      let s := s.retireDone.refuseDown
      let s := (s.queues.map (·.q)).foldl State.considerQueue s
      let cands := s.launches.filter s.considered
      let order := cands.foldl (fun acc l => s.insertByKey l acc) []
      (order.foldl (fun (acc : State × List Nat) l => acc.1.schedOne acc.2 l) (s, [])).1)

/-! ### Gangs (R404) -/

/-- The launch of a gang that this module knows. -/
def State.gang? (s : State) (gid : Nat) : Option Launch :=
  s.launches.find? fun l => l.pkt.gn ≠ 0 && l.pkt.gid = gid && (l.st = .waiting || l.st = .gang)

/-- The first cycle that lies in or after nanosecond n. -/
def firstCycleOf (n : Nat) : Nat := ceilDiv (19 * n) 10

/-- GANG READY: the READY of the member at position due.arg2 for gang due.arg reaches the leader; with the last one inside
the gate the leader sends GO, 10 µs after that arrival. One for a gang whose ABANDON has been sent is ignored; one that comes
before the leader knows the launch waits for it (R404). -/
def execGangReady (s : State) : Res :=
  let d := s.due
  .next (if s.now < aget 0 s.gangsOut d.arg then s
    else match s.gang? d.arg with
    | none => s.schedule (s.now + 1) .gangReady d
    | some l =>
      if l.st = .waiting && (match s.queue? l.qid with
        | some x => decide (s.now < x.holdTo)
        | none => false) then s
      else
        let ready := if l.ready.contains d.arg2 then l.ready else d.arg2 :: l.ready
        let s := s.modLaunch l.id fun x => { x with ready := ready }
        if l.st = .gang ∧ l.gate.isSome ∧ l.tgo.isNone ∧ l.gmem.all ready.contains then
          let tgo := s.ns + 10000
          let s := s.modLaunch l.id fun x => { x with tgo := some tgo }
          let s := (l.gmem.filter (· ≠ s.luvex.pos)).foldl (fun s p => s.emit (.gangGo p l.pkt.gid tgo)) s
          s.schedule (firstCycleOf tgo) .gangStart { id := l.id }
        else s)

/-- A member gives the gang launch up: it is put back at the head of its queue, which is not considered for GLIM; the
launches it pre-empted resume in the scheduling steps (R404). -/
def State.gangDrop (s : State) (l : Launch) : State :=
  let lim := l.gangLimit
  let s := s.modLaunch l.id fun x => { x with st := .waiting, ready := [], gate := none, tgo := none }
  let s := s.modQueue l.qid fun x => { x with holdTo := s.now + nsCycles (lim * 1000) }
  (s.schedule (s.now + 1) .schedulingStep {}).schedule (s.now + nsCycles (lim * 1000)) .schedulingStep {}

/-- GANG LIMIT EXPIRY: the gate of launch due.id has stood open for GLIM without every READY: ABANDON is sent (R404). A READY
that arrives in this cycle goes first. -/
def execGangLimitExpiry (s : State) : Res :=
  .next (match s.launch? s.due.id with
    | none => s
    | some l =>
      if l.st ≠ .gang ∨ l.tgo.isSome then s
      else if s.agenda.any fun a => a.ev = .gangReady && a.due.arg = l.pkt.gid && decide (a.at_ ≤ s.now) then
        s.schedule s.now .gangLimitExpiry s.due
      else
        (s.abandon l).gangDrop l)

/-- GANG GO: GO for gang due.arg with start time due.arg2 in ns reaches a member; after ABANDON it is ignored (R404). -/
def execGangGo (s : State) : Res :=
  .next (match s.gang? s.due.arg with
    | none => s
    | some l =>
      if l.st ≠ .gang ∨ l.tgo.isSome then s
      else (s.modLaunch l.id fun x => { x with tgo := some s.due.arg2 }).schedule
        (max (s.now + 1) (firstCycleOf s.due.arg2)) .gangStart { id := l.id })

/-- GANG START: at tgo the contexts of launch due.id start (R404). One that names a die out of service by then is refused (R399,
R409). -/
def execGangStart (s : State) : Res :=
  .next (match s.launch? s.due.id with
    | none => s
    | some l =>
      if l.st ≠ .gang ∨ l.tgo.isNone then s
      else if s.dieDown l.pkt then s.refuseLaunch l 0x45
      else s.startLaunch l)

/-- GANG ABANDON: ABANDON for gang due.arg reaches a member (R404). -/
def execGangAbandon (s : State) : Res :=
  .next (match s.gang? s.due.arg with
    | none => s
    | some l => if l.tgo.isSome then s else s.gangDrop l)

/-! ### Live repair (R408 to R411) -/

/-- The state of a unit: 0 to 63 die, 64 to 79 Depot, 80 the guest (R392). -/
def State.unitSt (s : State) (u : Nat) : UnitSt :=
  if u < 64 then (s.die u).st else if u < 80 then s.depots.getD (u - 64) .retired else s.guest.st

/-- The state with a unit's state changed. -/
def State.setUnit (s : State) (u : Nat) (x : UnitSt) : State :=
  if u < 64 then s.modDie u fun d => { d with st := x }
  else if u < 80 then { s with depots := s.depots.setIfInBounds (u - 64) x }
  else { s with guest := { s.guest with st := x } }

/-- Whether a unit holds no work (R409, R410, R420). -/
def State.unitIdle (s : State) (u : Nat) : Bool :=
  if u < 64 then
    !(s.launches.any fun l => l.st ≠ .retired && l.st ≠ .waiting && l.clus.any fun k => k / 6 = u) &&
      (s.die u).posts = [] && (s.die u).unexp = []
  else if u < 80 then
    !(s.cmds.any fun x => match x.charge with
      | some (tid, _) => (match s.table? x.ctx tid with
        | some t => tst t.dmask (u - 64)
        | none => false)
      | none => false)
  else s.packets = []

/-- REPAIR DRAIN of unit due.id (R408). The scheduler tests 0x45 again for the launches that wait (R399). -/
def State.repairDrain (s : State) (u : Nat) : State :=
  if s.unitSt u = .serving then ((s.setUnit u .draining).schedule (s.now + 1) .unitOffline { id := u }).wakeSched else s

def execRepairDrain (s : State) : Res := .next (s.repairDrain s.due.id)

/-- UNIT OFFLINE: a draining unit due.id that holds no work becomes OFFLINE (R408 to R410). -/
def execUnitOffline (s : State) : Res :=
  let u := s.due.id
  .next (if s.unitSt u ≠ .draining then s
    else if s.unitIdle u then s.setUnit u .offline
    else s.schedule (s.now + 1) .unitOffline s.due)

/-- A die is cleared: its registers as the configuration sets them, its Junction, its clusters, cores and scratchpads with
their tags (R408). It holds no launch. -/
def State.clearDie (s : State) (u : Nat) : State :=
  let ks := (List.range 6).map fun i => 6 * u + i
  let s := s.setDie u { configuredDie s.luvex.flash.blob with st := (s.die u).st }
  ks.foldl (fun s k =>
    let s := (s.clearScratch k).setCluster k { Cluster.reset with freeAt := (s.cluster k).freeAt }
    (coresOf k).foldl (fun s q => s.modCore q fun _ => Core.reset) s) s

/-- A reload clears the unit's state (R408, R410, R418, R420): a Depot's heat sketches, a die, the guest's translations and its
shutting out. -/
def State.clearUnit (s : State) (u : Nat) : State :=
  if u < 64 then s.clearDie u
  else if u < 80 then { s with sketches := s.sketches.filter (·.depot ≠ u - 64) }
  else { s with guest := { s.guest with shut := false, late := [] } }

/-- REPAIR RELOAD of unit due.id: the signed image is loaded and tested, MR3 extended, the unit's state cleared, and the unit
returned to service (R408, R424). -/
def execRepairReload (s : State) : Res :=
  let u := s.due.id
  .next (if s.unitSt u ≠ .offline then s
    else
      (((s.extend 3 (Config.unitImage u)).clearUnit u).setUnit u .serving).wakeSched)

/-- Whether a command is one of the engine with a number in R423. -/
def Cmd.ofEngine (x : Cmd) (eng : Nat) : Bool :=
  match x.k with
  | .copy _ _ _ _ => eng = 0
  | .epgo _ _ _ _ _ _ => eng = 1
  | .pool _ _ _ _ => eng = 2
  | .upd _ _ _ => eng = 3
  | .msend _ => decide (4 ≤ eng ∧ eng ≤ 6)
  | .rpost _ => decide (4 ≤ eng ∧ eng ≤ 6)
  | .a2a _ _ _ _ _ => eng = 2 || decide (4 ≤ eng ∧ eng ≤ 6)
  | .mig _ _ _ _ => eng = 7
  | _ => false

/-- The bound-table entry that Krytzin publishes for an engine and class once it routes around a retired die: its values are its
own, its zero fields as R423 has them; none is a missing entry. -/
def reroutedEntry (u eng cls : Nat) : Option BoundEntry :=
  let f := fun (i n : Nat) => Config.reroutedBound u eng cls i % 2 ^ n
  if eng = 7 ∧ cls ≠ 0 then none
  else
    let e : BoundEntry :=
      { base := f 0 32, unit := if eng = 5 ∨ eng = 6 then 0 else f 1 16, unit2 := if eng = 2 then f 2 16 else 0
        limit := if eng = 0 ∨ eng = 1 ∨ eng = 5 ∨ eng = 7 then 0 else f 3 32 }
    if e.base = 0 ∧ e.unit = 0 ∧ e.unit2 = 0 ∧ e.limit = 0 then none else some e

/-- The bound table of an engine is republished for a retired die (R409, R423). -/
def State.republish (s : State) (u eng : Nat) : State :=
  let new := (List.range 4).filterMap fun cls => (reroutedEntry u eng cls).map fun e => ((eng, cls), e)
  { s with bounds := new ++ s.bounds.filter fun b => b.1.1 ≠ eng }

/-- An OFFLINE unit is retired: it is recorded in flash (R408). From then on Krytzin routes around a die, and republishes each bound
table once no command of its engine is accepted and unrecorded (R409, R423). -/
def State.repairRetire (s : State) (u : Nat) : State :=
  if s.unitSt u = .offline then
    let f := s.luvex.flash
    let s := { (s.setUnit u .retired) with luvex := { s.luvex with flash := { f with units := if f.units.contains u then f.units else f.units ++ [u] } } }
    if u < 64 then (List.range 8).foldl (fun s eng => s.schedule (s.now + 1) .repairRetire { id := u, arg := eng + 1 }) s else s
  else s

/-- REPAIR RETIRE of unit due.id (R408). With due.arg not 0 the bound table of engine due.arg - 1 is due to be republished
(R409). -/
def execRepairRetire (s : State) : Res :=
  let d := s.due
  .next (if d.arg = 0 then s.repairRetire d.id
    else if s.cmds.any fun x => x.ofEngine (d.arg - 1) then s.schedule (s.now + 1) .repairRetire d
    else s.republish d.id (d.arg - 1))

/-- REPAIR RETURN of unit due.id (R408). -/
def State.repairReturn (s : State) (u : Nat) : State :=
  if s.unitSt u = .offline then (s.setUnit u .serving).wakeSched else s

def execRepairReturn (s : State) : Res := .next (s.repairReturn s.due.id)

/-- A write of SYS.REPAIR: its status, and what it starts (R392, R408, R411). -/
def State.repair (s : State) (x : Word) : Nat × State :=
  let u := fld x 0 7
  let act := fld x 8 3
  if 80 < u then (2, s)
  else
    match act, s.unitSt u with
    | 1, .serving => (0, s.repairDrain u)
    | 2, .offline => (0, s.later 1900000 .repairReload { id := u })
    | 3, .offline => (0, s.repairRetire u)
    | 4, .offline => (0, s.repairReturn u)
    | _, _ => (1, s)

/-! ### Contexts end, dies complete (R34, R124, R209) -/

/-- A context becomes DONE: what it still withholds is gone, its record is no longer pending (R124, R354). When every used
context of its cluster is DONE, gathered adds are applied; the die's contribution is then due (R34, R209). -/
def State.ended (s : State) (c : Nat) : State :=
  let s := (s.modCtx c fun x => { x with
    status := .done, wb := [], deferred := [], pendRec := [], blocks := [], evq := [], freeing := 0, popped := [], cards := []
    vis := { x.vis with locks := [] }, chk := { x.chk with locks := [] } }).dropCurrent c
  let k := clOf c
  let s := if (s.usedOf k).all fun u => (s.ctx u).status = .done then s.famoFlush k fun _ => true else s
  match s.launchOf c with
  | none => s
  | some l => s.schedule (s.now + 1) .dieCompletion { id := l.id, arg := dieOf c }

/-- CONTEXT DONE: context due.ctx has issued its `halt`; it becomes DONE once the last result has arrived and every released
entry has been performed at its home, a `prel` that waits for a sparse hold too; a rejection found there is raised on it first
(R124, R264). -/
def execContextDone (s : State) : Res :=
  let c := s.due.ctx
  let x := s.ctx c
  .next (match x.status with
    | .halting =>
      if x.deferred ≠ [] then (s.modCtx c fun x => { x with deferred := [] }).takeTrap c (inRelease x.deferred)
      else if x.pend ≠ [] || s.underWay c then s.schedule (s.now + 1) .contextDone s.due
      else s.ended c
    | _ => s)

/-- DIE COMPLETION: die due.arg has its used contexts of launch due.id DONE and their traffic delivered: it adds the cards
its clusters own to the completion word, once (R34). A word that cannot be corrected is never returned as data: the error is logged, and
the sum does not come about (R427; log 72). -/
def execDieCompletion (s : State) : Res :=
  let d := s.due
  .next (match s.launch? d.id with
    | none => s
    | some l =>
      let mine := l.ctxids.filter fun c => dieOf c = d.arg
      if l.st ≠ .running && l.st ≠ .preempting || l.contrib.contains d.arg || !(mine.all fun c => (s.ctx c).status = .done) then s
      else if mine.any fun c => s.cmds.any (·.ctx = c) || (s.core (coreOf c)).mx.any (·.ctx = c) || s.underWay c then
        s.schedule (s.now + 1) .dieCompletion d
      else
        let total := (l.clus.zipIdx.map fun kg =>
          if kg.1 / 6 = d.arg then ownedCount l.pkt.pol l.pkt.n l.clus.length kg.2 else 0).sum
        let s := s.modLaunch l.id fun x => { x with contrib := d.arg :: x.contrib }
        match s.cwordAt l with
        | none => s
        | some a =>
          match s.poisoned (a / 64 * 64) 64 with
          | some k => (s.memError d.arg k).heatCword l
          | none =>
            let sum := (s.gnat a 8 + total) % 2 ^ 64
            let s := ((s.corrected d.arg (a / 64 * 64) 64).write (runAt a (leBytes 8 sum))).heatCword l
            if sum = l.pkt.n then s.retire l else s)

/-! ### Cards (R33) -/

/-- CARD PREFETCH: the prefetcher reads the card at place due.arg of context due.ctx's sequence as that context would, and
holds any fault for the `cnext` that would deliver it (R32, R33). -/
def execCardPrefetch (s : State) : Res :=
  let c := s.due.ctx
  let pos := s.due.arg
  let x := s.ctx c
  .next (match s.launchOf c with
    | none => s
    | some l =>
      if x.owned ≤ pos || x.cards.any (·.pos = pos) then s
      else
        let g := s.cardIndex c pos
        let ea := BitVec.ofNat 64 (l.pkt.cbase + 64 * g)
        let keep := fun (s : State) (card : Card) => s.modCtx c fun x => { x with cards := x.cards ++ [card] }
        let bad := fun (s : State) (t : TrapInfo) => keep s { pos := pos, gidx := g, words := [], bad := some t }
        let got := fun (s : State) (m : Nat) =>
          keep s { pos := pos, gidx := g, words := (List.range 8).map fun i => BitVec.ofNat 64 (s.gnat (m + 8 * i) 8), bad := none }
        match s.access1 (s.who c) ea.toNat .r with
        | (.ok m e, s) =>
          let s := s.heat m e.leaf
          match s.poisoned m 64 with
          | some k => bad s { kind := 0x10, pc := 0, faddr := ea, key := k }
          | none =>
            let s := s.corrected (dieOf c) m 64
            if e.sync then got s m
            else if !s.inRd c ea.toNat then bad s { kind := 0x07, pc := 0, faddr := ea }
            else
              let gr := s.gGran c m
              match s.conflict (s.party c) .load [gr] with
              | some (_, t) => bad s { kind := 0x07, pc := 0, faddr := ea, arg := t.arg, rrank := t.far.1, rl := t.far.2 }
              | none => got (s.register (s.party c) .load [gr]) m
        | (r, s) => bad s (r.trap ea))

/-- A context's next card is fetched ahead of its use (R33). -/
def State.askCard (s : State) (c pos : Nat) : State :=
  let x := s.ctx c
  if x.owned ≤ pos || x.cards.any (·.pos = pos) || s.agenda.any fun a => a.ev = .cardPrefetch && a.due.ctx = c && a.due.arg = pos then s
  else s.later 1900 .cardPrefetch { ctx := c, arg := pos }

/-! ### Pending records (R365) -/

/-- Where a pending record is kept: with the guest, with a context, or with a context of a launch that is pre-empted. -/
inductive RecOwner where
  | guest
  | ctx (c : Nat)
  | kept (launch c : Nat)
  deriving DecidableEq, Repr

/-- Pending records in the order of the original traps: by time, then by CTXID (R362, R365). -/
def insertRec (r : TrapRec × RecOwner) : List (TrapRec × RecOwner) → List (TrapRec × RecOwner)
  | [] => [r]
  | x :: t =>
    if r.1.time < x.1.time ∨ (r.1.time = x.1.time ∧ r.1.ctxid.toNat < x.1.ctxid.toNat) then r :: x :: t else x :: insertRec r t

/-- A context with a pending record gone; one in state 3 whose records are all claimed goes to state 2 (R365). -/
def Ctx.claimed (x : Ctx) (r : TrapRec) : Ctx :=
  let x := { x with pendRec := x.pendRec.erase r }
  if x.status = .parked .trapPending ∧ x.pendRec = [] then { x with status := .parked .trap } else x

/-- A pending record is claimed and no longer pending. -/
def State.claimPending (s : State) (r : TrapRec × RecOwner) : State :=
  let s := s.claim r.1 true
  match r.2 with
  | .guest => { s with guest := { s.guest with pend := s.guest.pend.erase r.1 } }
  | .ctx c => s.modCtx c fun x => x.claimed r.1
  | .kept l c => s.modLaunch l fun y => { y with kept := y.kept.map fun p => if p.1 = c then (c, p.2.claimed r.1) else p }

/-- The pending records, in the order of their traps (R365). -/
def State.pendingRecs (s : State) : List (TrapRec × RecOwner) :=
  let live := s.ctxs.flatMap fun (p : Nat × Ctx) => p.2.pendRec.map fun r => (r, RecOwner.ctx p.1)
  let kept := s.launches.flatMap fun (l : Launch) => l.kept.flatMap fun p => p.2.pendRec.map fun r => (r, RecOwner.kept l.id p.1)
  (live ++ kept ++ s.guest.pend.map fun r => (r, RecOwner.guest)).foldl (fun acc r => insertRec r acc) []

/-- Writing 1 to SYS.TRAPCTL.OVR: OVR is cleared, and every pending record is claimed in order while the ring has room; those
that find it full set OVR again and stay pending (R365). -/
def State.reraise (s : State) : State :=
  s.pendingRecs.foldl (fun (s : State) r =>
    if s.sys.ringOpen then s.claimPending r else { s with sys := { s.sys with trapOvr := true } })
    { s with sys := { s.sys with trapOvr := false } }

/-- TRAP OVERFLOW CLEAR (R365). -/
def execTrapOverflowClear (s : State) : Res := .next s.reraise

end Sys2Proof.Machine
end

