-- ==== Sys2Proof/Machine/Privileged.lean ====
section
/-! DEFINITION. Sys2Proof/Machine/Privileged.lean: system registers (R349, R350, R376, R392), `rte` (R351), context control
(R352, R354), `tlbir` (R380, R381), migration (R385 to R387). -/

namespace Sys2Proof.Machine

/-! ### System registers -/

/-- Two bits for each of n units from unit u (R392). -/
def State.unitCodes (s : State) (u n : Nat) : Nat := packNat 2 ((List.range n).map fun i => (s.unitSt (u + i)).code)

/-- A system register as the issuing context reads it (R350, R376, R392). Write-only registers read as zero (R8). -/
def State.readSys (s : State) (n : Nat) : Word :=
  let x := s.cur
  let d := s.die (dieOf s.iss.ctx)
  let y := s.sys
  match n with
  | 0x100 => BitVec.ofNat 64 (bit x.exec)
  | 0x101 => x.evec
  | 0x102 => x.epc
  | 0x103 => x.ecause.setWidth 64
  | 0x104 => x.eaddr
  | 0x105 => BitVec.ofNat 64 (bit x.inh)
  | 0x110 => y.trapBase.setWidth 64
  | 0x111 => BitVec.ofNat 64 (y.trapLog2n + bit y.trapEn * 2 ^ 5 + bit y.trapOvr * 2 ^ 6)
  | 0x112 => y.trapWr.setWidth 64
  | 0x113 => y.trapRd.setWidth 64
  | 0x120 => BitVec.ofNat 64 d.wdogDef
  | 0x121 => BitVec.ofNat 64 d.lockQ
  | 0x130 => BitVec.ofNat 64 (d.preReq.toNat + s.preemptDone (dieOf s.iss.ctx) * 2 ^ 8)
  | 0x150 => BitVec.ofNat 64 (d.wselCtx.toNat + d.wselWin.toNat * 2 ^ 16)
  | 0x151 => (s.ctx d.wselCtx.toNat).win.getD d.wselWin.toNat 0
  | 0x160 => BitVec.ofNat 64 (bit y.asidEn + y.asidBase.toNat)
  | 0x161 => BitVec.ofNat 64 (s.asidOf s.iss.ctx + s.partOf s.iss.ctx * 2 ^ 16)
  | 0x163 => y.heatBase.setWidth 64
  | 0x164 => y.retBase.setWidth 64
  | 0x165 => BitVec.ofNat 64 (y.retCnt.toNat + bit y.retFull * 2 ^ 17)
  | 0x166 => y.mapBase.setWidth 64
  | 0x170 => y.qtab.setWidth 64
  | 0x172 => y.ptab.setWidth 64
  | 0x174 => BitVec.ofNat 64 (s.unitCodes 0 32)
  | 0x175 => BitVec.ofNat 64 (s.unitCodes 32 32)
  | 0x176 => BitVec.ofNat 64 (s.unitCodes 64 16 + (s.unitSt 80).code * 2 ^ 32)
  | n => if 0x140 ≤ n ∧ n ≤ 0x145 then BitVec.ofNat 64 (s.cstate (6 * dieOf s.iss.ctx + (n - 0x140))) else 0

/-- A system register written for context c: its writable fields (R8, R350, R376, R392). SYS.TRAPBASE is 64-byte aligned
(R350): of a value written there the model takes bits 5:0 as zero (log 72). -/
def State.writeSys (s : State) (c n : Nat) (w : Word) : State :=
  let d := dieOf c
  let x := w.toNat
  let y := s.sys
  match n with
  | 0x101 => s.modCtx c fun z => { z with evec := w &&& ~~~0x1F }
  | 0x102 => s.modCtx c fun z => { z with epc := w }
  | 0x103 => s.modCtx c fun z => { z with ecause := w.setWidth 8 }
  | 0x104 => s.modCtx c fun z => { z with eaddr := w }
  | 0x105 => s.modCtx c fun z => { z with inh := tst x 0 }
  | 0x110 => if y.trapEn then s else { s with sys := { y with trapBase := w.setWidth 56 &&& ~~~0x3F } }
  | 0x111 =>
    let l := min (max (bits x 0 5) 10) 20
    let s := { s with sys := { y with trapLog2n := if y.trapEn then y.trapLog2n else l, trapEn := tst x 5 } }
    if tst x 6 then s.reraise else s
  | 0x113 => { s with sys := { y with trapRd := w.setWidth 32 } }
  | 0x120 => s.modDie d fun z => { z with wdogDef := max (2 ^ 16) (min (bits x 0 33) (2 ^ 32)) }
  | 0x121 => s.modDie d fun z => { z with lockQ := min (bits x 0 11) 1024 }
  | 0x130 => s.preemptReq d (w.setWidth 6)
  | 0x150 => s.modDie d fun z => { z with wselCtx := w.setWidth 13, wselWin := BitVec.ofNat 5 (x >>> 16) }
  | 0x151 =>
    let t := (s.die d).wselCtx.toNat
    match (s.ctx t).status with
    | .parked _ => s.modCtx t fun z => { z with win := z.win.setIfInBounds (s.die d).wselWin.toNat (winWord w) }
    | _ => s
  | 0x160 =>
    let base : BitVec 52 := BitVec.ofNat 52 (bits x 20 32 * 2 ^ 20)
    { s with sys := { y with asidEn := tst x 0, asidBase := if y.asidEn then y.asidBase else base } }
  | 0x170 => { s with sys := { y with qtab := BitVec.ofNat 52 (bits x 12 40 * 2 ^ 12) } }
  | 0x171 => s.doorbell (bits x 0 6)
  | _ => s

/-- REGISTER WRITE: a `sysw` of context due.ctx on register due.arg arrives with due.word. For SYS.REPAIR the status goes to
scalar register due.arg2, as a result of the `sysw`, a checkpoint bundle's when wr is set (R349, R392, R411). -/
def execRegisterWrite (s : State) : Res :=
  let d := s.due
  .next (if d.arg = 0x173 then
      let (st, s) := s.repair d.word
      if d.arg2 = 0 then s
      else s.modCtx d.ctx fun x => { x with
        pend := x.pend ++ [{ at_ := s.now, inChk := d.wr, eff := .sreg (BitVec.ofNat 5 d.arg2) (BitVec.ofNat 64 st) }] }
    else s.writeSys d.ctx d.arg d.word)

/-- R349: the register as it stands at issue, at 1 cy. -/
def execSysr (d : BitVec 5) (i : BitVec 16) (s : State) : Res := .next (s.ws d 1 (s.readSys i.toNat))

/-! ### Migration (R385 to R387) -/

/-- Bytes of a migration's page size. -/
def migSize (sz : Nat) : Nat := if sz = 0 then 2 ^ 12 else if sz = 1 then 2 ^ 16 else 2 ^ 21

/-- The accesses of the migration engine to the page tables of an address space (R406). -/
def migWho (asid : Nat) : Who := { asid := asid, part := 0x0A, exec := false }

/-- Where the leaf for a virtual address stands, with its value, for a page of a size: the entry that the walk ends at, and
for a 64 KiB page the first of its group (R373, R374). Where the walk fails, the STATUS of that failure: 0x10 translation
fault, 0x11 access rejection or uncorrectable entry (R387). -/
def State.leafAt (s : State) (asid va : Nat) : Except (BitVec 8) (Nat × Nat × Nat) :=
  match s.walk (migWho asid) va with
  | .bad _ _ => .error 0x10
  | .denied => .error 0x11
  | .poison _ => .error 0x11
  | .ok e =>
    let entry := fun (t lev : Nat) => t + 8 * vaIndex va lev
    let down := fun (t lev : Nat) => bits (s.gnat (entry t lev) 8) 12 40 * 4096
    let t2 := down (((s.asidEntry asid).map (·.1)).getD 0) 3
    let at_ := if e.size = 2 ^ 30 then entry t2 2
      else if e.size = 2 ^ 21 then entry (down t2 2) 1
      else if e.size = 2 ^ 16 then down (down t2 2) 1 + 8 * (vaIndex va 0 / 16 * 16)
      else entry (down (down t2 2) 1) 0
    .ok (at_, s.gnat at_ 8, e.size)

/-- Whether a page of n bytes from a module address is populated memory, the host window's included, without a retired frame
(R383, R385). -/
def State.frameOk (s : State) (m n : Nat) : Bool :=
  (targetOf m).any (· < 27) && s.populated m && s.populated (m + n - 1) && targetOf m = targetOf (m + n - 1) &&
    !(s.retired.any fun f => decide (m / 4096 ≤ f) && decide (f < (m + n) / 4096))

/-- Fields of a migration request (R385). -/
structure MigReq where
  va    : Nat
  sz    : Nat
  asid  : Nat
  dst   : Nat
  clean : Bool

/-- The request in four words. VA and DFRAME are aligned to the size; one that is not breaks the layout (log 27). -/
def migReq (ws : List Word) : MigReq :=
  let w := fun i => ws.getD i 0
  let va := fld (w 0) 0 56
  let sz := fld (w 0) 56 2
  let dst := fld (w 2) 0 52
  { va := va, sz := sz, asid := fld (w 1) 0 16, dst := dst,
    clean := fld (w 0) 58 6 = 0 && fld (w 1) 16 48 = 0 && fld (w 2) 52 12 = 0 && w 3 = 0 && sz ≠ 3 &&
      va % migSize sz = 0 && dst % migSize sz = 0 }

/-- Whether command x is a migration of the same ASID that overlaps n bytes from va. -/
def Cmd.migrates (x : Cmd) (asid va n : Nat) : Bool :=
  match x.k with
  | .mig va' size asid' _ => asid' = asid && decide (va' < va + n) && decide (va < va' + size)
  | _ => false

/-- Whether a migration was accepted in this cycle from a context of higher CTXID than the issuing one, a member of a consist that
issues with its lead (R42, R386): a released one waits in that cycle until every core has had its turn. -/
def State.beats (s : State) (x : Cmd) : Bool := decide (s.iss.ctx < x.ctx) && x.release.isNone && x.since.any (·.1 = s.now)

/-- A migration that a submission of lower CTXID in the same cycle beats: it is refused with 0x30 after all (R386; log 20). -/
def State.unsubmit (s : State) (x : Cmd) : State :=
  let d := (x.since.getD (0, 0)).2
  let w := ({ s with iss := { s.iss with ctx := x.ctx } } : State).acceptWord x.deadline x.seq 0
  ({ s with cmds := s.cmds.filter (·.id ≠ x.id), l2q := s.l2q.filter (·.entry.k ≠ .cmd x.id) } : State).modCtx x.ctx fun y => { y with
    wb := y.wb.filter (·.k ≠ .cmd x.id)
    pend := y.pend.map fun p => if p.eff = .sreg d w then { p with eff := .sreg d (refuseWord 0x30 x.seq 0) } else p }

/-- A migration request at a local address, of the issuing context: accepted or refused, the word to s[d] at 1 cy (R385,
R386). -/
def State.submit (s : State) (ea : Word) (d : BitVec 5) : Res :=
  let put := fun w (s : State) => s.ws d 1 w
  s.loading (s.loadAt { glob := false, win := false, now := true } 32 [ea]) fun _ s' =>
    let r := migReq ((List.range 4).map fun (i : Nat) =>
      BitVec.ofNat 64 (s.loadNat (s.own s.iss.ctx) (ea + BitVec.ofNat 64 (8 * i)) 8))
    let n := migSize r.sz
    let same := s'.cmds.filter (·.migrates r.asid r.va n)
    let leaf := s'.leafAt r.asid r.va
    if !r.clean then s'.refuse 0x03 0 put
    else if !same.all s'.beats then s'.refuse 0x30 0 put
    else
      match leaf with
      | .error _ => (s'.walkSeen (migWho r.asid) r.va).refuse 0x31 0 put
      | .ok (_, p, size) =>
        if size ≠ n ∨ tst p 9 then s'.refuse 0x31 0 put
        else if !s'.frameOk r.dst n || r.dst = bits p 12 40 * 4096 then s'.refuse 0x32 0 put
        else if s'.freeSlots s'.iss.ctx = 0 then s'.refuse 0x07 0 put
        else
          let e := s'.boundEntry 7 0 { base := 10000, unit := 2, unit2 := 0, limit := 0 }
          (same.foldl State.unsubmit s').accept (.mig r.va n r.asid r.dst) 0x0B 0 (e.base + n / 64 * e.unit) none none fun w s =>
            put w { s with cmds := s.cmds.map fun x => if x.ctx = s.iss.ctx ∧ x.migrates r.asid r.va n then
              { x with since := some (s.now, d) } else x }

/-- MIGRATION SUBMIT as a step of its own: the issuing context's write of SYS.MIGSUB with the request's address in due.word, the
word to scalar register due.arg (R385). -/
def execMigrationSubmit (s : State) : Res := s.submit s.due.word (BitVec.ofNat 5 s.due.arg)

/-- R349, R385, R392: the write at 1 cy, and the previous value into s[sd]; of SYS.MIGSUB the acceptance word, of SYS.REPAIR the
status of R411. -/
def execSysw (d a : BitVec 5) (i : BitVec 16) (s : State) : Res :=
  let n := i.toNat
  if n = 0x162 then s.submit (s.rs a) d
  else
    let due : Due := { ctx := s.iss.ctx, arg := n, arg2 := d.toNat, word := s.rs a, wr := s.iss.ckpt }
    let s := if n = 0x173 then s else s.ws d 1 (s.readSys n)
    .next (s.schedule (s.iss.cyc + 1) .registerWrite due)

/-- A migration ends without moving its page: mirroring ends, DFRAME's contents are free values where the table lets the engine
write them, and its record follows (R387 point 5, R407). -/
def State.migAbandon (s : State) (id : Nat) (status : BitVec 8) : State :=
  let g := s.migs.find? (·.id = id)
  let s := { s with migs := s.migs.filter fun m => m.id ≠ id }
  let s := match g with
    | none => s
    | some g =>
      let bs := (List.range g.size).filterMap fun i =>
        if s.allowed (g.dst + i / 4096 * 4096) 0x0A false .w then some (g.dst + i, Config.freeByte (s.free + i)) else none
      { (s.write bs) with free := s.free + g.size }
  match s.cmd? id with
  | none => s
  | some x => s.finish id { x.record with status := status }

/-- A released migration reads its leaf and its granules' copies begin; one whose leaf cannot be read ends (R387). -/
def State.migRelease (s : State) (x : Cmd) (va size asid dst : Nat) : State :=
  let ws := leBytes 8 va ++ leBytes 8 dst
  let s := s.modCmd x.id fun x => { x with record := { x.record with detail := BitVec.ofNat 128 (leNat ws) } }
  match s.leafAt asid va with
  | .ok (a, p, _) =>
    let g : Mig := { id := x.id, p0 := BitVec.ofNat 64 p, leafAt := a, old := bits p 12 40 * 4096, dst := dst, size := size, copied := [] }
    ({ s with migs := s.migs ++ [g] }).later 1000 .migrationGranuleCopy { id := x.id, arg := 0 }
  | .error st => (s.walkSeen (migWho asid) va).migAbandon x.id st

/-- MIGRATION GRANULE COPY: granule due.arg of migration due.id is copied to the destination frame with its race tags, as
master 0x0A, in one step (R387, R406, R427). -/
def execMigrationGranuleCopy (s : State) : Res :=
  let d := s.due
  .next (match s.migs.find? (·.id = d.id) with
    | none => s
    | some g =>
      let src := g.old + 64 * d.arg
      let dst := g.dst + 64 * d.arg
      if !s.allowed src 0x0A false .r || !s.allowed dst 0x0A false .w || (s.poisoned src 64).isSome then
        let st : BitVec 8 := 0x11
        (if (s.poisoned src 64).isSome then s.memError 0 ((s.poisoned src 64).getD src) else s).migAbandon d.id st
      else
        let moved := s.tags.filterMap fun (t : (Nat × Nat) × Tag) =>
          if t.1.1 ≠ 0 ∧ t.1.2 = src / 64 then some ((t.1.1, dst / 64), t.2) else none
        let s := { s with tags := moved ++ s.tags.filter fun (t : (Nat × Nat) × Tag) => !(t.1.1 ≠ 0 && t.1.2 = dst / 64) }
        let s := (s.write (runAt dst (s.gbytes src 64))).corrected 0 src 64
        let s := { s with migs := s.migs.map fun (m : Mig) => if m.id = g.id then { m with copied := d.arg :: m.copied } else m }
        if 64 * (d.arg + 1) < g.size then s.schedule (s.now + 1) .migrationGranuleCopy { id := d.id, arg := d.arg + 1 }
        else s.schedule (s.now + 1) .migrationSwitch { id := d.id })

/-- The race tags of the old frame's granules as they stand now, moved to the destination's (R321, R387). -/
def State.migTags (s : State) (g : Mig) : State :=
  let inOld := fun (t : (Nat × Nat) × Tag) => t.1.1 ≠ 0 && decide (g.old / 64 ≤ t.1.2) && decide (t.1.2 < (g.old + g.size) / 64)
  let inNew := fun (t : (Nat × Nat) × Tag) => t.1.1 ≠ 0 && decide (g.dst / 64 ≤ t.1.2) && decide (t.1.2 < (g.dst + g.size) / 64)
  let moved := (s.tags.filter inOld).map fun (t : (Nat × Nat) × Tag) => ((t.1.1, t.1.2 - g.old / 64 + g.dst / 64), t.2)
  { s with tags := moved ++ s.tags.filter fun t => !inOld t && !inNew t }

/-- MIGRATION SWITCH of migration due.id: the leaf, when it is still P0, takes FRAME := DFRAME, and the page's translations are
invalidated; its record waits for that drain. A leaf that differs abandons the migration, and so does one that the table does
not let the engine write (R387, R406, R407). -/
def execMigrationSwitch (s : State) : Res :=
  let id := s.due.id
  .next (match s.migs.find? (·.id = id), s.cmd? id with
    | some g, some x =>
      if !s.allowed g.leafAt 0x0A false .rw then s.migAbandon id 0x11
      else if s.gnat g.leafAt 8 ≠ g.p0.toNat then s.migAbandon id 0x30
      else
        let leaf := g.p0.toNat - bits g.p0.toNat 12 40 * 2 ^ 12 + g.dst / 4096 * 2 ^ 12
        let s := (s.migTags g).write (runAt g.leafAt (leBytes 8 leaf))
        match x.k with
        | .mig va size asid _ => s.applyInval id asid va (va + size)
        | _ => s
    | _, some _ => s.migAbandon id 0x30
    | _, none => s)

/-! ### `tlbir` (R380, R381) -/

/-- R380: it blocks while no slot can be reserved or 8 invalidations are not acknowledged; no acceptance word. -/
def execTlbir (a b : BitVec 5) (asid : BitVec 16) (s : State) : Res :=
  let va := s.rs a
  let n := (s.rs b).toNat
  .next (if !s.iss.held && (s.freeSlots s.iss.ctx = 0 || decide (8 ≤ s.invals.length)) then s.blocked .engineQueue [] [] [] []
    else if fld va 56 8 ≠ 0 then s.raise (s.issTrap 0x03 va)
    else
      let lo := va.toNat / 4096 * 4096
      let hi := if n = 0 then lo else roundUp (min (va.toNat + n) (2 ^ 56)) 4096
      s.accept (.tlbir lo hi asid.toNat) 0x0A 0 0 none none fun _ s => s)

/-- A released `tlbir` is applied (R381). -/
def State.tlbirRelease (s : State) (x : Cmd) (lo hi asid : Nat) : State :=
  let s := s.modCmd x.id fun x => { x with record := { x.record with
    detail := BitVec.ofNat 128 (leNat (leBytes 8 lo ++ leBytes 8 (hi - lo))) } }
  s.applyInval x.id asid lo hi

/-! ### Return from a trap (R351) -/

/-- R351. -/
def execRte (s : State) : Res := .next s.returnFromTrap

/-! ### Context control (R352, R354) -/

/-- The status that a target gives before any transfer: 3 no such context, 1 not in a state that ok takes (R354). -/
def State.targetStatus (s : State) (a : Word) (ok : Ctx → Bool) : Nat :=
  if fld a 13 51 ≠ 0 ∨ 6 ≤ fld a 4 3 then 3 else if ok (s.ctx a.toNat) then 0 else 1

/-- PARKED in state 2 or 4. -/
def Ctx.saveable (x : Ctx) : Bool :=
  match x.status with
  | .parked .trap => true
  | .parked .preempted => true
  | _ => false

/-- PARKED in state 2 or 4, and the lead of its consist (R354). -/
def Ctx.resumable (x : Ctx) : Bool := x.saveable && (x.cons.isNone || x.cpos = 0)

/-- A context whose awaited results are all in its registers, written cycle by cycle: what its image holds (R90, R125, R354). -/
def Ctx.settled (x : Ctx) : Ctx := ((x.pend.map (·.at_)).insertionSort (· ≤ ·)).foldl Ctx.deliver x

/-- The status result. -/
def State.status (s : State) (d : BitVec 5) (n : Nat) : State := s.ws d 1 (BitVec.ofNat 64 n)

/-- Bytes of an image: 904 granules. -/
def imageBytes : Nat := 57856

/-- The target with its result awaited and its matrix operations ended, what it has released performed, or the bundle still waits (R245,
R354; log 28). -/
def State.busyTarget (s : State) (t : Nat) : Bool :=
  !s.iss.held && ((s.core (coreOf t)).mx.any (·.ctx = t) || !(s.queued t).isEmpty)

/-- The addresses of an image's granules. -/
def imageAddrs (ea : Word) : List Word := (List.range 904).map fun (i : Nat) => ea + BitVec.ofNat 64 (64 * i)

/-- The first granule of an image that the issuing context cannot name (R15, R194). -/
def State.imageBad (s : State) (ea : Word) : Option Word := (imageAddrs ea).find? fun a => !s.nameable { win := false } 64 a

/-- Whether the issuing bundle's image transfer is in progress: it ends a free time after the bundle was first due (R354;
log 1). -/
def State.transferring (s : State) : Bool :=
  let w := s.cur.wait.getD s.now
  !s.iss.held && decide (s.now < w + Config.freeDelay (w * 2 ^ 13 + s.iss.ctx) % 2000)

/-- The context image read by the issuing context at an address, as its own loads are checked; the first failure is its trap
(R354, R356). The transfer asks for no line and no earlier answer: its granules are checked at their homes when it ends. -/
def State.readImage (s : State) (ea : Word) (k : List Byte → State → State) : Res :=
  let c := s.iss.ctx
  let x := s.party c
  let h := { s with iss := { s.iss with held := true } }
  s.loading (h.loadAt { win := false, now := true } 64 (imageAddrs ea)) fun _ s' =>
    let gs := (imageAddrs ea).filter fun a => match spaceOf a with
      | .global _ => true
      | _ => false
    match gs.findSome? fun a => (s.granAt c a).bind fun g => if ((s.tag g).step x g.ph .load).isNone then some (a, s.tag g) else none with
    | some (a, t) => s.raise (s.raceTrap a 0 t)
    | none =>
      let s' := ({ s' with iss := s.iss }.register x .load (gs.filterMap (s.granAt c))).heatAll c gs
      k ((eaRun ea imageBytes).map (s.loadByte (s.own c))) s'

/-- The issuing context's check that it may write an image at an address: the first failure is its trap (R354). -/
def State.imageTrap (s : State) (ea : Word) : Option TrapInfo :=
  (imageAddrs ea).findSome? fun a =>
    (s.storeTrap 1 64 a).or <|
      match spaceOf a with
      | .global va =>
        match s.translate (s.who s.iss.ctx) va .w with
        | .ok _ _ => none
        | x => some (s.xTrap x a)
      | _ => none

/-- An image written by the issuing context, at this place in its program order (R331, R354, R388). -/
def State.writeImage (s : State) (ea : Word) (bytes : List Byte) : State :=
  let c := s.iss.ctx
  let bs := (eaRun ea bytes.length).zip bytes
  let loc := bs.filterMap fun p => match spaceOf p.1 with
    | .localSp a => some (a, p.2)
    | _ => none
  let glob := bs.filterMap fun p => match spaceOf p.1 with
    | .global va => (s.page? (s.who c) va).map fun e => (e.addr va, p.2)
    | _ => none
  let s := s.register (s.party c) .store ((imageAddrs ea).flatMap fun a => (s.granules c (eaRun a 64)).filterMap (s.granAt c))
  let s := (s.heatAll c (imageAddrs ea)).writeLocal (clOf c) c (s.ctx c).l s.iss.pc s.iss.slot s.cur.ents loc
  (s.notePast c (glob.map (·.1))).write glob

/-- R354: the target's checkpoint state goes to memory as its image, as accesses of the executive context performed when the
transfer ends; its load-blocks and locks are dropped (R367). -/
def execCtxsave (a b d : BitVec 5) (s : State) : Res :=
  let t := (s.rs a).toNat
  let ea := s.rs b
  match s.targetStatus (s.rs a) Ctx.saveable with
  | 0 =>
    if s.busyTarget t then .next (s.blocked .engineQueue [] [] [] [])
    else
      match s.imageBad ea with
      | some x => .next (s.raise (s.issTrap 0x03 x))
      | none =>
        if s.transferring then .next (s.blocked .engineQueue [] [] [] [])
        else if s.poison.contains (chkKey t) then .next (s.fatalError 2 (some t))
        else
          match (s.imageTrap ea).or (s.homeCheck s.iss.ctx .store s.iss.pc s.iss.slot (eaRun ea imageBytes)) with
          | some tr => .next (s.raise tr)
          | none =>
            let s := s.writeImage ea ((s.modCtx t Ctx.settled).image t)
            let s := s.modCtx t fun x => { x with blocks := [], vis := { x.vis with locks := [] }, chk := { x.chk with locks := [] } }
            .next (s.status d 0)
  | n => .next (s.status d n)

/-- A PARKED context takes up its checkpoint state again: nothing is left of its wait, its load-blocks and locks (R354, R367). -/
def Ctx.resumed (x : Ctx) (t : Nat) : Ctx :=
  { x.unwait with
    status := .ready, resumeAt := max x.resumeAt t, wdog := 0, blocks := [], chkNo := 0, olds := []
    vis := { x.vis with locks := [] }, chk := { x.chk with locks := [] } }

/-- A PARKED context resumes in the next cycle with its checkpoint state, and with it every PARKED member of its consist; the
request of its cluster is cleared (R354, R366). Checkpoint state with an uncorrectable error is fatal (R369, R427). -/
def State.resume (s : State) (t : Nat) : State :=
  let ps := (s.peers t).filter fun p => p = t || (match (s.ctx p).status with
    | .parked _ => true
    | _ => false)
  match ps.find? fun p => s.poison.contains (chkKey p) with
  | some p => s.fatalError 2 (some p)
  | none =>
    let s := ps.foldl (fun s p => s.modCtx p fun x => x.resumed (s.iss.cyc + 1)) s
    let s := { s with consists := s.consists.map fun (x : Consist) => if x.members.contains t then { x with beats := 0, hold := none } else x }
    (ps.map clOf).dedup.foldl State.preemptClear s

/-- R354: resume in place. -/
def execCtxres (a d : BitVec 5) (s : State) : Res :=
  match s.targetStatus (s.rs a) Ctx.resumable with
  | 0 => .next ((s.resume (s.rs a).toNat).status d 0)
  | n => .next (s.status d n)

/-- An image loaded into its target, whose registers it writes anew, and which then does what k says (R354, R427). -/
def State.restoreImage (s : State) (a b d : BitVec 5) (k : Nat → State → State) : Res :=
  let t := (s.rs a).toNat
  let ea := s.rs b
  match s.targetStatus (s.rs a) Ctx.resumable with
  | 0 =>
    if s.busyTarget t then .next (s.blocked .engineQueue [] [] [] [])
    else
      match s.imageBad ea with
      | some x => .next (s.raise (s.issTrap 0x03 x))
      | none =>
        if s.transferring then .next (s.blocked .engineQueue [] [] [] [])
        else s.readImage ea fun bs s' =>
          if s'.imageFits t bs then
            let s' := s'.loadImage t bs
            (k t { s' with poison := s'.poison.filter fun x => x ≠ chkKey t && x ≠ regKey t }).status d 0
          else s'.status d 2
  | n => .next (s.status d n)

/-- R354: load the image as current and checkpoint state, then resume at its RESUME. -/
def execCtxresImg (a b d : BitVec 5) (s : State) : Res := s.restoreImage a b d fun t s => s.resume t

/-- R354: load the image and stay PARKED. -/
def execCtxresLd (a b d : BitVec 5) (s : State) : Res := s.restoreImage a b d fun _ s => s

/-- R354: the context and every member of its consist become DONE. -/
def execCtxkill (a d : BitVec 5) (s : State) : Res :=
  let ok := fun (x : Ctx) => match x.status with
    | .parked _ => true
    | _ => false
  match s.targetStatus (s.rs a) ok with
  | 0 =>
    let s := (s.peers (s.rs a).toNat).foldl (fun s p => (s.cancelWithheld p).ended p) s
    .next (s.status d 0)
  | n => .next (s.status d n)

end Sys2Proof.Machine
end

