-- ==== Sys2Proof/Machine/Boot.lean ====
section
/-! DEFINITION. Sys2Proof/Machine/Boot.lean: reset and configuration (R421 to R424, R430), attestation (R425), the host link
(R426), power and temperature (R369, R429). -/

namespace Sys2Proof.Machine

/-! ### The configuration blob (R422) -/

/-- The blob's fields LEN and ARB. -/
def blobLen (b : List Byte) : Nat := natAt b 8 8
def blobArb (b : List Byte) : Nat := natAt b 16 8

/-- Whether Krytzin takes the blob: its form, its signing key, its anti-rollback counter, its signature (R422). -/
def blobOk (f : Flash) : Bool :=
  let b := f.blob
  let keyd := (b.drop 24).take 32
  natAt b 0 4 = 0x42464E43 && natAt b 4 2 = 1 && decide (1 ≤ blobSecs b) && decide (blobSecs b ≤ 32) && natAt b 56 8 = 0 &&
    f.keys.contains keyd && decide (f.fuse ≤ blobArb b) &&
    Config.mlDsaVerify keyd (Config.shake256 (b.take (blobLen b)) 64) ((b.drop (blobLen b)).take 3309)

/-- The partition table of section 1 (R396). -/
def partsOf (b : List Byte) : List Partition :=
  let x := (blobSection b 1).getD []
  (List.range 8).map fun p =>
    { cmask := BitVec.ofNat 384 (natAt x (64 * p) 48), dmask := BitVec.ofNat 16 (natAt x (64 * p + 48) 2),
      guest := tst (natAt x (64 * p + 48) 8) 16, privq := BitVec.ofNat 64 (natAt x (64 * p + 56) 8) }

/-- An access-table entry; none when it is not valid (R405). -/
def accEntryOf (x : Nat) : Option AccEntry :=
  if tst x 0 && bits x 52 12 = 0 && bits x 64 12 = 0 && bits x 116 12 = 0 then
    some { r := tst x 1, w := tst x 2, exo := tst x 3, master := bits x 4 8, base := bits x 12 40, limit := bits x 76 40 }
  else none

/-- The access tables of section 2: 256 entries of 16 bytes for each of the 28 targets in the order of R383 (log 30). -/
def accessOf (b : List Byte) : List (Nat × List AccEntry) :=
  let x := (blobSection b 2).getD []
  (List.range 28).map fun t => (t, (List.range 256).filterMap fun i => accEntryOf (natAt x (4096 * t + 16 * i) 16))

/-- The bound tables of section 3: for each engine and class an entry of 16 bytes; one that is all zero is missing (R423,
log 30). -/
def boundsOf (b : List Byte) : List ((Nat × Nat) × BoundEntry) :=
  let x := (blobSection b 3).getD []
  (List.range 32).filterMap fun i =>
    let o := 16 * i
    if natAt x o 16 = 0 then none
    else some ((i / 4, i % 4), { base := natAt x o 4, unit := natAt x (o + 4) 2, unit2 := natAt x (o + 6) 2, limit := natAt x (o + 8) 4 })

/-- Bytes of the hot-row cache, and the trap ring's LOG2N, as section 4 gives them (R13, R422; log 30). -/
def hotBytesOf (b : List Byte) : Nat := ((blobSection b 4).map fun x => natAt x 0 8).getD 96000000000
def ringLog2n (b : List Byte) : Nat := ((blobSection b 4).map fun x => min (max (natAt x 8 8) 10) 20).getD 14

/-- Whether the tables can be loaded: no cluster belongs to two partitions, bound fields that must be zero are, bytes 15:12 of every
entry among them, and the hot-row cache has at most 128 GB (R396, R422, R423). -/
def tablesOk (b : List Byte) : Bool :=
  let ps := (partsOf b).map (·.cmask)
  decide (hotBytesOf b ≤ 128000000000) &&
  (List.range 384).all (fun k => decide ((ps.countP fun m => m.getLsbD k) ≤ 1)) &&
  (List.range 32).all (fun i => natAt ((blobSection b 3).getD []) (16 * i + 12) 4 = 0) &&
  (boundsOf b).all fun e =>
    let x := e.2
    (e.1.1 = 2 || x.unit2 = 0) &&
    (match e.1.1 with
      | 0 => x.limit = 0
      | 1 => x.limit = 0
      | 5 => x.unit = 0 && x.limit = 0
      | 6 => x.unit = 0
      | 7 => x.limit = 0 && e.1.2 = 0
      | _ => true)

/-! ### Regions and the module map (R13, R388, R430) -/

/-- Heat counters in all: one for each 64 KiB region of populated memory (R388). -/
def heatCounters (pop : List Nat) : Nat := (pop.map fun n => ceilDiv n 65536).sum

/-- Sizes of the 15 regions of the module map, then of the retired-frame list and the partition table (R13, R389, R396, R430). -/
def regionSizes (pop : List Nat) (hotBytes log2n : Nat) : List Nat :=
  List.replicate 8 (hotBytes / 8) ++ [512 * 2 ^ 20, 64 * 2 ^ log2n, Config.tagShadowSize, Config.dumpSize, 2 * heatCounters pop,
    2 ^ 17, 512, 65536 * 8, 512]

/-- Whether size bytes from module address a lie on whole pages of one stack's populated HBM4E, on that stack if one is asked for,
and apart from what is placed (R13, R279, R421). -/
def fits (pop : List Nat) (placed : List (Nat × Nat)) (stack : Option Nat) (a size : Nat) : Bool :=
  let t := a / 0x1000000000
  decide (t < 8) && stack.all (· = t) && a % 4096 = 0 && decide (a % 0x1000000000 + size ≤ pop.getD t 0) &&
    placed.all fun p => decide (a + size ≤ p.1) || decide (p.1 + p.2 ≤ a)

/-- The place of region r of a size, at a boot: Krytzin's own choice, where that is one that it may make; otherwise the first
place from a stack's base or behind a placed region that is (R13; log 5). A dump region that a warm reset keeps stays. -/
def placeOne (boots : Nat) (pop : List Nat) (kept : Nat × Nat) (placed : List (Nat × Nat)) (r size : Nat) : Option Nat :=
  if size = 0 then some 0
  else
    let own := if r = 11 ∧ kept.2 = size then kept.1 else Config.placement boots r
    (own :: (List.range 8).map (· * 0x1000000000) ++ placed.map fun p => roundUp (p.1 + p.2) 4096).find?
      fun a => fits pop placed (if r < 8 then some r else none) a size

/-- The regions placed, the dump region first: base and size by region number; none where one finds no place. -/
def placeAll (boots : Nat) (pop : List Nat) (kept : Nat × Nat) (sizes : List Nat) : Option (List (Nat × Nat)) :=
  let order := 11 :: (List.range sizes.length).filter (· ≠ 11)
  let all := order.foldl (fun (acc : Option (List (Nat × Nat × Nat))) r =>
    acc.bind fun ps => (placeOne boots pop kept (ps.map (·.2)) r (sizes.getD r 0)).map fun a => ps ++ [(r, a, sizes.getD r 0)]) (some [])
  all.map fun ps => (List.range sizes.length).map fun r => ((ps.find? (·.1 = r)).map (·.2)).getD (0, 0)

/-- The 512 bytes of the module map (R430). -/
def mapBytes (pop : List Nat) (regions : List (Nat × Nat)) : List Byte :=
  (List.range 26).flatMap (fun t => leBytes 8 (pop.getD t 0)) ++ List.replicate 48 0
    ++ regions.flatMap (fun r => leBytes 8 r.1 ++ leBytes 8 r.2) ++ List.replicate 16 0

/-! ### The boot sequence (R421) -/

/-- Inputs that outlive a reset: what the host, the board and the sensors do. -/
def outerEvent (e : Instr) : Bool :=
  [Instr.hostAccess, .attestationRequest, .powerCapSet, .coldReset, .warmReset, .thermalTrip, .luvexWatchdogExpiry].contains e

/-- The machine as a reset leaves it before the boot sequence: flash, time and what the outside is about to do go on; of
memory a warm reset keeps the dump region, where it was last placed (R370, R421; log 29). -/
def State.cleared (s : State) (warm : Bool) : State :=
  let (lo, size) := s.luvex.dumpAt
  let mem := if warm then s.mem.filter fun c => decide (lo ≤ c.1) && decide (c.1 < lo + size) else []
  { State.reset with
    now := s.now, free := s.free, nextId := s.nextId, agenda := s.agenda.filter fun a => outerEvent a.ev
    mem := mem, memPrev := mem, memCyc := mem
    luvex := { Luvex.reset with
      flash := { s.luvex.flash with boots := s.luvex.flash.boots + 1 }, dumpAt := if warm then s.luvex.dumpAt else (0, 0) } }

/-- A message of the mailbox. -/
def State.mail (s : State) (m : MailMsg) : State := { s with luvex := { s.luvex with mailbox := s.luvex.mailbox ++ [m] } }

/-- The sequence stops at a step: it is reported, and every unit, link and guest is left out of service (R421). -/
def State.bootFails (s : State) (step : Nat) : State :=
  let s := { s with luvex := { s.luvex with boot := .failed step } }
  ({ s with
    dies := (List.range 64).map fun d => (d, { s.die d with st := .retired })
    luvex := { s.luvex with links := List.replicate 14 false }
    depots := Vector.replicate 16 .retired, guest := Guest.none }).mail (.failing step)

/-- The most that a target of R430 holds: an HBM4E stack 48 GB, a Depot 256 GiB, a CXL port 4 TiB (R12, R388). -/
def capacity (t : Nat) : Nat := if t < 8 then 48000000000 else if t < 24 then 2 ^ 38 else 2 ^ 42

/-- Step 3: memories trained, capacities fixed, the retired frames and units of flash applied (R389, R408, R421). -/
def State.bootMemory (s : State) : State :=
  let f := s.luvex.flash
  let s := { s with
    pop := (List.range 26).map fun t => min (Config.populated t) (capacity t), retired := f.frames.map (·.1)
    depots := Vector.ofFn fun d => if Config.trains (64 + d.val) && !f.units.contains (64 + d.val) then .serving else .retired }
  (f.units.filter (· < 64)).foldl (fun s u => s.modDie u fun d => { d with st := .retired }) s

/-- Whether the guest's record keeps the limits of R413. -/
def guestOk (r : List Byte) : Bool :=
  let base := fun i => natAt r (4 + 4 * i) 4
  r.length = 64 && natAt r 0 2 = 1 && decide (16 ≤ natAt r 2 2) && decide (natAt r 2 2 ≤ 1024) &&
    (List.range 4).all (fun i => decide (1000 ≤ base i) && decide (base i ≤ 1000000000)) &&
    decide (natAt r 20 4 ≤ 10000) && decide (natAt r 24 4 ≤ 100000) && natAt r 28 36 = 0

/-- Step 4: the Spur link trained, the guest's record read and measured (R412, R413, R424). -/
def State.bootGuest (s : State) : State :=
  let r := Config.guestRecord
  if Config.trains 80 && guestOk r && !s.luvex.flash.units.contains 80 then
    ({ s with guest :=
      { fitted := true, st := .serving, qdepth := natAt r 2 2, base := (List.range 4).map fun i => natAt r (4 + 4 * i) 4,
        ginv := natAt r 20 4, gpre := natAt r 24 4, shut := false, late := [], pend := [] } }).extend 2
      (r ++ Config.shake256 (Config.unitImage 80) 64)
  else s

/-- Step 4, the links: Treleri ports 0 to 5 and Ultra Ethernet ports 0 to 7; one that fails training is RETIRED for this boot
(R421). -/
def State.bootLinks (s : State) : State :=
  { s with luvex := { s.luvex with links := (List.range 14).map fun i => Config.trains (81 + i) } }

/-- Step 5: tables loaded from the blob, with the regions as they were placed; the module map, the partition table and the
retired-frame list written (R13, R389, R396, R421, R422, R430). R422 gives no layout of section 9: the model takes the POD from its
bytes 7:0, as many bits as R290 gives it, and the 12 bits of the position from its bytes 15:8 (R27; log 30, DESIGN CHOICE). -/
def State.bootTables (s : State) (placed : List (Nat × Nat)) : State :=
  let f := s.luvex.flash
  let b := f.blob
  let sec := fun n => (blobSection b n).getD []
  let regions := placed.take 15
  let base := fun r => (placed.getD r (0, 0)).1
  let s := { s with
    parts := partsOf b, access := accessOf b, bounds := boundsOf b, regions := regions
    dies := (List.range 64).map fun d => (d, { configuredDie b with st := (s.die d).st })
    luvex := { s.luvex with
      hotBytes := hotBytesOf b, pod := natAt (sec 9) 0 8 % 2 ^ 11, pos := natAt (sec 9) 8 8 % 2 ^ 12, hdm := sec 5, channels := sec 6, uecKeys := sec 7
      dumpAt := placed.getD 11 (0, 0) }
    sys := { s.sys with
      trapLog2n := ringLog2n b, heatBase := BitVec.ofNat 52 (base 12), retBase := BitVec.ofNat 52 (base 15),
      retCnt := BitVec.ofNat 17 f.frames.length, retFull := decide (65536 ≤ f.frames.length),
      mapBase := BitVec.ofNat 52 (base 14), ptab := BitVec.ofNat 52 (base 16) } }
  let s := s.put (runAt (base 14) (mapBytes s.pop regions))
  let s := s.put (runAt (base 16) ((sec 1).take 512))
  s.put (runAt (base 15) (f.frames.flatMap fun (x : Nat × Nat × Nat) => leBytes 8 (x.2.1 + x.1 * 2 ^ 12 + x.2.2 % 4096 * 2 ^ 52)))

/-- THE BOOT SEQUENCE (R421): its steps in order; a step that fails stops it. -/
def State.boot (s : State) : State :=
  let f := s.luvex.flash
  let s := s.extend 0 f.image
  if !Config.mlDsaVerify f.keyDig (Config.shake256 f.image 64) f.imageSig then s.bootFails 1
  else
    let s := s.extend 1 f.blob
    if !blobOk f then s.bootFails 2
    else
      let s := s.bootMemory.bootLinks.bootGuest
      let placed := placeAll f.boots s.pop s.luvex.dumpAt (regionSizes s.pop (hotBytesOf f.blob) (ringLog2n f.blob))
      match (if tablesOk f.blob then placed else none) with
      | none => s.bootFails 5
      | some ps =>
        let s := s.bootTables ps
        let s := { s with luvex := { s.luvex with boot := .ready, flash := { s.luvex.flash with fuse := max f.fuse (blobArb f.blob) } } }
        s.mail .ready

/-- COLD RESET (R421). -/
def execColdReset (s : State) : Res := .next (s.cleared false).boot

/-- WARM RESET: the same steps; the dump region is kept (R370, R421). -/
def execWarmReset (s : State) : Res := .next (s.cleared true).boot

/-! ### The mailbox (R425, R429) -/

/-- ATTESTATION REQUEST with the nonce in due.bytes: the report is signed and answered, after a reload that is extending MR3
(R425). -/
def execAttestationRequest (s : State) : Res :=
  .next (if s.agenda.any fun a => a.ev = .repairReload then s.schedule (s.now + 1) .attestationRequest s.due
    else
      let f := s.luvex.flash
      let nonce := (s.due.bytes ++ List.replicate (32 - s.due.bytes.length) 0).take 32
      let mr := s.luvex.mr.take 5
      let body := nonce ++ mr.flatten ++ leBytes 8 f.boots ++ leBytes 8 f.fuse ++ Config.identityKey
      s.mail (.report (BitVec.ofNat 256 (leNat nonce)) mr f.boots f.fuse Config.identityKey (Config.mlDsaSign body)))

/-- POWER CAP SET: the mailbox sets the cap to due.arg watts, never above 5,500 (R429). -/
def execPowerCapSet (s : State) : Res := .next { s with luvex := { s.luvex with power := min s.due.arg 5500 } }

/-! ### Fatal errors from outside the dies (R369, R429) -/

/-- LUVEX WATCHDOG EXPIRY: fatal, CAUSE 3 (R369, R370). -/
def execLuvexWatchdogExpiry (s : State) : Res := .next (s.fatalError 3 none)

/-- THERMAL TRIP: die due.id has reached 110 °C: it is logged, and fatal with CAUSE 5 (R369, R428, R429). -/
def execThermalTrip (s : State) : Res := .next ((s.rasLog s.due.id 5 0 1).fatalError 5 none)

/-! ### The host link (R407, R426) -/

/-- HOST ACCESS. With due.id 0 the host reads due.arg2 bytes, or with wr writes due.bytes, at module address due.arg through
BAR2, checked as master 0x08 and as the party host; with due.id 1 it writes due.bytes to offset due.arg of BAR0, where a 32-bit
write in the doorbell page rings a queue, or reads due.arg2 bytes there: those of the mailbox, whose layout no rule gives, are free
values (R318, R407, R426; log 79). BARs answer only after step 6 of R421, but for the mailbox, which answers in recovery mode too. -/
def execHostAccess (s : State) : Res :=
  let d := s.due
  .next (if s.luvex.boot ≠ .ready ∧ (d.id ≠ 1 ∨ s.luvex.boot = .reset) then s
    else if d.id = 1 then
      (if s.luvex.boot = .ready && d.wr && d.bytes.length = 4 && decide (0x1000 ≤ d.arg) && decide (d.arg < 0x2000) then
        s.doorbell (leNat d.bytes % 64)
      else if !d.wr && decide (d.arg < 0x1000) then
        { s.emit (.hostData d.arg true ((List.range d.arg2).map fun i => Config.freeByte (s.free + i))) with free := s.free + d.arg2 }
      else s)
    else
      let n := if d.wr then d.bytes.length else d.arg2
      match s.outerAccess .host 8 d.arg n d.wr d.bytes with
      | (.ok r, s) => s.emit (.hostData d.arg true r)
      | (.error _, s) => s.emit (.hostData d.arg false []))

end Sys2Proof.Machine
end

