-- ==== Sys2Proof/Machine/Convert.lean ====
section
/-! DEFINITION. Sys2Proof/Machine/Convert.lean: the conversions `vcvt`, `vnarrow`, `vwiden` (R160 to R164). -/

namespace Sys2Proof.Machine

/-- An element type of a conversion: a binary format, or an integer of w bits. -/
inductive CTy where
  | flt (f : Fmt)
  | int (signed : Bool) (w : Nat)
  deriving DecidableEq, Repr

/-- The width of a conversion type. -/
def CTy.width : CTy → Nat
  | .flt f => f.width
  | .int _ w => w

/-- One element converted (R161). -/
def convert (src dst : CTy) (rm : Rm) (rnd x : Nat) : Nat × Nat :=
  match src, dst with
  | .flt f, .flt g => convF g rm rnd (decodeF f x)
  | .flt f, .int sg w => convI sg w rm rnd (decodeF f x)
  | .int sg w, .flt g => convIF g rm rnd (if sg then toSigned w x else x)
  | .int sg w, .int sg' w' => satInt w' sg' (if sg then toSigned w x else x)

/-- Source and destination of narrowing pair n (R164). -/
def narrowPair (n : Nat) : CTy × CTy :=
  match n with
  | 0 => (.flt fmtF32, .flt fmtBf16)
  | 1 => (.flt fmtF32, .flt fmtF16)
  | 2 => (.flt fmtF32, .flt fmtE4m3)
  | 3 => (.flt fmtF32, .flt fmtE5m2)
  | 4 => (.flt fmtBf16, .flt fmtE4m3)
  | 5 => (.flt fmtBf16, .flt fmtE5m2)
  | 6 => (.flt fmtF16, .flt fmtE4m3)
  | 7 => (.flt fmtF16, .flt fmtE5m2)
  | 8 => (.int true 16, .int true 8)
  | 9 => (.int true 32, .int true 16)
  | 10 => (.int true 64, .int true 32)
  | 11 => (.int false 16, .int false 8)
  | 12 => (.int false 32, .int false 16)
  | 13 => (.int false 64, .int false 32)
  | 14 => (.int true 16, .int false 8)
  | _ => (.int true 32, .int false 16)

/-- Source and destination of widening pair n (R164). -/
def widenPair (n : Nat) : CTy × CTy :=
  match n with
  | 14 => (.int true 16, .flt fmtF32)
  | 15 => (.int true 8, .flt fmtF16)
  | _ => ((narrowPair n).2, (narrowPair n).1)

/-- Source and destination of a `vcvt` code (R163). -/
def cvtPair (n : Nat) : CTy × CTy :=
  match n with
  | 0x10 => (.flt fmtF32, .int true 32)
  | 0x11 => (.flt fmtF32, .int false 32)
  | 0x12 => (.int true 32, .flt fmtF32)
  | 0x13 => (.int false 32, .flt fmtF32)
  | 0x14 => (.flt fmtBf16, .flt fmtF16)
  | 0x15 => (.flt fmtF16, .flt fmtBf16)
  | 0x16 => (.flt fmtBf16, .int true 16)
  | 0x17 => (.flt fmtF16, .int true 16)
  | 0x18 => (.int true 16, .flt fmtBf16)
  | 0x19 => (.int true 16, .flt fmtF16)
  | 0x1A => (.flt fmtE4m3, .flt fmtE5m2)
  | 0x1B => (.flt fmtE5m2, .flt fmtE4m3)
  | _ => narrowPair n

/-- The random word of element i under sr (R162). -/
def srWord (w : Nat) (y : VReg) (i : Nat) : Nat :=
  let n := min w 32
  laneN n y i <<< (32 - n)

/-- The mode a conversion rounds in (R160). -/
def State.cvtMode (s : State) (r : Rm) : Rm :=
  match r with
  | .mode => s.fpMode
  | m => m

/-- R163: element positions of the source; a narrower result in the low bits of its lane, the bits above cleared. -/
def execVcvt (d a b : BitVec 4) (p : BitVec 5) (r : Rm) (f : BitVec 6) (s : State) : Res :=
  let pr := cvtPair f.toNat
  let w := pr.1.width
  let x := s.rv a
  let y := s.rv b
  let rm := s.cvtMode r
  .next (s.vmap d p w 4 false fun i => convert pr.1 pr.2 rm (srWord w y i) (laneN w x i))

/-- R164: source element i into destination lane part x E + i, the rest of vd kept. -/
def execVnarrow (d a b : BitVec 4) (p : BitVec 5) (r : Rm) (q : BitVec 2) (n : BitVec 4) (s : State) : Res :=
  let pr := narrowPair n.toNat
  let w := pr.1.width
  let w' := pr.2.width
  let e := 2048 / w
  let x := s.rv a
  let y := s.rv b
  let rm := s.cvtMode r
  let g := s.rp p
  let xs := (List.range e).map fun i =>
    if active w g i then convert pr.1 pr.2 rm (srWord w y i) (laneN w x i) else (0, 0)
  let sh := q.toNat * e * w'
  let mask := packNat w' ((List.range e).map fun i => if active w g i then 2 ^ w' - 1 else 0)
  .next ((s.wv d 4 (BitVec.ofNat 2048 (packNat w' (xs.map (·.1)) <<< sh)) (BitVec.ofNat 2048 (mask <<< sh))).wf 4
    (BitVec.ofNat 6 (orFlags (xs.map (·.2)))))

/-- R164: destination lane i from source lane part x E + i; exact. -/
def execVwiden (d a : BitVec 4) (p : BitVec 5) (q : BitVec 2) (n : BitVec 4) (s : State) : Res :=
  let pr := widenPair n.toNat
  let w := pr.1.width
  let w' := pr.2.width
  let x := s.rv a
  .next (s.vmap d p w' 4 false fun i => convert pr.1 pr.2 .rne 0 (laneN w x (q.toNat * (2048 / w') + i)))

end Sys2Proof.Machine
end

