-- ==== Sys2Proof/Machine/Release.lean ====
section
/-! DEFINITION. Sys2Proof/Machine/Release.lean: what a checkpoint bundle does (R125, R358): the translation and check of every
withheld entry, their performing in program order, the capture of the checkpoint; `ckpt`, `safe`, `halt` (R124, R125). -/

namespace Sys2Proof.Machine

/-! ### Step 1: translation and checks (R358) -/

/-- The accesses of a withheld entry, in order, with what each needs. -/
def EntryK.accesses : EntryK → List (Word × Need)
  | .store bs _ _ => (firstOfGranule (bs.map fun p => BitVec.ofNat 64 p.1)).map (·, .w)
  | .amo _ _ addr _ _ _ => [(addr, .rw)]
  | .cas _ addr _ _ _ _ => [(addr, .rw)]
  | .vamo _ _ _ lanes _ _ => (firstOfGranule (lanes.map (·.2.1))).map (·, .rw)
  | .famo _ addr _ _ => [(addr, .rw)]
  | _ => []

/-- Pages of the entries whose translation is not held and whose walk has not ended. -/
def State.walksNeeded (s : State) (es : List Entry) : List Nat :=
  ((es.flatMap (·.k.accesses)).filterMap fun a =>
    match spaceOf a.1 with
    | .global va =>
      if !(s.held (s.asidOf s.iss.ctx) va).isEmpty || s.cur.walked.contains (va / 4096) then none else some (va / 4096)
    | _ => none).dedup

/-- The fault of the first entry, in program order, that cannot be translated or is rejected (R358). -/
def State.releaseFault (s : State) (es : List Entry) : Option TrapInfo :=
  es.findSome? fun e => e.k.accesses.findSome? fun a =>
    match spaceOf a.1 with
    | .global va =>
      match s.translate (s.who s.iss.ctx) va a.2 with
      | .ok _ _ => none
      | x => some { (s.xTrap x a.1) with slot := BitVec.ofNat 8 e.slot }
    | _ => none

/-- The translations that the entries use are held from then on (R378). -/
def State.learnAll (s : State) (es : List Entry) : State :=
  es.foldl (fun s e => e.k.accesses.foldl (fun s a =>
    match spaceOf a.1 with
    | .global va => (s.access1 (s.who s.iss.ctx) va a.2).2
    | _ => s) s) s

/-! ### Step 2: stores (R214, R216, R316, R333, R388) -/

/-- The batch of window writes of a tag that is open, found or made (R218). -/
def State.openBatch (s : State) (c : Nat) (tag : BitVec 2) : Nat × State :=
  match (s.ctx c).batches.find? fun b => b.tag = tag && !b.closed with
  | some b => (b.id, s)
  | none =>
    let (id, s) := s.fresh
    (id, s.modCtx c fun x => { x with batches := x.batches ++
      [{ id := id, tag := tag, closed := false, touched := [], waiting := [], errs := 0, key := 0 }] })

/-- A released window write enters its window's send queue; the peer's interface takes it at a free moment (R216). -/
def State.sendWrite (s : State) (c : Nat) (e : Entry) (tag : BitVec 2) (w : Nat) (bytes : List (Nat × Byte)) : State :=
  let (id, s) := s.openBatch c tag
  let s := s.modBatch c id fun b => { b with
    touched := if b.touched.contains w then b.touched else b.touched ++ [w], sent := b.sent ++ [w] }
  let s := s.modCtx c fun x => { x with
    winq := x.winq ++ [{ win := w, bytes := bytes, tag := tag, pc := e.pc, slot := e.slot, st := 0, batch := id, ord := e.ord, dead := [] }] }
  s.later 200 .windowWriteAccept { ctx := c, arg := w }

/-- The bytes of a store that go through one window: one posted remote write for each unit bytes, for all of them with unit 0
(R216). -/
def State.sendWindow (s : State) (c : Nat) (e : Entry) (tag : BitVec 2) (w unit : Nat) (bytes : List (Nat × Byte)) : State :=
  if unit = 0 then s.sendWrite c e tag w bytes
  else (List.range (ceilDiv bytes.length unit)).foldl (fun s i => s.sendWrite c e tag w ((bytes.drop (unit * i)).take unit)) s

/-- The bytes of a store by space: local, global by module address, and through windows. -/
structure Split where
  loc  : List (Nat × Byte)
  glob : List (Nat × Byte)
  win  : List (Nat × Nat × Byte)

/-- A store's bytes split by space. -/
def State.splitBytes (s : State) (c : Nat) (bs : List (Nat × Byte)) : Split :=
  let ea := fun (p : Nat × Byte) => spaceOf (BitVec.ofNat 64 p.1)
  { loc := bs.filterMap fun p => match ea p with
      | .localSp a => some (a, p.2)
      | _ => none
    glob := bs.filterMap fun p => match ea p with
      | .global va => (s.page? (s.who c) va).map fun e => (e.addr va, p.2)
      | _ => none
    win := bs.filterMap fun p => match ea p with
      | .window w a => some (w, a, p.2)
      | _ => none }

/-- Bytes written to global memory by context c: its commands in flight keep what they may still read (R331), its waiting load finds
them (R195). -/
def State.writeGlobal (s : State) (c : Nat) (bs : List (Nat × Byte)) : State :=
  ((s.notePast c (bs.map (·.1))).write bs).recheck c bs

/-- A withheld store performed: its local and global bytes at their homes, a posted write for each unit of each window that it
names (R216, R316, R319). In deterministic mode an ordinary store to a SYNC page found only now is rejected (R333). -/
def State.performStore (s : State) (c : Nat) (e : Entry) (bs : List (Nat × Byte)) (tag : BitVec 2) (unit : Nat) : State :=
  let sp := s.splitBytes c bs
  let eas := (bs.map fun p => BitVec.ofNat 64 p.1).filter fun (ea : Word) => match spaceOf ea with
    | .window _ _ => false
    | _ => true
  let sync := s.detOf c && eas.any fun ea => match spaceOf ea with
    | .global va => (s.page? (s.who c) va).any (·.sync)
    | _ => false
  let s :=
    if eas = [] then s
    else if sync then
      s.defer c { kind := 0x07, pc := e.pc, faddr := eas.headD 0, slot := BitVec.ofNat 8 e.slot, acc := 1, ord := e.ord }
    else s.atHome c .store e.pc e.slot e.ord eas fun s =>
      ((s.heatAll c eas).writeLocal (clOf c) c (s.ctx c).l e.pc e.slot e.ord sp.loc).writeGlobal c sp.glob
  (sp.win.map (·.1)).dedup.foldl (fun s w =>
    s.sendWindow c e tag w unit ((sp.win.filter (·.1 = w)).map (·.2))) s

/-! ### Step 2: atomics (R205 to R210, R316) -/

/-- A result of a released atomic of context c, the entry of a place in its program order, at a cycle; it belongs to the checkpoint
(R125, R205). -/
def State.deal (s : State) (c ord at_ : Nat) (e : Eff) : State :=
  s.modCtx c fun x => x.resolve ord [{ at_ := at_, inChk := true, eff := e }]

/-- The same for s[d]; s0 discards it (R74). -/
def State.dealS (s : State) (c ord at_ : Nat) (d : BitVec 5) (x : Word) : State :=
  if d = 0 then s else s.deal c ord at_ (.sreg d x)

/-- Bytes written by an atomic of context c at a key. -/
def State.atomWrite (s : State) (c : Nat) (e : Entry) (k : Nat) (bs : List Byte) : State :=
  let s := s.notePast c ((List.range bs.length).map (k + ·))
  if 2 ^ 52 ≤ k then
    ((s.overtake c (clOf c) e.ord ((List.range bs.length).map (k - spKey (clOf c) 0 + ·))).write (runAt k bs)).refresh c (runAt k bs)
  else (s.write (runAt k bs)).recheck c (runAt k bs)

/-- An atomic at its home on n bytes at an address: new gives the value left from the old one (none leaves memory as it is),
put delivers the old value. On bytes of a barrier object it acts on memory, beside the barrier unit, in its own cycle (DESIGN
CHOICE, log 72: R205 performs an atomic at its location's home, and R214 names no atomic among what the unit applies), which is not
before the unit has applied the context's stores to the object that precede it (`State.behindUnit`). -/
def State.performAtomic (s : State) (c : Nat) (e : Entry) (ea : Word) (n : Nat) (new : Nat → Option Nat)
    (put : Nat → State → State) : State :=
  s.atHome c .atomic e.pc e.slot e.ord (eaRun ea n) fun s =>
    match s.keyAt c ea with
    | none => s
    | some k =>
      let old := s.gnat k n
      let s := s.heatAll c [ea]
      put old (match new old with
        | some x => s.atomWrite c e k (leBytes n x)
        | none => s)

/-- A `vamo` at its home: every lane in ascending order, rejected whole when one is (R210, R318). -/
def State.performVamo (s : State) (c : Nat) (e : Entry) (op : AmoOp) (w64 ret : Bool) (lanes : List (Nat × Word × Word))
    (r at_ : Nat) : State :=
  let n := opBytes w64
  s.atHome c .atomic e.pc e.slot e.ord (lanes.flatMap fun l => eaRun l.2.1 n) fun s =>
    let out := lanes.foldl (fun (acc : State × List (Nat × Nat)) (l : Nat × Word × Word) =>
      match acc.1.keyAt c l.2.1 with
      | none => acc
      | some k =>
        let old := acc.1.gnat k n
        ((acc.1.heatAll c [l.2.1]).atomWrite c e k (leBytes n (amoNew op w64 old l.2.2.toNat)), acc.2 ++ [(l.1, old)])) (s, [])
    if ret && lanes ≠ [] then
      let w := 8 * n
      let of := fun i => (out.2.find? (·.1 = i)).map (·.2)
      out.1.deal c e.ord at_ (.vec r (mkLanes w fun i => (of i).getD 0) (mkLanes w fun i => if (of i).isSome then 2 ^ w - 1 else 0))
    else out.1

/-- A `famo` performed: in deterministic mode the cluster's ordered atomic unit gathers it; otherwise it is applied at its home
now or, as the device may have it, in the next cycle, at the key that its location translates to now; now where an acquire fence
of its bundle is behind it (R209, R212, R381; log 1). -/
def State.performFamo (s : State) (c : Nat) (e : Entry) (ty : FTy) (ea : Word) (x : BitVec 32) (bar : Word) : State :=
  let d : Due :=
    { ctx := c, arg := ea.toNat, arg2 := x.toNat, word := bar, wr := decide (ty = .bf16),
      nats := [e.pc.toNat, e.slot, e.ord] ++ (s.keyAt c ea).toList ++ e.maps.flatMap Tlb.nats }
  if s.detOf c || decide (e.ord < (s.ctx c).acqAt) then s.famoLand d
  else
    let (b, s) := s.choose
    if b then s.schedule (s.now + 1) .famoArrival d else s.famoLand d

/-! ### Step 2: batches and platforms (R218, R221, R264) -/

/-- A released `bclose`: the tag's batch is closed and asks each of its peers for a summary, within the bound of class D0 of
their route (R218; log 31). -/
def State.performClose (s : State) (c : Nat) (tag : BitVec 2) (key : Nat) : State :=
  let (id, s) := s.openBatch c tag
  let ws := s.peersOf c ((((s.ctx c).batches.find? (·.id = id)).map (·.touched)).getD [])
  let s := s.modBatch c id fun b => { b with closed := true, key := key, waiting := ws }
  let bound := (ws.map fun w =>
    let x := s.win c w
    (s.msgEntry (s.routeOf (localRank x.peer + x.mod * 512)) 0).base).foldl max 0
  let s := if ws = [] then s else s.schedule (s.now + nsCycles bound) .batchSummaryBoundExpiry { id := id, ctx := c }
  ws.foldl (fun s w => (s.askSummary c id w).summarise c id w) (s.postBatches c tag)

/-- A released `prel`: applied now, or after the sparse hold on its platform (R221, R225, R264). -/
def State.performPrel (s : State) (c : Nat) (e : Entry) (pn : BitVec 6) : State :=
  let r : PrelRec := { cy := s.now, pn := pn.toNat, l := (s.ctx c).l, ctx := c, pc := e.pc, slot := e.slot, ord := e.ord }
  if (s.plat (clOf c) pn.toNat).sparseHeld then s.modCluster (clOf c) fun k => { k with prels := k.prels ++ [r] }
  else s.applyPrel r

/-! ### Step 2: engine commands -/

/-- A fill is released on the command's platform (R221). -/
def State.fillStarts (s : State) (x : Cmd) : State :=
  match x.pn with
  | some p => s.modPlat (clOf x.ctx) p.toNat fun y => y.fillReleased x.id
  | none => s

/-- AN ENGINE COMMAND of context c RELEASED: its bound runs from here, and its engine begins (R235, R237). It observes the stores
released before it, those that are still on their way to a barrier unit too (R331). -/
def State.performCmd (s : State) (c id : Nat) : State :=
  match s.cmd? id with
  | none => s.mxRelease (coreOf c) id
  | some x0 =>
    let past := (s.released c).reverse
    let begun := fun (x : Cmd) => { x with release := some s.now, deadline := s.now + nsCycles x.deadline, past := past }
    let s := s.modCmd id begun
    let x := begun x0
    let half := (x.deadline - s.now) / 2
    match x.k with
    | .copy _ _ _ _ => (s.fillStarts x).later half .fillComplete { id := id }
    | .epgo q acc _ vec _ _ =>
      let (st, s) := s.epSnapshot x q acc vec
      let s := s.modCmd id fun y => { y with record := { y.record with status := st.getD 0 } }
      (s.fillStarts x).later half .fillComplete { id := id }
    | .pool _ _ _ _ => (s.fillStarts x).later (s.stage x) .lookupDispatch { id := id }
    | .upd _ _ _ => s.later (s.stage x) .updateDispatch { id := id }
    | .msend blk => s.sendRelease x blk
    | .rpost blk => (s.fillStarts x).postRelease x blk
    | .rcancel _ => s.toJunction .cancelArrival x
    | .a2a blk _ _ _ _ => (s.fillStarts x).a2aRelease x blk
    | .gsub blk => s.gsubRelease x blk
    | .tlbir lo hi asid => s.tlbirRelease x lo hi asid
    | .mig va size asid dst => s.migRelease x va size asid dst

/-- A load behind an acquiring atomic of its bundle takes its value; its result arrives at its latency from the bundle's issue, or in
the next cycle where that is past (R205, R212). -/
def State.performLoad (s : State) (c cyc : Nat) (e : Entry) : State :=
  let rs := (s.reload c { Issue.none with cyc := cyc } e true).2
  s.modCtx c fun x => x.resolve e.ord (rs.map fun p => { p with at_ := max p.at_ (s.now + 1), inChk := true })

/-- One released entry of context c performed, its bundle counted as issued in cycle cyc, under the translations that it was
checked under (R125, R358, R379). What is ordered behind the context's window writes, and an engine command, which observes them,
finds them landed: a release fence, `bar.arr`, `prel`, commands (R212, R215, R225, R326, R331; log 74). -/
def State.performNow (s : State) (c cyc : Nat) (e : Entry) : State :=
  let at_ := fun (lat : Nat) => max (cyc + lat) (s.now + 1)
  (s.famoLandAll c).under e.maps fun s =>
    let bar := fun (s : State) (a : Nat) (op : BarOp) => s.barAdd (clOf c)
      { at_ := s.now + 2, addr := barObj a, op := op, ctx := c, l := (s.ctx c).l, pc := e.pc, slot := e.slot, ord := e.ord }
    match e.k with
    | .store bs tag unit => s.performStore c e bs tag unit
    | .amo op w64 ea b d lat =>
      s.performAtomic c e ea (opBytes w64) (fun old => some (amoNew op w64 old b.toNat)) fun old s =>
        s.dealS c e.ord (at_ lat) d (amoOld op w64 old)
    | .cas w64 ea new cmp d lat =>
      let n := opBytes w64
      s.performAtomic c e ea n (fun old => if old = cmp.toNat % 2 ^ (8 * n) then some (new.toNat % 2 ^ (8 * n)) else none)
        fun old s => s.dealS c e.ord (at_ lat) d (BitVec.ofNat 64 old)
    | .vamo op w64 ret lanes r lat => s.performVamo c e op w64 ret lanes r (at_ lat)
    | .famo ty ea x b => s.performFamo c e ty ea x b
    | .barArr a k => bar (s.landAll c) a (.arrive k)
    | .barExp a x => bar s a (.expect x)
    | .prel pn => (s.landAll c).performPrel c e pn
    | .bclose tag key => s.performClose c tag key
    | .cmd id => (s.landAll c).performCmd c id
    | .refusedCopy r => s.postRecord c r
    | .fence => s.landAll c
    | .load _ _ _ _ => s.performLoad c cyc e

/-- Whether an entry accesses global memory, and whether it accesses anything else. -/
def EntryK.spaces (k : EntryK) : Bool × Bool :=
  let g := fun (ea : Word) => decide (fld ea 56 8 = 0)
  let of := fun (eas : List Word) => (eas.any g, eas.any fun ea => !g ea)
  match k with
  | .store bs _ _ => of (bs.map fun p => BitVec.ofNat 64 p.1)
  | .amo _ _ ea _ _ _ => of [ea]
  | .cas _ ea _ _ _ _ => of [ea]
  | .vamo _ _ _ lanes _ _ => of (lanes.map (·.2.1))
  | .famo _ ea _ _ => of [ea]
  | _ => (false, true)

/-- Whether an entry is performed behind the accesses to global memory that its release has left to the L2 homes: an engine command;
a load behind an atomic. -/
def EntryK.isCmd : EntryK → Bool
  | .cmd _ => true
  | .load _ _ _ _ => true
  | _ => false

/-- Whether an entry writes registers of its context as it is performed (R205, R207). -/
def EntryK.returns : EntryK → Bool
  | .amo _ _ _ _ d _ => d != 0
  | .cas _ _ _ _ d _ => d != 0
  | .vamo _ _ ret _ _ _ => ret
  | .load _ _ _ _ => true
  | _ => false

/-- Whether an entry leaves its context only once every access before it is visible: a release fence, `bar.arr`, `prel`, `tlbir`
(R212, R215, R225, R326, R380). -/
def State.orders (s : State) : EntryK → Bool
  | .fence => true
  | .barArr _ _ => true
  | .prel _ => true
  | .cmd id => (s.cmd? id).any fun x => match x.k with
    | .tlbir _ _ _ => true
    | _ => false
  | _ => false

/-- Whether an entry is a migration: they leave their contexts together, when every core has had its turn, so that the submissions of a
cycle are decided in ascending CTXID (R386). -/
def State.isMig (s : State) : EntryK → Bool
  | .cmd id => (s.cmd? id).any fun x => match x.k with
    | .mig _ _ _ _ => true
    | _ => false
  | _ => false

/-- Whether a `famo` of context c is on its way to global memory (R209). -/
def State.famoOut (s : State) (c : Nat) : Bool :=
  s.agenda.any fun a => a.ev = .famoArrival && a.due.ctx = c && decide (a.due.nats.getD 3 (2 ^ 52) < 2 ^ 52)

/-- Whether every access that context c has made before is visible to all: none is on its way to another module or, as a `famo`, to
global memory, and none was performed at an L2 home in this cycle; what touched the scratchpad alone is, from its release on (R326). -/
def State.visible (s : State) (c : Nat) : Bool :=
  !s.farPending c && !s.famoOut c && decide ((s.ctx c).homeAt ≠ some s.now)

/-- Whether an atomic of context c acts on a barrier object to which a store of the context is on its way to the barrier unit: it acts
on what that store leaves (R125, R205, R214). -/
def State.behindUnit (s : State) (c : Nat) (k : EntryK) : Bool :=
  let eas : List Word := match k with
    | .amo _ _ ea _ _ _ => [ea]
    | .cas _ ea _ _ _ _ => [ea]
    | .vamo _ _ _ lanes _ _ => lanes.map (·.2.1)
    | .famo _ ea _ _ => [ea]
    | _ => []
  let objs := eas.filterMap fun ea => match spaceOf ea with
    | .localSp a => some (barObj a)
    | _ => none
  (s.cluster (clOf c)).barq.any fun r => r.ctx = c && objs.contains r.addr && match r.op with
    | .store _ => true
    | _ => false

/-- Whether a released entry of context c can be performed only in a later cycle, whatever is queued: it is ordered behind an access that
is not visible yet, or acts behind a store that the barrier unit has not applied (R205, R212, R326). -/
def State.delayed (s : State) (c : Nat) (k : EntryK) : Bool := (s.orders k && !s.visible c) || s.behindUnit c k

/-- A released entry of context c left to be performed; the place of its results is kept (R88). -/
def State.leave (s : State) (c cyc : Nat) (e : Entry) : State :=
  let s := { s with l2q := s.l2q ++ [{ ctx := c, at_ := cyc, entry := e }] }
  if e.k.returns then s.modCtx c fun x => { x with pend := x.pend ++ [Pending.await e.ord] } else s

/-- An entry of a release of context c in its turn, and what has gone before it: nothing left for the L2 homes, accesses to global
memory alone, or something behind which every later entry waits. An access to global memory is performed at its home later in
the cycle (R316); so is an engine command behind one, and everything behind that or behind an access that is not global alone. An
entry that is ordered behind an access to global memory or to another module waits until that is visible, and everything behind it
waits with it (R212, R326). -/
def State.enter (c cyc : Nat) (acc : Nat × State) (e : Entry) : Nat × State :=
  let g := e.k.spaces
  let queue := fun (n : Nat) => (n, acc.2.leave c cyc e)
  if acc.1 = 2 ∨ (g.1 ∧ g.2) ∨ (acc.1 = 1 ∧ (e.k.isCmd || acc.2.orders e.k) = true) ∨ acc.2.delayed c e.k = true ∨ acc.2.isMig e.k = true then
    queue 2
  else if g.1 then queue 1
  else (acc.1, acc.2.performNow c cyc e)

/-- The entries of a release of context c performed in program order, those with an L2 home left to it; behind entries of an
earlier release that are still to leave the context every one waits (R316, R326, R358). -/
def State.perform (s : State) (c cyc : Nat) (es : List Entry) : State :=
  (es.foldl (State.enter c cyc) (if s.queued c = [] then 0 else 2, s)).2

/-! ### The checkpoint (R125) -/

/-- An entry of the issuing context with the translations of its accesses, as they are checked: those of a bundle that stalls have been
(R89, R358, R379). -/
def State.mapped (s : State) (e : Entry) : Entry :=
  if e.maps ≠ [] then e
  else { e with maps := (e.k.accesses.filterMap fun a => match spaceOf a.1 with
      | .global va => s.page? (s.who s.iss.ctx) va
      | _ => none).dedup }

/-- THE RELEASE of the issuing context: blocked while a translation is outstanding; the first fault of an entry; otherwise
every entry performed in program order, and k goes on (R358). A bundle at the end of its stall has passed these checks (R89). -/
def State.release (s : State) (k : State → State) : State :=
  let es := s.cur.wb
  let walks := if s.iss.held then [] else s.walksNeeded es
  if walks ≠ [] then s.blocked .loadBlock [] [] [] walks
  else
    match if s.iss.held then none else s.releaseFault es with
    | some t => s.raise t
    | none => k (((s.learnAll es).modCur fun c => { c with wb := [] }).perform s.iss.ctx s.iss.cyc (es.map s.mapped))

/-- THE CHECKPOINT of a context: its visible state as its results in flight leave it, the place it goes on from, its
control-flow count (R125, R359). -/
def Ctx.capture (c : Ctx) : Ctx :=
  { c with
    chk := c.vis, chkPc := c.pc, chkCf := c.cfCount, pend := c.pend.map fun p => { p with inChk := true }
    popped := if c.cons.isSome then c.popped else [] }

/-- A checkpoint taken by the issuing context. -/
def State.capture (s : State) : State := s.modCur Ctx.capture

/-- R125: the entries are released and the checkpoint is taken; the step takes it again once control has passed. -/
def execCkpt (s : State) : Res := .next (s.release State.capture)

/-- R125: as `ckpt`, and a safe point, at which a requested pre-emption takes the context (R366). -/
def execSafe (s : State) : Res :=
  .next (s.release fun s => { s.capture with iss := { s.iss with safe := true } })

/-- R124: the entries are released; the context ends once its results have arrived and its entries are performed. -/
def execHalt (s : State) : Res :=
  .next (s.release fun s =>
    let s := s.modCur fun c => { c with status := .halting }
    ({ s with iss := { s.iss with halts := true } }).schedule (s.now + 1) .contextDone { ctx := s.iss.ctx })

/-- TRANSLATION WALK COMPLETE: the walk of page due.arg for context due.ctx ends: a valid leaf is held, and the checkpoint
bundle that waits for it is evaluated again (R358, R374, R378). -/
def execTranslationWalkComplete (s : State) : Res :=
  let c := s.due.ctx
  let p := s.due.arg
  .next (if !(s.ctx c).walkAsk.contains p then s
    else
      let s := match s.walk (s.who c) (4096 * p) with
        | .ok e => s.learn e
        | _ => s
      s.modCtx c fun x => { x with walkAsk := x.walkAsk.erase p, walked := p :: x.walked })

end Sys2Proof.Machine
end

