-- ==== Sys2Proof/Machine/Issue.lean ====
section
/-! DEFINITION. Sys2Proof/Machine/Issue.lean: what happens to a context between bundles: results arrive (R88), deferred
traps and the watchdog's trap are raised (R39, R360). -/

namespace Sys2Proof.Machine

/-- RESULT ARRIVAL: the results of context due.ctx that are due by this cycle are written (R87 to R90). -/
def execResultArrival (s : State) : Res := .next (s.modCtx s.due.ctx fun x => x.deliver s.now)

/-- The deferred traps of context c raised on its due bundle, in the order of their operations' release (R360). -/
def State.raiseDeferred (s : State) (c : Nat) : State :=
  match (s.ctx c).deferred with
  | [] => s
  | ts => (s.modCtx c fun x => { x with deferred := [] }).takeTrap c (inRelease ts)

/-- DEFERRED TRAP of context due.ctx (R360). -/
def execDeferredTrap (s : State) : Res := .next (s.raiseDeferred s.due.ctx)

/-- The watchdog trap on context c's due bundle (R39). -/
def State.raiseWatchdog (s : State) (c : Nat) : State := s.takeTrap c [{ kind := 0x08, pc := (s.ctx c).pc }]

/-- WATCHDOG EXPIRY of context due.ctx (R39). -/
def execWatchdogExpiry (s : State) : Res := .next (s.raiseWatchdog s.due.ctx)

end Sys2Proof.Machine
end

