-- ==== Sys2Proof/Machine/Dispatch.lean ====
section
/-! DEFINITION. Sys2Proof/Machine/Dispatch.lean: what each instruction does: one arm per constructor, one meaning per arm. -/

namespace Sys2Proof.Machine

def exec (i : Instr) (s : State) : Host.Outcome State Fault Refusal :=
  match i with
  | .literal x1 => Sys2Proof.Machine.execLiteral x1 s
  | .add x1 x2 x3 x4 => Sys2Proof.Machine.execAdd x1 x2 x3 x4 s
  | .sub x1 x2 x3 x4 => Sys2Proof.Machine.execSub x1 x2 x3 x4 s
  | .min x1 x2 x3 x4 => Sys2Proof.Machine.execMin x1 x2 x3 x4 s
  | .max x1 x2 x3 x4 => Sys2Proof.Machine.execMax x1 x2 x3 x4 s
  | .minn x1 x2 x3 x4 => Sys2Proof.Machine.execMinn x1 x2 x3 x4 s
  | .maxn x1 x2 x3 x4 => Sys2Proof.Machine.execMaxn x1 x2 x3 x4 s
  | .and x1 x2 x3 x4 => Sys2Proof.Machine.execAnd x1 x2 x3 x4 s
  | .or x1 x2 x3 x4 => Sys2Proof.Machine.execOr x1 x2 x3 x4 s
  | .xor x1 x2 x3 x4 => Sys2Proof.Machine.execXor x1 x2 x3 x4 s
  | .andn x1 x2 x3 x4 => Sys2Proof.Machine.execAndn x1 x2 x3 x4 s
  | .shl x1 x2 x3 x4 => Sys2Proof.Machine.execShl x1 x2 x3 x4 s
  | .shr x1 x2 x3 x4 => Sys2Proof.Machine.execShr x1 x2 x3 x4 s
  | .sra x1 x2 x3 x4 => Sys2Proof.Machine.execSra x1 x2 x3 x4 s
  | .rot x1 x2 x3 x4 => Sys2Proof.Machine.execRot x1 x2 x3 x4 s
  | .mov x1 x2 => Sys2Proof.Machine.execMov x1 x2 s
  | .clz x1 x2 => Sys2Proof.Machine.execClz x1 x2 s
  | .ctz x1 x2 => Sys2Proof.Machine.execCtz x1 x2 s
  | .popc x1 x2 => Sys2Proof.Machine.execPopc x1 x2 s
  | .bswap16 x1 x2 => Sys2Proof.Machine.execBswap16 x1 x2 s
  | .bswap32 x1 x2 => Sys2Proof.Machine.execBswap32 x1 x2 s
  | .bswap64 x1 x2 => Sys2Proof.Machine.execBswap64 x1 x2 s
  | .sext8 x1 x2 => Sys2Proof.Machine.execSext8 x1 x2 s
  | .sext16 x1 x2 => Sys2Proof.Machine.execSext16 x1 x2 s
  | .sext32 x1 x2 => Sys2Proof.Machine.execSext32 x1 x2 s
  | .zext8 x1 x2 => Sys2Proof.Machine.execZext8 x1 x2 s
  | .zext16 x1 x2 => Sys2Proof.Machine.execZext16 x1 x2 s
  | .zext32 x1 x2 => Sys2Proof.Machine.execZext32 x1 x2 s
  | .mul x1 x2 x3 x4 => Sys2Proof.Machine.execMul x1 x2 x3 x4 s
  | .mulh x1 x2 x3 x4 => Sys2Proof.Machine.execMulh x1 x2 x3 x4 s
  | .mulhn x1 x2 x3 x4 => Sys2Proof.Machine.execMulhn x1 x2 x3 x4 s
  | .div x1 x2 x3 x4 => Sys2Proof.Machine.execDiv x1 x2 x3 x4 s
  | .divn x1 x2 x3 x4 => Sys2Proof.Machine.execDivn x1 x2 x3 x4 s
  | .rem x1 x2 x3 x4 => Sys2Proof.Machine.execRem x1 x2 x3 x4 s
  | .remn x1 x2 x3 x4 => Sys2Proof.Machine.execRemn x1 x2 x3 x4 s
  | .scmp x1 x2 x3 x4 x5 => Sys2Proof.Machine.execScmp x1 x2 x3 x4 x5 s
  | .sel x1 x2 x3 x4 x5 => Sys2Proof.Machine.execSel x1 x2 x3 x4 x5 s
  | .addi x1 x2 x3 => Sys2Proof.Machine.execAddi x1 x2 x3 s
  | .andi x1 x2 x3 => Sys2Proof.Machine.execAndi x1 x2 x3 s
  | .ori x1 x2 x3 => Sys2Proof.Machine.execOri x1 x2 x3 s
  | .xori x1 x2 x3 => Sys2Proof.Machine.execXori x1 x2 x3 s
  | .shli x1 x2 x3 => Sys2Proof.Machine.execShli x1 x2 x3 s
  | .shri x1 x2 x3 => Sys2Proof.Machine.execShri x1 x2 x3 s
  | .srai x1 x2 x3 => Sys2Proof.Machine.execSrai x1 x2 x3 s
  | .movl x1 x2 => Sys2Proof.Machine.execMovl x1 x2 s
  | .br x1 => Sys2Proof.Machine.execBr x1 s
  | .bcc x1 x2 x3 => Sys2Proof.Machine.execBcc x1 x2 x3 s
  | .jmp x1 => Sys2Proof.Machine.execJmp x1 s
  | .call x1 => Sys2Proof.Machine.execCall x1 s
  | .jr x1 x2 => Sys2Proof.Machine.execJr x1 x2 s
  | .ret x1 => Sys2Proof.Machine.execRet x1 s
  | .loop x1 x2 => Sys2Proof.Machine.execLoop x1 x2 s
  | .lstep x1 x2 x3 => Sys2Proof.Machine.execLstep x1 x2 x3 s
  | .trap x1 x2 => Sys2Proof.Machine.execTrap x1 x2 s
  | .cnext x1 => Sys2Proof.Machine.execCnext x1 s
  | .csrr x1 x2 => Sys2Proof.Machine.execCsrr x1 x2 s
  | .csrw x1 x2 x3 => Sys2Proof.Machine.execCsrw x1 x2 x3 s
  | .ewr x1 x2 => Sys2Proof.Machine.execEwr x1 x2 s
  | .erd x1 x2 => Sys2Proof.Machine.execErd x1 x2 s
  | .mxgo x1 x2 => Sys2Proof.Machine.execMxgo x1 x2 s
  | .mxsgo x1 x2 => Sys2Proof.Machine.execMxsgo x1 x2 s
  | .epgo x1 => Sys2Proof.Machine.execEpgo x1 s
  | .pwait x1 x2 x3 => Sys2Proof.Machine.execPwait x1 x2 x3 s
  | .prel x1 => Sys2Proof.Machine.execPrel x1 s
  | .pstat x1 x2 => Sys2Proof.Machine.execPstat x1 x2 s
  | .sysr x1 x2 => Sys2Proof.Machine.execSysr x1 x2 s
  | .sysw x1 x2 x3 => Sys2Proof.Machine.execSysw x1 x2 x3 s
  | .tlbir x1 x2 x3 => Sys2Proof.Machine.execTlbir x1 x2 x3 s
  | .ctxsave x1 x2 x3 => Sys2Proof.Machine.execCtxsave x1 x2 x3 s
  | .ctxres x1 x2 => Sys2Proof.Machine.execCtxres x1 x2 s
  | .ctxresImg x1 x2 x3 => Sys2Proof.Machine.execCtxresImg x1 x2 x3 s
  | .ctxresLd x1 x2 x3 => Sys2Proof.Machine.execCtxresLd x1 x2 x3 s
  | .ctxkill x1 x2 => Sys2Proof.Machine.execCtxkill x1 x2 s
  | .vaddI x1 x2 x3 x4 x5 => Sys2Proof.Machine.execVaddI x1 x2 x3 x4 x5 s
  | .vsubI x1 x2 x3 x4 x5 => Sys2Proof.Machine.execVsubI x1 x2 x3 x4 x5 s
  | .vmulI x1 x2 x3 x4 x5 => Sys2Proof.Machine.execVmulI x1 x2 x3 x4 x5 s
  | .vmulh x1 x2 x3 x4 x5 => Sys2Proof.Machine.execVmulh x1 x2 x3 x4 x5 s
  | .vmulhn x1 x2 x3 x4 x5 => Sys2Proof.Machine.execVmulhn x1 x2 x3 x4 x5 s
  | .vminI x1 x2 x3 x4 x5 => Sys2Proof.Machine.execVminI x1 x2 x3 x4 x5 s
  | .vmaxI x1 x2 x3 x4 x5 => Sys2Proof.Machine.execVmaxI x1 x2 x3 x4 x5 s
  | .vminn x1 x2 x3 x4 x5 => Sys2Proof.Machine.execVminn x1 x2 x3 x4 x5 s
  | .vmaxn x1 x2 x3 x4 x5 => Sys2Proof.Machine.execVmaxn x1 x2 x3 x4 x5 s
  | .vadds x1 x2 x3 x4 x5 => Sys2Proof.Machine.execVadds x1 x2 x3 x4 x5 s
  | .vaddsn x1 x2 x3 x4 x5 => Sys2Proof.Machine.execVaddsn x1 x2 x3 x4 x5 s
  | .vsubs x1 x2 x3 x4 x5 => Sys2Proof.Machine.execVsubs x1 x2 x3 x4 x5 s
  | .vsubsn x1 x2 x3 x4 x5 => Sys2Proof.Machine.execVsubsn x1 x2 x3 x4 x5 s
  | .vabsI x1 x2 x3 x4 => Sys2Proof.Machine.execVabsI x1 x2 x3 x4 s
  | .vnegI x1 x2 x3 x4 => Sys2Proof.Machine.execVnegI x1 x2 x3 x4 s
  | .vidx x1 x2 x3 => Sys2Proof.Machine.execVidx x1 x2 x3 s
  | .vaddF x1 x2 x3 x4 x5 => Sys2Proof.Machine.execVaddF x1 x2 x3 x4 x5 s
  | .vsubF x1 x2 x3 x4 x5 => Sys2Proof.Machine.execVsubF x1 x2 x3 x4 x5 s
  | .vmulF x1 x2 x3 x4 x5 => Sys2Proof.Machine.execVmulF x1 x2 x3 x4 x5 s
  | .vminF x1 x2 x3 x4 x5 => Sys2Proof.Machine.execVminF x1 x2 x3 x4 x5 s
  | .vmaxF x1 x2 x3 x4 x5 => Sys2Proof.Machine.execVmaxF x1 x2 x3 x4 x5 s
  | .vabsF x1 x2 x3 x4 => Sys2Proof.Machine.execVabsF x1 x2 x3 x4 s
  | .vnegF x1 x2 x3 x4 => Sys2Proof.Machine.execVnegF x1 x2 x3 x4 s
  | .vfma x1 x2 x3 x4 x5 x6 x7 => Sys2Proof.Machine.execVfma x1 x2 x3 x4 x5 x6 x7 s
  | .vfms x1 x2 x3 x4 x5 x6 x7 => Sys2Proof.Machine.execVfms x1 x2 x3 x4 x5 x6 x7 s
  | .vfnma x1 x2 x3 x4 x5 x6 x7 => Sys2Proof.Machine.execVfnma x1 x2 x3 x4 x5 x6 x7 s
  | .vand x1 x2 x3 x4 x5 => Sys2Proof.Machine.execVand x1 x2 x3 x4 x5 s
  | .vor x1 x2 x3 x4 x5 => Sys2Proof.Machine.execVor x1 x2 x3 x4 x5 s
  | .vxor x1 x2 x3 x4 x5 => Sys2Proof.Machine.execVxor x1 x2 x3 x4 x5 s
  | .vandn x1 x2 x3 x4 x5 => Sys2Proof.Machine.execVandn x1 x2 x3 x4 x5 s
  | .vnot x1 x2 x3 x4 => Sys2Proof.Machine.execVnot x1 x2 x3 x4 s
  | .vshl x1 x2 x3 x4 x5 => Sys2Proof.Machine.execVshl x1 x2 x3 x4 x5 s
  | .vshr x1 x2 x3 x4 x5 => Sys2Proof.Machine.execVshr x1 x2 x3 x4 x5 s
  | .vsra x1 x2 x3 x4 x5 => Sys2Proof.Machine.execVsra x1 x2 x3 x4 x5 s
  | .vsel x1 x2 x3 x4 x5 => Sys2Proof.Machine.execVsel x1 x2 x3 x4 x5 s
  | .vcmp x1 x2 x3 x4 x5 x6 => Sys2Proof.Machine.execVcmp x1 x2 x3 x4 x5 x6 s
  | .vcmpn x1 x2 x3 x4 x5 x6 => Sys2Proof.Machine.execVcmpn x1 x2 x3 x4 x5 x6 s
  | .vfcmp x1 x2 x3 x4 x5 x6 => Sys2Proof.Machine.execVfcmp x1 x2 x3 x4 x5 x6 s
  | .vfcmpSig x1 x2 x3 x4 x5 x6 => Sys2Proof.Machine.execVfcmpSig x1 x2 x3 x4 x5 x6 s
  | .vclass x1 x2 x3 x4 x5 x6 x7 => Sys2Proof.Machine.execVclass x1 x2 x3 x4 x5 x6 x7 s
  | .pand x1 x2 x3 => Sys2Proof.Machine.execPand x1 x2 x3 s
  | .por x1 x2 x3 => Sys2Proof.Machine.execPor x1 x2 x3 s
  | .pxor x1 x2 x3 => Sys2Proof.Machine.execPxor x1 x2 x3 s
  | .pandn x1 x2 x3 => Sys2Proof.Machine.execPandn x1 x2 x3 s
  | .pnot x1 x2 => Sys2Proof.Machine.execPnot x1 x2 s
  | .psel x1 x2 x3 x4 => Sys2Proof.Machine.execPsel x1 x2 x3 x4 s
  | .pfirst x1 x2 => Sys2Proof.Machine.execPfirst x1 x2 s
  | .vbcst x1 x2 x3 x4 => Sys2Proof.Machine.execVbcst x1 x2 x3 x4 s
  | .vins x1 x2 x3 x4 x5 => Sys2Proof.Machine.execVins x1 x2 x3 x4 x5 s
  | .vext x1 x2 x3 x4 x5 => Sys2Proof.Machine.execVext x1 x2 x3 x4 x5 s
  | .vextn x1 x2 x3 x4 x5 => Sys2Proof.Machine.execVextn x1 x2 x3 x4 x5 s
  | .vxc x1 x2 x3 x4 x5 => Sys2Proof.Machine.execVxc x1 x2 x3 x4 x5 s
  | .vaddVsI x1 x2 x3 x4 x5 => Sys2Proof.Machine.execVaddVsI x1 x2 x3 x4 x5 s
  | .vsubVsI x1 x2 x3 x4 x5 => Sys2Proof.Machine.execVsubVsI x1 x2 x3 x4 x5 s
  | .vrsubVsI x1 x2 x3 x4 x5 => Sys2Proof.Machine.execVrsubVsI x1 x2 x3 x4 x5 s
  | .vmulVsI x1 x2 x3 x4 x5 => Sys2Proof.Machine.execVmulVsI x1 x2 x3 x4 x5 s
  | .vminVsI x1 x2 x3 x4 x5 => Sys2Proof.Machine.execVminVsI x1 x2 x3 x4 x5 s
  | .vmaxVsI x1 x2 x3 x4 x5 => Sys2Proof.Machine.execVmaxVsI x1 x2 x3 x4 x5 s
  | .vminnVs x1 x2 x3 x4 x5 => Sys2Proof.Machine.execVminnVs x1 x2 x3 x4 x5 s
  | .vmaxnVs x1 x2 x3 x4 x5 => Sys2Proof.Machine.execVmaxnVs x1 x2 x3 x4 x5 s
  | .vandVs x1 x2 x3 x4 x5 => Sys2Proof.Machine.execVandVs x1 x2 x3 x4 x5 s
  | .vorVs x1 x2 x3 x4 x5 => Sys2Proof.Machine.execVorVs x1 x2 x3 x4 x5 s
  | .vxorVs x1 x2 x3 x4 x5 => Sys2Proof.Machine.execVxorVs x1 x2 x3 x4 x5 s
  | .vshlVs x1 x2 x3 x4 x5 => Sys2Proof.Machine.execVshlVs x1 x2 x3 x4 x5 s
  | .vshrVs x1 x2 x3 x4 x5 => Sys2Proof.Machine.execVshrVs x1 x2 x3 x4 x5 s
  | .vsraVs x1 x2 x3 x4 x5 => Sys2Proof.Machine.execVsraVs x1 x2 x3 x4 x5 s
  | .vaddVsF x1 x2 x3 x4 x5 => Sys2Proof.Machine.execVaddVsF x1 x2 x3 x4 x5 s
  | .vsubVsF x1 x2 x3 x4 x5 => Sys2Proof.Machine.execVsubVsF x1 x2 x3 x4 x5 s
  | .vrsubVsF x1 x2 x3 x4 x5 => Sys2Proof.Machine.execVrsubVsF x1 x2 x3 x4 x5 s
  | .vmulVsF x1 x2 x3 x4 x5 => Sys2Proof.Machine.execVmulVsF x1 x2 x3 x4 x5 s
  | .vminVsF x1 x2 x3 x4 x5 => Sys2Proof.Machine.execVminVsF x1 x2 x3 x4 x5 s
  | .vmaxVsF x1 x2 x3 x4 x5 => Sys2Proof.Machine.execVmaxVsF x1 x2 x3 x4 x5 s
  | .vperm x1 x2 x3 x4 x5 => Sys2Proof.Machine.execVperm x1 x2 x3 x4 x5 s
  | .vrot x1 x2 x3 x4 x5 => Sys2Proof.Machine.execVrot x1 x2 x3 x4 x5 s
  | .vzipLo x1 x2 x3 x4 x5 => Sys2Proof.Machine.execVzipLo x1 x2 x3 x4 x5 s
  | .vzipHi x1 x2 x3 x4 x5 => Sys2Proof.Machine.execVzipHi x1 x2 x3 x4 x5 s
  | .vunzipEv x1 x2 x3 x4 x5 => Sys2Proof.Machine.execVunzipEv x1 x2 x3 x4 x5 s
  | .vunzipOd x1 x2 x3 x4 x5 => Sys2Proof.Machine.execVunzipOd x1 x2 x3 x4 x5 s
  | .vslideDn x1 x2 x3 x4 x5 => Sys2Proof.Machine.execVslideDn x1 x2 x3 x4 x5 s
  | .vslideUp x1 x2 x3 x4 x5 => Sys2Proof.Machine.execVslideUp x1 x2 x3 x4 x5 s
  | .vcmpr x1 x2 x3 x4 => Sys2Proof.Machine.execVcmpr x1 x2 x3 x4 s
  | .vexpd x1 x2 x3 x4 => Sys2Proof.Machine.execVexpd x1 x2 x3 x4 s
  | .vredAddI x1 x2 x3 x4 x5 => Sys2Proof.Machine.execVredAddI x1 x2 x3 x4 x5 s
  | .vredMin x1 x2 x3 x4 x5 => Sys2Proof.Machine.execVredMin x1 x2 x3 x4 x5 s
  | .vredMax x1 x2 x3 x4 x5 => Sys2Proof.Machine.execVredMax x1 x2 x3 x4 x5 s
  | .vredMinn x1 x2 x3 x4 x5 => Sys2Proof.Machine.execVredMinn x1 x2 x3 x4 x5 s
  | .vredMaxn x1 x2 x3 x4 x5 => Sys2Proof.Machine.execVredMaxn x1 x2 x3 x4 x5 s
  | .vredAnd x1 x2 x3 x4 x5 => Sys2Proof.Machine.execVredAnd x1 x2 x3 x4 x5 s
  | .vredOr x1 x2 x3 x4 x5 => Sys2Proof.Machine.execVredOr x1 x2 x3 x4 x5 s
  | .vredXor x1 x2 x3 x4 x5 => Sys2Proof.Machine.execVredXor x1 x2 x3 x4 x5 s
  | .vredAddF x1 x2 x3 x4 x5 => Sys2Proof.Machine.execVredAddF x1 x2 x3 x4 x5 s
  | .vredMinF x1 x2 x3 x4 x5 => Sys2Proof.Machine.execVredMinF x1 x2 x3 x4 x5 s
  | .vredMaxF x1 x2 x3 x4 x5 => Sys2Proof.Machine.execVredMaxF x1 x2 x3 x4 x5 s
  | .vredCnt x1 x2 x3 => Sys2Proof.Machine.execVredCnt x1 x2 x3 s
  | .vscanAddI x1 x2 x3 x4 x5 => Sys2Proof.Machine.execVscanAddI x1 x2 x3 x4 x5 s
  | .vscanMin x1 x2 x3 x4 x5 => Sys2Proof.Machine.execVscanMin x1 x2 x3 x4 x5 s
  | .vscanMax x1 x2 x3 x4 x5 => Sys2Proof.Machine.execVscanMax x1 x2 x3 x4 x5 s
  | .vscanMinn x1 x2 x3 x4 x5 => Sys2Proof.Machine.execVscanMinn x1 x2 x3 x4 x5 s
  | .vscanMaxn x1 x2 x3 x4 x5 => Sys2Proof.Machine.execVscanMaxn x1 x2 x3 x4 x5 s
  | .vscanAddF x1 x2 x3 x4 x5 => Sys2Proof.Machine.execVscanAddF x1 x2 x3 x4 x5 s
  | .vscanMinF x1 x2 x3 x4 x5 => Sys2Proof.Machine.execVscanMinF x1 x2 x3 x4 x5 s
  | .vscanMaxF x1 x2 x3 x4 x5 => Sys2Proof.Machine.execVscanMaxF x1 x2 x3 x4 x5 s
  | .vcvt x1 x2 x3 x4 x5 x6 => Sys2Proof.Machine.execVcvt x1 x2 x3 x4 x5 x6 s
  | .vnarrow x1 x2 x3 x4 x5 x6 x7 => Sys2Proof.Machine.execVnarrow x1 x2 x3 x4 x5 x6 x7 s
  | .vwiden x1 x2 x3 x4 x5 => Sys2Proof.Machine.execVwiden x1 x2 x3 x4 x5 s
  | .fexp2 x1 x2 x3 x4 => Sys2Proof.Machine.execFexp2 x1 x2 x3 x4 s
  | .flog2 x1 x2 x3 x4 => Sys2Proof.Machine.execFlog2 x1 x2 x3 x4 s
  | .fexp x1 x2 x3 x4 => Sys2Proof.Machine.execFexp x1 x2 x3 x4 s
  | .flog x1 x2 x3 x4 => Sys2Proof.Machine.execFlog x1 x2 x3 x4 s
  | .frcp x1 x2 x3 x4 => Sys2Proof.Machine.execFrcp x1 x2 x3 x4 s
  | .frsqrt x1 x2 x3 x4 => Sys2Proof.Machine.execFrsqrt x1 x2 x3 x4 s
  | .fsqrt x1 x2 x3 x4 => Sys2Proof.Machine.execFsqrt x1 x2 x3 x4 s
  | .ftanh x1 x2 x3 x4 => Sys2Proof.Machine.execFtanh x1 x2 x3 x4 s
  | .fsig x1 x2 x3 x4 => Sys2Proof.Machine.execFsig x1 x2 x3 x4 s
  | .fdiv x1 x2 x3 x4 x5 => Sys2Proof.Machine.execFdiv x1 x2 x3 x4 x5 s
  | .qrgen x1 x2 x3 x4 x5 x6 => Sys2Proof.Machine.execQrgen x1 x2 x3 x4 x5 x6 s
  | .qrload x1 x2 x3 => Sys2Proof.Machine.execQrload x1 x2 x3 s
  | .qrsave x1 x2 x3 => Sys2Proof.Machine.execQrsave x1 x2 x3 s
  | .qrscr x1 x2 x3 => Sys2Proof.Machine.execQrscr x1 x2 x3 s
  | .qrscrId x1 x2 => Sys2Proof.Machine.execQrscrId x1 x2 s
  | .hist x1 x2 x3 => Sys2Proof.Machine.execHist x1 x2 x3 s
  | .histRd x1 => Sys2Proof.Machine.execHistRd x1 s
  | .histRdx x1 => Sys2Proof.Machine.execHistRdx x1 s
  | .hclr x1 => Sys2Proof.Machine.execHclr x1 s
  | .qscale x1 x2 x3 => Sys2Proof.Machine.execQscale x1 x2 x3 s
  | .qpack x1 x2 x3 x4 x5 x6 => Sys2Proof.Machine.execQpack x1 x2 x3 x4 x5 x6 s
  | .ldI64 x1 x2 x3 => Sys2Proof.Machine.execLdI64 x1 x2 x3 s
  | .ldI32 x1 x2 x3 => Sys2Proof.Machine.execLdI32 x1 x2 x3 s
  | .ldN32 x1 x2 x3 => Sys2Proof.Machine.execLdN32 x1 x2 x3 s
  | .ldI16 x1 x2 x3 => Sys2Proof.Machine.execLdI16 x1 x2 x3 s
  | .ldN16 x1 x2 x3 => Sys2Proof.Machine.execLdN16 x1 x2 x3 s
  | .ldI8 x1 x2 x3 => Sys2Proof.Machine.execLdI8 x1 x2 x3 s
  | .ldN8 x1 x2 x3 => Sys2Proof.Machine.execLdN8 x1 x2 x3 s
  | .st64 x1 x2 x3 => Sys2Proof.Machine.execSt64 x1 x2 x3 s
  | .st32 x1 x2 x3 => Sys2Proof.Machine.execSt32 x1 x2 x3 s
  | .st16 x1 x2 x3 => Sys2Proof.Machine.execSt16 x1 x2 x3 s
  | .st8 x1 x2 x3 => Sys2Proof.Machine.execSt8 x1 x2 x3 s
  | .vld x1 x2 x3 x4 => Sys2Proof.Machine.execVld x1 x2 x3 x4 s
  | .vst x1 x2 x3 x4 => Sys2Proof.Machine.execVst x1 x2 x3 x4 s
  | .vlds x1 x2 x3 x4 x5 => Sys2Proof.Machine.execVlds x1 x2 x3 x4 x5 s
  | .vgath x1 x2 x3 x4 x5 x6 x7 => Sys2Proof.Machine.execVgath x1 x2 x3 x4 x5 x6 x7 s
  | .vscat x1 x2 x3 x4 x5 x6 x7 => Sys2Proof.Machine.execVscat x1 x2 x3 x4 x5 x6 x7 s
  | .vlddLo x1 x2 x3 x4 => Sys2Proof.Machine.execVlddLo x1 x2 x3 x4 s
  | .vlddHi x1 x2 x3 x4 => Sys2Proof.Machine.execVlddHi x1 x2 x3 x4 s
  | .vstd x1 x2 x3 x4 x5 => Sys2Proof.Machine.execVstd x1 x2 x3 x4 x5 s
  | .ldblk x1 x2 x3 x4 => Sys2Proof.Machine.execLdblk x1 x2 x3 x4 s
  | .ldblkQ x1 x2 => Sys2Proof.Machine.execLdblkQ x1 x2 s
  | .ldblkRel x1 => Sys2Proof.Machine.execLdblkRel x1 s
  | .lock x1 x2 => Sys2Proof.Machine.execLock x1 x2 s
  | .unlock x1 => Sys2Proof.Machine.execUnlock x1 s
  | .amo x1 x2 x3 x4 x5 x6 x7 => Sys2Proof.Machine.execAmo x1 x2 x3 x4 x5 x6 x7 s
  | .cas x1 x2 x3 x4 x5 x6 x7 => Sys2Proof.Machine.execCas x1 x2 x3 x4 x5 x6 x7 s
  | .famo x1 x2 x3 x4 => Sys2Proof.Machine.execFamo x1 x2 x3 x4 s
  | .vamo x1 x2 x3 x4 x5 x6 x7 => Sys2Proof.Machine.execVamo x1 x2 x3 x4 x5 x6 x7 s
  | .fence x1 x2 => Sys2Proof.Machine.execFence x1 x2 s
  | .barArr x1 x2 => Sys2Proof.Machine.execBarArr x1 x2 s
  | .barWait x1 x2 x3 => Sys2Proof.Machine.execBarWait x1 x2 x3 s
  | .barExp x1 x2 => Sys2Proof.Machine.execBarExp x1 x2 s
  | .barTry x1 x2 => Sys2Proof.Machine.execBarTry x1 x2 s
  | .evpop x1 => Sys2Proof.Machine.execEvpop x1 s
  | .evpeek x1 => Sys2Proof.Machine.execEvpeek x1 s
  | .bclose x1 => Sys2Proof.Machine.execBclose x1 s
  | .bwait x1 x2 => Sys2Proof.Machine.execBwait x1 x2 s
  | .pool x1 x2 x3 x4 x5 x6 x7 => Sys2Proof.Machine.execPool x1 x2 x3 x4 x5 x6 x7 s
  | .upd x1 x2 x3 x4 x5 => Sys2Proof.Machine.execUpd x1 x2 x3 x4 x5 s
  | .msend x1 x2 x3 => Sys2Proof.Machine.execMsend x1 x2 x3 s
  | .rpost x1 x2 x3 x4 => Sys2Proof.Machine.execRpost x1 x2 x3 x4 s
  | .rprobe x1 x2 => Sys2Proof.Machine.execRprobe x1 x2 s
  | .rcancel x1 x2 => Sys2Proof.Machine.execRcancel x1 x2 s
  | .a2a x1 x2 x3 x4 x5 x6 x7 => Sys2Proof.Machine.execA2a x1 x2 x3 x4 x5 x6 x7 s
  | .gsub x1 x2 x3 => Sys2Proof.Machine.execGsub x1 x2 x3 s
  | .nop => Sys2Proof.Machine.execNop s
  | .yield => Sys2Proof.Machine.execYield s
  | .halt => Sys2Proof.Machine.execHalt s
  | .ckpt => Sys2Proof.Machine.execCkpt s
  | .safe => Sys2Proof.Machine.execSafe s
  | .rte => Sys2Proof.Machine.execRte s
  | .registerWrite => Sys2Proof.Machine.execRegisterWrite s
  | .copyStart => Sys2Proof.Machine.execCopyStart s
  | .resultArrival => Sys2Proof.Machine.execResultArrival s
  | .lineArrival => Sys2Proof.Machine.execLineArrival s
  | .remoteGranuleArrival => Sys2Proof.Machine.execRemoteGranuleArrival s
  | .raceCheckAnswer => Sys2Proof.Machine.execRaceCheckAnswer s
  | .cardPrefetch => Sys2Proof.Machine.execCardPrefetch s
  | .watchdogExpiry => Sys2Proof.Machine.execWatchdogExpiry s
  | .waitBoundExpiry => Sys2Proof.Machine.execWaitBoundExpiry s
  | .deferredTrap => Sys2Proof.Machine.execDeferredTrap s
  | .contextDone => Sys2Proof.Machine.execContextDone s
  | .dieCompletion => Sys2Proof.Machine.execDieCompletion s
  | .windowWriteAccept => Sys2Proof.Machine.execWindowWriteAccept s
  | .windowWriteLand => Sys2Proof.Machine.execWindowWriteLand s
  | .batchSummary => Sys2Proof.Machine.execBatchSummary s
  | .barrierUnitApply => Sys2Proof.Machine.execBarrierUnitApply s
  | .famoArrival => Sys2Proof.Machine.execFamoArrival s
  | .fillComplete => Sys2Proof.Machine.execFillComplete s
  | .fillFail => Sys2Proof.Machine.execFillFail s
  | .prelHoldApply => Sys2Proof.Machine.execPrelHoldApply s
  | .eventRecordArrival => Sys2Proof.Machine.execEventRecordArrival s
  | .matrixOperationStart => Sys2Proof.Machine.execMatrixOperationStart s
  | .matrixFeedEnd => Sys2Proof.Machine.execMatrixFeedEnd s
  | .matrixResult => Sys2Proof.Machine.execMatrixResult s
  | .matrixStreamFault => Sys2Proof.Machine.execMatrixStreamFault s
  | .lookupDispatch => Sys2Proof.Machine.execLookupDispatch s
  | .depotGather => Sys2Proof.Machine.execDepotGather s
  | .heatSketchDecay => Sys2Proof.Machine.execHeatSketchDecay s
  | .sidingPartial => Sys2Proof.Machine.execSidingPartial s
  | .mergePartialArrival => Sys2Proof.Machine.execMergePartialArrival s
  | .promotionEviction => Sys2Proof.Machine.execPromotionEviction s
  | .promotionPublish => Sys2Proof.Machine.execPromotionPublish s
  | .updateDispatch => Sys2Proof.Machine.execUpdateDispatch s
  | .turntableRowUpdate => Sys2Proof.Machine.execTurntableRowUpdate s
  | .messageHeaderArrival => Sys2Proof.Machine.execMessageHeaderArrival s
  | .postArrival => Sys2Proof.Machine.execPostArrival s
  | .cancelArrival => Sys2Proof.Machine.execCancelArrival s
  | .postTimeout => Sys2Proof.Machine.execPostTimeout s
  | .headerLifetimeExpiry => Sys2Proof.Machine.execHeaderLifetimeExpiry s
  | .pullComplete => Sys2Proof.Machine.execPullComplete s
  | .marshalDispatch => Sys2Proof.Machine.execMarshalDispatch s
  | .ownerPartialArrival => Sys2Proof.Machine.execOwnerPartialArrival s
  | .roundDeadline => Sys2Proof.Machine.execRoundDeadline s
  | .uncorrectableLinkError => Sys2Proof.Machine.execUncorrectableLinkError s
  | .uecTransportFailure => Sys2Proof.Machine.execUecTransportFailure s
  | .invalidationDrainComplete => Sys2Proof.Machine.execInvalidationDrainComplete s
  | .migrationSubmit => Sys2Proof.Machine.execMigrationSubmit s
  | .migrationGranuleCopy => Sys2Proof.Machine.execMigrationGranuleCopy s
  | .migrationSwitch => Sys2Proof.Machine.execMigrationSwitch s
  | .preemptRequest => Sys2Proof.Machine.execPreemptRequest s
  | .trapOverflowClear => Sys2Proof.Machine.execTrapOverflowClear s
  | .queueDoorbell => Sys2Proof.Machine.execQueueDoorbell s
  | .schedulingStep => Sys2Proof.Machine.execSchedulingStep s
  | .clusterSave => Sys2Proof.Machine.execClusterSave s
  | .gangReady => Sys2Proof.Machine.execGangReady s
  | .gangLimitExpiry => Sys2Proof.Machine.execGangLimitExpiry s
  | .gangGo => Sys2Proof.Machine.execGangGo s
  | .gangStart => Sys2Proof.Machine.execGangStart s
  | .gangAbandon => Sys2Proof.Machine.execGangAbandon s
  | .repairDrain => Sys2Proof.Machine.execRepairDrain s
  | .repairReload => Sys2Proof.Machine.execRepairReload s
  | .repairRetire => Sys2Proof.Machine.execRepairRetire s
  | .repairReturn => Sys2Proof.Machine.execRepairReturn s
  | .unitOffline => Sys2Proof.Machine.execUnitOffline s
  | .guestCompletion => Sys2Proof.Machine.execGuestCompletion s
  | .guestCompletionTimeout => Sys2Proof.Machine.execGuestCompletionTimeout s
  | .atsTranslationRequest => Sys2Proof.Machine.execAtsTranslationRequest s
  | .guestCacheRequest => Sys2Proof.Machine.execGuestCacheRequest s
  | .guestInvalidationCompletion => Sys2Proof.Machine.execGuestInvalidationCompletion s
  | .guestInvalidationTimeout => Sys2Proof.Machine.execGuestInvalidationTimeout s
  | .guestQuiesceTimeout => Sys2Proof.Machine.execGuestQuiesceTimeout s
  | .hostAccess => Sys2Proof.Machine.execHostAccess s
  | .coldReset => Sys2Proof.Machine.execColdReset s
  | .warmReset => Sys2Proof.Machine.execWarmReset s
  | .attestationRequest => Sys2Proof.Machine.execAttestationRequest s
  | .powerCapSet => Sys2Proof.Machine.execPowerCapSet s
  | .luvexWatchdogExpiry => Sys2Proof.Machine.execLuvexWatchdogExpiry s
  | .thermalTrip => Sys2Proof.Machine.execThermalTrip s
  | .translationWalkComplete => Sys2Proof.Machine.execTranslationWalkComplete s
  | .batchSummaryBoundExpiry => Sys2Proof.Machine.execBatchSummaryBoundExpiry s
  | .linkRetry => Sys2Proof.Machine.execLinkRetry s

end Sys2Proof.Machine
end

