-- ==== Sys2Proof/Decode.lean ====
section
/-! DEFINITION. Sys2Proof/Decode.lean: slot words to instructions and back. The decoder takes the slot
class of the word (R79 to R82: one word means different things in different classes), is total, and
rejects by name. The encoder is written from the same table (the opcode table's match value and field
positions). After them, `decodeTableWord`. -/

namespace Sys2Proof

/-- Why a slot word is no instruction of its class (each is an illegal encoding of R84). -/
inductive DecodeError where
  /-- a major the class does not assign (R79 to R82), or major 0 in a word that is not all zeros (R84 point 1) -/
  | illegalMajor
  /-- an fn the entry does not assign, or a nonzero field that the entry does not use (R78) -/
  | illegalFields
  /-- a ty, sz, cc, mode, order or scope code that is not assigned (R78, R206) -/
  | illegalCode
  /-- an operand beyond a limit that the entry declares an illegal encoding (R84 point 3) -/
  | illegalOperand
  deriving DecidableEq, Repr

/-- len bits of w from bit lo (R5). -/
def fld (w : BitVec 32) (lo len : Nat) : BitVec len := w.extractLsb' lo len

/-- Bits lo.. of w, len of them, hold v. -/
def seg (w : BitVec 32) (lo len v : Nat) : Bool := fld w lo len == BitVec.ofNat len v

/-- One bit of w. -/
def flag (w : BitVec 32) (lo : Nat) : Bool := fld w lo 1 == 1#1

/-- A Bool as one bit. -/
def bitN (b : Bool) : Nat := if b then 1 else 0

/-- The code of a Ty. -/
def Ty.code : Ty → Nat
  | .i8 => 0
  | .i16 => 1
  | .i32 => 2
  | .i64 => 3
  | .bf16 => 4
  | .f16 => 5
  | .f32 => 6

/-- The Ty of a code, none for an unassigned code. -/
def Ty.ofCode (n : Nat) : Option Ty :=
  match n with
  | 0 => some .i8
  | 1 => some .i16
  | 2 => some .i32
  | 3 => some .i64
  | 4 => some .bf16
  | 5 => some .f16
  | 6 => some .f32
  | _ => none

/-- The code of a Sz. -/
def Sz.code : Sz → Nat
  | .b8 => 0
  | .b16 => 1
  | .b32 => 2
  | .b64 => 3

/-- The Sz of a code, none for an unassigned code. -/
def Sz.ofCode (n : Nat) : Option Sz :=
  match n with
  | 0 => some .b8
  | 1 => some .b16
  | 2 => some .b32
  | 3 => some .b64
  | _ => none

/-- The code of a BCc. -/
def BCc.code : BCc → Nat
  | .eq => 0
  | .ne => 1
  | .lt => 2
  | .ge => 3
  | .le => 4
  | .gt => 5

/-- The BCc of a code, none for an unassigned code. -/
def BCc.ofCode (n : Nat) : Option BCc :=
  match n with
  | 0 => some .eq
  | 1 => some .ne
  | 2 => some .lt
  | 3 => some .ge
  | 4 => some .le
  | 5 => some .gt
  | _ => none

/-- The code of a SCc. -/
def SCc.code : SCc → Nat
  | .eq => 0
  | .ne => 1
  | .lt => 2
  | .ge => 3
  | .le => 4
  | .gt => 5
  | .ltn => 6
  | .gen => 7
  | .len => 8
  | .gtn => 9

/-- The SCc of a code, none for an unassigned code. -/
def SCc.ofCode (n : Nat) : Option SCc :=
  match n with
  | 0 => some .eq
  | 1 => some .ne
  | 2 => some .lt
  | 3 => some .ge
  | 4 => some .le
  | 5 => some .gt
  | 6 => some .ltn
  | 7 => some .gen
  | 8 => some .len
  | 9 => some .gtn
  | _ => none

/-- The code of a VCc. -/
def VCc.code : VCc → Nat
  | .eq => 0
  | .ne => 1
  | .lt => 2
  | .ge => 3
  | .le => 4
  | .gt => 5

/-- The VCc of a code, none for an unassigned code. -/
def VCc.ofCode (n : Nat) : Option VCc :=
  match n with
  | 0 => some .eq
  | 1 => some .ne
  | 2 => some .lt
  | 3 => some .ge
  | 4 => some .le
  | 5 => some .gt
  | _ => none

/-- The code of a FCc. -/
def FCc.code : FCc → Nat
  | .eq => 0
  | .ne => 1
  | .lt => 2
  | .le => 3
  | .gt => 4
  | .ge => 5
  | .un => 6
  | .ord => 7

/-- The FCc of a code, none for an unassigned code. -/
def FCc.ofCode (n : Nat) : Option FCc :=
  match n with
  | 0 => some .eq
  | 1 => some .ne
  | 2 => some .lt
  | 3 => some .le
  | 4 => some .gt
  | 5 => some .ge
  | 6 => some .un
  | 7 => some .ord
  | _ => none

/-- The code of a Rm. -/
def Rm.code : Rm → Nat
  | .rne => 0
  | .rz => 1
  | .rdn => 2
  | .rup => 3
  | .rna => 4
  | .sr => 5
  | .mode => 6

/-- The Rm of a code, none for an unassigned code. -/
def Rm.ofCode (n : Nat) : Option Rm :=
  match n with
  | 0 => some .rne
  | 1 => some .rz
  | 2 => some .rdn
  | 3 => some .rup
  | 4 => some .rna
  | 5 => some .sr
  | 6 => some .mode
  | _ => none

/-- The code of a Grp. -/
def Grp.code : Grp → Nat
  | .ga => 0
  | .gb => 1
  | .gc => 2

/-- The Grp of a code, none for an unassigned code. -/
def Grp.ofCode (n : Nat) : Option Grp :=
  match n with
  | 0 => some .ga
  | 1 => some .gb
  | 2 => some .gc
  | _ => none

/-- The code of a QOut. -/
def QOut.code : QOut → Nat
  | .raw => 0
  | .co => 1
  | .oo => 2

/-- The QOut of a code, none for an unassigned code. -/
def QOut.ofCode (n : Nat) : Option QOut :=
  match n with
  | 0 => some .raw
  | 1 => some .co
  | 2 => some .oo
  | _ => none

/-- The code of a AmoOp. -/
def AmoOp.code : AmoOp → Nat
  | .add => 0
  | .and => 1
  | .or => 2
  | .xor => 3
  | .min => 4
  | .max => 5
  | .minn => 6
  | .maxn => 7
  | .xchg => 8

/-- The AmoOp of a code, none for an unassigned code. -/
def AmoOp.ofCode (n : Nat) : Option AmoOp :=
  match n with
  | 0 => some .add
  | 1 => some .and
  | 2 => some .or
  | 3 => some .xor
  | 4 => some .min
  | 5 => some .max
  | 6 => some .minn
  | 7 => some .maxn
  | 8 => some .xchg
  | _ => none

/-- The code of a Ord. -/
def Ord.code : Ord → Nat
  | .relaxed => 0
  | .acq => 1
  | .rel => 2
  | .ar => 3

/-- The Ord of a code, none for an unassigned code. -/
def Ord.ofCode (n : Nat) : Option Ord :=
  match n with
  | 0 => some .relaxed
  | 1 => some .acq
  | 2 => some .rel
  | 3 => some .ar
  | _ => none

/-- The code of a Scope. -/
def Scope.code : Scope → Nat
  | .ctx => 0
  | .core => 1
  | .cl => 2
  | .die => 3
  | .mod => 4
  | .sys => 5

/-- The Scope of a code, none for an unassigned code. -/
def Scope.ofCode (n : Nat) : Option Scope :=
  match n with
  | 0 => some .ctx
  | 1 => some .core
  | 2 => some .cl
  | 3 => some .die
  | 4 => some .mod
  | 5 => some .sys
  | _ => none

/-- The code of a FKind. -/
def FKind.code : FKind → Nat
  | .acq => 1
  | .rel => 2
  | .full => 3

/-- The FKind of a code, none for an unassigned code. -/
def FKind.ofCode (n : Nat) : Option FKind :=
  match n with
  | 1 => some .acq
  | 2 => some .rel
  | 3 => some .full
  | _ => none

/-- The code of a PCond. -/
def PCond.code : PCond → Nat
  | .pub => 0
  | .idle => 1
  | .free => 2

/-- The PCond of a code, none for an unassigned code. -/
def PCond.ofCode (n : Nat) : Option PCond :=
  match n with
  | 0 => some .pub
  | 1 => some .idle
  | 2 => some .free
  | _ => none

/-- The code of a FTy. -/
def FTy.code : FTy → Nat
  | .f32 => 0
  | .bf16 => 1

/-- The FTy of a code, none for an unassigned code. -/
def FTy.ofCode (n : Nat) : Option FTy :=
  match n with
  | 0 => some .f32
  | 1 => some .bf16
  | _ => none

/-- A decoded row, or the code error of a field. -/
def rowOf (o : Option Instr) : Except DecodeError Instr :=
  match o with
  | some i => .ok i
  | none => .error .illegalCode

/-- Major 0x01 of the scalar class (R100). -/
def decodeScalar01 (w : BitVec 32) : Except DecodeError Instr :=
  if seg w 0 10 0 then .ok (.add (fld w 21 5) (fld w 16 5) (fld w 11 5) (flag w 10)) else
  if seg w 0 10 1 then .ok (.sub (fld w 21 5) (fld w 16 5) (fld w 11 5) (flag w 10)) else
  if seg w 0 10 2 then .ok (.min (fld w 21 5) (fld w 16 5) (fld w 11 5) (flag w 10)) else
  if seg w 0 10 3 then .ok (.max (fld w 21 5) (fld w 16 5) (fld w 11 5) (flag w 10)) else
  if seg w 0 10 4 then .ok (.minn (fld w 21 5) (fld w 16 5) (fld w 11 5) (flag w 10)) else
  if seg w 0 10 5 then .ok (.maxn (fld w 21 5) (fld w 16 5) (fld w 11 5) (flag w 10)) else
  .error .illegalFields

/-- Major 0x02 of the scalar class (R101). -/
def decodeScalar02 (w : BitVec 32) : Except DecodeError Instr :=
  if seg w 0 10 0 then .ok (.and (fld w 21 5) (fld w 16 5) (fld w 11 5) (flag w 10)) else
  if seg w 0 10 1 then .ok (.or (fld w 21 5) (fld w 16 5) (fld w 11 5) (flag w 10)) else
  if seg w 0 10 2 then .ok (.xor (fld w 21 5) (fld w 16 5) (fld w 11 5) (flag w 10)) else
  if seg w 0 10 3 then .ok (.andn (fld w 21 5) (fld w 16 5) (fld w 11 5) (flag w 10)) else
  if seg w 0 10 4 then .ok (.shl (fld w 21 5) (fld w 16 5) (fld w 11 5) (flag w 10)) else
  if seg w 0 10 5 then .ok (.shr (fld w 21 5) (fld w 16 5) (fld w 11 5) (flag w 10)) else
  if seg w 0 10 6 then .ok (.sra (fld w 21 5) (fld w 16 5) (fld w 11 5) (flag w 10)) else
  if seg w 0 10 7 then .ok (.rot (fld w 21 5) (fld w 16 5) (fld w 11 5) (flag w 10)) else
  .error .illegalFields

/-- Major 0x03 of the scalar class (R102). -/
def decodeScalar03 (w : BitVec 32) : Except DecodeError Instr :=
  if seg w 0 16 0 then .ok (.mov (fld w 21 5) (fld w 16 5)) else
  if seg w 0 16 1 then .ok (.clz (fld w 21 5) (fld w 16 5)) else
  if seg w 0 16 2 then .ok (.ctz (fld w 21 5) (fld w 16 5)) else
  if seg w 0 16 3 then .ok (.popc (fld w 21 5) (fld w 16 5)) else
  if seg w 0 16 4 then .ok (.bswap16 (fld w 21 5) (fld w 16 5)) else
  if seg w 0 16 5 then .ok (.bswap32 (fld w 21 5) (fld w 16 5)) else
  if seg w 0 16 6 then .ok (.bswap64 (fld w 21 5) (fld w 16 5)) else
  if seg w 0 16 8 then .ok (.sext8 (fld w 21 5) (fld w 16 5)) else
  if seg w 0 16 9 then .ok (.sext16 (fld w 21 5) (fld w 16 5)) else
  if seg w 0 16 10 then .ok (.sext32 (fld w 21 5) (fld w 16 5)) else
  if seg w 0 16 12 then .ok (.zext8 (fld w 21 5) (fld w 16 5)) else
  if seg w 0 16 13 then .ok (.zext16 (fld w 21 5) (fld w 16 5)) else
  if seg w 0 16 14 then .ok (.zext32 (fld w 21 5) (fld w 16 5)) else
  .error .illegalFields

/-- Major 0x04 of the scalar class (R103). -/
def decodeScalar04 (w : BitVec 32) : Except DecodeError Instr :=
  if seg w 0 10 0 then .ok (.mul (fld w 21 5) (fld w 16 5) (fld w 11 5) (flag w 10)) else
  if seg w 0 10 1 then .ok (.mulh (fld w 21 5) (fld w 16 5) (fld w 11 5) (flag w 10)) else
  if seg w 0 10 2 then .ok (.mulhn (fld w 21 5) (fld w 16 5) (fld w 11 5) (flag w 10)) else
  .error .illegalFields

/-- Major 0x05 of the scalar class (R104). -/
def decodeScalar05 (w : BitVec 32) : Except DecodeError Instr :=
  if seg w 0 10 0 then .ok (.div (fld w 21 5) (fld w 16 5) (fld w 11 5) (flag w 10)) else
  if seg w 0 10 1 then .ok (.divn (fld w 21 5) (fld w 16 5) (fld w 11 5) (flag w 10)) else
  if seg w 0 10 2 then .ok (.rem (fld w 21 5) (fld w 16 5) (fld w 11 5) (flag w 10)) else
  if seg w 0 10 3 then .ok (.remn (fld w 21 5) (fld w 16 5) (fld w 11 5) (flag w 10)) else
  .error .illegalFields

/-- Major 0x06 of the scalar class (R105). -/
def decodeScalar06 (w : BitVec 32) : Except DecodeError Instr :=
  if seg w 4 6 0 then rowOf ((SCc.ofCode (fld w 0 4).toNat).bind fun c => some (.scmp (fld w 21 5) (fld w 16 5) (fld w 11 5) (flag w 10) c)) else
  .error .illegalFields

/-- Major 0x07 of the scalar class (R106). -/
def decodeScalar07 (w : BitVec 32) : Except DecodeError Instr :=
  if seg w 5 5 0 then .ok (.sel (fld w 21 5) (fld w 16 5) (fld w 11 5) (flag w 10) (fld w 0 5)) else
  .error .illegalFields

/-- Major 0x08 of the scalar class (R107). -/
def decodeScalar08 (w : BitVec 32) : Except DecodeError Instr :=
  .ok (.addi (fld w 21 5) (fld w 16 5) (fld w 0 16))

/-- Major 0x09 of the scalar class (R107). -/
def decodeScalar09 (w : BitVec 32) : Except DecodeError Instr :=
  .ok (.andi (fld w 21 5) (fld w 16 5) (fld w 0 16))

/-- Major 0x0A of the scalar class (R107). -/
def decodeScalar0A (w : BitVec 32) : Except DecodeError Instr :=
  .ok (.ori (fld w 21 5) (fld w 16 5) (fld w 0 16))

/-- Major 0x0B of the scalar class (R107). -/
def decodeScalar0B (w : BitVec 32) : Except DecodeError Instr :=
  .ok (.xori (fld w 21 5) (fld w 16 5) (fld w 0 16))

/-- Major 0x0C of the scalar class (R107). -/
def decodeScalar0C (w : BitVec 32) : Except DecodeError Instr :=
  if seg w 6 10 0 then .ok (.shli (fld w 21 5) (fld w 16 5) (fld w 0 6)) else
  .error .illegalFields

/-- Major 0x0D of the scalar class (R107). -/
def decodeScalar0D (w : BitVec 32) : Except DecodeError Instr :=
  if seg w 6 10 0 then .ok (.shri (fld w 21 5) (fld w 16 5) (fld w 0 6)) else
  .error .illegalFields

/-- Major 0x0E of the scalar class (R107). -/
def decodeScalar0E (w : BitVec 32) : Except DecodeError Instr :=
  if seg w 6 10 0 then .ok (.srai (fld w 21 5) (fld w 16 5) (fld w 0 6)) else
  .error .illegalFields

/-- Major 0x0F of the scalar class (R108). -/
def decodeScalar0F (w : BitVec 32) : Except DecodeError Instr :=
  if seg w 0 11 1024 && seg w 14 7 0 then .ok (.movl (fld w 21 5) (fld w 11 3)) else
  .error .illegalFields

/-- Major 0x10 of the scalar class (R111). -/
def decodeScalar10 (w : BitVec 32) : Except DecodeError Instr :=
  .ok (.br (fld w 0 26))

/-- Major 0x11 of the scalar class (R111). -/
def decodeScalar11 (w : BitVec 32) : Except DecodeError Instr :=
  rowOf ((BCc.ofCode (fld w 18 3).toNat).bind fun c => some (.bcc (fld w 21 5) c (fld w 0 18)))

/-- Major 0x12 of the scalar class (R112). -/
def decodeScalar12 (w : BitVec 32) : Except DecodeError Instr :=
  .ok (.jmp (fld w 0 26))

/-- Major 0x13 of the scalar class (R113). -/
def decodeScalar13 (w : BitVec 32) : Except DecodeError Instr :=
  .ok (.call (fld w 0 26))

/-- Major 0x14 of the scalar class (R114). -/
def decodeScalar14 (w : BitVec 32) : Except DecodeError Instr :=
  if seg w 0 16 0 then .ok (.jr (fld w 21 5) (fld w 16 5)) else
  .error .illegalFields

/-- Major 0x15 of the scalar class (R114). -/
def decodeScalar15 (w : BitVec 32) : Except DecodeError Instr :=
  if seg w 0 16 0 && seg w 21 5 0 then .ok (.ret (fld w 16 5)) else
  .error .illegalFields

/-- Major 0x16 of the scalar class (R119). -/
def decodeScalar16 (w : BitVec 32) : Except DecodeError Instr :=
  if seg w 18 3 0 then .ok (.loop (fld w 21 5) (fld w 0 18)) else
  .error .illegalFields

/-- Major 0x17 of the scalar class (R118). -/
def decodeScalar17 (w : BitVec 32) : Except DecodeError Instr :=
  if seg w 0 10 0 && seg w 16 5 0 then .ok (.lstep (fld w 21 5) (fld w 11 5) (flag w 10)) else
  .error .illegalFields

/-- Major 0x18 of the scalar class (R123, R124, R125, R126). -/
def decodeScalar18 (w : BitVec 32) : Except DecodeError Instr :=
  if seg w 0 26 0 then .ok .yield else
  if seg w 0 26 1 then .ok .halt else
  if seg w 0 26 2 then .ok .ckpt else
  if seg w 0 26 3 then .ok .safe else
  if seg w 0 16 4 then .ok (.trap (fld w 21 5) (fld w 16 5)) else
  .error .illegalFields

/-- Major 0x19 of the scalar class (R32). -/
def decodeScalar19 (w : BitVec 32) : Except DecodeError Instr :=
  if seg w 0 21 0 then .ok (.cnext (fld w 21 5)) else
  .error .illegalFields

/-- Major 0x1A of the scalar class (R128). -/
def decodeScalar1A (w : BitVec 32) : Except DecodeError Instr :=
  if seg w 16 5 0 then .ok (.csrr (fld w 21 5) (fld w 0 16)) else
  .error .illegalFields

/-- Major 0x1B of the scalar class (R129). -/
def decodeScalar1B (w : BitVec 32) : Except DecodeError Instr :=
  .ok (.csrw (fld w 21 5) (fld w 16 5) (fld w 0 16))

/-- Major 0x20 of the scalar class (R227). -/
def decodeScalar20 (w : BitVec 32) : Except DecodeError Instr :=
  if seg w 21 5 0 then .ok (.ewr (fld w 16 5) (fld w 0 16)) else
  .error .illegalFields

/-- Major 0x21 of the scalar class (R227). -/
def decodeScalar21 (w : BitVec 32) : Except DecodeError Instr :=
  if seg w 21 5 0 then .ok (.erd (fld w 16 5) (fld w 0 16)) else
  .error .illegalFields

/-- Major 0x22 of the scalar class (R251). -/
def decodeScalar22 (w : BitVec 32) : Except DecodeError Instr :=
  if seg w 3 23 0 then .ok (.mxgo (flag w 2) (fld w 0 2)) else
  .error .illegalFields

/-- Major 0x23 of the scalar class (R264). -/
def decodeScalar23 (w : BitVec 32) : Except DecodeError Instr :=
  if seg w 3 23 0 then .ok (.mxsgo (flag w 2) (fld w 0 2)) else
  .error .illegalFields

/-- Major 0x24 of the scalar class (R257). -/
def decodeScalar24 (w : BitVec 32) : Except DecodeError Instr :=
  if seg w 2 24 0 then .ok (.epgo (fld w 0 2)) else
  .error .illegalFields

/-- Major 0x25 of the scalar class (R224). -/
def decodeScalar25 (w : BitVec 32) : Except DecodeError Instr :=
  if seg w 8 8 0 && seg w 21 5 0 then rowOf ((PCond.ofCode (fld w 6 2).toNat).bind fun c => some (.pwait (fld w 16 5) c (fld w 0 6))) else
  .error .illegalFields

/-- Major 0x26 of the scalar class (R225). -/
def decodeScalar26 (w : BitVec 32) : Except DecodeError Instr :=
  if seg w 6 20 0 then .ok (.prel (fld w 0 6)) else
  .error .illegalFields

/-- Major 0x27 of the scalar class (R226). -/
def decodeScalar27 (w : BitVec 32) : Except DecodeError Instr :=
  if seg w 6 10 0 && seg w 21 5 0 then .ok (.pstat (fld w 16 5) (fld w 0 6)) else
  .error .illegalFields

/-- Major 0x30 of the scalar class (R351). -/
def decodeScalar30 (w : BitVec 32) : Except DecodeError Instr :=
  if seg w 0 26 0 then .ok .rte else
  .error .illegalFields

/-- Major 0x31 of the scalar class (R349). -/
def decodeScalar31 (w : BitVec 32) : Except DecodeError Instr :=
  if seg w 16 5 0 then .ok (.sysr (fld w 21 5) (fld w 0 16)) else
  .error .illegalFields

/-- Major 0x32 of the scalar class (R349). -/
def decodeScalar32 (w : BitVec 32) : Except DecodeError Instr :=
  .ok (.sysw (fld w 21 5) (fld w 16 5) (fld w 0 16))

/-- Major 0x33 of the scalar class (R380). -/
def decodeScalar33 (w : BitVec 32) : Except DecodeError Instr :=
  .ok (.tlbir (fld w 21 5) (fld w 16 5) (fld w 0 16))

/-- Major 0x34 of the scalar class (R354). -/
def decodeScalar34 (w : BitVec 32) : Except DecodeError Instr :=
  if seg w 5 11 0 then .ok (.ctxsave (fld w 21 5) (fld w 16 5) (fld w 0 5)) else
  .error .illegalFields

/-- Major 0x35 of the scalar class (R354). -/
def decodeScalar35 (w : BitVec 32) : Except DecodeError Instr :=
  if seg w 5 16 0 then .ok (.ctxres (fld w 21 5) (fld w 0 5)) else
  if seg w 5 11 1 then .ok (.ctxresImg (fld w 21 5) (fld w 16 5) (fld w 0 5)) else
  if seg w 5 11 2 then .ok (.ctxresLd (fld w 21 5) (fld w 16 5) (fld w 0 5)) else
  .error .illegalFields

/-- Major 0x36 of the scalar class (R354). -/
def decodeScalar36 (w : BitVec 32) : Except DecodeError Instr :=
  if seg w 5 16 0 then .ok (.ctxkill (fld w 21 5) (fld w 0 5)) else
  .error .illegalFields

/-- The scalar class (R79), majors below 0x38. -/
def decodeScalar (w : BitVec 32) : Except DecodeError Instr :=
  match (fld w 26 6).toNat with
  | 0x01 => decodeScalar01 w
  | 0x02 => decodeScalar02 w
  | 0x03 => decodeScalar03 w
  | 0x04 => decodeScalar04 w
  | 0x05 => decodeScalar05 w
  | 0x06 => decodeScalar06 w
  | 0x07 => decodeScalar07 w
  | 0x08 => decodeScalar08 w
  | 0x09 => decodeScalar09 w
  | 0x0A => decodeScalar0A w
  | 0x0B => decodeScalar0B w
  | 0x0C => decodeScalar0C w
  | 0x0D => decodeScalar0D w
  | 0x0E => decodeScalar0E w
  | 0x0F => decodeScalar0F w
  | 0x10 => decodeScalar10 w
  | 0x11 => decodeScalar11 w
  | 0x12 => decodeScalar12 w
  | 0x13 => decodeScalar13 w
  | 0x14 => decodeScalar14 w
  | 0x15 => decodeScalar15 w
  | 0x16 => decodeScalar16 w
  | 0x17 => decodeScalar17 w
  | 0x18 => decodeScalar18 w
  | 0x19 => decodeScalar19 w
  | 0x1A => decodeScalar1A w
  | 0x1B => decodeScalar1B w
  | 0x20 => decodeScalar20 w
  | 0x21 => decodeScalar21 w
  | 0x22 => decodeScalar22 w
  | 0x23 => decodeScalar23 w
  | 0x24 => decodeScalar24 w
  | 0x25 => decodeScalar25 w
  | 0x26 => decodeScalar26 w
  | 0x27 => decodeScalar27 w
  | 0x30 => decodeScalar30 w
  | 0x31 => decodeScalar31 w
  | 0x32 => decodeScalar32 w
  | 0x33 => decodeScalar33 w
  | 0x34 => decodeScalar34 w
  | 0x35 => decodeScalar35 w
  | 0x36 => decodeScalar36 w
  | _ => .error .illegalMajor

/-- Major 0x01 of the vector class (R140). -/
def decodeVector01 (w : BitVec 32) : Except DecodeError Instr :=
  if seg w 0 6 0 then rowOf ((Ty.ofCode (fld w 6 3).toNat).bind fun t => some (.vaddI (fld w 22 4) (fld w 18 4) (fld w 14 4) (fld w 9 5) t)) else
  if seg w 0 6 1 then rowOf ((Ty.ofCode (fld w 6 3).toNat).bind fun t => some (.vsubI (fld w 22 4) (fld w 18 4) (fld w 14 4) (fld w 9 5) t)) else
  if seg w 0 6 2 then rowOf ((Ty.ofCode (fld w 6 3).toNat).bind fun t => some (.vmulI (fld w 22 4) (fld w 18 4) (fld w 14 4) (fld w 9 5) t)) else
  if seg w 0 6 3 then rowOf ((Ty.ofCode (fld w 6 3).toNat).bind fun t => some (.vmulh (fld w 22 4) (fld w 18 4) (fld w 14 4) (fld w 9 5) t)) else
  if seg w 0 6 4 then rowOf ((Ty.ofCode (fld w 6 3).toNat).bind fun t => some (.vmulhn (fld w 22 4) (fld w 18 4) (fld w 14 4) (fld w 9 5) t)) else
  if seg w 0 6 5 then rowOf ((Ty.ofCode (fld w 6 3).toNat).bind fun t => some (.vminI (fld w 22 4) (fld w 18 4) (fld w 14 4) (fld w 9 5) t)) else
  if seg w 0 6 6 then rowOf ((Ty.ofCode (fld w 6 3).toNat).bind fun t => some (.vmaxI (fld w 22 4) (fld w 18 4) (fld w 14 4) (fld w 9 5) t)) else
  if seg w 0 6 7 then rowOf ((Ty.ofCode (fld w 6 3).toNat).bind fun t => some (.vminn (fld w 22 4) (fld w 18 4) (fld w 14 4) (fld w 9 5) t)) else
  if seg w 0 6 8 then rowOf ((Ty.ofCode (fld w 6 3).toNat).bind fun t => some (.vmaxn (fld w 22 4) (fld w 18 4) (fld w 14 4) (fld w 9 5) t)) else
  if seg w 0 6 9 then rowOf ((Ty.ofCode (fld w 6 3).toNat).bind fun t => some (.vadds (fld w 22 4) (fld w 18 4) (fld w 14 4) (fld w 9 5) t)) else
  if seg w 0 6 10 then rowOf ((Ty.ofCode (fld w 6 3).toNat).bind fun t => some (.vaddsn (fld w 22 4) (fld w 18 4) (fld w 14 4) (fld w 9 5) t)) else
  if seg w 0 6 11 then rowOf ((Ty.ofCode (fld w 6 3).toNat).bind fun t => some (.vsubs (fld w 22 4) (fld w 18 4) (fld w 14 4) (fld w 9 5) t)) else
  if seg w 0 6 12 then rowOf ((Ty.ofCode (fld w 6 3).toNat).bind fun t => some (.vsubsn (fld w 22 4) (fld w 18 4) (fld w 14 4) (fld w 9 5) t)) else
  if seg w 0 6 13 && seg w 14 4 0 then rowOf ((Ty.ofCode (fld w 6 3).toNat).bind fun t => some (.vabsI (fld w 22 4) (fld w 18 4) (fld w 9 5) t)) else
  if seg w 0 6 14 && seg w 14 4 0 then rowOf ((Ty.ofCode (fld w 6 3).toNat).bind fun t => some (.vnegI (fld w 22 4) (fld w 18 4) (fld w 9 5) t)) else
  if seg w 0 6 15 && seg w 14 8 0 then rowOf ((Ty.ofCode (fld w 6 3).toNat).bind fun t => some (.vidx (fld w 22 4) (fld w 9 5) t)) else
  .error .illegalFields

/-- Major 0x02 of the vector class (R142). -/
def decodeVector02 (w : BitVec 32) : Except DecodeError Instr :=
  if seg w 0 6 0 then rowOf ((Ty.ofCode (fld w 6 3).toNat).bind fun t => some (.vaddF (fld w 22 4) (fld w 18 4) (fld w 14 4) (fld w 9 5) t)) else
  if seg w 0 6 1 then rowOf ((Ty.ofCode (fld w 6 3).toNat).bind fun t => some (.vsubF (fld w 22 4) (fld w 18 4) (fld w 14 4) (fld w 9 5) t)) else
  if seg w 0 6 2 then rowOf ((Ty.ofCode (fld w 6 3).toNat).bind fun t => some (.vmulF (fld w 22 4) (fld w 18 4) (fld w 14 4) (fld w 9 5) t)) else
  if seg w 0 6 3 then rowOf ((Ty.ofCode (fld w 6 3).toNat).bind fun t => some (.vminF (fld w 22 4) (fld w 18 4) (fld w 14 4) (fld w 9 5) t)) else
  if seg w 0 6 4 then rowOf ((Ty.ofCode (fld w 6 3).toNat).bind fun t => some (.vmaxF (fld w 22 4) (fld w 18 4) (fld w 14 4) (fld w 9 5) t)) else
  if seg w 0 6 5 && seg w 14 4 0 then rowOf ((Ty.ofCode (fld w 6 3).toNat).bind fun t => some (.vabsF (fld w 22 4) (fld w 18 4) (fld w 9 5) t)) else
  if seg w 0 6 6 && seg w 14 4 0 then rowOf ((Ty.ofCode (fld w 6 3).toNat).bind fun t => some (.vnegF (fld w 22 4) (fld w 18 4) (fld w 9 5) t)) else
  .error .illegalFields

/-- Major 0x03 of the vector class (R143). -/
def decodeVector03 (w : BitVec 32) : Except DecodeError Instr :=
  if seg w 0 1 0 then rowOf ((Ty.ofCode (fld w 2 3).toNat).bind fun t => some (.vfma (fld w 22 4) (fld w 18 4) (fld w 14 4) (fld w 10 4) (fld w 5 5) t (flag w 1))) else
  .error .illegalFields

/-- Major 0x04 of the vector class (R143). -/
def decodeVector04 (w : BitVec 32) : Except DecodeError Instr :=
  if seg w 0 1 0 then rowOf ((Ty.ofCode (fld w 2 3).toNat).bind fun t => some (.vfms (fld w 22 4) (fld w 18 4) (fld w 14 4) (fld w 10 4) (fld w 5 5) t (flag w 1))) else
  .error .illegalFields

/-- Major 0x05 of the vector class (R143). -/
def decodeVector05 (w : BitVec 32) : Except DecodeError Instr :=
  if seg w 0 1 0 then rowOf ((Ty.ofCode (fld w 2 3).toNat).bind fun t => some (.vfnma (fld w 22 4) (fld w 18 4) (fld w 14 4) (fld w 10 4) (fld w 5 5) t (flag w 1))) else
  .error .illegalFields

/-- Major 0x06 of the vector class (R141). -/
def decodeVector06 (w : BitVec 32) : Except DecodeError Instr :=
  if seg w 0 6 0 then rowOf ((Ty.ofCode (fld w 6 3).toNat).bind fun t => some (.vand (fld w 22 4) (fld w 18 4) (fld w 14 4) (fld w 9 5) t)) else
  if seg w 0 6 1 then rowOf ((Ty.ofCode (fld w 6 3).toNat).bind fun t => some (.vor (fld w 22 4) (fld w 18 4) (fld w 14 4) (fld w 9 5) t)) else
  if seg w 0 6 2 then rowOf ((Ty.ofCode (fld w 6 3).toNat).bind fun t => some (.vxor (fld w 22 4) (fld w 18 4) (fld w 14 4) (fld w 9 5) t)) else
  if seg w 0 6 3 then rowOf ((Ty.ofCode (fld w 6 3).toNat).bind fun t => some (.vandn (fld w 22 4) (fld w 18 4) (fld w 14 4) (fld w 9 5) t)) else
  if seg w 0 6 4 && seg w 14 4 0 then rowOf ((Ty.ofCode (fld w 6 3).toNat).bind fun t => some (.vnot (fld w 22 4) (fld w 18 4) (fld w 9 5) t)) else
  if seg w 0 6 5 then rowOf ((Ty.ofCode (fld w 6 3).toNat).bind fun t => some (.vshl (fld w 22 4) (fld w 18 4) (fld w 14 4) (fld w 9 5) t)) else
  if seg w 0 6 6 then rowOf ((Ty.ofCode (fld w 6 3).toNat).bind fun t => some (.vshr (fld w 22 4) (fld w 18 4) (fld w 14 4) (fld w 9 5) t)) else
  if seg w 0 6 7 then rowOf ((Ty.ofCode (fld w 6 3).toNat).bind fun t => some (.vsra (fld w 22 4) (fld w 18 4) (fld w 14 4) (fld w 9 5) t)) else
  .error .illegalFields

/-- Major 0x07 of the vector class (R145). -/
def decodeVector07 (w : BitVec 32) : Except DecodeError Instr :=
  if seg w 0 6 0 then rowOf ((Ty.ofCode (fld w 6 3).toNat).bind fun t => some (.vsel (fld w 22 4) (fld w 18 4) (fld w 14 4) (fld w 9 5) t)) else
  .error .illegalFields

/-- Major 0x08 of the vector class (R150). -/
def decodeVector08 (w : BitVec 32) : Except DecodeError Instr :=
  if seg w 0 2 0 then rowOf ((Ty.ofCode (fld w 5 3).toNat).bind fun t => (VCc.ofCode (fld w 2 3).toNat).bind fun c => some (.vcmp (fld w 21 5) (fld w 17 4) (fld w 13 4) (fld w 8 5) t c)) else
  if seg w 0 2 1 then rowOf ((Ty.ofCode (fld w 5 3).toNat).bind fun t => (VCc.ofCode (fld w 2 3).toNat).bind fun c => some (.vcmpn (fld w 21 5) (fld w 17 4) (fld w 13 4) (fld w 8 5) t c)) else
  .error .illegalFields

/-- Major 0x09 of the vector class (R151). -/
def decodeVector09 (w : BitVec 32) : Except DecodeError Instr :=
  if seg w 0 2 0 then rowOf ((Ty.ofCode (fld w 5 3).toNat).bind fun t => (FCc.ofCode (fld w 2 3).toNat).bind fun c => some (.vfcmp (fld w 21 5) (fld w 17 4) (fld w 13 4) (fld w 8 5) t c)) else
  if seg w 0 2 1 then rowOf ((Ty.ofCode (fld w 5 3).toNat).bind fun t => (FCc.ofCode (fld w 2 3).toNat).bind fun c => some (.vfcmpSig (fld w 21 5) (fld w 17 4) (fld w 13 4) (fld w 8 5) t c)) else
  .error .illegalFields

/-- Major 0x0A of the vector class (R152). -/
def decodeVector0A (w : BitVec 32) : Except DecodeError Instr :=
  rowOf ((Ty.ofCode (fld w 5 3).toNat).bind fun t => some (.vclass (fld w 21 5) (fld w 17 4) (fld w 13 4) (fld w 8 5) t (fld w 2 3) (fld w 0 2)))

/-- Major 0x0B of the vector class (R153). -/
def decodeVector0B (w : BitVec 32) : Except DecodeError Instr :=
  if seg w 0 11 0 then .ok (.pand (fld w 21 5) (fld w 16 5) (fld w 11 5)) else
  if seg w 0 11 1 then .ok (.por (fld w 21 5) (fld w 16 5) (fld w 11 5)) else
  if seg w 0 11 2 then .ok (.pxor (fld w 21 5) (fld w 16 5) (fld w 11 5)) else
  if seg w 0 11 3 then .ok (.pandn (fld w 21 5) (fld w 16 5) (fld w 11 5)) else
  if seg w 0 16 4 then .ok (.pnot (fld w 21 5) (fld w 16 5)) else
  if seg w 0 6 5 then .ok (.psel (fld w 21 5) (fld w 16 5) (fld w 11 5) (fld w 6 5)) else
  if seg w 0 16 6 then .ok (.pfirst (fld w 21 5) (fld w 16 5)) else
  .error .illegalFields

/-- Major 0x0C of the vector class (R146). -/
def decodeVector0C (w : BitVec 32) : Except DecodeError Instr :=
  if seg w 0 5 0 && seg w 18 4 0 then rowOf ((Ty.ofCode (fld w 5 3).toNat).bind fun t => some (.vbcst (fld w 22 4) (fld w 13 5) (fld w 8 5) t)) else
  if seg w 0 1 1 && seg w 8 5 0 then rowOf ((Ty.ofCode (fld w 5 3).toNat).bind fun t => some (.vins (fld w 22 4) (fld w 18 4) (fld w 13 5) t (fld w 1 4))) else
  .error .illegalFields

/-- Major 0x0D of the vector class (R147). -/
def decodeVector0D (w : BitVec 32) : Except DecodeError Instr :=
  if seg w 0 1 0 && seg w 8 5 0 then rowOf ((Ty.ofCode (fld w 5 3).toNat).bind fun t => some (.vext (fld w 22 4) (fld w 18 4) (fld w 13 5) t (fld w 1 4))) else
  if seg w 0 1 1 && seg w 8 5 0 then rowOf ((Ty.ofCode (fld w 5 3).toNat).bind fun t => some (.vextn (fld w 22 4) (fld w 18 4) (fld w 13 5) t (fld w 1 4))) else
  .error .illegalFields

/-- Major 0x0E of the vector class (R148). -/
def decodeVector0E (w : BitVec 32) : Except DecodeError Instr :=
  if seg w 2 4 0 && seg w 14 4 0 then rowOf ((Ty.ofCode (fld w 6 3).toNat).bind fun t => (Grp.ofCode (fld w 0 2).toNat).bind fun g => some (.vxc (fld w 22 4) (fld w 18 4) (fld w 9 5) t g)) else
  .error .illegalFields

/-- Major 0x0F of the vector class (R144). -/
def decodeVector0F (w : BitVec 32) : Except DecodeError Instr :=
  if seg w 0 5 0 then rowOf ((Ty.ofCode (fld w 5 3).toNat).bind fun t => some (.vaddVsI (fld w 22 4) (fld w 18 4) (fld w 13 5) (fld w 8 5) t)) else
  if seg w 0 5 1 then rowOf ((Ty.ofCode (fld w 5 3).toNat).bind fun t => some (.vsubVsI (fld w 22 4) (fld w 18 4) (fld w 13 5) (fld w 8 5) t)) else
  if seg w 0 5 2 then rowOf ((Ty.ofCode (fld w 5 3).toNat).bind fun t => some (.vrsubVsI (fld w 22 4) (fld w 18 4) (fld w 13 5) (fld w 8 5) t)) else
  if seg w 0 5 3 then rowOf ((Ty.ofCode (fld w 5 3).toNat).bind fun t => some (.vmulVsI (fld w 22 4) (fld w 18 4) (fld w 13 5) (fld w 8 5) t)) else
  if seg w 0 5 4 then rowOf ((Ty.ofCode (fld w 5 3).toNat).bind fun t => some (.vminVsI (fld w 22 4) (fld w 18 4) (fld w 13 5) (fld w 8 5) t)) else
  if seg w 0 5 5 then rowOf ((Ty.ofCode (fld w 5 3).toNat).bind fun t => some (.vmaxVsI (fld w 22 4) (fld w 18 4) (fld w 13 5) (fld w 8 5) t)) else
  if seg w 0 5 6 then rowOf ((Ty.ofCode (fld w 5 3).toNat).bind fun t => some (.vminnVs (fld w 22 4) (fld w 18 4) (fld w 13 5) (fld w 8 5) t)) else
  if seg w 0 5 7 then rowOf ((Ty.ofCode (fld w 5 3).toNat).bind fun t => some (.vmaxnVs (fld w 22 4) (fld w 18 4) (fld w 13 5) (fld w 8 5) t)) else
  if seg w 0 5 8 then rowOf ((Ty.ofCode (fld w 5 3).toNat).bind fun t => some (.vandVs (fld w 22 4) (fld w 18 4) (fld w 13 5) (fld w 8 5) t)) else
  if seg w 0 5 9 then rowOf ((Ty.ofCode (fld w 5 3).toNat).bind fun t => some (.vorVs (fld w 22 4) (fld w 18 4) (fld w 13 5) (fld w 8 5) t)) else
  if seg w 0 5 10 then rowOf ((Ty.ofCode (fld w 5 3).toNat).bind fun t => some (.vxorVs (fld w 22 4) (fld w 18 4) (fld w 13 5) (fld w 8 5) t)) else
  if seg w 0 5 11 then rowOf ((Ty.ofCode (fld w 5 3).toNat).bind fun t => some (.vshlVs (fld w 22 4) (fld w 18 4) (fld w 13 5) (fld w 8 5) t)) else
  if seg w 0 5 12 then rowOf ((Ty.ofCode (fld w 5 3).toNat).bind fun t => some (.vshrVs (fld w 22 4) (fld w 18 4) (fld w 13 5) (fld w 8 5) t)) else
  if seg w 0 5 13 then rowOf ((Ty.ofCode (fld w 5 3).toNat).bind fun t => some (.vsraVs (fld w 22 4) (fld w 18 4) (fld w 13 5) (fld w 8 5) t)) else
  if seg w 0 5 16 then rowOf ((Ty.ofCode (fld w 5 3).toNat).bind fun t => some (.vaddVsF (fld w 22 4) (fld w 18 4) (fld w 13 5) (fld w 8 5) t)) else
  if seg w 0 5 17 then rowOf ((Ty.ofCode (fld w 5 3).toNat).bind fun t => some (.vsubVsF (fld w 22 4) (fld w 18 4) (fld w 13 5) (fld w 8 5) t)) else
  if seg w 0 5 18 then rowOf ((Ty.ofCode (fld w 5 3).toNat).bind fun t => some (.vrsubVsF (fld w 22 4) (fld w 18 4) (fld w 13 5) (fld w 8 5) t)) else
  if seg w 0 5 19 then rowOf ((Ty.ofCode (fld w 5 3).toNat).bind fun t => some (.vmulVsF (fld w 22 4) (fld w 18 4) (fld w 13 5) (fld w 8 5) t)) else
  if seg w 0 5 20 then rowOf ((Ty.ofCode (fld w 5 3).toNat).bind fun t => some (.vminVsF (fld w 22 4) (fld w 18 4) (fld w 13 5) (fld w 8 5) t)) else
  if seg w 0 5 21 then rowOf ((Ty.ofCode (fld w 5 3).toNat).bind fun t => some (.vmaxVsF (fld w 22 4) (fld w 18 4) (fld w 13 5) (fld w 8 5) t)) else
  .error .illegalFields

/-- Major 0x10 of the vector class (R154). -/
def decodeVector10 (w : BitVec 32) : Except DecodeError Instr :=
  if seg w 0 6 0 then rowOf ((Ty.ofCode (fld w 6 3).toNat).bind fun t => some (.vperm (fld w 22 4) (fld w 18 4) (fld w 14 4) (fld w 9 5) t)) else
  .error .illegalFields

/-- Major 0x11 of the vector class (R155). -/
def decodeVector11 (w : BitVec 32) : Except DecodeError Instr :=
  if seg w 0 5 0 then rowOf ((Ty.ofCode (fld w 5 3).toNat).bind fun t => some (.vrot (fld w 22 4) (fld w 18 4) (fld w 13 5) (fld w 8 5) t)) else
  .error .illegalFields

/-- Major 0x12 of the vector class (R156). -/
def decodeVector12 (w : BitVec 32) : Except DecodeError Instr :=
  if seg w 0 6 0 then rowOf ((Ty.ofCode (fld w 6 3).toNat).bind fun t => some (.vzipLo (fld w 22 4) (fld w 18 4) (fld w 14 4) (fld w 9 5) t)) else
  if seg w 0 6 1 then rowOf ((Ty.ofCode (fld w 6 3).toNat).bind fun t => some (.vzipHi (fld w 22 4) (fld w 18 4) (fld w 14 4) (fld w 9 5) t)) else
  if seg w 0 6 2 then rowOf ((Ty.ofCode (fld w 6 3).toNat).bind fun t => some (.vunzipEv (fld w 22 4) (fld w 18 4) (fld w 14 4) (fld w 9 5) t)) else
  if seg w 0 6 3 then rowOf ((Ty.ofCode (fld w 6 3).toNat).bind fun t => some (.vunzipOd (fld w 22 4) (fld w 18 4) (fld w 14 4) (fld w 9 5) t)) else
  .error .illegalFields

/-- Major 0x13 of the vector class (R155). -/
def decodeVector13 (w : BitVec 32) : Except DecodeError Instr :=
  if seg w 0 5 0 then rowOf ((Ty.ofCode (fld w 5 3).toNat).bind fun t => some (.vslideDn (fld w 22 4) (fld w 18 4) (fld w 13 5) (fld w 8 5) t)) else
  if seg w 0 5 1 then rowOf ((Ty.ofCode (fld w 5 3).toNat).bind fun t => some (.vslideUp (fld w 22 4) (fld w 18 4) (fld w 13 5) (fld w 8 5) t)) else
  .error .illegalFields

/-- Major 0x14 of the vector class (R157). -/
def decodeVector14 (w : BitVec 32) : Except DecodeError Instr :=
  if seg w 0 6 0 && seg w 14 4 0 then rowOf ((Ty.ofCode (fld w 6 3).toNat).bind fun t => some (.vcmpr (fld w 22 4) (fld w 18 4) (fld w 9 5) t)) else
  .error .illegalFields

/-- Major 0x15 of the vector class (R157). -/
def decodeVector15 (w : BitVec 32) : Except DecodeError Instr :=
  if seg w 0 6 0 && seg w 14 4 0 then rowOf ((Ty.ofCode (fld w 6 3).toNat).bind fun t => some (.vexpd (fld w 22 4) (fld w 18 4) (fld w 9 5) t)) else
  .error .illegalFields

/-- Major 0x18 of the vector class (R158). -/
def decodeVector18 (w : BitVec 32) : Except DecodeError Instr :=
  if seg w 0 6 0 then rowOf ((Ty.ofCode (fld w 6 3).toNat).bind fun t => some (.vredAddI (fld w 22 4) (fld w 18 4) (fld w 14 4) (fld w 9 5) t)) else
  if seg w 0 6 1 then rowOf ((Ty.ofCode (fld w 6 3).toNat).bind fun t => some (.vredMin (fld w 22 4) (fld w 18 4) (fld w 14 4) (fld w 9 5) t)) else
  if seg w 0 6 2 then rowOf ((Ty.ofCode (fld w 6 3).toNat).bind fun t => some (.vredMax (fld w 22 4) (fld w 18 4) (fld w 14 4) (fld w 9 5) t)) else
  if seg w 0 6 3 then rowOf ((Ty.ofCode (fld w 6 3).toNat).bind fun t => some (.vredMinn (fld w 22 4) (fld w 18 4) (fld w 14 4) (fld w 9 5) t)) else
  if seg w 0 6 4 then rowOf ((Ty.ofCode (fld w 6 3).toNat).bind fun t => some (.vredMaxn (fld w 22 4) (fld w 18 4) (fld w 14 4) (fld w 9 5) t)) else
  if seg w 0 6 5 then rowOf ((Ty.ofCode (fld w 6 3).toNat).bind fun t => some (.vredAnd (fld w 22 4) (fld w 18 4) (fld w 14 4) (fld w 9 5) t)) else
  if seg w 0 6 6 then rowOf ((Ty.ofCode (fld w 6 3).toNat).bind fun t => some (.vredOr (fld w 22 4) (fld w 18 4) (fld w 14 4) (fld w 9 5) t)) else
  if seg w 0 6 7 then rowOf ((Ty.ofCode (fld w 6 3).toNat).bind fun t => some (.vredXor (fld w 22 4) (fld w 18 4) (fld w 14 4) (fld w 9 5) t)) else
  if seg w 0 6 8 then rowOf ((Ty.ofCode (fld w 6 3).toNat).bind fun t => some (.vredAddF (fld w 22 4) (fld w 18 4) (fld w 14 4) (fld w 9 5) t)) else
  if seg w 0 6 9 then rowOf ((Ty.ofCode (fld w 6 3).toNat).bind fun t => some (.vredMinF (fld w 22 4) (fld w 18 4) (fld w 14 4) (fld w 9 5) t)) else
  if seg w 0 6 10 then rowOf ((Ty.ofCode (fld w 6 3).toNat).bind fun t => some (.vredMaxF (fld w 22 4) (fld w 18 4) (fld w 14 4) (fld w 9 5) t)) else
  if seg w 0 6 11 && seg w 14 8 0 then rowOf ((Ty.ofCode (fld w 6 3).toNat).bind fun t => some (.vredCnt (fld w 22 4) (fld w 9 5) t)) else
  .error .illegalFields

/-- Major 0x19 of the vector class (R159). -/
def decodeVector19 (w : BitVec 32) : Except DecodeError Instr :=
  if seg w 0 6 0 then rowOf ((Ty.ofCode (fld w 6 3).toNat).bind fun t => some (.vscanAddI (fld w 22 4) (fld w 18 4) (fld w 14 4) (fld w 9 5) t)) else
  if seg w 0 6 1 then rowOf ((Ty.ofCode (fld w 6 3).toNat).bind fun t => some (.vscanMin (fld w 22 4) (fld w 18 4) (fld w 14 4) (fld w 9 5) t)) else
  if seg w 0 6 2 then rowOf ((Ty.ofCode (fld w 6 3).toNat).bind fun t => some (.vscanMax (fld w 22 4) (fld w 18 4) (fld w 14 4) (fld w 9 5) t)) else
  if seg w 0 6 3 then rowOf ((Ty.ofCode (fld w 6 3).toNat).bind fun t => some (.vscanMinn (fld w 22 4) (fld w 18 4) (fld w 14 4) (fld w 9 5) t)) else
  if seg w 0 6 4 then rowOf ((Ty.ofCode (fld w 6 3).toNat).bind fun t => some (.vscanMaxn (fld w 22 4) (fld w 18 4) (fld w 14 4) (fld w 9 5) t)) else
  if seg w 0 6 8 then rowOf ((Ty.ofCode (fld w 6 3).toNat).bind fun t => some (.vscanAddF (fld w 22 4) (fld w 18 4) (fld w 14 4) (fld w 9 5) t)) else
  if seg w 0 6 9 then rowOf ((Ty.ofCode (fld w 6 3).toNat).bind fun t => some (.vscanMinF (fld w 22 4) (fld w 18 4) (fld w 14 4) (fld w 9 5) t)) else
  if seg w 0 6 10 then rowOf ((Ty.ofCode (fld w 6 3).toNat).bind fun t => some (.vscanMaxF (fld w 22 4) (fld w 18 4) (fld w 14 4) (fld w 9 5) t)) else
  .error .illegalFields

/-- Major 0x1C of the vector class (R163). -/
def decodeVector1C (w : BitVec 32) : Except DecodeError Instr :=
  rowOf ((Rm.ofCode (fld w 6 3).toNat).bind fun r => some (.vcvt (fld w 22 4) (fld w 18 4) (fld w 14 4) (fld w 9 5) r (fld w 0 6)))

/-- Major 0x1D of the vector class (R164). -/
def decodeVector1D (w : BitVec 32) : Except DecodeError Instr :=
  rowOf ((Rm.ofCode (fld w 6 3).toNat).bind fun r => some (.vnarrow (fld w 22 4) (fld w 18 4) (fld w 14 4) (fld w 9 5) r (fld w 4 2) (fld w 0 4)))

/-- Major 0x1E of the vector class (R164). -/
def decodeVector1E (w : BitVec 32) : Except DecodeError Instr :=
  if seg w 6 3 0 && seg w 14 4 0 then .ok (.vwiden (fld w 22 4) (fld w 18 4) (fld w 9 5) (fld w 4 2) (fld w 0 4)) else
  .error .illegalFields

/-- The vector class (R80), majors below 0x38. -/
def decodeVector (w : BitVec 32) : Except DecodeError Instr :=
  match (fld w 26 6).toNat with
  | 0x01 => decodeVector01 w
  | 0x02 => decodeVector02 w
  | 0x03 => decodeVector03 w
  | 0x04 => decodeVector04 w
  | 0x05 => decodeVector05 w
  | 0x06 => decodeVector06 w
  | 0x07 => decodeVector07 w
  | 0x08 => decodeVector08 w
  | 0x09 => decodeVector09 w
  | 0x0A => decodeVector0A w
  | 0x0B => decodeVector0B w
  | 0x0C => decodeVector0C w
  | 0x0D => decodeVector0D w
  | 0x0E => decodeVector0E w
  | 0x0F => decodeVector0F w
  | 0x10 => decodeVector10 w
  | 0x11 => decodeVector11 w
  | 0x12 => decodeVector12 w
  | 0x13 => decodeVector13 w
  | 0x14 => decodeVector14 w
  | 0x15 => decodeVector15 w
  | 0x18 => decodeVector18 w
  | 0x19 => decodeVector19 w
  | 0x1C => decodeVector1C w
  | 0x1D => decodeVector1D w
  | 0x1E => decodeVector1E w
  | _ => .error .illegalMajor

/-- Major 0x01 of the X class (R167). -/
def decodeX01 (w : BitVec 32) : Except DecodeError Instr :=
  if seg w 0 6 0 && seg w 14 4 0 then rowOf ((Ty.ofCode (fld w 6 3).toNat).bind fun t => some (.fexp2 (fld w 22 4) (fld w 18 4) (fld w 9 5) t)) else
  if seg w 0 6 1 && seg w 14 4 0 then rowOf ((Ty.ofCode (fld w 6 3).toNat).bind fun t => some (.flog2 (fld w 22 4) (fld w 18 4) (fld w 9 5) t)) else
  if seg w 0 6 2 && seg w 14 4 0 then rowOf ((Ty.ofCode (fld w 6 3).toNat).bind fun t => some (.fexp (fld w 22 4) (fld w 18 4) (fld w 9 5) t)) else
  if seg w 0 6 3 && seg w 14 4 0 then rowOf ((Ty.ofCode (fld w 6 3).toNat).bind fun t => some (.flog (fld w 22 4) (fld w 18 4) (fld w 9 5) t)) else
  if seg w 0 6 4 && seg w 14 4 0 then rowOf ((Ty.ofCode (fld w 6 3).toNat).bind fun t => some (.frcp (fld w 22 4) (fld w 18 4) (fld w 9 5) t)) else
  if seg w 0 6 5 && seg w 14 4 0 then rowOf ((Ty.ofCode (fld w 6 3).toNat).bind fun t => some (.frsqrt (fld w 22 4) (fld w 18 4) (fld w 9 5) t)) else
  if seg w 0 6 6 && seg w 14 4 0 then rowOf ((Ty.ofCode (fld w 6 3).toNat).bind fun t => some (.fsqrt (fld w 22 4) (fld w 18 4) (fld w 9 5) t)) else
  if seg w 0 6 7 && seg w 14 4 0 then rowOf ((Ty.ofCode (fld w 6 3).toNat).bind fun t => some (.ftanh (fld w 22 4) (fld w 18 4) (fld w 9 5) t)) else
  if seg w 0 6 8 && seg w 14 4 0 then rowOf ((Ty.ofCode (fld w 6 3).toNat).bind fun t => some (.fsig (fld w 22 4) (fld w 18 4) (fld w 9 5) t)) else
  .error .illegalFields

/-- Major 0x02 of the X class (R171). -/
def decodeX02 (w : BitVec 32) : Except DecodeError Instr :=
  if seg w 0 6 0 then rowOf ((Ty.ofCode (fld w 6 3).toNat).bind fun t => some (.fdiv (fld w 22 4) (fld w 18 4) (fld w 14 4) (fld w 9 5) t)) else
  .error .illegalFields

/-- Major 0x08 of the X class (R175). -/
def decodeX08 (w : BitVec 32) : Except DecodeError Instr :=
  if seg w 3 2 0 && seg w 18 4 0 then rowOf ((Ty.ofCode (fld w 5 3).toNat).bind fun t => (QOut.ofCode (fld w 0 2).toNat).bind fun o => some (.qrgen (fld w 22 4) (fld w 13 5) (fld w 8 5) t (flag w 2) o)) else
  .error .illegalFields

/-- Major 0x09 of the X class (R176). -/
def decodeX09 (w : BitVec 32) : Except DecodeError Instr :=
  if seg w 10 11 0 then .ok (.qrload (fld w 21 5) (fld w 5 5) (fld w 0 5)) else
  .error .illegalFields

/-- Major 0x0A of the X class (R176). -/
def decodeX0A (w : BitVec 32) : Except DecodeError Instr :=
  if seg w 10 11 0 then .ok (.qrsave (fld w 21 5) (fld w 5 5) (fld w 0 5)) else
  .error .illegalFields

/-- Major 0x0B of the X class (R177). -/
def decodeX0B (w : BitVec 32) : Except DecodeError Instr :=
  if seg w 10 11 0 then .ok (.qrscr (fld w 21 5) (fld w 5 5) (fld w 0 5)) else
  if seg w 10 16 1 then .ok (.qrscrId (fld w 5 5) (fld w 0 5)) else
  .error .illegalFields

/-- Major 0x10 of the X class (R182). -/
def decodeX10 (w : BitVec 32) : Except DecodeError Instr :=
  if seg w 0 6 0 && seg w 14 4 0 && seg w 22 4 0 then rowOf ((Ty.ofCode (fld w 6 3).toNat).bind fun t => some (.hist (fld w 18 4) (fld w 9 5) t)) else
  if seg w 0 22 129 then .ok (.histRd (fld w 22 4)) else
  if seg w 0 22 130 then .ok (.histRdx (fld w 22 4)) else
  .error .illegalFields

/-- Major 0x11 of the X class (R181). -/
def decodeX11 (w : BitVec 32) : Except DecodeError Instr :=
  if seg w 0 21 0 then .ok (.hclr (fld w 21 5)) else
  .error .illegalFields

/-- Major 0x12 of the X class (R183). -/
def decodeX12 (w : BitVec 32) : Except DecodeError Instr :=
  if seg w 0 8 64 && seg w 18 4 0 then .ok (.qscale (fld w 22 4) (fld w 13 5) (fld w 8 5)) else
  .error .illegalFields

/-- Major 0x13 of the X class (R184). -/
def decodeX13 (w : BitVec 32) : Except DecodeError Instr :=
  if seg w 2 4 0 then rowOf ((Ty.ofCode (fld w 6 3).toNat).bind fun t => some (.qpack (fld w 22 4) (fld w 18 4) (fld w 14 4) (fld w 9 5) t (fld w 0 2))) else
  .error .illegalFields

/-- The X class (R81), majors below 0x38. -/
def decodeX (w : BitVec 32) : Except DecodeError Instr :=
  match (fld w 26 6).toNat with
  | 0x01 => decodeX01 w
  | 0x02 => decodeX02 w
  | 0x08 => decodeX08 w
  | 0x09 => decodeX09 w
  | 0x0A => decodeX0A w
  | 0x0B => decodeX0B w
  | 0x10 => decodeX10 w
  | 0x11 => decodeX11 w
  | 0x12 => decodeX12 w
  | 0x13 => decodeX13 w
  | _ => .error .illegalMajor

/-- Major 0x01 of the memory class (R197). -/
def decodeMemory01 (w : BitVec 32) : Except DecodeError Instr :=
  .ok (.ldI64 (fld w 21 5) (fld w 16 5) (fld w 0 16))

/-- Major 0x02 of the memory class (R197). -/
def decodeMemory02 (w : BitVec 32) : Except DecodeError Instr :=
  .ok (.ldI32 (fld w 21 5) (fld w 16 5) (fld w 0 16))

/-- Major 0x03 of the memory class (R197). -/
def decodeMemory03 (w : BitVec 32) : Except DecodeError Instr :=
  .ok (.ldN32 (fld w 21 5) (fld w 16 5) (fld w 0 16))

/-- Major 0x04 of the memory class (R197). -/
def decodeMemory04 (w : BitVec 32) : Except DecodeError Instr :=
  .ok (.ldI16 (fld w 21 5) (fld w 16 5) (fld w 0 16))

/-- Major 0x05 of the memory class (R197). -/
def decodeMemory05 (w : BitVec 32) : Except DecodeError Instr :=
  .ok (.ldN16 (fld w 21 5) (fld w 16 5) (fld w 0 16))

/-- Major 0x06 of the memory class (R197). -/
def decodeMemory06 (w : BitVec 32) : Except DecodeError Instr :=
  .ok (.ldI8 (fld w 21 5) (fld w 16 5) (fld w 0 16))

/-- Major 0x07 of the memory class (R197). -/
def decodeMemory07 (w : BitVec 32) : Except DecodeError Instr :=
  .ok (.ldN8 (fld w 21 5) (fld w 16 5) (fld w 0 16))

/-- Major 0x08 of the memory class (R197). -/
def decodeMemory08 (w : BitVec 32) : Except DecodeError Instr :=
  .ok (.st64 (fld w 21 5) (fld w 16 5) (fld w 0 16))

/-- Major 0x09 of the memory class (R197). -/
def decodeMemory09 (w : BitVec 32) : Except DecodeError Instr :=
  .ok (.st32 (fld w 21 5) (fld w 16 5) (fld w 0 16))

/-- Major 0x0A of the memory class (R197). -/
def decodeMemory0A (w : BitVec 32) : Except DecodeError Instr :=
  .ok (.st16 (fld w 21 5) (fld w 16 5) (fld w 0 16))

/-- Major 0x0B of the memory class (R197). -/
def decodeMemory0B (w : BitVec 32) : Except DecodeError Instr :=
  .ok (.st8 (fld w 21 5) (fld w 16 5) (fld w 0 16))

/-- Major 0x10 of the memory class (R198). -/
def decodeMemory10 (w : BitVec 32) : Except DecodeError Instr :=
  .ok (.vld (fld w 22 4) (fld w 17 5) (fld w 12 5) (fld w 0 12))

/-- Major 0x11 of the memory class (R198). -/
def decodeMemory11 (w : BitVec 32) : Except DecodeError Instr :=
  .ok (.vst (fld w 22 4) (fld w 17 5) (fld w 12 5) (fld w 0 12))

/-- Major 0x12 of the memory class (R199). -/
def decodeMemory12 (w : BitVec 32) : Except DecodeError Instr :=
  if seg w 0 4 0 then rowOf ((Sz.ofCode (fld w 4 3).toNat).bind fun z => some (.vlds (fld w 22 4) (fld w 17 5) (fld w 12 5) (fld w 7 5) z)) else
  .error .illegalFields

/-- Major 0x13 of the memory class (R200). -/
def decodeMemory13 (w : BitVec 32) : Except DecodeError Instr :=
  if seg w 2 3 0 then rowOf ((Sz.ofCode (fld w 5 3).toNat).bind fun z => some (.vgath (fld w 22 4) (fld w 17 5) (fld w 13 4) (fld w 8 5) z (flag w 1) (flag w 0))) else
  .error .illegalFields

/-- Major 0x14 of the memory class (R200). -/
def decodeMemory14 (w : BitVec 32) : Except DecodeError Instr :=
  if seg w 2 3 0 then rowOf ((Sz.ofCode (fld w 5 3).toNat).bind fun z => some (.vscat (fld w 22 4) (fld w 17 5) (fld w 13 4) (fld w 8 5) z (flag w 1) (flag w 0))) else
  .error .illegalFields

/-- Major 0x15 of the memory class (R201). -/
def decodeMemory15 (w : BitVec 32) : Except DecodeError Instr :=
  .ok (.vlddLo (fld w 22 4) (fld w 17 5) (fld w 12 5) (fld w 0 12))

/-- Major 0x16 of the memory class (R201). -/
def decodeMemory16 (w : BitVec 32) : Except DecodeError Instr :=
  .ok (.vlddHi (fld w 22 4) (fld w 17 5) (fld w 12 5) (fld w 0 12))

/-- Major 0x17 of the memory class (R202). -/
def decodeMemory17 (w : BitVec 32) : Except DecodeError Instr :=
  if seg w 11 1 0 then .ok (.vstd (fld w 22 4) (fld w 17 5) (fld w 12 5) (fld w 8 3) (fld w 0 8)) else
  .error .illegalFields

/-- Major 0x18 of the memory class (R203). -/
def decodeMemory18 (w : BitVec 32) : Except DecodeError Instr :=
  if seg w 10 6 0 then .ok (.ldblk (fld w 21 5) (fld w 16 5) (fld w 6 4) (fld w 0 6)) else
  if seg w 0 6 0 && seg w 10 6 1 && seg w 21 5 0 then .ok (.ldblkQ (fld w 16 5) (fld w 6 4)) else
  if seg w 0 6 0 && seg w 10 16 2 then .ok (.ldblkRel (fld w 6 4)) else
  .error .illegalFields

/-- Major 0x19 of the memory class (R204). -/
def decodeMemory19 (w : BitVec 32) : Except DecodeError Instr :=
  if seg w 0 16 0 then .ok (.lock (fld w 21 5) (fld w 16 5)) else
  .error .illegalFields

/-- Major 0x1A of the memory class (R204). -/
def decodeMemory1A (w : BitVec 32) : Except DecodeError Instr :=
  if seg w 0 21 0 then .ok (.unlock (fld w 21 5)) else
  .error .illegalFields

/-- Major 0x1C of the memory class (R207). -/
def decodeMemory1C (w : BitVec 32) : Except DecodeError Instr :=
  if seg w 5 1 0 then rowOf ((Ord.ofCode (fld w 9 2).toNat).bind fun o => (Scope.ofCode (fld w 6 3).toNat).bind fun s => (AmoOp.ofCode (fld w 0 4).toNat).bind fun f => some (.amo (fld w 21 5) (fld w 16 5) (fld w 11 5) o s (flag w 4) f)) else
  .error .illegalFields

/-- Major 0x1D of the memory class (R208). -/
def decodeMemory1D (w : BitVec 32) : Except DecodeError Instr :=
  rowOf ((Scope.ofCode (fld w 3 3).toNat).bind fun s => (Ord.ofCode (fld w 1 2).toNat).bind fun o => some (.cas (fld w 21 5) (fld w 16 5) (fld w 11 5) (fld w 6 5) s o (flag w 0)))

/-- Major 0x1E of the memory class (R209). -/
def decodeMemory1E (w : BitVec 32) : Except DecodeError Instr :=
  if seg w 2 4 0 && seg w 21 5 0 then rowOf ((FTy.ofCode (fld w 0 2).toNat).bind fun t => some (.famo (fld w 16 5) (fld w 11 5) (fld w 6 5) t)) else
  .error .illegalFields

/-- Major 0x1F of the memory class (R210). -/
def decodeMemory1F (w : BitVec 32) : Except DecodeError Instr :=
  rowOf ((Sz.ofCode (fld w 5 3).toNat).bind fun z => (AmoOp.ofCode (fld w 0 4).toNat).bind fun f => some (.vamo (fld w 22 4) (fld w 17 5) (fld w 13 4) (fld w 8 5) z (flag w 4) f))

/-- Major 0x20 of the memory class (R212). -/
def decodeMemory20 (w : BitVec 32) : Except DecodeError Instr :=
  if seg w 3 1 0 && seg w 6 20 0 then rowOf ((FKind.ofCode (fld w 4 2).toNat).bind fun k => (Scope.ofCode (fld w 0 3).toNat).bind fun s => some (.fence k s)) else
  .error .illegalFields

/-- Major 0x21 of the memory class (R215). -/
def decodeMemory21 (w : BitVec 32) : Except DecodeError Instr :=
  if seg w 8 13 0 then .ok (.barArr (fld w 21 5) (fld w 0 8)) else
  .error .illegalFields

/-- Major 0x22 of the memory class (R215). -/
def decodeMemory22 (w : BitVec 32) : Except DecodeError Instr :=
  if seg w 4 12 0 then .ok (.barWait (fld w 21 5) (fld w 16 5) (fld w 0 4)) else
  .error .illegalFields

/-- Major 0x23 of the memory class (R215). -/
def decodeMemory23 (w : BitVec 32) : Except DecodeError Instr :=
  if seg w 0 16 0 then .ok (.barExp (fld w 21 5) (fld w 16 5)) else
  .error .illegalFields

/-- Major 0x24 of the memory class (R215). -/
def decodeMemory24 (w : BitVec 32) : Except DecodeError Instr :=
  if seg w 0 16 0 then .ok (.barTry (fld w 21 5) (fld w 16 5)) else
  .error .illegalFields

/-- Major 0x25 of the memory class (R241). -/
def decodeMemory25 (w : BitVec 32) : Except DecodeError Instr :=
  if seg w 0 16 0 && seg w 21 5 0 then .ok (.evpop (fld w 16 5)) else
  .error .illegalFields

/-- Major 0x26 of the memory class (R242). -/
def decodeMemory26 (w : BitVec 32) : Except DecodeError Instr :=
  if seg w 0 16 0 && seg w 21 5 0 then .ok (.evpeek (fld w 16 5)) else
  .error .illegalFields

/-- Major 0x28 of the memory class (R218). -/
def decodeMemory28 (w : BitVec 32) : Except DecodeError Instr :=
  if seg w 2 24 0 then .ok (.bclose (fld w 0 2)) else
  .error .illegalFields

/-- Major 0x29 of the memory class (R219). -/
def decodeMemory29 (w : BitVec 32) : Except DecodeError Instr :=
  if seg w 2 14 0 && seg w 21 5 0 then .ok (.bwait (fld w 16 5) (fld w 0 2)) else
  .error .illegalFields

/-- Major 0x30 of the memory class (R273). -/
def decodeMemory30 (w : BitVec 32) : Except DecodeError Instr :=
  if seg w 11 5 0 then .ok (.pool (fld w 21 5) (fld w 16 5) (flag w 10) (flag w 9) (flag w 8) (fld w 6 2) (fld w 0 6)) else
  .error .illegalFields

/-- Major 0x31 of the memory class (R284). -/
def decodeMemory31 (w : BitVec 32) : Except DecodeError Instr :=
  if seg w 4 12 0 then .ok (.upd (fld w 21 5) (fld w 16 5) (flag w 3) (flag w 2) (fld w 0 2)) else
  .error .illegalFields

/-- Major 0x32 of the memory class (R293). -/
def decodeMemory32 (w : BitVec 32) : Except DecodeError Instr :=
  if seg w 2 14 0 then .ok (.msend (fld w 21 5) (fld w 16 5) (fld w 0 2)) else
  .error .illegalFields

/-- Major 0x33 of the memory class (R297). -/
def decodeMemory33 (w : BitVec 32) : Except DecodeError Instr :=
  if seg w 8 8 0 then .ok (.rpost (fld w 21 5) (fld w 16 5) (fld w 6 2) (fld w 0 6)) else
  .error .illegalFields

/-- Major 0x34 of the memory class (R304). -/
def decodeMemory34 (w : BitVec 32) : Except DecodeError Instr :=
  if seg w 0 16 0 then .ok (.rprobe (fld w 21 5) (fld w 16 5)) else
  .error .illegalFields

/-- Major 0x35 of the memory class (R303). -/
def decodeMemory35 (w : BitVec 32) : Except DecodeError Instr :=
  if seg w 0 16 0 then .ok (.rcancel (fld w 21 5) (fld w 16 5)) else
  .error .illegalFields

/-- Major 0x36 of the memory class (R305). -/
def decodeMemory36 (w : BitVec 32) : Except DecodeError Instr :=
  if seg w 11 5 0 then .ok (.a2a (fld w 21 5) (fld w 16 5) (flag w 10) (flag w 9) (flag w 8) (fld w 6 2) (fld w 0 6)) else
  .error .illegalFields

/-- Major 0x37 of the memory class (R313). -/
def decodeMemory37 (w : BitVec 32) : Except DecodeError Instr :=
  if seg w 2 14 0 then .ok (.gsub (fld w 21 5) (fld w 16 5) (fld w 0 2)) else
  .error .illegalFields

/-- The memory class (R82), majors below 0x38. -/
def decodeMemory (w : BitVec 32) : Except DecodeError Instr :=
  match (fld w 26 6).toNat with
  | 0x01 => decodeMemory01 w
  | 0x02 => decodeMemory02 w
  | 0x03 => decodeMemory03 w
  | 0x04 => decodeMemory04 w
  | 0x05 => decodeMemory05 w
  | 0x06 => decodeMemory06 w
  | 0x07 => decodeMemory07 w
  | 0x08 => decodeMemory08 w
  | 0x09 => decodeMemory09 w
  | 0x0A => decodeMemory0A w
  | 0x0B => decodeMemory0B w
  | 0x10 => decodeMemory10 w
  | 0x11 => decodeMemory11 w
  | 0x12 => decodeMemory12 w
  | 0x13 => decodeMemory13 w
  | 0x14 => decodeMemory14 w
  | 0x15 => decodeMemory15 w
  | 0x16 => decodeMemory16 w
  | 0x17 => decodeMemory17 w
  | 0x18 => decodeMemory18 w
  | 0x19 => decodeMemory19 w
  | 0x1A => decodeMemory1A w
  | 0x1C => decodeMemory1C w
  | 0x1D => decodeMemory1D w
  | 0x1E => decodeMemory1E w
  | 0x1F => decodeMemory1F w
  | 0x20 => decodeMemory20 w
  | 0x21 => decodeMemory21 w
  | 0x22 => decodeMemory22 w
  | 0x23 => decodeMemory23 w
  | 0x24 => decodeMemory24 w
  | 0x25 => decodeMemory25 w
  | 0x26 => decodeMemory26 w
  | 0x28 => decodeMemory28 w
  | 0x29 => decodeMemory29 w
  | 0x30 => decodeMemory30 w
  | 0x31 => decodeMemory31 w
  | 0x32 => decodeMemory32 w
  | 0x33 => decodeMemory33 w
  | 0x34 => decodeMemory34 w
  | 0x35 => decodeMemory35 w
  | 0x36 => decodeMemory36 w
  | 0x37 => decodeMemory37 w
  | _ => .error .illegalMajor

/-- The row that a slot word of class c holds, before the operand limits. -/
def decodeRow (c : SlotClass) (w : BitVec 32) : Except DecodeError Instr :=
  if w == 0#32 then .ok .nop
  else if fld w 29 3 == 7#3 then .ok (.literal (fld w 0 29))
  else match c with
    | .scalar => decodeScalar w
    | .vector => decodeVector w
    | .xclass => decodeX w
    | .memory => decodeMemory w

/-- The decoder: the instruction that a slot word of class c holds, or why it is an illegal encoding. -/
def decode (c : SlotClass) (w : BitVec 32) : Except DecodeError Instr :=
  match decodeRow c w with
  | .ok i => if i.wf then .ok i else .error .illegalOperand
  | .error e => .error e

/-- The class whose opcode map holds an instruction; none for the no-operation and the literal word, which
stand in every slot (R75), and for an event. -/
def Instr.cls : Instr → Option SlotClass
  | .nop => none
  | .literal _ => none
  | .add _ _ _ _ => some .scalar
  | .sub _ _ _ _ => some .scalar
  | .min _ _ _ _ => some .scalar
  | .max _ _ _ _ => some .scalar
  | .minn _ _ _ _ => some .scalar
  | .maxn _ _ _ _ => some .scalar
  | .and _ _ _ _ => some .scalar
  | .or _ _ _ _ => some .scalar
  | .xor _ _ _ _ => some .scalar
  | .andn _ _ _ _ => some .scalar
  | .shl _ _ _ _ => some .scalar
  | .shr _ _ _ _ => some .scalar
  | .sra _ _ _ _ => some .scalar
  | .rot _ _ _ _ => some .scalar
  | .mov _ _ => some .scalar
  | .clz _ _ => some .scalar
  | .ctz _ _ => some .scalar
  | .popc _ _ => some .scalar
  | .bswap16 _ _ => some .scalar
  | .bswap32 _ _ => some .scalar
  | .bswap64 _ _ => some .scalar
  | .sext8 _ _ => some .scalar
  | .sext16 _ _ => some .scalar
  | .sext32 _ _ => some .scalar
  | .zext8 _ _ => some .scalar
  | .zext16 _ _ => some .scalar
  | .zext32 _ _ => some .scalar
  | .mul _ _ _ _ => some .scalar
  | .mulh _ _ _ _ => some .scalar
  | .mulhn _ _ _ _ => some .scalar
  | .div _ _ _ _ => some .scalar
  | .divn _ _ _ _ => some .scalar
  | .rem _ _ _ _ => some .scalar
  | .remn _ _ _ _ => some .scalar
  | .scmp _ _ _ _ _ => some .scalar
  | .sel _ _ _ _ _ => some .scalar
  | .addi _ _ _ => some .scalar
  | .andi _ _ _ => some .scalar
  | .ori _ _ _ => some .scalar
  | .xori _ _ _ => some .scalar
  | .shli _ _ _ => some .scalar
  | .shri _ _ _ => some .scalar
  | .srai _ _ _ => some .scalar
  | .movl _ _ => some .scalar
  | .br _ => some .scalar
  | .bcc _ _ _ => some .scalar
  | .jmp _ => some .scalar
  | .call _ => some .scalar
  | .jr _ _ => some .scalar
  | .ret _ => some .scalar
  | .loop _ _ => some .scalar
  | .lstep _ _ _ => some .scalar
  | .yield => some .scalar
  | .halt => some .scalar
  | .ckpt => some .scalar
  | .safe => some .scalar
  | .trap _ _ => some .scalar
  | .cnext _ => some .scalar
  | .csrr _ _ => some .scalar
  | .csrw _ _ _ => some .scalar
  | .ewr _ _ => some .scalar
  | .erd _ _ => some .scalar
  | .mxgo _ _ => some .scalar
  | .mxsgo _ _ => some .scalar
  | .epgo _ => some .scalar
  | .pwait _ _ _ => some .scalar
  | .prel _ => some .scalar
  | .pstat _ _ => some .scalar
  | .rte => some .scalar
  | .sysr _ _ => some .scalar
  | .sysw _ _ _ => some .scalar
  | .tlbir _ _ _ => some .scalar
  | .ctxsave _ _ _ => some .scalar
  | .ctxres _ _ => some .scalar
  | .ctxresImg _ _ _ => some .scalar
  | .ctxresLd _ _ _ => some .scalar
  | .ctxkill _ _ => some .scalar
  | .vaddI _ _ _ _ _ => some .vector
  | .vsubI _ _ _ _ _ => some .vector
  | .vmulI _ _ _ _ _ => some .vector
  | .vmulh _ _ _ _ _ => some .vector
  | .vmulhn _ _ _ _ _ => some .vector
  | .vminI _ _ _ _ _ => some .vector
  | .vmaxI _ _ _ _ _ => some .vector
  | .vminn _ _ _ _ _ => some .vector
  | .vmaxn _ _ _ _ _ => some .vector
  | .vadds _ _ _ _ _ => some .vector
  | .vaddsn _ _ _ _ _ => some .vector
  | .vsubs _ _ _ _ _ => some .vector
  | .vsubsn _ _ _ _ _ => some .vector
  | .vabsI _ _ _ _ => some .vector
  | .vnegI _ _ _ _ => some .vector
  | .vidx _ _ _ => some .vector
  | .vaddF _ _ _ _ _ => some .vector
  | .vsubF _ _ _ _ _ => some .vector
  | .vmulF _ _ _ _ _ => some .vector
  | .vminF _ _ _ _ _ => some .vector
  | .vmaxF _ _ _ _ _ => some .vector
  | .vabsF _ _ _ _ => some .vector
  | .vnegF _ _ _ _ => some .vector
  | .vfma _ _ _ _ _ _ _ => some .vector
  | .vfms _ _ _ _ _ _ _ => some .vector
  | .vfnma _ _ _ _ _ _ _ => some .vector
  | .vand _ _ _ _ _ => some .vector
  | .vor _ _ _ _ _ => some .vector
  | .vxor _ _ _ _ _ => some .vector
  | .vandn _ _ _ _ _ => some .vector
  | .vnot _ _ _ _ => some .vector
  | .vshl _ _ _ _ _ => some .vector
  | .vshr _ _ _ _ _ => some .vector
  | .vsra _ _ _ _ _ => some .vector
  | .vsel _ _ _ _ _ => some .vector
  | .vcmp _ _ _ _ _ _ => some .vector
  | .vcmpn _ _ _ _ _ _ => some .vector
  | .vfcmp _ _ _ _ _ _ => some .vector
  | .vfcmpSig _ _ _ _ _ _ => some .vector
  | .vclass _ _ _ _ _ _ _ => some .vector
  | .pand _ _ _ => some .vector
  | .por _ _ _ => some .vector
  | .pxor _ _ _ => some .vector
  | .pandn _ _ _ => some .vector
  | .pnot _ _ => some .vector
  | .psel _ _ _ _ => some .vector
  | .pfirst _ _ => some .vector
  | .vbcst _ _ _ _ => some .vector
  | .vins _ _ _ _ _ => some .vector
  | .vext _ _ _ _ _ => some .vector
  | .vextn _ _ _ _ _ => some .vector
  | .vxc _ _ _ _ _ => some .vector
  | .vaddVsI _ _ _ _ _ => some .vector
  | .vsubVsI _ _ _ _ _ => some .vector
  | .vrsubVsI _ _ _ _ _ => some .vector
  | .vmulVsI _ _ _ _ _ => some .vector
  | .vminVsI _ _ _ _ _ => some .vector
  | .vmaxVsI _ _ _ _ _ => some .vector
  | .vminnVs _ _ _ _ _ => some .vector
  | .vmaxnVs _ _ _ _ _ => some .vector
  | .vandVs _ _ _ _ _ => some .vector
  | .vorVs _ _ _ _ _ => some .vector
  | .vxorVs _ _ _ _ _ => some .vector
  | .vshlVs _ _ _ _ _ => some .vector
  | .vshrVs _ _ _ _ _ => some .vector
  | .vsraVs _ _ _ _ _ => some .vector
  | .vaddVsF _ _ _ _ _ => some .vector
  | .vsubVsF _ _ _ _ _ => some .vector
  | .vrsubVsF _ _ _ _ _ => some .vector
  | .vmulVsF _ _ _ _ _ => some .vector
  | .vminVsF _ _ _ _ _ => some .vector
  | .vmaxVsF _ _ _ _ _ => some .vector
  | .vperm _ _ _ _ _ => some .vector
  | .vrot _ _ _ _ _ => some .vector
  | .vzipLo _ _ _ _ _ => some .vector
  | .vzipHi _ _ _ _ _ => some .vector
  | .vunzipEv _ _ _ _ _ => some .vector
  | .vunzipOd _ _ _ _ _ => some .vector
  | .vslideDn _ _ _ _ _ => some .vector
  | .vslideUp _ _ _ _ _ => some .vector
  | .vcmpr _ _ _ _ => some .vector
  | .vexpd _ _ _ _ => some .vector
  | .vredAddI _ _ _ _ _ => some .vector
  | .vredMin _ _ _ _ _ => some .vector
  | .vredMax _ _ _ _ _ => some .vector
  | .vredMinn _ _ _ _ _ => some .vector
  | .vredMaxn _ _ _ _ _ => some .vector
  | .vredAnd _ _ _ _ _ => some .vector
  | .vredOr _ _ _ _ _ => some .vector
  | .vredXor _ _ _ _ _ => some .vector
  | .vredAddF _ _ _ _ _ => some .vector
  | .vredMinF _ _ _ _ _ => some .vector
  | .vredMaxF _ _ _ _ _ => some .vector
  | .vredCnt _ _ _ => some .vector
  | .vscanAddI _ _ _ _ _ => some .vector
  | .vscanMin _ _ _ _ _ => some .vector
  | .vscanMax _ _ _ _ _ => some .vector
  | .vscanMinn _ _ _ _ _ => some .vector
  | .vscanMaxn _ _ _ _ _ => some .vector
  | .vscanAddF _ _ _ _ _ => some .vector
  | .vscanMinF _ _ _ _ _ => some .vector
  | .vscanMaxF _ _ _ _ _ => some .vector
  | .vcvt _ _ _ _ _ _ => some .vector
  | .vnarrow _ _ _ _ _ _ _ => some .vector
  | .vwiden _ _ _ _ _ => some .vector
  | .fexp2 _ _ _ _ => some .xclass
  | .flog2 _ _ _ _ => some .xclass
  | .fexp _ _ _ _ => some .xclass
  | .flog _ _ _ _ => some .xclass
  | .frcp _ _ _ _ => some .xclass
  | .frsqrt _ _ _ _ => some .xclass
  | .fsqrt _ _ _ _ => some .xclass
  | .ftanh _ _ _ _ => some .xclass
  | .fsig _ _ _ _ => some .xclass
  | .fdiv _ _ _ _ _ => some .xclass
  | .qrgen _ _ _ _ _ _ => some .xclass
  | .qrload _ _ _ => some .xclass
  | .qrsave _ _ _ => some .xclass
  | .qrscr _ _ _ => some .xclass
  | .qrscrId _ _ => some .xclass
  | .hist _ _ _ => some .xclass
  | .histRd _ => some .xclass
  | .histRdx _ => some .xclass
  | .hclr _ => some .xclass
  | .qscale _ _ _ => some .xclass
  | .qpack _ _ _ _ _ _ => some .xclass
  | .ldI64 _ _ _ => some .memory
  | .ldI32 _ _ _ => some .memory
  | .ldN32 _ _ _ => some .memory
  | .ldI16 _ _ _ => some .memory
  | .ldN16 _ _ _ => some .memory
  | .ldI8 _ _ _ => some .memory
  | .ldN8 _ _ _ => some .memory
  | .st64 _ _ _ => some .memory
  | .st32 _ _ _ => some .memory
  | .st16 _ _ _ => some .memory
  | .st8 _ _ _ => some .memory
  | .vld _ _ _ _ => some .memory
  | .vst _ _ _ _ => some .memory
  | .vlds _ _ _ _ _ => some .memory
  | .vgath _ _ _ _ _ _ _ => some .memory
  | .vscat _ _ _ _ _ _ _ => some .memory
  | .vlddLo _ _ _ _ => some .memory
  | .vlddHi _ _ _ _ => some .memory
  | .vstd _ _ _ _ _ => some .memory
  | .ldblk _ _ _ _ => some .memory
  | .ldblkQ _ _ => some .memory
  | .ldblkRel _ => some .memory
  | .lock _ _ => some .memory
  | .unlock _ => some .memory
  | .amo _ _ _ _ _ _ _ => some .memory
  | .cas _ _ _ _ _ _ _ => some .memory
  | .famo _ _ _ _ => some .memory
  | .vamo _ _ _ _ _ _ _ => some .memory
  | .fence _ _ => some .memory
  | .barArr _ _ => some .memory
  | .barWait _ _ _ => some .memory
  | .barExp _ _ => some .memory
  | .barTry _ _ => some .memory
  | .evpop _ => some .memory
  | .evpeek _ => some .memory
  | .bclose _ => some .memory
  | .bwait _ _ => some .memory
  | .pool _ _ _ _ _ _ _ => some .memory
  | .upd _ _ _ _ _ => some .memory
  | .msend _ _ _ => some .memory
  | .rpost _ _ _ _ => some .memory
  | .rprobe _ _ => some .memory
  | .rcancel _ _ => some .memory
  | .a2a _ _ _ _ _ _ _ => some .memory
  | .gsub _ _ _ => some .memory
  | .registerWrite => none
  | .copyStart => none
  | .resultArrival => none
  | .lineArrival => none
  | .remoteGranuleArrival => none
  | .raceCheckAnswer => none
  | .cardPrefetch => none
  | .watchdogExpiry => none
  | .waitBoundExpiry => none
  | .deferredTrap => none
  | .contextDone => none
  | .dieCompletion => none
  | .windowWriteAccept => none
  | .windowWriteLand => none
  | .batchSummary => none
  | .barrierUnitApply => none
  | .famoArrival => none
  | .fillComplete => none
  | .fillFail => none
  | .prelHoldApply => none
  | .eventRecordArrival => none
  | .matrixOperationStart => none
  | .matrixFeedEnd => none
  | .matrixResult => none
  | .matrixStreamFault => none
  | .lookupDispatch => none
  | .depotGather => none
  | .heatSketchDecay => none
  | .sidingPartial => none
  | .mergePartialArrival => none
  | .promotionEviction => none
  | .promotionPublish => none
  | .updateDispatch => none
  | .turntableRowUpdate => none
  | .messageHeaderArrival => none
  | .postArrival => none
  | .cancelArrival => none
  | .postTimeout => none
  | .headerLifetimeExpiry => none
  | .pullComplete => none
  | .marshalDispatch => none
  | .ownerPartialArrival => none
  | .roundDeadline => none
  | .uncorrectableLinkError => none
  | .uecTransportFailure => none
  | .invalidationDrainComplete => none
  | .migrationSubmit => none
  | .migrationGranuleCopy => none
  | .migrationSwitch => none
  | .preemptRequest => none
  | .trapOverflowClear => none
  | .queueDoorbell => none
  | .schedulingStep => none
  | .clusterSave => none
  | .gangReady => none
  | .gangLimitExpiry => none
  | .gangGo => none
  | .gangStart => none
  | .gangAbandon => none
  | .repairDrain => none
  | .repairReload => none
  | .repairRetire => none
  | .repairReturn => none
  | .unitOffline => none
  | .guestCompletion => none
  | .guestCompletionTimeout => none
  | .atsTranslationRequest => none
  | .guestCacheRequest => none
  | .guestInvalidationCompletion => none
  | .guestInvalidationTimeout => none
  | .guestQuiesceTimeout => none
  | .hostAccess => none
  | .coldReset => none
  | .warmReset => none
  | .attestationRequest => none
  | .powerCapSet => none
  | .luvexWatchdogExpiry => none
  | .thermalTrip => none
  | .translationWalkComplete => none
  | .batchSummaryBoundExpiry => none
  | .linkRetry => none

/-- The number that the fields of a word add up to: the row's match value and each operand at its lowest bit. -/
def packWord (base : Nat) (fs : List (Nat × Nat)) : BitVec 32 :=
  BitVec.ofNat 32 (fs.foldl (fun n f => n + f.1 * 2 ^ f.2) base)

/-- The encoder: the slot word of an instruction, from the match value and the field positions of its row; none
for an event. -/
def encode : Instr → Option (BitVec 32)
  | .nop  => some (packWord 0x00000000 [])
  | .literal p => some (packWord 0xE0000000 [(p.toNat, 0)])
  | .add d a b l => some (packWord 0x04000000 [(d.toNat, 21), (a.toNat, 16), (b.toNat, 11), (bitN l, 10)])
  | .sub d a b l => some (packWord 0x04000001 [(d.toNat, 21), (a.toNat, 16), (b.toNat, 11), (bitN l, 10)])
  | .min d a b l => some (packWord 0x04000002 [(d.toNat, 21), (a.toNat, 16), (b.toNat, 11), (bitN l, 10)])
  | .max d a b l => some (packWord 0x04000003 [(d.toNat, 21), (a.toNat, 16), (b.toNat, 11), (bitN l, 10)])
  | .minn d a b l => some (packWord 0x04000004 [(d.toNat, 21), (a.toNat, 16), (b.toNat, 11), (bitN l, 10)])
  | .maxn d a b l => some (packWord 0x04000005 [(d.toNat, 21), (a.toNat, 16), (b.toNat, 11), (bitN l, 10)])
  | .and d a b l => some (packWord 0x08000000 [(d.toNat, 21), (a.toNat, 16), (b.toNat, 11), (bitN l, 10)])
  | .or d a b l => some (packWord 0x08000001 [(d.toNat, 21), (a.toNat, 16), (b.toNat, 11), (bitN l, 10)])
  | .xor d a b l => some (packWord 0x08000002 [(d.toNat, 21), (a.toNat, 16), (b.toNat, 11), (bitN l, 10)])
  | .andn d a b l => some (packWord 0x08000003 [(d.toNat, 21), (a.toNat, 16), (b.toNat, 11), (bitN l, 10)])
  | .shl d a b l => some (packWord 0x08000004 [(d.toNat, 21), (a.toNat, 16), (b.toNat, 11), (bitN l, 10)])
  | .shr d a b l => some (packWord 0x08000005 [(d.toNat, 21), (a.toNat, 16), (b.toNat, 11), (bitN l, 10)])
  | .sra d a b l => some (packWord 0x08000006 [(d.toNat, 21), (a.toNat, 16), (b.toNat, 11), (bitN l, 10)])
  | .rot d a b l => some (packWord 0x08000007 [(d.toNat, 21), (a.toNat, 16), (b.toNat, 11), (bitN l, 10)])
  | .mov d a => some (packWord 0x0C000000 [(d.toNat, 21), (a.toNat, 16)])
  | .clz d a => some (packWord 0x0C000001 [(d.toNat, 21), (a.toNat, 16)])
  | .ctz d a => some (packWord 0x0C000002 [(d.toNat, 21), (a.toNat, 16)])
  | .popc d a => some (packWord 0x0C000003 [(d.toNat, 21), (a.toNat, 16)])
  | .bswap16 d a => some (packWord 0x0C000004 [(d.toNat, 21), (a.toNat, 16)])
  | .bswap32 d a => some (packWord 0x0C000005 [(d.toNat, 21), (a.toNat, 16)])
  | .bswap64 d a => some (packWord 0x0C000006 [(d.toNat, 21), (a.toNat, 16)])
  | .sext8 d a => some (packWord 0x0C000008 [(d.toNat, 21), (a.toNat, 16)])
  | .sext16 d a => some (packWord 0x0C000009 [(d.toNat, 21), (a.toNat, 16)])
  | .sext32 d a => some (packWord 0x0C00000A [(d.toNat, 21), (a.toNat, 16)])
  | .zext8 d a => some (packWord 0x0C00000C [(d.toNat, 21), (a.toNat, 16)])
  | .zext16 d a => some (packWord 0x0C00000D [(d.toNat, 21), (a.toNat, 16)])
  | .zext32 d a => some (packWord 0x0C00000E [(d.toNat, 21), (a.toNat, 16)])
  | .mul d a b l => some (packWord 0x10000000 [(d.toNat, 21), (a.toNat, 16), (b.toNat, 11), (bitN l, 10)])
  | .mulh d a b l => some (packWord 0x10000001 [(d.toNat, 21), (a.toNat, 16), (b.toNat, 11), (bitN l, 10)])
  | .mulhn d a b l => some (packWord 0x10000002 [(d.toNat, 21), (a.toNat, 16), (b.toNat, 11), (bitN l, 10)])
  | .div d a b l => some (packWord 0x14000000 [(d.toNat, 21), (a.toNat, 16), (b.toNat, 11), (bitN l, 10)])
  | .divn d a b l => some (packWord 0x14000001 [(d.toNat, 21), (a.toNat, 16), (b.toNat, 11), (bitN l, 10)])
  | .rem d a b l => some (packWord 0x14000002 [(d.toNat, 21), (a.toNat, 16), (b.toNat, 11), (bitN l, 10)])
  | .remn d a b l => some (packWord 0x14000003 [(d.toNat, 21), (a.toNat, 16), (b.toNat, 11), (bitN l, 10)])
  | .scmp d a b l c => some (packWord 0x18000000 [(d.toNat, 21), (a.toNat, 16), (b.toNat, 11), (bitN l, 10), (c.code, 0)])
  | .sel d a b l c => some (packWord 0x1C000000 [(d.toNat, 21), (a.toNat, 16), (b.toNat, 11), (bitN l, 10), (c.toNat, 0)])
  | .addi d a i => some (packWord 0x20000000 [(d.toNat, 21), (a.toNat, 16), (i.toNat, 0)])
  | .andi d a i => some (packWord 0x24000000 [(d.toNat, 21), (a.toNat, 16), (i.toNat, 0)])
  | .ori d a i => some (packWord 0x28000000 [(d.toNat, 21), (a.toNat, 16), (i.toNat, 0)])
  | .xori d a i => some (packWord 0x2C000000 [(d.toNat, 21), (a.toNat, 16), (i.toNat, 0)])
  | .shli d a i => some (packWord 0x30000000 [(d.toNat, 21), (a.toNat, 16), (i.toNat, 0)])
  | .shri d a i => some (packWord 0x34000000 [(d.toNat, 21), (a.toNat, 16), (i.toNat, 0)])
  | .srai d a i => some (packWord 0x38000000 [(d.toNat, 21), (a.toNat, 16), (i.toNat, 0)])
  | .movl d k => some (packWord 0x3C000400 [(d.toNat, 21), (k.toNat, 11)])
  | .br o => some (packWord 0x40000000 [(o.toNat, 0)])
  | .bcc a c o => some (packWord 0x44000000 [(a.toNat, 21), (c.code, 18), (o.toNat, 0)])
  | .jmp o => some (packWord 0x48000000 [(o.toNat, 0)])
  | .call o => some (packWord 0x4C000000 [(o.toNat, 0)])
  | .jr d a => some (packWord 0x50000000 [(d.toNat, 21), (a.toNat, 16)])
  | .ret a => some (packWord 0x54000000 [(a.toNat, 16)])
  | .loop a o => some (packWord 0x58000000 [(a.toNat, 21), (o.toNat, 0)])
  | .lstep d b l => some (packWord 0x5C000000 [(d.toNat, 21), (b.toNat, 11), (bitN l, 10)])
  | .yield  => some (packWord 0x60000000 [])
  | .halt  => some (packWord 0x60000001 [])
  | .ckpt  => some (packWord 0x60000002 [])
  | .safe  => some (packWord 0x60000003 [])
  | .trap c a => some (packWord 0x60000004 [(c.toNat, 21), (a.toNat, 16)])
  | .cnext d => some (packWord 0x64000000 [(d.toNat, 21)])
  | .csrr d i => some (packWord 0x68000000 [(d.toNat, 21), (i.toNat, 0)])
  | .csrw d a i => some (packWord 0x6C000000 [(d.toNat, 21), (a.toNat, 16), (i.toNat, 0)])
  | .ewr b r => some (packWord 0x80000000 [(b.toNat, 16), (r.toNat, 0)])
  | .erd d r => some (packWord 0x84000000 [(d.toNat, 16), (r.toNat, 0)])
  | .mxgo z a => some (packWord 0x88000000 [(bitN z, 2), (a.toNat, 0)])
  | .mxsgo z a => some (packWord 0x8C000000 [(bitN z, 2), (a.toNat, 0)])
  | .epgo a => some (packWord 0x90000000 [(a.toNat, 0)])
  | .pwait b c n => some (packWord 0x94000000 [(b.toNat, 16), (c.code, 6), (n.toNat, 0)])
  | .prel n => some (packWord 0x98000000 [(n.toNat, 0)])
  | .pstat d n => some (packWord 0x9C000000 [(d.toNat, 16), (n.toNat, 0)])
  | .rte  => some (packWord 0xC0000000 [])
  | .sysr d i => some (packWord 0xC4000000 [(d.toNat, 21), (i.toNat, 0)])
  | .sysw d a i => some (packWord 0xC8000000 [(d.toNat, 21), (a.toNat, 16), (i.toNat, 0)])
  | .tlbir a b s => some (packWord 0xCC000000 [(a.toNat, 21), (b.toNat, 16), (s.toNat, 0)])
  | .ctxsave a b d => some (packWord 0xD0000000 [(a.toNat, 21), (b.toNat, 16), (d.toNat, 0)])
  | .ctxres a d => some (packWord 0xD4000000 [(a.toNat, 21), (d.toNat, 0)])
  | .ctxresImg a b d => some (packWord 0xD4000020 [(a.toNat, 21), (b.toNat, 16), (d.toNat, 0)])
  | .ctxresLd a b d => some (packWord 0xD4000040 [(a.toNat, 21), (b.toNat, 16), (d.toNat, 0)])
  | .ctxkill a d => some (packWord 0xD8000000 [(a.toNat, 21), (d.toNat, 0)])
  | .vaddI d a b p t => some (packWord 0x04000000 [(d.toNat, 22), (a.toNat, 18), (b.toNat, 14), (p.toNat, 9), (t.code, 6)])
  | .vsubI d a b p t => some (packWord 0x04000001 [(d.toNat, 22), (a.toNat, 18), (b.toNat, 14), (p.toNat, 9), (t.code, 6)])
  | .vmulI d a b p t => some (packWord 0x04000002 [(d.toNat, 22), (a.toNat, 18), (b.toNat, 14), (p.toNat, 9), (t.code, 6)])
  | .vmulh d a b p t => some (packWord 0x04000003 [(d.toNat, 22), (a.toNat, 18), (b.toNat, 14), (p.toNat, 9), (t.code, 6)])
  | .vmulhn d a b p t => some (packWord 0x04000004 [(d.toNat, 22), (a.toNat, 18), (b.toNat, 14), (p.toNat, 9), (t.code, 6)])
  | .vminI d a b p t => some (packWord 0x04000005 [(d.toNat, 22), (a.toNat, 18), (b.toNat, 14), (p.toNat, 9), (t.code, 6)])
  | .vmaxI d a b p t => some (packWord 0x04000006 [(d.toNat, 22), (a.toNat, 18), (b.toNat, 14), (p.toNat, 9), (t.code, 6)])
  | .vminn d a b p t => some (packWord 0x04000007 [(d.toNat, 22), (a.toNat, 18), (b.toNat, 14), (p.toNat, 9), (t.code, 6)])
  | .vmaxn d a b p t => some (packWord 0x04000008 [(d.toNat, 22), (a.toNat, 18), (b.toNat, 14), (p.toNat, 9), (t.code, 6)])
  | .vadds d a b p t => some (packWord 0x04000009 [(d.toNat, 22), (a.toNat, 18), (b.toNat, 14), (p.toNat, 9), (t.code, 6)])
  | .vaddsn d a b p t => some (packWord 0x0400000A [(d.toNat, 22), (a.toNat, 18), (b.toNat, 14), (p.toNat, 9), (t.code, 6)])
  | .vsubs d a b p t => some (packWord 0x0400000B [(d.toNat, 22), (a.toNat, 18), (b.toNat, 14), (p.toNat, 9), (t.code, 6)])
  | .vsubsn d a b p t => some (packWord 0x0400000C [(d.toNat, 22), (a.toNat, 18), (b.toNat, 14), (p.toNat, 9), (t.code, 6)])
  | .vabsI d a p t => some (packWord 0x0400000D [(d.toNat, 22), (a.toNat, 18), (p.toNat, 9), (t.code, 6)])
  | .vnegI d a p t => some (packWord 0x0400000E [(d.toNat, 22), (a.toNat, 18), (p.toNat, 9), (t.code, 6)])
  | .vidx d p t => some (packWord 0x0400000F [(d.toNat, 22), (p.toNat, 9), (t.code, 6)])
  | .vaddF d a b p t => some (packWord 0x08000000 [(d.toNat, 22), (a.toNat, 18), (b.toNat, 14), (p.toNat, 9), (t.code, 6)])
  | .vsubF d a b p t => some (packWord 0x08000001 [(d.toNat, 22), (a.toNat, 18), (b.toNat, 14), (p.toNat, 9), (t.code, 6)])
  | .vmulF d a b p t => some (packWord 0x08000002 [(d.toNat, 22), (a.toNat, 18), (b.toNat, 14), (p.toNat, 9), (t.code, 6)])
  | .vminF d a b p t => some (packWord 0x08000003 [(d.toNat, 22), (a.toNat, 18), (b.toNat, 14), (p.toNat, 9), (t.code, 6)])
  | .vmaxF d a b p t => some (packWord 0x08000004 [(d.toNat, 22), (a.toNat, 18), (b.toNat, 14), (p.toNat, 9), (t.code, 6)])
  | .vabsF d a p t => some (packWord 0x08000005 [(d.toNat, 22), (a.toNat, 18), (p.toNat, 9), (t.code, 6)])
  | .vnegF d a p t => some (packWord 0x08000006 [(d.toNat, 22), (a.toNat, 18), (p.toNat, 9), (t.code, 6)])
  | .vfma d a b c p t z => some (packWord 0x0C000000 [(d.toNat, 22), (a.toNat, 18), (b.toNat, 14), (c.toNat, 10), (p.toNat, 5), (t.code, 2), (bitN z, 1)])
  | .vfms d a b c p t z => some (packWord 0x10000000 [(d.toNat, 22), (a.toNat, 18), (b.toNat, 14), (c.toNat, 10), (p.toNat, 5), (t.code, 2), (bitN z, 1)])
  | .vfnma d a b c p t z => some (packWord 0x14000000 [(d.toNat, 22), (a.toNat, 18), (b.toNat, 14), (c.toNat, 10), (p.toNat, 5), (t.code, 2), (bitN z, 1)])
  | .vand d a b p t => some (packWord 0x18000000 [(d.toNat, 22), (a.toNat, 18), (b.toNat, 14), (p.toNat, 9), (t.code, 6)])
  | .vor d a b p t => some (packWord 0x18000001 [(d.toNat, 22), (a.toNat, 18), (b.toNat, 14), (p.toNat, 9), (t.code, 6)])
  | .vxor d a b p t => some (packWord 0x18000002 [(d.toNat, 22), (a.toNat, 18), (b.toNat, 14), (p.toNat, 9), (t.code, 6)])
  | .vandn d a b p t => some (packWord 0x18000003 [(d.toNat, 22), (a.toNat, 18), (b.toNat, 14), (p.toNat, 9), (t.code, 6)])
  | .vnot d a p t => some (packWord 0x18000004 [(d.toNat, 22), (a.toNat, 18), (p.toNat, 9), (t.code, 6)])
  | .vshl d a b p t => some (packWord 0x18000005 [(d.toNat, 22), (a.toNat, 18), (b.toNat, 14), (p.toNat, 9), (t.code, 6)])
  | .vshr d a b p t => some (packWord 0x18000006 [(d.toNat, 22), (a.toNat, 18), (b.toNat, 14), (p.toNat, 9), (t.code, 6)])
  | .vsra d a b p t => some (packWord 0x18000007 [(d.toNat, 22), (a.toNat, 18), (b.toNat, 14), (p.toNat, 9), (t.code, 6)])
  | .vsel d a b p t => some (packWord 0x1C000000 [(d.toNat, 22), (a.toNat, 18), (b.toNat, 14), (p.toNat, 9), (t.code, 6)])
  | .vcmp d a b p t c => some (packWord 0x20000000 [(d.toNat, 21), (a.toNat, 17), (b.toNat, 13), (p.toNat, 8), (t.code, 5), (c.code, 2)])
  | .vcmpn d a b p t c => some (packWord 0x20000001 [(d.toNat, 21), (a.toNat, 17), (b.toNat, 13), (p.toNat, 8), (t.code, 5), (c.code, 2)])
  | .vfcmp d a b p t c => some (packWord 0x24000000 [(d.toNat, 21), (a.toNat, 17), (b.toNat, 13), (p.toNat, 8), (t.code, 5), (c.code, 2)])
  | .vfcmpSig d a b p t c => some (packWord 0x24000001 [(d.toNat, 21), (a.toNat, 17), (b.toNat, 13), (p.toNat, 8), (t.code, 5), (c.code, 2)])
  | .vclass d a m p t n k => some (packWord 0x28000000 [(d.toNat, 21), (a.toNat, 17), (m.toNat, 13), (p.toNat, 8), (t.code, 5), (n.toNat, 2), (k.toNat, 0)])
  | .pand d a b => some (packWord 0x2C000000 [(d.toNat, 21), (a.toNat, 16), (b.toNat, 11)])
  | .por d a b => some (packWord 0x2C000001 [(d.toNat, 21), (a.toNat, 16), (b.toNat, 11)])
  | .pxor d a b => some (packWord 0x2C000002 [(d.toNat, 21), (a.toNat, 16), (b.toNat, 11)])
  | .pandn d a b => some (packWord 0x2C000003 [(d.toNat, 21), (a.toNat, 16), (b.toNat, 11)])
  | .pnot d a => some (packWord 0x2C000004 [(d.toNat, 21), (a.toNat, 16)])
  | .psel d a b c => some (packWord 0x2C000005 [(d.toNat, 21), (a.toNat, 16), (b.toNat, 11), (c.toNat, 6)])
  | .pfirst d a => some (packWord 0x2C000006 [(d.toNat, 21), (a.toNat, 16)])
  | .vbcst d b p t => some (packWord 0x30000000 [(d.toNat, 22), (b.toNat, 13), (p.toNat, 8), (t.code, 5)])
  | .vins d k b t j => some (packWord 0x30000001 [(d.toNat, 22), (k.toNat, 18), (b.toNat, 13), (t.code, 5), (j.toNat, 1)])
  | .vext k a d t j => some (packWord 0x34000000 [(k.toNat, 22), (a.toNat, 18), (d.toNat, 13), (t.code, 5), (j.toNat, 1)])
  | .vextn k a d t j => some (packWord 0x34000001 [(k.toNat, 22), (a.toNat, 18), (d.toNat, 13), (t.code, 5), (j.toNat, 1)])
  | .vxc d a p t g => some (packWord 0x38000000 [(d.toNat, 22), (a.toNat, 18), (p.toNat, 9), (t.code, 6), (g.code, 0)])
  | .vaddVsI d a b p t => some (packWord 0x3C000000 [(d.toNat, 22), (a.toNat, 18), (b.toNat, 13), (p.toNat, 8), (t.code, 5)])
  | .vsubVsI d a b p t => some (packWord 0x3C000001 [(d.toNat, 22), (a.toNat, 18), (b.toNat, 13), (p.toNat, 8), (t.code, 5)])
  | .vrsubVsI d a b p t => some (packWord 0x3C000002 [(d.toNat, 22), (a.toNat, 18), (b.toNat, 13), (p.toNat, 8), (t.code, 5)])
  | .vmulVsI d a b p t => some (packWord 0x3C000003 [(d.toNat, 22), (a.toNat, 18), (b.toNat, 13), (p.toNat, 8), (t.code, 5)])
  | .vminVsI d a b p t => some (packWord 0x3C000004 [(d.toNat, 22), (a.toNat, 18), (b.toNat, 13), (p.toNat, 8), (t.code, 5)])
  | .vmaxVsI d a b p t => some (packWord 0x3C000005 [(d.toNat, 22), (a.toNat, 18), (b.toNat, 13), (p.toNat, 8), (t.code, 5)])
  | .vminnVs d a b p t => some (packWord 0x3C000006 [(d.toNat, 22), (a.toNat, 18), (b.toNat, 13), (p.toNat, 8), (t.code, 5)])
  | .vmaxnVs d a b p t => some (packWord 0x3C000007 [(d.toNat, 22), (a.toNat, 18), (b.toNat, 13), (p.toNat, 8), (t.code, 5)])
  | .vandVs d a b p t => some (packWord 0x3C000008 [(d.toNat, 22), (a.toNat, 18), (b.toNat, 13), (p.toNat, 8), (t.code, 5)])
  | .vorVs d a b p t => some (packWord 0x3C000009 [(d.toNat, 22), (a.toNat, 18), (b.toNat, 13), (p.toNat, 8), (t.code, 5)])
  | .vxorVs d a b p t => some (packWord 0x3C00000A [(d.toNat, 22), (a.toNat, 18), (b.toNat, 13), (p.toNat, 8), (t.code, 5)])
  | .vshlVs d a b p t => some (packWord 0x3C00000B [(d.toNat, 22), (a.toNat, 18), (b.toNat, 13), (p.toNat, 8), (t.code, 5)])
  | .vshrVs d a b p t => some (packWord 0x3C00000C [(d.toNat, 22), (a.toNat, 18), (b.toNat, 13), (p.toNat, 8), (t.code, 5)])
  | .vsraVs d a b p t => some (packWord 0x3C00000D [(d.toNat, 22), (a.toNat, 18), (b.toNat, 13), (p.toNat, 8), (t.code, 5)])
  | .vaddVsF d a b p t => some (packWord 0x3C000010 [(d.toNat, 22), (a.toNat, 18), (b.toNat, 13), (p.toNat, 8), (t.code, 5)])
  | .vsubVsF d a b p t => some (packWord 0x3C000011 [(d.toNat, 22), (a.toNat, 18), (b.toNat, 13), (p.toNat, 8), (t.code, 5)])
  | .vrsubVsF d a b p t => some (packWord 0x3C000012 [(d.toNat, 22), (a.toNat, 18), (b.toNat, 13), (p.toNat, 8), (t.code, 5)])
  | .vmulVsF d a b p t => some (packWord 0x3C000013 [(d.toNat, 22), (a.toNat, 18), (b.toNat, 13), (p.toNat, 8), (t.code, 5)])
  | .vminVsF d a b p t => some (packWord 0x3C000014 [(d.toNat, 22), (a.toNat, 18), (b.toNat, 13), (p.toNat, 8), (t.code, 5)])
  | .vmaxVsF d a b p t => some (packWord 0x3C000015 [(d.toNat, 22), (a.toNat, 18), (b.toNat, 13), (p.toNat, 8), (t.code, 5)])
  | .vperm d a b p t => some (packWord 0x40000000 [(d.toNat, 22), (a.toNat, 18), (b.toNat, 14), (p.toNat, 9), (t.code, 6)])
  | .vrot d a b p t => some (packWord 0x44000000 [(d.toNat, 22), (a.toNat, 18), (b.toNat, 13), (p.toNat, 8), (t.code, 5)])
  | .vzipLo d a b p t => some (packWord 0x48000000 [(d.toNat, 22), (a.toNat, 18), (b.toNat, 14), (p.toNat, 9), (t.code, 6)])
  | .vzipHi d a b p t => some (packWord 0x48000001 [(d.toNat, 22), (a.toNat, 18), (b.toNat, 14), (p.toNat, 9), (t.code, 6)])
  | .vunzipEv d a b p t => some (packWord 0x48000002 [(d.toNat, 22), (a.toNat, 18), (b.toNat, 14), (p.toNat, 9), (t.code, 6)])
  | .vunzipOd d a b p t => some (packWord 0x48000003 [(d.toNat, 22), (a.toNat, 18), (b.toNat, 14), (p.toNat, 9), (t.code, 6)])
  | .vslideDn d a b p t => some (packWord 0x4C000000 [(d.toNat, 22), (a.toNat, 18), (b.toNat, 13), (p.toNat, 8), (t.code, 5)])
  | .vslideUp d a b p t => some (packWord 0x4C000001 [(d.toNat, 22), (a.toNat, 18), (b.toNat, 13), (p.toNat, 8), (t.code, 5)])
  | .vcmpr d a p t => some (packWord 0x50000000 [(d.toNat, 22), (a.toNat, 18), (p.toNat, 9), (t.code, 6)])
  | .vexpd d a p t => some (packWord 0x54000000 [(d.toNat, 22), (a.toNat, 18), (p.toNat, 9), (t.code, 6)])
  | .vredAddI d a b p t => some (packWord 0x60000000 [(d.toNat, 22), (a.toNat, 18), (b.toNat, 14), (p.toNat, 9), (t.code, 6)])
  | .vredMin d a b p t => some (packWord 0x60000001 [(d.toNat, 22), (a.toNat, 18), (b.toNat, 14), (p.toNat, 9), (t.code, 6)])
  | .vredMax d a b p t => some (packWord 0x60000002 [(d.toNat, 22), (a.toNat, 18), (b.toNat, 14), (p.toNat, 9), (t.code, 6)])
  | .vredMinn d a b p t => some (packWord 0x60000003 [(d.toNat, 22), (a.toNat, 18), (b.toNat, 14), (p.toNat, 9), (t.code, 6)])
  | .vredMaxn d a b p t => some (packWord 0x60000004 [(d.toNat, 22), (a.toNat, 18), (b.toNat, 14), (p.toNat, 9), (t.code, 6)])
  | .vredAnd d a b p t => some (packWord 0x60000005 [(d.toNat, 22), (a.toNat, 18), (b.toNat, 14), (p.toNat, 9), (t.code, 6)])
  | .vredOr d a b p t => some (packWord 0x60000006 [(d.toNat, 22), (a.toNat, 18), (b.toNat, 14), (p.toNat, 9), (t.code, 6)])
  | .vredXor d a b p t => some (packWord 0x60000007 [(d.toNat, 22), (a.toNat, 18), (b.toNat, 14), (p.toNat, 9), (t.code, 6)])
  | .vredAddF d a b p t => some (packWord 0x60000008 [(d.toNat, 22), (a.toNat, 18), (b.toNat, 14), (p.toNat, 9), (t.code, 6)])
  | .vredMinF d a b p t => some (packWord 0x60000009 [(d.toNat, 22), (a.toNat, 18), (b.toNat, 14), (p.toNat, 9), (t.code, 6)])
  | .vredMaxF d a b p t => some (packWord 0x6000000A [(d.toNat, 22), (a.toNat, 18), (b.toNat, 14), (p.toNat, 9), (t.code, 6)])
  | .vredCnt d p t => some (packWord 0x6000000B [(d.toNat, 22), (p.toNat, 9), (t.code, 6)])
  | .vscanAddI d a b p t => some (packWord 0x64000000 [(d.toNat, 22), (a.toNat, 18), (b.toNat, 14), (p.toNat, 9), (t.code, 6)])
  | .vscanMin d a b p t => some (packWord 0x64000001 [(d.toNat, 22), (a.toNat, 18), (b.toNat, 14), (p.toNat, 9), (t.code, 6)])
  | .vscanMax d a b p t => some (packWord 0x64000002 [(d.toNat, 22), (a.toNat, 18), (b.toNat, 14), (p.toNat, 9), (t.code, 6)])
  | .vscanMinn d a b p t => some (packWord 0x64000003 [(d.toNat, 22), (a.toNat, 18), (b.toNat, 14), (p.toNat, 9), (t.code, 6)])
  | .vscanMaxn d a b p t => some (packWord 0x64000004 [(d.toNat, 22), (a.toNat, 18), (b.toNat, 14), (p.toNat, 9), (t.code, 6)])
  | .vscanAddF d a b p t => some (packWord 0x64000008 [(d.toNat, 22), (a.toNat, 18), (b.toNat, 14), (p.toNat, 9), (t.code, 6)])
  | .vscanMinF d a b p t => some (packWord 0x64000009 [(d.toNat, 22), (a.toNat, 18), (b.toNat, 14), (p.toNat, 9), (t.code, 6)])
  | .vscanMaxF d a b p t => some (packWord 0x6400000A [(d.toNat, 22), (a.toNat, 18), (b.toNat, 14), (p.toNat, 9), (t.code, 6)])
  | .vcvt d a b p r f => some (packWord 0x70000000 [(d.toNat, 22), (a.toNat, 18), (b.toNat, 14), (p.toNat, 9), (r.code, 6), (f.toNat, 0)])
  | .vnarrow d a b p r q n => some (packWord 0x74000000 [(d.toNat, 22), (a.toNat, 18), (b.toNat, 14), (p.toNat, 9), (r.code, 6), (q.toNat, 4), (n.toNat, 0)])
  | .vwiden d a p q n => some (packWord 0x78000000 [(d.toNat, 22), (a.toNat, 18), (p.toNat, 9), (q.toNat, 4), (n.toNat, 0)])
  | .fexp2 d a p t => some (packWord 0x04000000 [(d.toNat, 22), (a.toNat, 18), (p.toNat, 9), (t.code, 6)])
  | .flog2 d a p t => some (packWord 0x04000001 [(d.toNat, 22), (a.toNat, 18), (p.toNat, 9), (t.code, 6)])
  | .fexp d a p t => some (packWord 0x04000002 [(d.toNat, 22), (a.toNat, 18), (p.toNat, 9), (t.code, 6)])
  | .flog d a p t => some (packWord 0x04000003 [(d.toNat, 22), (a.toNat, 18), (p.toNat, 9), (t.code, 6)])
  | .frcp d a p t => some (packWord 0x04000004 [(d.toNat, 22), (a.toNat, 18), (p.toNat, 9), (t.code, 6)])
  | .frsqrt d a p t => some (packWord 0x04000005 [(d.toNat, 22), (a.toNat, 18), (p.toNat, 9), (t.code, 6)])
  | .fsqrt d a p t => some (packWord 0x04000006 [(d.toNat, 22), (a.toNat, 18), (p.toNat, 9), (t.code, 6)])
  | .ftanh d a p t => some (packWord 0x04000007 [(d.toNat, 22), (a.toNat, 18), (p.toNat, 9), (t.code, 6)])
  | .fsig d a p t => some (packWord 0x04000008 [(d.toNat, 22), (a.toNat, 18), (p.toNat, 9), (t.code, 6)])
  | .fdiv d a b p t => some (packWord 0x08000000 [(d.toNat, 22), (a.toNat, 18), (b.toNat, 14), (p.toNat, 9), (t.code, 6)])
  | .qrgen d b p t m o => some (packWord 0x20000000 [(d.toNat, 22), (b.toNat, 13), (p.toNat, 8), (t.code, 5), (bitN m, 2), (o.code, 0)])
  | .qrload a n d => some (packWord 0x24000000 [(a.toNat, 21), (n.toNat, 5), (d.toNat, 0)])
  | .qrsave a n d => some (packWord 0x28000000 [(a.toNat, 21), (n.toNat, 5), (d.toNat, 0)])
  | .qrscr a n d => some (packWord 0x2C000000 [(a.toNat, 21), (n.toNat, 5), (d.toNat, 0)])
  | .qrscrId n d => some (packWord 0x2C000400 [(n.toNat, 5), (d.toNat, 0)])
  | .hist a p t => some (packWord 0x40000000 [(a.toNat, 18), (p.toNat, 9), (t.code, 6)])
  | .histRd d => some (packWord 0x40000081 [(d.toNat, 22)])
  | .histRdx d => some (packWord 0x40000082 [(d.toNat, 22)])
  | .hclr a => some (packWord 0x44000000 [(a.toNat, 21)])
  | .qscale d b p => some (packWord 0x48000040 [(d.toNat, 22), (b.toNat, 13), (p.toNat, 8)])
  | .qpack d a b p t q => some (packWord 0x4C000000 [(d.toNat, 22), (a.toNat, 18), (b.toNat, 14), (p.toNat, 9), (t.code, 6), (q.toNat, 0)])
  | .ldI64 t b o => some (packWord 0x04000000 [(t.toNat, 21), (b.toNat, 16), (o.toNat, 0)])
  | .ldI32 t b o => some (packWord 0x08000000 [(t.toNat, 21), (b.toNat, 16), (o.toNat, 0)])
  | .ldN32 t b o => some (packWord 0x0C000000 [(t.toNat, 21), (b.toNat, 16), (o.toNat, 0)])
  | .ldI16 t b o => some (packWord 0x10000000 [(t.toNat, 21), (b.toNat, 16), (o.toNat, 0)])
  | .ldN16 t b o => some (packWord 0x14000000 [(t.toNat, 21), (b.toNat, 16), (o.toNat, 0)])
  | .ldI8 t b o => some (packWord 0x18000000 [(t.toNat, 21), (b.toNat, 16), (o.toNat, 0)])
  | .ldN8 t b o => some (packWord 0x1C000000 [(t.toNat, 21), (b.toNat, 16), (o.toNat, 0)])
  | .st64 t b o => some (packWord 0x20000000 [(t.toNat, 21), (b.toNat, 16), (o.toNat, 0)])
  | .st32 t b o => some (packWord 0x24000000 [(t.toNat, 21), (b.toNat, 16), (o.toNat, 0)])
  | .st16 t b o => some (packWord 0x28000000 [(t.toNat, 21), (b.toNat, 16), (o.toNat, 0)])
  | .st8 t b o => some (packWord 0x2C000000 [(t.toNat, 21), (b.toNat, 16), (o.toNat, 0)])
  | .vld t b p o => some (packWord 0x40000000 [(t.toNat, 22), (b.toNat, 17), (p.toNat, 12), (o.toNat, 0)])
  | .vst t b p o => some (packWord 0x44000000 [(t.toNat, 22), (b.toNat, 17), (p.toNat, 12), (o.toNat, 0)])
  | .vlds t b s p z => some (packWord 0x48000000 [(t.toNat, 22), (b.toNat, 17), (s.toNat, 12), (p.toNat, 7), (z.code, 4)])
  | .vgath t b i p z n m => some (packWord 0x4C000000 [(t.toNat, 22), (b.toNat, 17), (i.toNat, 13), (p.toNat, 8), (z.code, 5), (bitN n, 1), (bitN m, 0)])
  | .vscat t b i p z n m => some (packWord 0x50000000 [(t.toNat, 22), (b.toNat, 17), (i.toNat, 13), (p.toNat, 8), (z.code, 5), (bitN n, 1), (bitN m, 0)])
  | .vlddLo t b p o => some (packWord 0x54000000 [(t.toNat, 22), (b.toNat, 17), (p.toNat, 12), (o.toNat, 0)])
  | .vlddHi t b p o => some (packWord 0x58000000 [(t.toNat, 22), (b.toNat, 17), (p.toNat, 12), (o.toNat, 0)])
  | .vstd t b p f s => some (packWord 0x5C000000 [(t.toNat, 22), (b.toNat, 17), (p.toNat, 12), (f.toNat, 8), (s.toNat, 0)])
  | .ldblk a d g n => some (packWord 0x60000000 [(a.toNat, 21), (d.toNat, 16), (g.toNat, 6), (n.toNat, 0)])
  | .ldblkQ d g => some (packWord 0x60000400 [(d.toNat, 16), (g.toNat, 6)])
  | .ldblkRel g => some (packWord 0x60000800 [(g.toNat, 6)])
  | .lock a d => some (packWord 0x64000000 [(a.toNat, 21), (d.toNat, 16)])
  | .unlock a => some (packWord 0x68000000 [(a.toNat, 21)])
  | .amo d a b o s z f => some (packWord 0x70000000 [(d.toNat, 21), (a.toNat, 16), (b.toNat, 11), (o.code, 9), (s.code, 6), (bitN z, 4), (f.code, 0)])
  | .cas d a b c s o z => some (packWord 0x74000000 [(d.toNat, 21), (a.toNat, 16), (b.toNat, 11), (c.toNat, 6), (s.code, 3), (o.code, 1), (bitN z, 0)])
  | .famo a b c t => some (packWord 0x78000000 [(a.toNat, 16), (b.toNat, 11), (c.toNat, 6), (t.code, 0)])
  | .vamo t b i p z r f => some (packWord 0x7C000000 [(t.toNat, 22), (b.toNat, 17), (i.toNat, 13), (p.toNat, 8), (z.code, 5), (bitN r, 4), (f.code, 0)])
  | .fence k s => some (packWord 0x80000000 [(k.code, 4), (s.code, 0)])
  | .barArr a k => some (packWord 0x84000000 [(a.toNat, 21), (k.toNat, 0)])
  | .barWait a b h => some (packWord 0x88000000 [(a.toNat, 21), (b.toNat, 16), (h.toNat, 0)])
  | .barExp a b => some (packWord 0x8C000000 [(a.toNat, 21), (b.toNat, 16)])
  | .barTry a d => some (packWord 0x90000000 [(a.toNat, 21), (d.toNat, 16)])
  | .evpop d => some (packWord 0x94000000 [(d.toNat, 16)])
  | .evpeek d => some (packWord 0x98000000 [(d.toNat, 16)])
  | .bclose t => some (packWord 0xA0000000 [(t.toNat, 0)])
  | .bwait b t => some (packWord 0xA4000000 [(b.toNat, 16), (t.toNat, 0)])
  | .pool a d i o m c p => some (packWord 0xC0000000 [(a.toNat, 21), (d.toNat, 16), (bitN i, 10), (bitN o, 9), (bitN m, 8), (c.toNat, 6), (p.toNat, 0)])
  | .upd a d i g c => some (packWord 0xC4000000 [(a.toNat, 21), (d.toNat, 16), (bitN i, 3), (bitN g, 2), (c.toNat, 0)])
  | .msend a d c => some (packWord 0xC8000000 [(a.toNat, 21), (d.toNat, 16), (c.toNat, 0)])
  | .rpost a d c p => some (packWord 0xCC000000 [(a.toNat, 21), (d.toNat, 16), (c.toNat, 6), (p.toNat, 0)])
  | .rprobe a d => some (packWord 0xD0000000 [(a.toNat, 21), (d.toNat, 16)])
  | .rcancel a d => some (packWord 0xD4000000 [(a.toNat, 21), (d.toNat, 16)])
  | .a2a a d i o m c p => some (packWord 0xD8000000 [(a.toNat, 21), (d.toNat, 16), (bitN i, 10), (bitN o, 9), (bitN m, 8), (c.toNat, 6), (p.toNat, 0)])
  | .gsub a d c => some (packWord 0xDC000000 [(a.toNat, 21), (d.toNat, 16), (c.toNat, 0)])
  | .registerWrite => none
  | .copyStart => none
  | .resultArrival => none
  | .lineArrival => none
  | .remoteGranuleArrival => none
  | .raceCheckAnswer => none
  | .cardPrefetch => none
  | .watchdogExpiry => none
  | .waitBoundExpiry => none
  | .deferredTrap => none
  | .contextDone => none
  | .dieCompletion => none
  | .windowWriteAccept => none
  | .windowWriteLand => none
  | .batchSummary => none
  | .barrierUnitApply => none
  | .famoArrival => none
  | .fillComplete => none
  | .fillFail => none
  | .prelHoldApply => none
  | .eventRecordArrival => none
  | .matrixOperationStart => none
  | .matrixFeedEnd => none
  | .matrixResult => none
  | .matrixStreamFault => none
  | .lookupDispatch => none
  | .depotGather => none
  | .heatSketchDecay => none
  | .sidingPartial => none
  | .mergePartialArrival => none
  | .promotionEviction => none
  | .promotionPublish => none
  | .updateDispatch => none
  | .turntableRowUpdate => none
  | .messageHeaderArrival => none
  | .postArrival => none
  | .cancelArrival => none
  | .postTimeout => none
  | .headerLifetimeExpiry => none
  | .pullComplete => none
  | .marshalDispatch => none
  | .ownerPartialArrival => none
  | .roundDeadline => none
  | .uncorrectableLinkError => none
  | .uecTransportFailure => none
  | .invalidationDrainComplete => none
  | .migrationSubmit => none
  | .migrationGranuleCopy => none
  | .migrationSwitch => none
  | .preemptRequest => none
  | .trapOverflowClear => none
  | .queueDoorbell => none
  | .schedulingStep => none
  | .clusterSave => none
  | .gangReady => none
  | .gangLimitExpiry => none
  | .gangGo => none
  | .gangStart => none
  | .gangAbandon => none
  | .repairDrain => none
  | .repairReload => none
  | .repairRetire => none
  | .repairReturn => none
  | .unitOffline => none
  | .guestCompletion => none
  | .guestCompletionTimeout => none
  | .atsTranslationRequest => none
  | .guestCacheRequest => none
  | .guestInvalidationCompletion => none
  | .guestInvalidationTimeout => none
  | .guestQuiesceTimeout => none
  | .hostAccess => none
  | .coldReset => none
  | .warmReset => none
  | .attestationRequest => none
  | .powerCapSet => none
  | .luvexWatchdogExpiry => none
  | .thermalTrip => none
  | .translationWalkComplete => none
  | .batchSummaryBoundExpiry => none
  | .linkRetry => none

/-- The host's entry: the instruction that a word of nbits bits holds, with bit 0 the least significant. A slot
word has 32 bits. The opcode table does not give a word's slot class, so the classes are tried in the order of
the maps R79 to R82; the first in which the word is legal answers (log 8). -/
def decodeTableWord (nbits w : Nat) : Option Instr :=
  if nbits ≤ 32 ∧ w < 2 ^ 32 then
    let x := BitVec.ofNat 32 w
    match decode .scalar x with
    | .ok i => some i
    | .error _ =>
      match decode .vector x with
      | .ok i => some i
      | .error _ =>
        match decode .xclass x with
        | .ok i => some i
        | .error _ =>
          match decode .memory x with
          | .ok i => some i
          | .error _ => none
  else none

end Sys2Proof
end

