-- ==== Sys2Proof/Machine/Legality.lean ====
section
/-! DEFINITION. Sys2Proof/Machine/Legality.lean: which bundles are legal (R76, R83, R84), and which instructions are
privileged (R348). -/

namespace Sys2Proof

open Sys2Proof.Machine

/-- A register as R84 point 4 counts writes: scalar, vector register of the 48, predicate. -/
inductive Reg where
  | s (r : BitVec 5)
  | v (i : Nat)
  | p (r : BitVec 5)
  deriving DecidableEq, Repr

/-- The registers that an instruction in slot k writes, by its entry (R84 point 4). -/
def Instr.writes (k : Nat) : Instr → List Reg
  | .literal _ => []
  | .add d _ _ _ => [.s d]
  | .sub d _ _ _ => [.s d]
  | .min d _ _ _ => [.s d]
  | .max d _ _ _ => [.s d]
  | .minn d _ _ _ => [.s d]
  | .maxn d _ _ _ => [.s d]
  | .and d _ _ _ => [.s d]
  | .or d _ _ _ => [.s d]
  | .xor d _ _ _ => [.s d]
  | .andn d _ _ _ => [.s d]
  | .shl d _ _ _ => [.s d]
  | .shr d _ _ _ => [.s d]
  | .sra d _ _ _ => [.s d]
  | .rot d _ _ _ => [.s d]
  | .mov d _ => [.s d]
  | .clz d _ => [.s d]
  | .ctz d _ => [.s d]
  | .popc d _ => [.s d]
  | .bswap16 d _ => [.s d]
  | .bswap32 d _ => [.s d]
  | .bswap64 d _ => [.s d]
  | .sext8 d _ => [.s d]
  | .sext16 d _ => [.s d]
  | .sext32 d _ => [.s d]
  | .zext8 d _ => [.s d]
  | .zext16 d _ => [.s d]
  | .zext32 d _ => [.s d]
  | .mul d _ _ _ => [.s d]
  | .mulh d _ _ _ => [.s d]
  | .mulhn d _ _ _ => [.s d]
  | .div d _ _ _ => [.s d]
  | .divn d _ _ _ => [.s d]
  | .rem d _ _ _ => [.s d]
  | .remn d _ _ _ => [.s d]
  | .scmp d _ _ _ _ => [.s d]
  | .sel d _ _ _ _ => [.s d]
  | .addi d _ _ => [.s d]
  | .andi d _ _ => [.s d]
  | .ori d _ _ => [.s d]
  | .xori d _ _ => [.s d]
  | .shli d _ _ => [.s d]
  | .shri d _ _ => [.s d]
  | .srai d _ _ => [.s d]
  | .movl d _ => [.s d]
  | .br _ => []
  | .bcc _ _ _ => []
  | .jmp _ => []
  | .call _ => [.s 23]
  | .jr d _ => [.s d]
  | .ret _ => []
  | .loop _ _ => []
  | .lstep _ _ _ => []
  | .trap _ _ => []
  | .cnext d => .s d :: (List.range 8).map fun w => .s (BitVec.ofNat 5 (24 + w))
  | .csrr d _ => [.s d]
  | .csrw d _ _ => [.s d]
  | .ewr _ _ => []
  | .erd d _ => [.s d]
  | .mxgo _ _ => []
  | .mxsgo _ _ => []
  | .epgo _ => []
  | .pwait _ _ _ => []
  | .prel _ => []
  | .pstat d _ => [.s d]
  | .sysr d _ => [.s d]
  | .sysw d _ _ => [.s d]
  | .tlbir _ _ _ => []
  | .ctxsave _ _ d => [.s d]
  | .ctxres _ d => [.s d]
  | .ctxresImg _ _ d => [.s d]
  | .ctxresLd _ _ d => [.s d]
  | .ctxkill _ d => [.s d]
  | .vaddI d _ _ _ _ => [.v (slotGrp k * 16 + d.toNat)]
  | .vsubI d _ _ _ _ => [.v (slotGrp k * 16 + d.toNat)]
  | .vmulI d _ _ _ _ => [.v (slotGrp k * 16 + d.toNat)]
  | .vmulh d _ _ _ _ => [.v (slotGrp k * 16 + d.toNat)]
  | .vmulhn d _ _ _ _ => [.v (slotGrp k * 16 + d.toNat)]
  | .vminI d _ _ _ _ => [.v (slotGrp k * 16 + d.toNat)]
  | .vmaxI d _ _ _ _ => [.v (slotGrp k * 16 + d.toNat)]
  | .vminn d _ _ _ _ => [.v (slotGrp k * 16 + d.toNat)]
  | .vmaxn d _ _ _ _ => [.v (slotGrp k * 16 + d.toNat)]
  | .vadds d _ _ _ _ => [.v (slotGrp k * 16 + d.toNat)]
  | .vaddsn d _ _ _ _ => [.v (slotGrp k * 16 + d.toNat)]
  | .vsubs d _ _ _ _ => [.v (slotGrp k * 16 + d.toNat)]
  | .vsubsn d _ _ _ _ => [.v (slotGrp k * 16 + d.toNat)]
  | .vabsI d _ _ _ => [.v (slotGrp k * 16 + d.toNat)]
  | .vnegI d _ _ _ => [.v (slotGrp k * 16 + d.toNat)]
  | .vidx d _ _ => [.v (slotGrp k * 16 + d.toNat)]
  | .vaddF d _ _ _ _ => [.v (slotGrp k * 16 + d.toNat)]
  | .vsubF d _ _ _ _ => [.v (slotGrp k * 16 + d.toNat)]
  | .vmulF d _ _ _ _ => [.v (slotGrp k * 16 + d.toNat)]
  | .vminF d _ _ _ _ => [.v (slotGrp k * 16 + d.toNat)]
  | .vmaxF d _ _ _ _ => [.v (slotGrp k * 16 + d.toNat)]
  | .vabsF d _ _ _ => [.v (slotGrp k * 16 + d.toNat)]
  | .vnegF d _ _ _ => [.v (slotGrp k * 16 + d.toNat)]
  | .vfma d _ _ _ _ _ _ => [.v (slotGrp k * 16 + d.toNat)]
  | .vfms d _ _ _ _ _ _ => [.v (slotGrp k * 16 + d.toNat)]
  | .vfnma d _ _ _ _ _ _ => [.v (slotGrp k * 16 + d.toNat)]
  | .vand d _ _ _ _ => [.v (slotGrp k * 16 + d.toNat)]
  | .vor d _ _ _ _ => [.v (slotGrp k * 16 + d.toNat)]
  | .vxor d _ _ _ _ => [.v (slotGrp k * 16 + d.toNat)]
  | .vandn d _ _ _ _ => [.v (slotGrp k * 16 + d.toNat)]
  | .vnot d _ _ _ => [.v (slotGrp k * 16 + d.toNat)]
  | .vshl d _ _ _ _ => [.v (slotGrp k * 16 + d.toNat)]
  | .vshr d _ _ _ _ => [.v (slotGrp k * 16 + d.toNat)]
  | .vsra d _ _ _ _ => [.v (slotGrp k * 16 + d.toNat)]
  | .vsel d _ _ _ _ => [.v (slotGrp k * 16 + d.toNat)]
  | .vcmp d _ _ _ _ _ => [.p d]
  | .vcmpn d _ _ _ _ _ => [.p d]
  | .vfcmp d _ _ _ _ _ => [.p d]
  | .vfcmpSig d _ _ _ _ _ => [.p d]
  | .vclass d _ _ _ _ _ _ => [.p d]
  | .pand d _ _ => [.p d]
  | .por d _ _ => [.p d]
  | .pxor d _ _ => [.p d]
  | .pandn d _ _ => [.p d]
  | .pnot d _ => [.p d]
  | .psel d _ _ _ => [.p d]
  | .pfirst d _ => [.p d]
  | .vbcst d _ _ _ => [.v (slotGrp k * 16 + d.toNat)]
  | .vins d _ _ _ _ => [.v (slotGrp k * 16 + d.toNat)]
  | .vext _ _ d _ _ => [.s d]
  | .vextn _ _ d _ _ => [.s d]
  | .vxc d _ _ _ g => [.v (g.code * 16 + d.toNat)]
  | .vaddVsI d _ _ _ _ => [.v (slotGrp k * 16 + d.toNat)]
  | .vsubVsI d _ _ _ _ => [.v (slotGrp k * 16 + d.toNat)]
  | .vrsubVsI d _ _ _ _ => [.v (slotGrp k * 16 + d.toNat)]
  | .vmulVsI d _ _ _ _ => [.v (slotGrp k * 16 + d.toNat)]
  | .vminVsI d _ _ _ _ => [.v (slotGrp k * 16 + d.toNat)]
  | .vmaxVsI d _ _ _ _ => [.v (slotGrp k * 16 + d.toNat)]
  | .vminnVs d _ _ _ _ => [.v (slotGrp k * 16 + d.toNat)]
  | .vmaxnVs d _ _ _ _ => [.v (slotGrp k * 16 + d.toNat)]
  | .vandVs d _ _ _ _ => [.v (slotGrp k * 16 + d.toNat)]
  | .vorVs d _ _ _ _ => [.v (slotGrp k * 16 + d.toNat)]
  | .vxorVs d _ _ _ _ => [.v (slotGrp k * 16 + d.toNat)]
  | .vshlVs d _ _ _ _ => [.v (slotGrp k * 16 + d.toNat)]
  | .vshrVs d _ _ _ _ => [.v (slotGrp k * 16 + d.toNat)]
  | .vsraVs d _ _ _ _ => [.v (slotGrp k * 16 + d.toNat)]
  | .vaddVsF d _ _ _ _ => [.v (slotGrp k * 16 + d.toNat)]
  | .vsubVsF d _ _ _ _ => [.v (slotGrp k * 16 + d.toNat)]
  | .vrsubVsF d _ _ _ _ => [.v (slotGrp k * 16 + d.toNat)]
  | .vmulVsF d _ _ _ _ => [.v (slotGrp k * 16 + d.toNat)]
  | .vminVsF d _ _ _ _ => [.v (slotGrp k * 16 + d.toNat)]
  | .vmaxVsF d _ _ _ _ => [.v (slotGrp k * 16 + d.toNat)]
  | .vperm d _ _ _ _ => [.v (slotGrp k * 16 + d.toNat)]
  | .vrot d _ _ _ _ => [.v (slotGrp k * 16 + d.toNat)]
  | .vzipLo d _ _ _ _ => [.v (slotGrp k * 16 + d.toNat)]
  | .vzipHi d _ _ _ _ => [.v (slotGrp k * 16 + d.toNat)]
  | .vunzipEv d _ _ _ _ => [.v (slotGrp k * 16 + d.toNat)]
  | .vunzipOd d _ _ _ _ => [.v (slotGrp k * 16 + d.toNat)]
  | .vslideDn d _ _ _ _ => [.v (slotGrp k * 16 + d.toNat)]
  | .vslideUp d _ _ _ _ => [.v (slotGrp k * 16 + d.toNat)]
  | .vcmpr d _ _ _ => [.v (slotGrp k * 16 + d.toNat)]
  | .vexpd d _ _ _ => [.v (slotGrp k * 16 + d.toNat)]
  | .vredAddI d _ _ _ _ => [.v (slotGrp k * 16 + d.toNat)]
  | .vredMin d _ _ _ _ => [.v (slotGrp k * 16 + d.toNat)]
  | .vredMax d _ _ _ _ => [.v (slotGrp k * 16 + d.toNat)]
  | .vredMinn d _ _ _ _ => [.v (slotGrp k * 16 + d.toNat)]
  | .vredMaxn d _ _ _ _ => [.v (slotGrp k * 16 + d.toNat)]
  | .vredAnd d _ _ _ _ => [.v (slotGrp k * 16 + d.toNat)]
  | .vredOr d _ _ _ _ => [.v (slotGrp k * 16 + d.toNat)]
  | .vredXor d _ _ _ _ => [.v (slotGrp k * 16 + d.toNat)]
  | .vredAddF d _ _ _ _ => [.v (slotGrp k * 16 + d.toNat)]
  | .vredMinF d _ _ _ _ => [.v (slotGrp k * 16 + d.toNat)]
  | .vredMaxF d _ _ _ _ => [.v (slotGrp k * 16 + d.toNat)]
  | .vredCnt d _ _ => [.v (slotGrp k * 16 + d.toNat)]
  | .vscanAddI d _ _ _ _ => [.v (slotGrp k * 16 + d.toNat)]
  | .vscanMin d _ _ _ _ => [.v (slotGrp k * 16 + d.toNat)]
  | .vscanMax d _ _ _ _ => [.v (slotGrp k * 16 + d.toNat)]
  | .vscanMinn d _ _ _ _ => [.v (slotGrp k * 16 + d.toNat)]
  | .vscanMaxn d _ _ _ _ => [.v (slotGrp k * 16 + d.toNat)]
  | .vscanAddF d _ _ _ _ => [.v (slotGrp k * 16 + d.toNat)]
  | .vscanMinF d _ _ _ _ => [.v (slotGrp k * 16 + d.toNat)]
  | .vscanMaxF d _ _ _ _ => [.v (slotGrp k * 16 + d.toNat)]
  | .vcvt d _ _ _ _ _ => [.v (slotGrp k * 16 + d.toNat)]
  | .vnarrow d _ _ _ _ _ _ => [.v (slotGrp k * 16 + d.toNat)]
  | .vwiden d _ _ _ _ => [.v (slotGrp k * 16 + d.toNat)]
  | .fexp2 d _ _ _ => [.v (slotGrp k * 16 + d.toNat)]
  | .flog2 d _ _ _ => [.v (slotGrp k * 16 + d.toNat)]
  | .fexp d _ _ _ => [.v (slotGrp k * 16 + d.toNat)]
  | .flog d _ _ _ => [.v (slotGrp k * 16 + d.toNat)]
  | .frcp d _ _ _ => [.v (slotGrp k * 16 + d.toNat)]
  | .frsqrt d _ _ _ => [.v (slotGrp k * 16 + d.toNat)]
  | .fsqrt d _ _ _ => [.v (slotGrp k * 16 + d.toNat)]
  | .ftanh d _ _ _ => [.v (slotGrp k * 16 + d.toNat)]
  | .fsig d _ _ _ => [.v (slotGrp k * 16 + d.toNat)]
  | .fdiv d _ _ _ _ => [.v (slotGrp k * 16 + d.toNat)]
  | .qrgen d _ _ _ _ _ => [.v (slotGrp k * 16 + d.toNat)]
  | .qrload _ _ _ => []
  | .qrsave _ _ _ => []
  | .qrscr _ _ _ => []
  | .qrscrId _ _ => []
  | .hist _ _ _ => []
  | .histRd d => [.v (slotGrp k * 16 + d.toNat)]
  | .histRdx d => [.v (slotGrp k * 16 + d.toNat)]
  | .hclr _ => []
  | .qscale d _ _ => [.v (slotGrp k * 16 + d.toNat)]
  | .qpack d _ _ _ _ _ => [.v (slotGrp k * 16 + d.toNat)]
  | .ldI64 t _ _ => [.s t]
  | .ldI32 t _ _ => [.s t]
  | .ldN32 t _ _ => [.s t]
  | .ldI16 t _ _ => [.s t]
  | .ldN16 t _ _ => [.s t]
  | .ldI8 t _ _ => [.s t]
  | .ldN8 t _ _ => [.s t]
  | .st64 _ _ _ => []
  | .st32 _ _ _ => []
  | .st16 _ _ _ => []
  | .st8 _ _ _ => []
  | .vld t _ _ _ => [.v (slotGrp k * 16 + t.toNat)]
  | .vst _ _ _ _ => []
  | .vlds t _ _ _ _ => [.v (slotGrp k * 16 + t.toNat)]
  | .vgath t _ _ _ _ _ _ => [.v (slotGrp k * 16 + t.toNat)]
  | .vscat _ _ _ _ _ _ _ => []
  | .vlddLo t _ _ _ => [.v (slotGrp k * 16 + t.toNat)]
  | .vlddHi t _ _ _ => [.v (slotGrp k * 16 + t.toNat)]
  | .vstd _ _ _ _ _ => []
  | .ldblk _ d _ _ => [.s d]
  | .ldblkQ d _ => [.s d]
  | .ldblkRel _ => []
  | .lock _ d => [.s d]
  | .unlock _ => []
  | .amo d _ _ _ _ _ _ => [.s d]
  | .cas d _ _ _ _ _ _ => [.s d]
  | .famo _ _ _ _ => []
  | .vamo t _ _ _ _ r _ => if r then [.v (slotGrp k * 16 + t.toNat)] else []
  | .fence _ _ => []
  | .barArr _ _ => []
  | .barWait _ _ _ => []
  | .barExp _ _ => []
  | .barTry _ d => [.s d]
  | .evpop d => (List.range 4).map fun w => .s (d + BitVec.ofNat 5 w)
  | .evpeek d => [.s d]
  | .bclose _ => []
  | .bwait _ _ => []
  | .pool _ d _ _ _ _ _ => [.s d]
  | .upd _ d _ _ _ => [.s d]
  | .msend _ d _ => [.s d]
  | .rpost _ d _ _ => [.s d]
  | .rprobe _ d => (List.range 4).map fun w => .s (d + BitVec.ofNat 5 w)
  | .rcancel _ d => [.s d]
  | .a2a _ d _ _ _ _ _ => [.s d]
  | .gsub _ d _ => [.s d]
  | .nop => []
  | .yield => []
  | .halt => []
  | .ckpt => []
  | .safe => []
  | .rte => []
  | .registerWrite => []
  | .copyStart => []
  | .resultArrival => []
  | .lineArrival => []
  | .remoteGranuleArrival => []
  | .raceCheckAnswer => []
  | .cardPrefetch => []
  | .watchdogExpiry => []
  | .waitBoundExpiry => []
  | .deferredTrap => []
  | .contextDone => []
  | .dieCompletion => []
  | .windowWriteAccept => []
  | .windowWriteLand => []
  | .batchSummary => []
  | .barrierUnitApply => []
  | .famoArrival => []
  | .fillComplete => []
  | .fillFail => []
  | .prelHoldApply => []
  | .eventRecordArrival => []
  | .matrixOperationStart => []
  | .matrixFeedEnd => []
  | .matrixResult => []
  | .matrixStreamFault => []
  | .lookupDispatch => []
  | .depotGather => []
  | .heatSketchDecay => []
  | .sidingPartial => []
  | .mergePartialArrival => []
  | .promotionEviction => []
  | .promotionPublish => []
  | .updateDispatch => []
  | .turntableRowUpdate => []
  | .messageHeaderArrival => []
  | .postArrival => []
  | .cancelArrival => []
  | .postTimeout => []
  | .headerLifetimeExpiry => []
  | .pullComplete => []
  | .marshalDispatch => []
  | .ownerPartialArrival => []
  | .roundDeadline => []
  | .uncorrectableLinkError => []
  | .uecTransportFailure => []
  | .invalidationDrainComplete => []
  | .migrationSubmit => []
  | .migrationGranuleCopy => []
  | .migrationSwitch => []
  | .preemptRequest => []
  | .trapOverflowClear => []
  | .queueDoorbell => []
  | .schedulingStep => []
  | .clusterSave => []
  | .gangReady => []
  | .gangLimitExpiry => []
  | .gangGo => []
  | .gangStart => []
  | .gangAbandon => []
  | .repairDrain => []
  | .repairReload => []
  | .repairRetire => []
  | .repairReturn => []
  | .unitOffline => []
  | .guestCompletion => []
  | .guestCompletionTimeout => []
  | .atsTranslationRequest => []
  | .guestCacheRequest => []
  | .guestInvalidationCompletion => []
  | .guestInvalidationTimeout => []
  | .guestQuiesceTimeout => []
  | .hostAccess => []
  | .coldReset => []
  | .warmReset => []
  | .attestationRequest => []
  | .powerCapSet => []
  | .luvexWatchdogExpiry => []
  | .thermalTrip => []
  | .translationWalkComplete => []
  | .batchSummaryBoundExpiry => []
  | .linkRetry => []

/-- The slot of the literal that an instruction names (R76, R108). -/
def Instr.literalSlot : Instr → Option Nat
  | .add _ _ b l => if l then some (b.toNat % 8) else none
  | .sub _ _ b l => if l then some (b.toNat % 8) else none
  | .min _ _ b l => if l then some (b.toNat % 8) else none
  | .max _ _ b l => if l then some (b.toNat % 8) else none
  | .minn _ _ b l => if l then some (b.toNat % 8) else none
  | .maxn _ _ b l => if l then some (b.toNat % 8) else none
  | .and _ _ b l => if l then some (b.toNat % 8) else none
  | .or _ _ b l => if l then some (b.toNat % 8) else none
  | .xor _ _ b l => if l then some (b.toNat % 8) else none
  | .andn _ _ b l => if l then some (b.toNat % 8) else none
  | .shl _ _ b l => if l then some (b.toNat % 8) else none
  | .shr _ _ b l => if l then some (b.toNat % 8) else none
  | .sra _ _ b l => if l then some (b.toNat % 8) else none
  | .rot _ _ b l => if l then some (b.toNat % 8) else none
  | .mul _ _ b l => if l then some (b.toNat % 8) else none
  | .mulh _ _ b l => if l then some (b.toNat % 8) else none
  | .mulhn _ _ b l => if l then some (b.toNat % 8) else none
  | .div _ _ b l => if l then some (b.toNat % 8) else none
  | .divn _ _ b l => if l then some (b.toNat % 8) else none
  | .rem _ _ b l => if l then some (b.toNat % 8) else none
  | .remn _ _ b l => if l then some (b.toNat % 8) else none
  | .scmp _ _ b l _ => if l then some (b.toNat % 8) else none
  | .sel _ _ b l _ => if l then some (b.toNat % 8) else none
  | .lstep _ b l => if l then some (b.toNat % 8) else none
  | .movl _ k => some k.toNat
  | _ => none

/-- The slot class of slot k (R72). -/
def slotClass (k : Nat) : SlotClass :=
  if k < 2 then .scalar else if k < 5 then .vector else if k = 5 then .xclass else .memory

/-- Whether an instruction of the scalar class is privileged: majors 0x30 to 0x36 (R83). -/
def Instr.privileged : Instr → Bool
  | .rte => true
  | .sysr _ _ => true
  | .sysw _ _ _ => true
  | .tlbir _ _ _ => true
  | .ctxsave _ _ _ => true
  | .ctxres _ _ => true
  | .ctxresImg _ _ _ => true
  | .ctxresLd _ _ _ => true
  | .ctxkill _ _ => true
  | _ => false

/-- Whether an instruction stands in S0 only (R83). -/
def Instr.s0Only : Instr → Bool
  | .br _ => true
  | .bcc _ _ _ => true
  | .jmp _ => true
  | .call _ => true
  | .jr _ _ => true
  | .ret _ => true
  | .loop _ _ => true
  | .lstep _ _ _ => true
  | .cnext _ => true
  | .csrw _ _ _ => true
  | .yield => true
  | .halt => true
  | .trap _ _ => true
  | i => i.privileged

/-- Whether an instruction stands in S1 only: majors 0x20 to 0x27 (R83). -/
def Instr.s1Only : Instr → Bool
  | .ewr _ _ => true
  | .erd _ _ => true
  | .mxgo _ _ => true
  | .mxsgo _ _ => true
  | .epgo _ => true
  | .pwait _ _ _ => true
  | .prel _ => true
  | .pstat _ _ => true
  | _ => false

/-- Whether slot k may hold an instruction that decodes in its class: R83, and a `vxc` names another group (R148). -/
def Instr.slotOk (k : Nat) (i : Instr) : Bool :=
  (!i.s0Only || k = 0) && (!i.s1Only || k = 1) &&
  match i with
  | .vxc _ _ _ _ g => g.code != slotGrp k
  | _ => true

/-- Whether an instruction must share its bundle with `ckpt` or `safe` (R84 point 5). -/
def Instr.needsCkpt : Instr → Bool
  | .amo _ _ _ _ _ _ _ => true
  | .cas _ _ _ _ _ _ _ => true
  | .famo _ _ _ _ => true
  | .vamo _ _ _ _ _ _ _ => true
  | .evpop _ => true
  | .cnext _ => true
  | _ => false

/-- Whether an instruction makes its bundle a checkpoint bundle (R125). -/
def Instr.checkpoints : Instr → Bool
  | .ckpt => true
  | .safe => true
  | _ => false

/-- Whether slot k is at fault: it decodes to nothing, stands where it may not, names a slot without a literal, writes what
a lower slot writes, or needs a checkpoint that the bundle lacks (R84). -/
def slotBad (ws : List (BitVec 32)) (is : List (Except DecodeError Instr)) (k : Nat) : Bool :=
  let at_ := fun (j : Nat) => match is.getD j (.error .illegalMajor) with
    | .ok i => some i
    | .error _ => none
  match at_ k with
  | none => true
  | some i =>
    !i.slotOk k || (i.literalSlot.any fun j => !isLiteral (ws.getD j 0)) ||
    ((i.writes k).any fun r => r != .s 0 && (List.range k).any fun j => (at_ j).any fun y => (y.writes j).contains r) ||
    (i.needsCkpt && !(List.range 8).any fun j => (at_ j).any (·.checkpoints))

/-- A bundle's eight slot words decoded each in its class (R72), or the lowest slot at fault (R84; log 8). -/
def decodeBundle (ws : List (BitVec 32)) : Except Nat (List Instr) :=
  let is := (List.range 8).map fun k => decode (slotClass k) (ws.getD k 0)
  match (List.range 8).find? (slotBad ws is) with
  | some k => .error k
  | none => .ok (is.filterMap fun x => match x with
      | .ok i => some i
      | .error _ => none)

end Sys2Proof
end

