-- ==== Sys2Proof/Machine/Bundle.lean ====
section
/-! DEFINITION. Sys2Proof/Machine/Bundle.lean: a due bundle: fetched (R115), its traps and blocks found in the order of R356,
its slots run (R86), its stall (R186, R187), its issue; a core's cycle (R37) and a consist's (R42, R43). -/

namespace Sys2Proof.Machine

/-! ### Fetch (R115, R374, R375) -/

/-- The 32 bytes of the bundle at the context's pc with the translation used, or the trap of a bundle that cannot be
fetched. -/
inductive Fetch where
  | ok (words : List (BitVec 32)) (e : Tlb)
  | trap (t : TrapInfo)

/-- The eight slot words in 32 bytes, the lowest address first (R72). -/
def wordsOf (bs : List Byte) : List (BitVec 32) := words32 bs

/-- A fetch of context c's due bundle: FADDR is its address, ARG the reason and level, 7 for an access-table rejection. -/
def State.fetch (s : State) (c : Nat) : Fetch :=
  let pc := (s.ctx c).pc
  let bad := fun (arg : Nat) => Fetch.trap { kind := 0x04, pc := pc, faddr := pc, arg := BitVec.ofNat 64 arg }
  if fld pc 56 8 ≠ 0 then bad (1 + 16 * 3)
  else
    match s.translate (s.who c) pc.toNat .x with
    | .fault r lv => bad (r + 16 * lv)
    | .denied => bad 7
    | .poison k => .trap { kind := 0x10, pc := pc, faddr := pc, key := k }
    | .ok m e =>
      match s.poisoned (m / 64 * 64) 64 with
      | some k => .trap { kind := 0x10, pc := pc, faddr := pc, key := k }
      | none => .ok (wordsOf (s.gbytes m 32)) e

/-! ### The slots of a bundle -/

/-- A bundle while its slots run: the state with the effects of the slots that act, the blocking slots and the first trap
in the order of R356. -/
structure Run where
  s    : State
  blk  : List Sig := []
  trap : Option TrapInfo := none
  stop : Option Res := none

/-- One slot run: its effects are kept when it neither blocks nor traps. -/
def Run.slot (r : Run) (ki : Nat × Instr) : Run :=
  match exec ki.2 { r.s with iss := { r.s.iss with slot := ki.1, sig := .ok } } with
  | .next s =>
    match s.iss.sig with
    | .ok => { r with s := s }
    | .trap t => { r with trap := r.trap.or (some t) }
    | b => { r with blk := r.blk ++ [b] }
  | x => { r with stop := r.stop.or (some x) }

/-- Whether an instruction acts after every other slot: the release of a checkpoint bundle or of `halt` (R124, R356). -/
def lateSlot (i : Instr) : Bool := i.checkpoints || i == .halt

/-- A bundle's slots in the order in which they act: S0 to M1, then the checkpoint, then `halt` (R86, R124, R125, R356). -/
def earlySlots (is : List Instr) : List (Nat × Instr) := ((List.range is.length).zip is).filter fun k => !lateSlot k.2
def lateSlots (is : List Instr) : List (Nat × Instr) :=
  let all := (List.range is.length).zip is
  (all.filter fun k => k.2.checkpoints) ++ all.filter fun k => k.2 == .halt

/-- The issuing bundle's slots run in their order: those before its release, then all. -/
def State.runEarly (s : State) (is : List Instr) : Run := (earlySlots is).foldl Run.slot { s := s }
def State.runSlots (s : State) (is : List Instr) : Run := (lateSlots is).foldl Run.slot (s.runEarly is)

/-- Whether a withheld entry counts among the 128 (R357). -/
def EntryK.counted : EntryK → Bool
  | .amo _ _ _ _ _ _ => false
  | .cas _ _ _ _ _ _ => false
  | .vamo _ _ _ _ _ _ => false
  | .famo _ _ _ _ => false
  | .fence => false
  | .load _ _ _ _ => false
  | _ => true

/-- Whether an entry is a load that takes its value at the end of its bundle's stall (R89, R222). -/
def EntryK.awaitsStall : EntryK → Bool
  | .load _ _ _ late => !late
  | _ => false

/-- Whether the withholding buffer holds more than 128 entries (R357). -/
def Ctx.overfull (x : Ctx) : Bool := decide (128 < x.wb.countP (·.k.counted))

/-! ### Scratchpad addresses of a bundle (R186, R272) -/

/-- The local addresses that an instruction's active elements in the issuing slot touch: one for each element, for a command
block, and for each entry of the rank table of `a2a`. Neither the words of a `qrload`, nor the barrier object that an instruction
names, nor the object of a `famo` count among them (log 72). -/
def State.touched (s : State) (i : Instr) : List Nat :=
  let loc := fun (eas : List Word) => eas.filterMap fun ea => match spaceOf ea with
    | .localSp a => some a
    | _ => none
  let els := fun (es : List (Nat × Word)) => loc (es.map (·.2))
  match i with
  | .ldI64 _ b o => loc [s.scalarEa b o 8]
  | .ldI32 _ b o => loc [s.scalarEa b o 4]
  | .ldN32 _ b o => loc [s.scalarEa b o 4]
  | .ldI16 _ b o => loc [s.scalarEa b o 2]
  | .ldN16 _ b o => loc [s.scalarEa b o 2]
  | .ldI8 _ b o => loc [s.scalarEa b o 1]
  | .ldN8 _ b o => loc [s.scalarEa b o 1]
  | .st64 _ b o => loc [s.scalarEa b o 8]
  | .st32 _ b o => loc [s.scalarEa b o 4]
  | .st16 _ b o => loc [s.scalarEa b o 2]
  | .st8 _ b o => loc [s.scalarEa b o 1]
  | .vld _ b p o => els (s.byteEls (s.vectorEa b o) p)
  | .vst _ b p o => els (s.byteEls (s.vectorEa b o) p)
  | .vlds _ b st p z => els (s.strideEls b st p z)
  | .vgath _ b i p z n m => els (s.indexEls b i p z n m)
  | .vscat _ b i p z n m => els (s.indexEls b i p z n m)
  | .vlddLo _ b _ o => loc [s.blockEa b o]
  | .vlddHi _ b _ o => loc [s.blockEa b o]
  | .vstd _ b _ _ _ => loc [s.rs b]
  | .amo _ a _ _ _ _ _ => loc [s.rs a]
  | .cas _ a _ _ _ _ _ => loc [s.rs a]
  | .famo a _ _ _ => loc [s.rs a]
  | .vamo _ b i p z _ _ => els (s.indexEls b i p z false true)
  | .pool a _ _ _ _ _ _ => loc [s.rs a]
  | .upd a _ _ _ _ => loc [s.rs a]
  | .msend a _ _ => loc [s.rs a]
  | .rpost a _ _ _ => loc [s.rs a]
  | .rprobe a _ => loc [s.rs a]
  | .gsub a _ _ => loc [s.rs a]
  | .sysw _ a n => if n = 0x162 then loc [s.rs a] else []
  | .a2a a _ _ _ _ _ _ =>
    let word := fun (k : Nat) => s.loadNat (s.own s.iss.ctx) (s.rs a + BitVec.ofNat 64 (8 * k)) 8
    let n := ((s.nameable? (bits (word 0) 0 16)).map (·.shcnt)).getD 0
    loc (s.rs a :: (List.range n).map fun k => localEa (bits (word 5) 0 23) + BitVec.ofNat 64 (4 * k))
  | _ => []

/-- The local addresses that the issuing bundle touches. -/
def State.bundleAddrs (s : State) (is : List Instr) : List Nat :=
  ((List.range is.length).zip is).flatMap fun k => { s with iss := { s.iss with slot := k.1 } }.touched k.2

/-! ### A due bundle evaluated (R356) -/

/-- What becomes of a due bundle: it issues; it is held by a stall of d and g cycles, its slots having acted in ran; it blocks; it traps, before the
blocking reasons are evaluated or after; a meaning stops. -/
inductive Verdict where
  | issue (s : State)
  | hold (s ran : State) (d g : Nat) (words : List (BitVec 32))
  | block (s : State) (b : List Sig) (words : List (BitVec 32))
  | trap (early : Bool) (ts : List TrapInfo)
  | stop (r : Res)

/-- The state in which the slots of context c's due bundle run. -/
def State.beginBundle (s : State) (c : Nat) (words : List (BitVec 32)) (is : List Instr) (held stall : Bool) : State :=
  { s with
    iss := { ctx := c, slot := 0, pc := (s.ctx c).pc, words := words, cyc := s.now, held := held, stall := stall,
             ckpt := is.any (·.checkpoints), sig := .ok, xfer := none, loops := none, yields := false, halts := false, safe := false } }

/-- A bundle whose slots all act: control passes, and a checkpoint bundle takes the checkpoint as the bundle leaves the
context (R110, R125). -/
def State.completed (s : State) : State :=
  let s := s.passControl
  if s.iss.ckpt then s.capture else s

/-- The checkpoint of context x, with the results that belong to it, as a consist keeps it until every member has taken the next
one (R43, R125). -/
def Ctx.oldChk (x : Ctx) : OldChk :=
  let keep := x.pend.filter (·.inChk)
  { no := x.chkNo, vis := (Ctx.settled { x with pend := keep }).chk, pc := x.chkPc, cf := x.chkCf
    until_ := (keep.filter (·.ent.isNone)).foldl (fun m p => max m p.at_) 0, await := keep.filterMap (·.ent) }

/-- In a consist a checkpoint takes its number, and the one before it, which stood in x, is kept while some member has it still
to take (R43). -/
def State.numbered (s : State) (c : Nat) (x : Ctx) : State :=
  if s.iss.ckpt && x.cons.isSome then
    let s := s.modCtx c fun y => { y with chkNo := x.chkNo + 1, olds := x.olds ++ [x.oldChk] }
    let n := s.consistChk c
    s.modCtx c fun y => { y with
      olds := y.olds.filter fun o => decide (n ≤ o.no), popped := y.popped.filter fun p => decide (n ≤ p.1) }
  else s

/-- Steps 4 to 8 of R356 for context c's decoded bundle: blocking slots, the watchdog, issue faults, the overflow, release
faults. A bundle that stalls issues in this cycle too, its release to come (R89). Where the watchdog's count reaches W inside a stall, no bundle is due in
that cycle and R39 names no other: the model lets the held bundle complete, the count standing one short of W, and raises the trap
on the next due bundle, unless that one blocks or yields (DESIGN CHOICE, log 72). The trap is raised in no other cycle than the one
in which the count of a CURRENT context reaches W (R39). -/
def State.runBundle (s : State) (c : Nat) (words : List (BitVec 32)) (is : List Instr) (d g : Nat) : Verdict :=
  let x := s.ctx c
  let s0 := s.beginBundle c words is false (decide (0 < d + g))
  let e := s0.runEarly is
  let r := s0.runSlots is
  match r.stop with
  | some e => .stop e
  | none =>
    if r.blk ≠ [] then .block s r.blk words
    else if decide (x.wdog = s.wdogOf c) && (s.core (coreOf c)).cur = some (c % 4) && !is.contains .yield then .trap false [{ kind := 0x08, pc := x.pc }]
    else
      match e.trap with
      | some t => .trap false [t]
      | none =>
        if !(is.any (·.checkpoints)) && (e.s.ctx c).overfull then .trap false [{ kind := 0x0C, pc := x.pc }]
        else
          match r.trap with
          | some t => .trap false [t]
          | none => if d + g = 0 then .issue (r.s.completed.numbered c x) else .hold s e.s d g words

/-- The cycle in which a context's bundle was first due is noted (R215). -/
def Ctx.due (x : Ctx) (t : Nat) : Ctx := { x with wait := some (x.wait.getD t) }

/-- What the fetch of context c's due bundle leaves: the translation held, the granule's heat, corrected errors found, in
the context's registers too (R378, R388, R427). -/
def State.fetched (s : State) (c : Nat) (e : Tlb) : State :=
  let m := e.addr (s.ctx c).pc.toNat
  ((((s.learn e).heat m e.leaf).corrected (dieOf c) (m / 64 * 64) 64).corrected (dieOf c) (regKey c) 1).modCtx c fun y =>
    y.due s.now

/-- Context c's due bundle evaluated in its first or in a later cycle of waiting (R85, R356): legality, privilege, deferred
traps, then the rest; of a bundle that stalls too: it has issued, and nothing but its platforms' bytes is checked again (R89, R187,
R222). Current register state with an uncorrectable error traps before anything of it is read (R427; log 18). -/
def State.evaluate (s : State) (c : Nat) : Verdict :=
  let x := s.ctx c
  if s.poison.contains (regKey c) then .trap true [{ kind := 0x10, pc := x.pc, key := regKey c }]
  else match s.fetch c with
  | .trap t => .trap true [t]
  | .ok words e =>
    match decodeBundle words with
    | .error k => .trap true [{ kind := 0x01, pc := x.pc, slot := BitVec.ofNat 8 k }]
    | .ok is =>
      match (if x.exec then none else (List.range 8).find? fun k => (is.getD k .nop).privileged) with
      | some k => .trap true [{ kind := 0x02, pc := x.pc, slot := BitVec.ofNat 8 k }]
      | none =>
        if x.deferred ≠ [] then .trap true (inRelease x.deferred)
        else
          let s := s.fetched c e
          let addrs := (s.beginBundle c words is false true).bundleAddrs is
          let d := bankStall addrs
          let g := s.groupWait (clOf c) addrs s.now
          s.runBundle c words is d g

/-- The first cycle of a stall of context c's bundle, which counts as issued in cycle t: the bundle has issued, and its slots act
(R86, R89). Reservations, acceptances, what `evpop` takes and what is read of the state stand from here on; results count from cycle t.
What is performed in cycle t is withheld until then: the loads' values, and the release, whose entries keep the translations under
which they were checked (R222, R358). CYCLE counts from this cycle where the bundle is the context's first (R136). -/
def State.startHold (s : State) (c : Nat) (words : List (BitVec 32)) (t : Nat) : State :=
  match decodeBundle words with
  | .error _ => s
  | .ok is =>
    let b := s.beginBundle c words is true true
    let s' := (({ b with iss := { b.iss with cyc := t } } : State).runEarly is).s
    let s' := if (lateSlots is).isEmpty then s' else (s'.learnAll s'.cur.wb).modCur fun x => { x with wb := x.wb.map s'.mapped }
    s'.modCtx c fun x => { x with startCycle := some (x.startCycle.getD s.now) }

/-- Context c's bundle held from state s, which its slots left as s'. -/
def State.holdOf (s s' : State) (c until_ d g : Nat) (words : List (BitVec 32)) : Hold :=
  let was := (s.ctx c).blocks
  let now := (s'.ctx c).blocks
  let names := (s.cluster (clOf c)).named
  { h := c % 4, until_ := until_, d := d, g := g, words := words, iss := s'.iss
    decls := (now.map (·.decl)).filter fun n => !(was.map (·.decl)).contains n
    freed := was.filter fun b => !(now.map (·.decl)).contains b.decl
    named := (s'.cluster (clOf c)).named.filter fun a => !names.contains a }

/-- Context c's bundle at the end of its stall: it completes as issued (R89). Its loads take their values, and the bundle traps where
a byte is no longer in its platform's published front, the one check that R222 makes in this cycle; then it releases. Whether a bundle
with `yield` that stalls issues, for the watchdog, in the first or in the last cycle of its stall, R39, R36 and R89 leave open: the
model resets the count in the last, so that the stall's cycles are not counted after it (DESIGN CHOICE, log 72). -/
def State.finishHold (s : State) (c : Nat) (h : Hold) : Verdict :=
  let s1 := { s with iss := { h.iss with sig := .ok } }
  let es := (s.ctx c).wb.filter (·.k.awaitsStall)
  let rs := es.map fun e => s1.reload c h.iss e false
  match rs.findSome? (·.1) with
  | some t => .trap false [t]
  | none =>
    let s2 := s1.modCtx c fun x => { x with
      wb := x.wb.filter fun e => !e.k.awaitsStall
      pend := x.pend ++ rs.flatMap (·.2) }
    match decodeBundle h.words with
    | .error k => .trap true [{ kind := 0x01, pc := (s.ctx c).pc, slot := BitVec.ofNat 8 k }]
    | .ok is =>
      let r := (lateSlots is).foldl Run.slot { s := s2 }
      match r.stop with
      | some e => .stop e
      | none => .issue (r.s.completed.numbered c (s.ctx c))

/-- What context c's held bundle did in its first cycle is taken back, as far as the rollback that follows does not: its
load-blocks, its barrier names, its writes of system registers (R11). -/
def State.unhold (s : State) (c : Nat) (h : Hold) : State :=
  let s := s.modCtx c fun x => { x with blocks := (x.blocks.filter fun b => !h.decls.contains b.decl) ++ h.freed }
  let s := s.modCluster (clOf c) fun k => { k with named := k.named.filter fun a => !h.named.contains a }
  { s with agenda := s.agenda.filter fun a => !(a.ev = .registerWrite && a.due.ctx = c && decide (s.now < a.at_)) }

/-! ### What follows an evaluation -/

/-- Nothing is kept for context c's bundle in any L1 it uses. -/
def State.unkeep (s : State) (c : Nat) : State :=
  let qs := if (s.cluster (clOf c)).fuse then coresOf (clOf c) else [coreOf c]
  qs.foldl (fun s q =>
    if (s.core q).kept.any (·.1 = c) then s.modCore q fun co => { co with kept := co.kept.filter (·.1 ≠ c) } else s) s

/-- Whether the safe point that context c has just issued gives it up to a pre-emption: its consist's clusters, or its own,
are asked for; a member of a consist follows its lead at the same bundle of the stream (R125, R366, R41). -/
def State.takes (s : State) (c : Nat) : Bool :=
  let ps := s.peers c
  let lead := ps.headD c
  if lead = c then ps.any fun p => s.preemptAsked (clOf p)
  else
    let l := s.ctx lead
    let x := s.ctx c
    (l.status = .taking || l.status = .parked .preempted) && l.chkPc = x.chkPc && l.chkCf = x.chkCf

/-- The state after context c's bundle has issued: its core's choice, its stall counts, its cards (R33, R37, R38, R136). -/
def State.afterIssue (s : State) (c d g : Nat) : State :=
  let i := s.iss
  let s := s.modCtx c fun x =>
    let x := { x.unwait with startCycle := some (x.startCycle.getD i.cyc) }
    let count := fun (v : Vis) => { v with cntBank := v.cntBank + BitVec.ofNat 64 d, cntGrp := v.cntGrp + BitVec.ofNat 64 g }
    let x := { x with vis := count x.vis, chk := if i.ckpt then count x.chk else x.chk }
    { x with status := match x.status with
      | .halting => .halting
      | _ => if i.yields && x.cons.isNone then .blocked .yield else .current }
  let s := if i.safe && s.takes c then s.modCtx c fun x => { x with status := match x.status with
      | .halting => .halting
      | _ => .taking } else s
  let keeps := (s.ctx c).status = .current
  let s := (s.unkeep c).modCore (coreOf c) fun co => { co with
    cur := if keeps then some (c % 4) else none
    last := c % 4
    hold := none }
  s.askCard c (s.ctx c).vis.taken

/-- A line that context c's bundle lacks is asked for, and kept for it when it has come (R190). -/
def State.askLine (s : State) (c vline : Nat) : State :=
  match s.page? (s.who c) (64 * vline) with
  | none => s
  | some e =>
    let l := lineOf (e.addr (64 * vline))
    let q := s.l1Of c l
    let co := s.core q
    let s := if co.kept.contains (c, l) then s else s.setCore q { co with kept := co.kept ++ [(c, l)] }
    if co.asked.contains l || co.lines.contains l then s
    else (s.modCore q fun co => { co with asked := co.asked ++ [l] }).later 1900 .lineArrival
      { ctx := c, arg := l, word := BitVec.ofNat 64 (64 * vline), nats := [e.leaf.toNat] }

/-- What a blocked bundle of context c waits for is asked for: lines (R190), remote granules (R196), the race check of an access
(R318, R319), walks (R358), a card (R33), or the end of its bound (R215). -/
def State.ask (s : State) (c : Nat) (b : Sig) : State :=
  match b with
  | .block .cardWait ps _ _ _ => ps.foldl (fun s p => s.askCard c p) s
  | .block .loadBlock lines grans checks walks =>
    let s := lines.foldl (fun s l => s.askLine c l) s
    let s := grans.foldl (fun s g =>
      let id := g % 2 ^ 28
      let x := s.win c (id / 2 ^ 23)
      if (s.ctx c).remAsk.contains id then s
      else
        let s := s.modCtx c fun x => { x with remAsk := id :: x.remAsk }
        if x.mod = s.modNo then s.later 400 .remoteGranuleArrival { ctx := c, arg := id }
        else s.emit (.granuleAsk (localRank x.peer + x.mod * 512) (id % 2 ^ 23 * 64) (s.rank (clOf c)) (s.ctx c).l (g / 2 ^ 28) (s.detOf c)))
      s
    let s := if (s.ctx c).raceAsk.any fun a => checks.all a.contains then s
      else if checks = [] then s
      else (s.modCtx c fun x => { x with raceAsk := checks :: x.raceAsk }).later 1900 .raceCheckAnswer { ctx := c, nats := checks }
    walks.foldl (fun s p =>
      if (s.ctx c).walkAsk.contains p then s
      else (s.modCtx c fun x => { x with walkAsk := p :: x.walkAsk }).later 1000 .translationWalkComplete { ctx := c, arg := p }) s
  | .block _ (bound :: _) _ _ _ =>
    if s.detOf c || s.agenda.any (fun a => a.ev = .waitBoundExpiry && a.due.ctx = c) then s
    else s.schedule ((s.ctx c).wait.getD s.now + bound) .waitBoundExpiry { ctx := c }
  | _ => s

/-- The reason for which a bundle blocks: where slots block for different reasons R36 does not say which is recorded, and the model
records that of the first blocking slot (DESIGN CHOICE, log 72). -/
def blockReason : List Sig → Block
  | .block r _ _ _ _ :: _ => r
  | _ => .loadBlock

/-- What the blocking slots of a bundle ask for, in slot order. Behind a `bar.wait` or `pwait` that still waits, which has acquire
ordering, a load asks for its lines alone: what would stand for its value is asked for once the wait has ended (R212, R215, R328). -/
def askedFor (waits : Bool) : List Sig → List Sig
  | [] => []
  | .block r lines grans checks walks :: b =>
    (if waits then .block r lines [] [] walks else .block r lines grans checks walks) ::
      askedFor (waits || r == .barrier || r == .platform) b
  | x :: b => x :: askedFor waits b

/-- Context c's due bundle blocks: the context is BLOCKED with its words, its watchdog count resets, its core lets it go (R36, R37,
R39). -/
def State.blockOn (s : State) (c : Nat) (words : List (BitVec 32)) (b : List Sig) : State :=
  (askedFor false b).foldl (fun s x => s.ask c x)
    ((s.modCtx c fun x => { x with status := .blocked (blockReason b), words := words, wdog := 0 }).dropCurrent c)

/-- A BLOCKED context becomes READY once none of its bundle's slots blocks; after a `yield` at once (R35, R36, R38). -/
def State.wake (s : State) (c : Nat) : State :=
  let x := s.ctx c
  let ready := s.modCtx c fun x => { x with status := .ready }
  match x.status with
  | .blocked .yield => ready
  | .blocked _ =>
    (match decodeBundle x.words with
    | .error _ => ready
    | .ok is =>
      let b := ((s.beginBundle c x.words is false true).runSlots is).blk
      if b = [] then ready else s.blockOn c x.words b)
  | _ => s

/-- Traps raised on context c's due bundle; deferred ones are raised once (R360, R361). Corrected errors that a walk without a
translation found are logged (R427). -/
def State.trapOn (s : State) (c : Nat) (ts : List TrapInfo) : State :=
  let s := if ts.any (·.deferred) then s.modCtx c fun x => { x with deferred := [] } else s
  let s := ts.foldl (fun s t =>
    if (t.kind = 0x04 || t.kind = 0x05 || t.kind = 0x06) && decide (fld t.faddr 56 8 = 0) then s.walkCorrected (s.asidOf c) t.faddr.toNat
    else s) s
  ((s.takeTrap c ts).modCtx c Ctx.unwait).unkeep c

/-! ### A core's cycle outside a consist (R37, R39) -/

/-- One more cycle of the watchdog count (R39). -/
def Ctx.tick (x : Ctx) : Ctx := { x with wdog := x.wdog + 1 }

/-- A cycle of a stall in the watchdog count: it is counted, but that no cycle of a stall is the deadline cycle (R39; log 72). -/
def Ctx.tickHeld (x : Ctx) : Ctx := if x.wdog + 1 = x.wlim then x else x.tick

/-- What a context's due bundle comes to in a core's cycle: it issues or stalls; it blocks, and the core may look further; it
raises traps; a meaning stops. -/
inductive Turn where
  | over (s : State)
  | on (s : State)
  | trap (ts : List TrapInfo)
  | stop (r : Res)

/-- Context c's due bundle tried. A stall makes the context CURRENT with its bundle held (R89). -/
def State.tryContext (s : State) (c : Nat) : Turn :=
  match s.evaluate c with
  | .issue s' => .over (s'.afterIssue c 0 0)
  | .hold s' _ d g words =>
    let t := s.now + d + g
    let u := s'.startHold c words t
    .over ((u.modCtx c fun x => { x with status := .current }).modCore (coreOf c) fun co => { co with
      cur := some (c % 4), last := c % 4, hold := some (s'.holdOf u c t d g words) })
  | .block s' b words => .on (s'.blockOn c words b)
  | .trap _ ts => .trap ts
  | .stop r => .stop r

/-- Whether a context is a candidate of R37: READY or CURRENT, and no restored context whose results are still to come (R125). -/
def Ctx.candidate (x : Ctx) (t : Nat) : Bool :=
  decide (x.resumeAt ≤ t) && match x.status with
    | .ready => true
    | .current => true
    | _ => false

/-- Whether a context is BLOCKED (R35). -/
def Ctx.isBlocked (x : Ctx) : Bool :=
  match x.status with
  | .blocked _ => true
  | _ => false

/-- The traps that the contexts of a core raise in one cycle, taken in ascending CTXID (R362). -/
def State.trapAll (s : State) (ts : List (Nat × List TrapInfo)) : State :=
  (ts.insertionSort fun a b => a.1 ≤ b.1).foldl (fun s t => s.trapOn t.1 t.2) s

/-- The candidates tried in their order until one issues; ts holds the traps that those before raise (R37 step 3). -/
def State.choose1 (s : State) (ts : List (Nat × List TrapInfo)) : List Nat → Res
  | [] => .next (s.trapAll ts)
  | c :: r =>
    if !(s.ctx c).candidate s.now then s.choose1 ts r
    else
      match s.tryContext c with
      | .over s' => .next (s'.trapAll ts)
      | .on s' => s'.choose1 ts r
      | .trap t => s.choose1 (ts ++ [(c, t)]) r
      | .stop r => r

/-- The contexts of a core from the one after h on, h last (R37 step 3). -/
def inTurn (q h : Nat) : List Nat := (List.range 4).map fun i => 4 * q + (h + 1 + i) % 4

/-- The outcome of the CURRENT context's turn as a step's (R37 steps 1 and 2). -/
def State.turnRes (s : State) (c : Nat) : Turn → Res
  | .over s => .next s
  | .on s => .next s
  | .trap ts => .next (s.trapOn c ts)
  | .stop r => r

/-- A CORE'S CYCLE (R37): a stall goes on or ends; the CURRENT context's bundle; or the choice among the others, those whose wait
has ended among them. -/
def State.coreCycle (s : State) (q : Nat) : Res :=
  let s := ((List.range 4).map (4 * q + ·)).foldl State.wake s
  let co := s.core q
  match co.hold with
  | some h =>
    let c := 4 * q + h.h
    let s := s.modCtx c Ctx.tickHeld
    if s.now < h.until_ then .next s
    else
      match s.finishHold c h with
      | .issue s' => .next (s'.afterIssue c h.d h.g)
      | .trap _ ts => .next ((s.unhold c h).trapOn c ts)
      | .block s' b words => .next (s'.blockOn c words b)
      | .hold s' _ _ _ _ => .next s'
      | .stop r => r
  | none =>
    match co.cur with
    | some h =>
      let c := 4 * q + h
      if (s.ctx c).candidate s.now then
        let s := s.modCtx c Ctx.tick
        s.turnRes c (s.tryContext c)
      else (s.setCore q { co with cur := none }).choose1 [] (inTurn q co.last)
    | none => s.choose1 [] (inTurn q co.last)

/-! ### A consist's cycle (R41 to R43) -/

/-- The consist's members whose due bundle is evaluated in this cycle: the member at position p begins p x skew cycles
after the lead (R42). -/
def State.consistDue (s : State) (x : Consist) : List Nat :=
  (x.members.zipIdx.filter fun p => decide (p.2 * x.skew ≤ x.beats) && (s.ctx p.1).candidate s.now).map (·.1)

/-- What the members' evaluations give together: every one issues, with the longest stall; some block; the trap of the
member of lowest position. -/
structure Together where
  s     : State
  holds : List (Nat × Nat × Nat × List (BitVec 32)) := []
  early : Option (Nat × List TrapInfo) := none
  blks  : List (Nat × List (BitVec 32) × List Sig) := []
  late  : Option (Nat × List TrapInfo) := none
  stop  : Option Res := none

/-- One member's verdict taken in. What a member's bundle that stalls has done the members behind it find: its reservations, the
outcome that a lead has noted (R43, R116). -/
def Together.add (t : Together) (c : Nat) (v : Verdict) : Together :=
  match v with
  | .issue s => { t with s := s }
  | .hold _ ran d g words => { t with holds := t.holds ++ [(c, d, g, words)], s := ran }
  | .block _ b words => { t with blks := t.blks ++ [(c, words, b)] }
  | .trap true ts => { t with early := t.early.or (some (c, ts)) }
  | .trap false ts => { t with late := t.late.or (some (c, ts)) }
  | .stop r => { t with stop := t.stop.or (some r) }

/-- The state with a consist changed. -/
def State.modConsist (s : State) (i : Nat) (f : Consist → Consist) : State :=
  { s with consists := s.consists.map fun x => if x.id = i then f x else x }

/-- A member's verdict, with what follows its issue done at once, so that the members after it see it. -/
def memberIssue (c d g : Nat) : Verdict → Verdict
  | .issue s => .issue (s.afterIssue c d g)
  | v => v

/-- Whether the consist waits whole: a member's bundle still blocks, or one that is to go on still awaits the results of its
checkpoint (R42, R125). -/
def State.consistWaits (s : State) (x : Consist) : Bool :=
  x.members.any fun c =>
    (s.ctx c).isBlocked || (decide (s.now < (s.ctx c).resumeAt) && (s.ctx c).candidate (s.ctx c).resumeAt)

/-- The members' bundles held until a cycle, each with its own stall, their slots having acted (R42, R89). -/
def State.holdMembers (s : State) (x : Consist) (due : List Nat) (hs : List (Nat × Nat × Nat × List (BitVec 32))) (t : Nat) : State :=
  (due.foldl (fun s c =>
    let (ws, s) := match s.fetch c with
      | .ok ws e => (ws, s.fetched c e)
      | .trap _ => ([], s)
    let own := ((hs.find? (·.1 = c)).map (·.2)).getD (0, 0, ws)
    let u := s.startHold c own.2.2 t
    u.modCore (coreOf c) fun co => { co with cur := some (c % 4), hold := some (s.holdOf u c t own.1 own.2.1 own.2.2) }) s).modConsist x.id
      fun x => { x with hold := some t }

/-- What the held bundles of a consist's members did in their first cycle is taken back, for the rollback of all of them (R11, R43). -/
def State.unholdMembers (s : State) (x : Consist) : State :=
  x.members.foldl (fun s c => match (s.core (coreOf c)).hold with
    | some h => s.unhold c h
    | none => s) s

/-- A CONSIST'S CYCLE, taken as one (R42, R43): while a stall holds it nothing is evaluated; else the members evaluate their
due bundles in position order, and all issue or none does. -/
def State.consistCycle (s : State) (x : Consist) : Res :=
  let lead := x.members.headD 0
  let s := x.members.foldl State.wake s
  let s := match (s.core (coreOf lead)).cur with
    | some _ => s.modCtx lead (if x.hold.isSome then Ctx.tickHeld else Ctx.tick)
    | none => s
  match x.hold with
  | some t =>
    if s.now < t then .next s
    else
      let r := x.members.foldl (fun (r : Together) c =>
        match (r.s.core (coreOf c)).hold with
        | none => r
        | some h => r.add c (memberIssue c h.d h.g (r.s.finishHold c h))) { s := s }
      match r.stop, r.early.or r.late with
      | some e, _ => e
      | _, some (c, ts) => .next (((s.unholdMembers x).trapOn c ts).modConsist x.id fun x => { x with hold := none })
      | none, none => .next (r.s.modConsist x.id fun x => { x with beats := x.beats + 1, hold := none })
  | none =>
    let due := s.consistDue x
    let r := due.foldl (fun (r : Together) c => r.add c (memberIssue c 0 0 (r.s.evaluate c))) { s := s }
    if s.consistWaits x then .next s
    else match r.stop, r.early with
    | some e, _ => e
    | _, some (c, ts) => .next (s.trapOn c ts)
    | none, none =>
      if r.blks ≠ [] then
        .next (r.blks.foldl (fun s b => (s.modCtx b.1 fun y => y.due s.now).blockOn b.1 b.2.1 b.2.2)
          ((s.modCtx lead fun y => { y with wdog := 0 }).dropCurrent lead))
      else
        match r.late with
        | some (c, ts) => .next (s.trapOn c ts)
        | none =>
          if r.holds = [] then .next (r.s.modConsist x.id fun x => { x with beats := x.beats + 1 })
          else
            .next (s.holdMembers x due r.holds (s.now + (r.holds.map fun h => h.2.1 + h.2.2.1).foldl max 0))

/-- A core's turn: its own cycle, or, on the core of its lead, a consist's. -/
def State.turn (s : State) (q : Nat) : Res :=
  match (s.ctx (4 * q)).cons.bind fun i => s.consists.find? (·.id = i) with
  | some x => if x.members.headD 0 = 4 * q then s.consistCycle x else .next s
  | none => s.coreCycle q

end Sys2Proof.Machine
end

