-- ==== Sys2Proof/Machine/Cycle.lean ====
section
/-! DEFINITION. Sys2Proof/Machine/Cycle.lean: what a step of the machine is: a context's results arrive, an event that is due
happens, a core has its turn, an L2 home performs an access, or the cycle ends (R7, R37, R88, R316); how a lone slot word is put
where the next step runs it. -/

namespace Sys2Proof.Machine

/-! ### What is due -/

/-- The first context with results due by this cycle (R88). -/
def State.arriving (s : State) : Option Nat :=
  (s.ctxs.find? fun c => c.2.pend.any fun p => decide (p.at_ ≤ s.now)).map (·.1)

/-- An agenda without its first item that passes a test, and that item. -/
def takeFirst (p : Agendum → Bool) : List Agendum → Option (Agendum × List Agendum)
  | [] => none
  | a :: r => if p a then some (a, r) else (takeFirst p r).map fun x => (x.1, a :: x.2)

/-- The identity under which an event's access is performed at its L2 home: a load whose race check is due there, a request of
the guest, an access of the host, a `famo` (R314, R316); none for an event that is no such access. A load of a peer's granule
through a window reads its banks last, when what the cycle publishes stands (R196, R222). -/
def State.homeKey (s : State) (a : Agendum) : Option Nat :=
  match a.ev with
  | .raceCheckAnswer => some (if a.due.wr then 2 ^ 20 else s.lidOf a.due.ctx)
  | .remoteGranuleArrival => some (2 ^ 20)
  | .famoArrival => some (s.lidOf a.due.ctx)
  | .guestCacheRequest => some Party.guest.code
  | .hostAccess => if a.due.id = 1 then none else some Party.host.code
  | _ => none

/-- The event that is due first, and the agenda without it: an operation at a barrier unit, whose completion starts an epoch
(R214, R322), else the one that was scheduled first. Accesses at L2 homes have their own turn. -/
def State.dueEvent (s : State) : Option (Agendum × List Agendum) :=
  let due := fun (a : Agendum) => decide (a.at_ ≤ s.now) && (s.homeKey a).isNone
  (takeFirst (fun a => due a && a.ev = .barrierUnitApply) s.agenda).or (takeFirst due s.agenda)

/-- A reset that is to come (R369: only a reset ends a fatal error's hold). -/
def State.comingReset (s : State) : Option (Agendum × List Agendum) :=
  takeFirst (fun a => a.ev = .coldReset || a.ev = .warmReset) s.agenda

/-- An event of the agenda happens. -/
def State.happen (s : State) (a : Agendum) (rest : List Agendum) : Res :=
  exec a.ev { s with agenda := rest, due := a.due, now := max s.now a.at_ }

/-! ### The L2 homes (R316) -/

/-- What the L2 homes perform next in a cycle: a released entry, or an event. -/
inductive HomeAct where
  | entry (r : HomeReq)
  | event (a : Agendum)
  deriving DecidableEq, Repr

/-- Whether a released entry may leave its context: it is the first of those that are still to leave it, and nothing delays it (R205,
R212, R326). -/
def State.mayLeave (s : State) (r : HomeReq) : Bool :=
  s.l2q.find? (·.ctx = r.ctx) = some r && !s.delayed r.ctx r.entry.k

/-- What waits at the L2 homes in this cycle, with the identity of each: events that are due, then what was released and may leave
its context. -/
def State.homeActs (s : State) : List (Nat × HomeAct) :=
  ((s.agenda.filter fun a => decide (a.at_ ≤ s.now)).filterMap fun a => (s.homeKey a).map fun k => (k, HomeAct.event a))
    ++ (s.l2q.filter s.mayLeave).map fun r => (s.lidOf r.ctx, HomeAct.entry r)

/-- The access that the L2 homes perform next: the one of lowest identity, of one identity the first (R316). -/
def State.homeNext (s : State) : Option HomeAct :=
  (s.homeActs.foldl (fun (m : Option (Nat × HomeAct)) x => match m with
    | some y => if x.1 < y.1 then some x else some y
    | none => some x) none).map (·.2)

/-- A released entry performed at its home; its results count from its bundle's issue (R205), and no place is kept for them any more.
An access to global memory is visible from the next cycle on (R326). -/
def State.performHome (s : State) (r : HomeReq) : State :=
  let s := ({ s with l2q := s.l2q.erase r } : State).performNow r.ctx r.at_ r.entry
  let s := if r.entry.k.returns then s.modCtx r.ctx fun x => x.resolve r.entry.ord [] else s
  if r.entry.k.spaces.1 then s.modCtx r.ctx fun x => { x with homeAt := some s.now } else s

/-! ### The end of a cycle -/

/-- A context that a pre-emption takes is PARKED once its results have arrived, what it has released has left it, its epilogues' snapshots
among that, and its matrix operations have ended (R125, R245, R366). -/
def State.settle (s : State) : State :=
  { s with ctxs := s.ctxs.map fun c =>
      if c.2.status = .taking && c.2.pend.isEmpty && (s.queued c.1).isEmpty && !(s.core (coreOf c.1)).mx.any (·.ctx = c.1) then
        (c.1, { c.2 with status := .parked .preempted, wdog := 0 })
      else c }

/-- Whether core q has a turn in a cycle: a context of its own that may issue or whose wait may end, or a held bundle; for a
consist, on its lead's core alone, a member's. -/
def State.hasTurn (s : State) (q : Nat) : Bool :=
  let runs := fun (c : Nat) => (s.ctx c).isBlocked || (s.ctx c).candidate (s.ctx c).resumeAt
  match (s.ctx (4 * q)).cons.bind fun i => s.consists.find? (·.id = i) with
  | some x => x.members.headD 0 = 4 * q && (x.members.any runs || x.hold.isSome)
  | none => ((List.range 4).any fun h => runs (4 * q + h)) || (s.core q).hold.isSome

/-- The cores that have their turn in a cycle, in ascending order (R188). -/
def State.coresInTurn (s : State) : List Nat := ((s.ctxs.map fun c => coreOf c.1).dedup).filter s.hasTurn

/-- A cluster at the end of a cycle: its platforms are what `pwait` and `pstat` of the next cycle read (R224, R226). -/
def Cluster.endCycle (k : Cluster) : Cluster := { k with prev := k.plats, prelLog := [] }

/-- The unexpected messages of the dies, as `rprobe` of the next cycle finds them (R304). -/
def State.unexpectedNow (s : State) : List Msg :=
  s.dies.flatMap fun d => d.2.unexp.filterMap fun id => s.msgs.find? (·.id = id)

/-- The two bytes of a global granule's tag in its launch's tag shadow region: ST and ID, granule by granule of [RDLO, RDHI)
(R321, R397; log 75). -/
def State.spilled (s : State) (t : (Nat × Nat) × Tag) : List (Nat × Byte) :=
  match s.launch? (t.1.1 - 1) with
  | none => []
  | some l =>
    (List.range ((l.pkt.rdhi - l.pkt.rdlo) / 4096)).flatMap fun i =>
      let va := l.pkt.rdlo + 4096 * i
      if (s.page? l.who va).any fun e => e.addr va / 4096 = t.1.2 / 64 then
        runAt (l.pkt.tagbase + 2 * (64 * i + t.1.2 % 64)) (leBytes 2 (tagWord t.2))
      else []

/-- At the end of a cycle an L2 home may evict the line of a tagged granule, and writes its tag to the shadow region (R321;
log 75). -/
def State.spill (s : State) : State :=
  s.tags.foldl (fun s t =>
    if t.1.1 = 0 then s
    else
      let (b, s) := s.choose
      if b then s.write (s.spilled t) else s) s

/-- A record that is no longer claimed waits with its context or with the guest (R365). -/
def State.unclaim (s : State) (r : TrapRec) : State :=
  if r.src = 1 then { s with guest := { s.guest with pend := s.guest.pend.erase r ++ [r] } }
  else s.modCtx r.ctxid.toNat fun x => { x with
    pendRec := x.pendRec.erase r ++ [r]
    status := match x.status with
      | .parked .trap => .parked .trapPending
      | y => y }

/-- A record that is claimed after all no longer waits. -/
def State.nowClaimed (s : State) (r : TrapRec) : State :=
  if r.src = 1 then { s with guest := { s.guest with pend := s.guest.pend.erase r } }
  else s.modCtx r.ctxid.toNat fun x => if x.pendRec.contains r then x.claimed r else x

/-- THE CYCLE'S CLAIMS IN THEIR ORDER: the trap records raised in a cycle claim the indices that it took in ascending CTXID, whatever
raised them first; those for which the ring had no room are the last in that order (R362, R365). -/
def State.orderClaims (s : State) : State :=
  let raised := s.claims.map (·.1)
  let order := raised.insertionSort fun a b => a.ctxid.toNat ≤ b.ctxid.toNat
  let ixs := s.claims.filterMap (·.2)
  let s' := { s with claims := [] }
  if s.fatal.isSome || order = raised then s'
  else
    let t := (ixs.zip order).foldl (fun (t : State) p =>
      t.write (runAt (t.sys.trapBase.toNat + 64 * (p.1.toNat % 2 ^ t.sys.trapLog2n)) (p.2.bytes false))) s'
    let t := (order.take ixs.length).foldl State.nowClaimed t
    (order.drop ixs.length).foldl State.unclaim t

/-- THE END OF A CYCLE: its trap records have their order, time advances by one cycle, and every core that has a context to run has
its turn in the next. -/
def State.endCycle (s : State) : State :=
  let s := s.orderClaims.settle.spill
  { s with
    now := s.now + 1, memPrev := s.mem, opened := false, pubs := [], banked := [], unexpPrev := s.unexpectedNow, turns := s.coresInTurn
    clusters := s.clusters.map fun k => (k.1, k.2.endCycle) }

/-- The platforms whose fill is held. -/
def State.heldPlats (s : State) : List (Nat × Nat) :=
  s.clusters.flatMap fun k => ((List.range 64).filter fun pn => (k.2.plats.getD pn Platform.none).held).map (k.1, ·)

/-- A core's turn as far as it changes the state. -/
def State.turnState (s : State) (q : Nat) : State :=
  match s.turn q with
  | .next t => t
  | _ => s

/-- Of some platforms those that the cycle's turns publish, where its accesses find given ones published. -/
def State.pubsUnder (s : State) (ps given : List (Nat × Nat)) : List (Nat × Nat) :=
  let t := s.turns.foldl State.turnState { s with opened := true, memCyc := s.mem, pubs := given }
  let t := t.l2q.foldl (fun t r => if t.mayLeave r then t.performHome r else t) t
  ps.filter fun p => (t.plat p.1 p.2).gen ≠ (s.plat p.1 p.2).gen

/-- The platforms that the cycle publishes, where that is the same as it finds published: looked for from a first guess a few times.
Of several such sets, where a bundle that loads the new front holds the `prel` that publishes it, R222 names none: from the empty guess
the model comes to the one in which that bundle traps (DESIGN CHOICE, log 72).
Where a bundle that publishes would trap for finding it published, or the other way about, no set is the same, and R222 states
none: the model takes what two guesses have in common (DESIGN CHOICE, log 72). -/
def State.settlePubs (s : State) (ps : List (Nat × Nat)) : Nat → List (Nat × Nat) → List (Nat × Nat)
  | 0, g => g.filter (s.pubsUnder ps g).contains
  | n + 1, g =>
    let r := s.pubsUnder ps g
    if r = g then g else s.settlePubs ps n r

/-- The platforms whose held fill a release of this cycle publishes: every access of the cycle finds the new front, whatever the
order of the cores (R221, R222). -/
def State.cyclePubs (s : State) : List (Nat × Nat) :=
  match s.heldPlats with
  | [] => []
  | ps => s.settlePubs ps 4 []

/-- A core's turn. At the first of a cycle the bundles' view of memory is fixed, and what the cycle publishes (R188, R222,
R324). -/
def State.openTurn (s : State) (q : Nat) (rest : List Nat) : Res :=
  let s := if s.opened then s else { s with opened := true, memCyc := s.mem, pubs := s.cyclePubs }
  ({ s with turns := rest } : State).turn q

/-! ### A lone slot word where the next step runs it (log 38) -/

/-- The slot in which a decoded instruction is legal: its class's first (R72, R83), another for a `vxc` to group A, and for
an instruction that names the literal slot that it would stand in. -/
def placeOf (i : Instr) : Nat :=
  match i.cls with
  | some .vector => if i.slotOk 2 then 2 else 3
  | some .xclass => 5
  | some .memory => 6
  | _ => if i.s1Only || i.literalSlot = some 0 then 1 else 0

/-- The eight words of a bundle that holds a slot word alone, but for the literal that it names and the checkpoint that it
needs (R76, R84). -/
def loneBundle (i : Instr) (x : BitVec 32) : List (BitVec 32) :=
  let p := placeOf i
  let lit : BitVec 32 := 0xE0000000#32
  let ck := (encode .ckpt).getD 0
  (List.range 8).map fun k =>
    if k = p then x
    else if i.literalSlot = some k then lit
    else if i.needsCkpt && k = (if p = 0 then 1 else 0) then ck
    else 0

/-- The bytes of slot words, the lowest address first (R72). -/
def bundleBytes (ws : List (BitVec 32)) : List Byte := ws.flatMap fun w => leBytes 4 w.toNat

/-- The virtual address, which is also the module address, at which the lone bundle stands. -/
def loneAt : Nat := 0x10000

/-- The page that holds it: one leaf of level 2, readable, writable and executable in address space 0. -/
def lonePage : Tlb := { asid := 0, va := 0, size := 2 ^ 30, frame := 0, leaf := 0x1F#64 }

/-- The page table that gives that page: the ASID entry of address space 0, partition 0; the entry of its root; the leaf
(R372, R373, R376). -/
def loneTables : List (Nat × Byte) :=
  runAt 0x100000 (leBytes 16 0x200001) ++ runAt 0x200000 (leBytes 8 0x300001) ++ runAt 0x300000 (leBytes 8 0x1F)

/-- Context 0 ready to issue at the lone bundle; at the executive level for a privileged instruction. -/
def loneContext (i : Instr) : Ctx :=
  { Ctx.idle with status := .ready, pc := BitVec.ofNat 64 loneAt, chkPc := BitVec.ofNat 64 loneAt, exec := i.privileged }

/-- The state with a bundle stored where context 0 fetches next, translated and permitted, and with nothing due before that
context's core has its turn. -/
def State.placed (s : State) (i : Instr) (ws : List (BitVec 32)) : State :=
  let s := (s.put (runAt loneAt (bundleBytes ws) ++ loneTables)).setCtx 0 (loneContext i)
  let s := s.setCore 0 Core.reset
  { s with
    tlb := [lonePage], sys := { s.sys with asidEn := true, asidBase := 0x100000 }, pop := [0x400000], retired := [], poison := [], fatal := none, turns := [0], opened := false
    ctxs := s.ctxs.filter (·.1 = 0), agenda := [], l2q := [], claims := [], fixed := [], banked := [], consists := [], clusters := s.clusters.filter (·.1 ≠ 0)
    access := [(0, [{ r := true, w := true, exo := false, master := 0, base := 0, limit := 0x1000 }])] }

end Sys2Proof.Machine
end

