-- ==== Sys2Proof/Machine/Step.lean ====
section
/-! DEFINITION. Sys2Proof/Machine/Step.lean: the step of the machine, and `State.withFetchWord`. -/

namespace Sys2Proof.Machine

/-- ONE STEP. After a fatal error only a reset happens (R369). Otherwise: results that are due are written; else the first
event that is due happens; else the next core of this cycle has its turn; else an L2 home performs an access; else the cycle
ends. -/
def step (s : State) : Host.Outcome State Fault Refusal :=
  match s.fatal with
  | some _ =>
    match s.comingReset with
    | some (a, rest) => s.happen a rest
    | none => .fault .held
  | none =>
    match s.arriving with
    | some c => exec .resultArrival { s with due := { ctx := c } }
    | none =>
      match s.dueEvent with
      | some (a, rest) => s.happen a rest
      | none =>
        match s.turns with
        | q :: rest => s.openTurn q rest
        | [] =>
          match s.homeNext with
          | some (.entry r) => .next (s.performHome r)
          | some (.event a) => s.happen a (s.agenda.erase a)
          | none => .next s.endCycle

/-- The state in which the next step fetches and runs the instruction of nbits bits with the value w: it stands alone in the
bundle that context 0 fetches (log 38). A word that is no instruction stands in S0. -/
def State.withFetchWord (s : State) (nbits w : Nat) : State :=
  match decodeTableWord nbits w with
  | some i => s.placed i (loneBundle i (BitVec.ofNat 32 w))
  | none => s.placed .nop (loneBundle .nop (BitVec.ofNat 32 w))

end Sys2Proof.Machine
end

