-- ==== Sys2Proof/Safety.lean ====
section
/-! DEFINITION. Sys2Proof/Safety.lean: the terms in which claims about the machine are made. -/

namespace Sys2Proof.Machine

/-- The invariant of memory: the byte lists are in canonical form. -/
def MemoryCanonical (s : State) : Prop :=
  Memory.wf s.mem = true ∧ Memory.wf s.memPrev = true ∧ Memory.wf s.memCyc = true

/-- The state in which results of the issuing bundle are posted: each with the latency after which it arrives (R87). -/
def State.posted (s : State) (rs : List (Nat × Eff)) : State := rs.foldl (fun s r => s.push r.1 r.2) s

/-- What a write of x into s[d] posts: nothing for s0, which discards it (R74). -/
def regResult (d : BitVec 5) (lat : Nat) (x : Word) : List (Nat × Eff) := if d = 0 then [] else [(lat, .sreg d x)]

/-- What sticky flags that are set post: nothing when there are none (R131). -/
def flagResult (lat : Nat) (f : Nat) : List (Nat × Eff) :=
  if BitVec.ofNat 6 f = 0 then [] else [(lat, .flags (BitVec.ofNat 6 f))]

/-- The flags that the active lanes of width w raise (R139). -/
def laneFlags (w : Nat) (p : PReg) (f : Nat → Nat × Nat) : Nat := orFlags ((activeLanes w p).map fun i => (f i).2)

/-- Whether an arriving write of vector register r leaves g i in each lane i of width w, where g sees the register's lane
before. -/
def Eff.leavesLanes (e : Eff) (r w : Nat) (g : Nat → Nat → Nat) : Prop :=
  ∀ v : Vis, ∀ i, i < 2048 / w → laneN w ((v.apply e).v r) i = g i (laneN w (v.v r) i)

/-- t is s with one result posted for vector register d of the issuing slot's group at latency lat, and the flags of the
active lanes. When it arrives active lane i of width w is (f i).1, an inactive lane keeps its value, or becomes zero when
zero is set (R92, R138, R139). -/
def LanesPosted (s t : State) (d : BitVec 4) (p : PReg) (w lat : Nat) (zero : Bool) (f : Nat → Nat × Nat) : Prop :=
  ∃ x m : VReg,
    t = s.posted ((lat, .vec (s.vix d) x m) :: flagResult lat (laneFlags w p f)) ∧
    (Eff.vec (s.vix d) x m).leavesLanes (s.vix d) w fun i old =>
      if active w p i then (f i).1 % 2 ^ w else if zero then 0 else old

/-- t is s with one result posted for vector register number r of the 48 and the flags fl, and no other; every lane i of
width w of the register is g i when it arrives. -/
def AllLanesPosted (s t : State) (r w lat fl : Nat) (g : Nat → Nat) : Prop :=
  ∃ x m : VReg, t = s.posted ((lat, .vec r x m) :: flagResult lat fl) ∧ (Eff.vec r x m).leavesLanes r w fun i _ => g i % 2 ^ w

/-- t is s with one result posted for predicate register d, at latency 2, and the flags fl; element i of width w, all its
bits alike, is g i (R149). -/
def PredicatePosted (s t : State) (d : BitVec 5) (w fl : Nat) (g : Nat → Bool) : Prop :=
  ∃ x : PReg, t = s.posted ((2, .pred d x) :: flagResult 2 fl) ∧
    ∀ i, i < 2048 / w → ∀ j, j < w / 8 → x.getLsbD (i * (w / 8) + j) = g i

/-- The state of a member of consist i whose control-flow outcome agrees: the lead's outcome stands in the log at its place, and
the member's count of outcomes has advanced (R43, R116). -/
def State.logged (s : State) (i : Nat) (out : Word) : State :=
  let s := if s.cur.cpos = 0 then
      { s with consists := s.consists.map fun x =>
          if x.id = i then { x with log := x.log.take s.cur.cfCount ++ [out] } else x }
    else s
  s.modCur fun c => { c with cfCount := c.cfCount + 1 }

/-- x is a smaller number than y: infinities beyond every finite value, +0 equal to -0; a NaN is neither smaller nor greater (R151). -/
def FVal.below (x y : FVal) : Bool :=
  let num := fun (s : Bool) (m : Nat) => if s then -(m : Int) else m
  match x, y with
  | .fin s m e, .fin t n f => decide (num s m * 2 ^ (e - min e f).toNat < num t n * 2 ^ (f - min e f).toNat)
  | .inf s, .inf t => s && !t
  | .inf s, .fin _ _ _ => s
  | .fin _ _ _, .inf t => !t
  | _, _ => false

/-! ### Loads and stores -/

/-- Whether a scratchpad byte is plain: no platform's and not SYNC, in a granule that has a race tag (R315). -/
def State.plainAt (s : State) (k a : Nat) : Bool := (s.platAt k a).isNone && !s.syncAt k a

/-- The issuing context may load the n bytes from byte a of the scratchpad of cluster k: they stand in a platform's published front
as the cycle's accesses find it; or they are SYNC, outside deterministic mode; or plain, with a tag that admits the load (R222, R315,
R318, R333). -/
abbrev State.mayLoad (s : State) (k a n : Nat) (front : Bool) : Prop :=
  ∃ b : Bool, (∀ i, i < n → s.syncAt k (a + i) = b) ∧
    (match s.platAt k a with
    | some pn => !front || (s.platNow k pn).published a
    | none => if b then !s.detOf s.iss.ctx else (s.conflict (s.party s.iss.ctx) .load [s.spGran k a]).isNone) = true

/-- Nothing of the scratchpad granule at a key has an error that is found when it is read (R427). -/
abbrev State.sound (s : State) (key : Nat) : Prop :=
  s.poisoned key 64 = none ∧ ∀ x ∈ s.corr, x < key ∨ key + 64 ≤ x

/-- No accumulator of an update in flight lies among the n bytes at ea, nothing that a fence orders before a load is still under way,
and the load's value is not one that is taken after its bundle's first cycle (R89, R212, R286). -/
abbrev State.loadsFree (s : State) (n : Nat) (ea : Word) : Prop :=
  s.accumulates s.iss.ctx ea n = false ∧ s.loadFenced s.iss.ctx = false ∧ s.iss.paid = none

/-- ea names scratchpad byte a of the issuing context's cluster, aligned to n bytes that it may load (R187, R194, R212, R222, R286,
R318, R427). -/
abbrev State.loadsLocal (s : State) (n : Nat) (ea : Word) (a : Nat) : Prop :=
  let k := clOf s.iss.ctx
  spaceOf ea = .localSp a ∧ ea.toNat % n = 0 ∧ s.loadsFree n ea ∧ s.sound (spKey k (a / 64 * 64)) ∧ s.mayLoad k a n true

/-- ea is a global address, aligned to n bytes, that the issuing context may read at module address m through the page e: its
line is in L1 or the bundle is held, its fault is not kept for a load-block, and it is SYNC outside deterministic mode, or in the
launch's RD range with a tag copy that admits the load, or its home has performed the load (R190, R192, R319, R333, R374, R397,
R427). -/
abbrev State.loadsGlobal (s : State) (n : Nat) (ea : Word) (m : Nat) (e : Tlb) : Prop :=
  let c := s.iss.ctx
  let va := ea.toNat
  spaceOf ea = .global va ∧ va % n = 0 ∧ s.translate (s.who c) va .r = .ok m e ∧
  (s.iss.held = true ∨ s.inL1 c (m / 64) = true) ∧ (∀ b ∈ s.cur.blocks, ∀ x ∈ b.bad, x.1 ≠ va / 64 * 64) ∧
  s.sound (m / 64 * 64) ∧ s.loadsFree n ea ∧
  (if e.sync then !s.detOf c
   else s.inRd c va && match s.cur.checked.find? (·.1 = m / 64) with
     | some x => !x.2.isEmpty
     | none => s.readable (s.party c) (s.gGran c m)) = true

/-- ea names byte a behind window w, aligned to n bytes, and its granule is in the remote buffer of the waiting bundle, or the bundle
is held, with no rejection from its home; of a peer on this module the bytes are those that the issuing context may load, a
platform's having been looked at when the granule was fetched (R196, R222, R319, R427). -/
abbrev State.loadsWindow (s : State) (n : Nat) (ea : Word) (w a : Nat) : Prop :=
  let x := s.win s.iss.ctx w
  let id := w * 2 ^ 23 + a / 64
  spaceOf ea = .window w a ∧ ea.toNat % n = 0 ∧ x.valid = true ∧
  (s.iss.held = true ∨ id ∈ s.cur.remote) ∧ (∀ t ∈ s.cur.raceAns, t.1 ≠ 2 ^ 60 + id) ∧ s.loadsFree n ea ∧
  (x.mod = s.modNo → s.sound (spKey x.peer (a / 64 * 64)) ∧ s.mayLoad x.peer a n false)

/-- The granules whose read a load of the addresses registers: the plain ones of its cluster, and of peers on this module, whose own
homes do (R222, R314, R318). -/
def State.readGrans (s : State) (eas : List Word) : List Gran :=
  (s.granules s.iss.ctx eas).filterMap fun ea => match spaceOf ea with
    | .localSp a => if s.plainAt (clOf s.iss.ctx) a then some (s.spGran (clOf s.iss.ctx) a) else none
    | .window w a =>
      let x := s.win s.iss.ctx w
      if x.mod = s.modNo ∧ s.plainAt x.peer a then some (s.spGran x.peer a) else none
    | _ => none

/-- s with the reads of a load of scratchpad addresses registered (R318). -/
def State.readAll (s : State) (eas : List Word) : State := s.register (s.party s.iss.ctx) .load (s.readGrans eas)

/-- s with one entry of the issuing slot appended to the withholding buffer of its context, and nothing else changed (R357). -/
def State.withheld (s : State) (k : EntryK) : State :=
  s.modCtx s.iss.ctx fun c => { c with
    wb := c.wb ++ [{ pc := s.iss.pc, slot := s.iss.slot, k := k, ord := c.ents }], ents := c.ents + 1 }

/-- t is what a load i by the issuing context leaves that has done in u what its issue does: the results posted, where its value is
taken as it issues; in a bundle that stalls, or behind an acquiring atomic of its bundle, the load withheld with the registers it
reads, its value to be taken later (R89, R212, R222). -/
def LoadDone (s u t : State) (i : Instr) (lat : Nat) (posts : State → Prop) : Prop :=
  (s.iss.stall = false → s.iss.late = false → posts t) ∧
  (s.iss.stall = true ∨ s.iss.late = true → t = u.withheld (.load i s.cur.vis lat s.iss.late))

/-- x is the number whose n bytes the issuing context reads at ea, lowest first (R5, R195). -/
def State.readsAt (s : State) (ea : Word) (n : Nat) (x : Nat) : Prop :=
  x < 256 ^ n ∧ ∀ i, i < n → x / 256 ^ i % 256 = (s.loadByte (s.own s.iss.ctx) (ea + BitVec.ofNat 64 i)).toNat

/-- A store of n bytes at ea is accepted at issue: the address may be named, no window is at its allowance, and no check at
issue refuses it (R194, R216, R222, R254, R274, R333). -/
abbrev State.storable (s : State) (acc : Accepts) (align n : Nat) (ea : Word) : Prop :=
  s.nameable acc align ea = true ∧ s.windowFull ea = false ∧ s.storeTrap 1 n ea = none

/-- The bytes that a store of the elements writes, at their effective addresses, in lane order. -/
def storedBytes (els : List (Word × List Byte)) : List (Nat × Byte) :=
  els.flatMap fun e => e.2.zipIdx.map fun b => (e.1.toNat + b.2, b.1)

/-! ### Engine commands -/

/-- The eight words of a command block as the issuing context reads them (R272). -/
def State.blockAt (s : State) (ea : Word) : List Word :=
  (List.range 8).map fun (i : Nat) => BitVec.ofNat 64 (s.loadNat (s.own s.iss.ctx) (ea + BitVec.ofNat 64 (8 * i)) 8)

/-- The acceptance word of the issuing context's next command: its bound, 0 in deterministic mode, SEQ and class (R235, R333). -/
def State.acceptance (s : State) (bound cls : Nat) : Word :=
  BitVec.ofNat 64 ((if s.detOf s.iss.ctx then 0 else bound % 2 ^ 32) + s.cur.vis.seq.toNat * 2 ^ 32 + cls % 4 * 2 ^ 48)

/-- The issuing context with its next command accepted under an identity: SEQ has advanced, the command is withheld by the
issuing slot, and the results rs are posted (R235, R357). -/
def State.commanded (s : State) (id : Nat) (rs : List (Nat × Eff)) : Ctx :=
  let c := s.cur
  { c with
    vis := { c.vis with seq := c.vis.seq + 1 }
    wb := c.wb ++ [{ pc := s.iss.pc, slot := s.iss.slot, k := .cmd id, ord := c.ents }]
    ents := c.ents + 1
    pend := c.pend ++ rs.map fun r => { at_ := s.iss.cyc + r.1, inChk := false, eff := r.2 } }

/-- t is s with a command accepted: one more command with what it captures, not released, its bound kept for its release, a
record slot of its kind; its platform reserved; the issuing context as `State.commanded` says, with the acceptance word posted
as res says. Memory, tags, cores and every other context are as before (R221, R235, R238, R357). -/
def CommandAccepted (s t : State) (k : CmdK) (kind cls bound : Nat) (pn : Option (BitVec 6)) (bar : Option Nat)
    (res : Word → List (Nat × Eff)) : Prop :=
  let c := s.iss.ctx
  ∃ x : Cmd,
    (x.id = s.nextId ∧ x.ctx = c ∧ x.k = k ∧ x.seq = s.cur.vis.seq ∧ x.cls = BitVec.ofNat 2 cls ∧ x.pn = pn ∧ x.bar = bar ∧
      x.deadline = bound ∧ x.release = none ∧ x.ended = false ∧ x.record.kind = BitVec.ofNat 8 kind ∧
      x.record.seq = s.cur.vis.seq ∧ x.pc = s.iss.pc ∧ x.slot = s.iss.slot) ∧
    t.cmds = s.cmds ++ [x] ∧ t.nextId = s.nextId + 1 ∧
    t.cur = s.commanded s.nextId (res (s.acceptance bound cls)) ∧
    (∀ c', c' ≠ c → t.ctx c' = s.ctx c') ∧ (∀ p, pn = some p → (t.plat (clOf c) p.toNat).resv = some s.nextId) ∧
    t.mem = s.mem ∧ t.tags = s.tags ∧ t.cores = s.cores ∧ t.agenda = s.agenda ∧ t.iss = s.iss

/-- t is s with a command refused: SEQ has advanced, and the refusal word with its code is posted as res says (R235). -/
def CommandRefused (s t : State) (code cls : Nat) (res : Word → List (Nat × Eff)) : Prop :=
  t = (s.modVis fun v => { v with seq := v.seq + 1 }).posted
    (res (BitVec.ofNat 64 (s.cur.vis.seq.toNat * 2 ^ 32 + cls % 4 * 2 ^ 48 + code * 2 ^ 56 + 2 ^ 63)))

end Sys2Proof.Machine
end

