-- ==== Sys2Proof/Certificates/Slice0/Obligations.lean ====
section
/-! DEFINITION. Sys2Proof/Certificates/Slice0/Obligations.lean: the statements for the provers. Every constructor of Instr has its
completion here: the state that `exec` answers, or what it holds, with the results it posts, the entry it withholds, the command
it starts, or what an event leaves. -/

open Sys2Proof Sys2Proof.Machine

/-! ### The scalar slots (R98 to R108) -/

/-- R100, with R98 and R99: the six operations of major 0x01, each with the one result it posts at 1 cy and nothing else.
R101: the logic operations, and the shifts by B bits 5:0; the rotation is stated bit by bit. R100 and R101 with R76: majors
0x01 and 0x02 belong to the class of slots S0 and S1, their fn values name the operations in the order of the tables, and
every other fn value is an illegal encoding. -/
def Obligations.ScalarArithmeticAndLogicResults : Prop :=
  (∀ (s : State) (d a b : BitVec 5) (l : Bool),
     let A := s.rs a
     let B := s.opB b l
     exec (.add d a b l) s = .next (s.posted (regResult d 1 (A + B))) ∧
     exec (.sub d a b l) s = .next (s.posted (regResult d 1 (A - B))) ∧
     exec (.min d a b l) s = .next (s.posted (regResult d 1 (if A.toInt ≤ B.toInt then A else B))) ∧
     exec (.max d a b l) s = .next (s.posted (regResult d 1 (if A.toInt ≤ B.toInt then B else A))) ∧
     exec (.minn d a b l) s = .next (s.posted (regResult d 1 (if A.toNat ≤ B.toNat then A else B))) ∧
     exec (.maxn d a b l) s = .next (s.posted (regResult d 1 (if A.toNat ≤ B.toNat then B else A)))) ∧
  (∀ (s : State) (d a b : BitVec 5) (l : Bool),
     let A := s.rs a
     let B := s.opB b l
     let sh := B.toNat % 64
     exec (.and d a b l) s = .next (s.posted (regResult d 1 (A &&& B))) ∧
     exec (.or d a b l) s = .next (s.posted (regResult d 1 (A ||| B))) ∧
     exec (.xor d a b l) s = .next (s.posted (regResult d 1 (A ^^^ B))) ∧
     exec (.andn d a b l) s = .next (s.posted (regResult d 1 (A &&& ~~~B))) ∧
     exec (.shl d a b l) s = .next (s.posted (regResult d 1 (A <<< sh))) ∧
     exec (.shr d a b l) s = .next (s.posted (regResult d 1 (A >>> sh))) ∧
     exec (.sra d a b l) s = .next (s.posted (regResult d 1 (A.sshiftRight sh))) ∧
     ∃ x : Word, exec (.rot d a b l) s = .next (s.posted (regResult d 1 x)) ∧
       ∀ i, i < 64 → x.getLsbD ((i + sh) % 64) = A.getLsbD i) ∧
  ((∀ k, k < 8 → (slotClass k = .scalar ↔ k < 2)) ∧
   (∀ (d a b : BitVec 5) (l : Bool), srcOk b l = true →
     let word := fun (major : BitVec 6) (fn : BitVec 10) => major ++ d ++ a ++ b ++ BitVec.ofBool l ++ fn
     (∀ p ∈ [(0, Instr.add d a b l), (1, .sub d a b l), (2, .min d a b l), (3, .max d a b l), (4, .minn d a b l), (5, .maxn d a b l)],
       decode .scalar (word 1 p.1) = .ok p.2) ∧
     ∀ p ∈ [(0, Instr.and d a b l), (1, .or d a b l), (2, .xor d a b l), (3, .andn d a b l), (4, .shl d a b l), (5, .shr d a b l),
         (6, .sra d a b l), (7, .rot d a b l)], decode .scalar (word 2 p.1) = .ok p.2) ∧
   ∀ w : BitVec 32,
     (w.extractLsb' 26 6 = 1 → 5 < (w.extractLsb' 0 10).toNat → decode .scalar w = .error .illegalFields) ∧
     (w.extractLsb' 26 6 = 2 → 7 < (w.extractLsb' 0 10).toNat → decode .scalar w = .error .illegalFields))

/-- R105 and R106: a comparison writes 1 when it holds and 0 otherwise; `sel` chooses by s[sc]. R105 and R106 with R76:
majors 0x06 and 0x07 in the class of slots S0 and S1: the condition in fn 9:0, no code above 9; the condition register in fn
4:0, with fn 9:5 zero. -/
def Obligations.ScalarCompareAndSelect : Prop :=
  (∀ (s : State) (d a b : BitVec 5) (l : Bool),
     let A := s.rs a
     let B := s.opB b l
     (∀ (c : SCc) (p : Bool),
       (c, p) ∈ [(SCc.eq, decide (A = B)), (.ne, decide (A ≠ B)), (.lt, decide (A.toInt < B.toInt)),
         (.ge, decide (B.toInt ≤ A.toInt)), (.le, decide (A.toInt ≤ B.toInt)), (.gt, decide (B.toInt < A.toInt)),
         (.ltn, decide (A.toNat < B.toNat)), (.gen, decide (B.toNat ≤ A.toNat)), (.len, decide (A.toNat ≤ B.toNat)),
         (.gtn, decide (B.toNat < A.toNat))] →
       exec (.scmp d a b l c) s = .next (s.posted (regResult d 1 (if p then 1 else 0)))) ∧
     ∀ c : BitVec 5, exec (.sel d a b l c) s = .next (s.posted (regResult d 1 (if s.rs c ≠ 0 then A else B)))) ∧
  ((∀ k, k < 8 → (slotClass k = .scalar ↔ k < 2)) ∧
   (∀ (d a b : BitVec 5) (l : Bool), srcOk b l = true →
     let word := fun (major : BitVec 6) (fn : BitVec 10) => major ++ d ++ a ++ b ++ BitVec.ofBool l ++ fn
     (∀ p ∈ [(0, SCc.eq), (1, .ne), (2, .lt), (3, .ge), (4, .le), (5, .gt), (6, .ltn), (7, .gen), (8, .len), (9, .gtn)],
       decode .scalar (word 6 p.1) = .ok (.scmp d a b l p.2)) ∧
     ∀ c : BitVec 5, decode .scalar (word 7 (0#5 ++ c)) = .ok (.sel d a b l c)) ∧
   ∀ w : BitVec 32,
     (w.extractLsb' 26 6 = 6 → 9 < (w.extractLsb' 0 10).toNat → ∃ e, decode .scalar w = .error e) ∧
     (w.extractLsb' 26 6 = 7 → w.extractLsb' 5 5 ≠ 0 → ∃ e, decode .scalar w = .error e))

/-- R102: the one-source operations. Leading and trailing zeros, one bits and reversed bytes are stated by their bits. R103
and R104: products at 3 cy; quotients and remainders at 20 cy, with the three columns of the division table: by zero all ones and
the dividend, the most negative number by -1 itself and 0, and otherwise the signed quotient rounded toward zero with its
remainder, the natural quotient rounded down with its own. R107 and R108, with R75 and R76: the immediate forms, `movl` with a literal of 29 or of 58 bits, and the words
that do nothing. -/
def Obligations.ScalarUnaryMultiplyDivideAndImmediateResults : Prop :=
  (∀ (s : State) (d a : BitVec 5),
     let A := s.rs a
     exec (.mov d a) s = .next (s.posted (regResult d 1 A)) ∧
     (∃ n, n ≤ 64 ∧ exec (.clz d a) s = .next (s.posted (regResult d 1 (BitVec.ofNat 64 n))) ∧
       (∀ i, 64 - n ≤ i → A.getLsbD i = false) ∧ (n < 64 → A.getLsbD (63 - n) = true)) ∧
     (∃ n, n ≤ 64 ∧ exec (.ctz d a) s = .next (s.posted (regResult d 1 (BitVec.ofNat 64 n))) ∧
       (∀ i, i < n → A.getLsbD i = false) ∧ (n < 64 → A.getLsbD n = true)) ∧
     exec (.popc d a) s = .next (s.posted (regResult d 1 (BitVec.ofNat 64 ((List.range 64).countP fun i => A.getLsbD i)))) ∧
     (∀ (i : Instr) (n : Nat), (i, n) ∈ [(Instr.bswap16 d a, 2), (.bswap32 d a, 4), (.bswap64 d a, 8)] →
       ∃ x : Word, exec i s = .next (s.posted (regResult d 1 x)) ∧
         ∀ k, k < 8 → x.extractLsb' (8 * k) 8 = if k < n then A.extractLsb' (8 * (n - 1 - k)) 8 else 0) ∧
     exec (.sext8 d a) s = .next (s.posted (regResult d 1 ((A.setWidth 8).signExtend 64))) ∧
     exec (.sext16 d a) s = .next (s.posted (regResult d 1 ((A.setWidth 16).signExtend 64))) ∧
     exec (.sext32 d a) s = .next (s.posted (regResult d 1 ((A.setWidth 32).signExtend 64))) ∧
     exec (.zext8 d a) s = .next (s.posted (regResult d 1 (A &&& 0xFF))) ∧
     exec (.zext16 d a) s = .next (s.posted (regResult d 1 (A &&& 0xFFFF))) ∧
     exec (.zext32 d a) s = .next (s.posted (regResult d 1 (A &&& 0xFFFFFFFF)))) ∧
  (∀ (s : State) (d a b : BitVec 5) (l : Bool),
     let A := s.rs a
     let B := s.opB b l
     exec (.mul d a b l) s = .next (s.posted (regResult d 3 (A * B))) ∧
     exec (.mulh d a b l) s = .next (s.posted (regResult d 3 (BitVec.ofInt 64 (A.toInt * B.toInt / 2 ^ 64)))) ∧
     exec (.mulhn d a b l) s = .next (s.posted (regResult d 3 (BitVec.ofNat 64 (A.toNat * B.toNat / 2 ^ 64)))) ∧
     (∃ q r : Word, exec (.div d a b l) s = .next (s.posted (regResult d 20 q)) ∧
       exec (.rem d a b l) s = .next (s.posted (regResult d 20 r)) ∧
       (B = 0 → q = -1 ∧ r = A) ∧
       (A = BitVec.intMin 64 → B = -1 → q = A ∧ r = 0) ∧
       (B ≠ 0 → ¬(A = BitVec.intMin 64 ∧ B = -1) → q.toInt = A.toInt.tdiv B.toInt ∧ r.toInt = A.toInt.tmod B.toInt)) ∧
     ∃ q r : Word, exec (.divn d a b l) s = .next (s.posted (regResult d 20 q)) ∧
       exec (.remn d a b l) s = .next (s.posted (regResult d 20 r)) ∧
       (B = 0 → q = -1 ∧ r = A) ∧ (B ≠ 0 → A.toNat = q.toNat * B.toNat + r.toNat ∧ r.toNat < B.toNat)) ∧
  (∀ (s : State) (d a : BitVec 5) (i : BitVec 16) (n : BitVec 6),
     let A := s.rs a
     let k : Word := i.signExtend 64
     exec (.addi d a i) s = .next (s.posted (regResult d 1 (A + k))) ∧
     exec (.andi d a i) s = .next (s.posted (regResult d 1 (A &&& k))) ∧
     exec (.ori d a i) s = .next (s.posted (regResult d 1 (A ||| k))) ∧
     exec (.xori d a i) s = .next (s.posted (regResult d 1 (A ^^^ k))) ∧
     exec (.shli d a n) s = .next (s.posted (regResult d 1 (A <<< n.toNat))) ∧
     exec (.shri d a n) s = .next (s.posted (regResult d 1 (A >>> n.toNat))) ∧
     exec (.srai d a n) s = .next (s.posted (regResult d 1 (A.sshiftRight n.toNat))) ∧
     (∀ (j : BitVec 3) (lo hi : BitVec 29), s.iss.words.getD j.toNat 0 = 7#3 ++ lo →
       (s.iss.words.getD (j.toNat + 1) 0 = 7#3 ++ hi → j ≠ 7 →
         exec (.movl d j) s = .next (s.posted (regResult d 1 ((hi ++ lo).signExtend 64)))) ∧
       ((j = 7 ∨ (s.iss.words.getD (j.toNat + 1) 0).extractLsb' 29 3 ≠ 7#3) →
         exec (.movl d j) s = .next (s.posted (regResult d 1 (lo.signExtend 64))))) ∧
     exec .nop s = .next s ∧ ∀ p : BitVec 29, exec (.literal p) s = .next s)

/-! ### The vector slots (R138 to R164) -/

/-- R140 with R138: integer lanes at 2 cy, modulo 2^w; products' high halves; minimum and maximum, signed and natural;
absolute value and negation, which wrap; the lane's index. No flag is raised. R140 with R46: sums and differences clamped to
the signed or the natural range of the lane, at 2 cy; SAT is raised when an active lane was clamped. -/
def Obligations.VectorIntegerLaneResults : Prop :=
  (∀ (s : State) (d a b : BitVec 4) (p : BitVec 5) (t : Ty),
     let w := t.width
     let x := laneN w (s.rv a)
     let y := laneN w (s.rv b)
     let X := laneI w (s.rv a)
     let Y := laneI w (s.rv b)
     ∀ (i : Instr) (f : Nat → Int),
       (i, f) ∈ [(Instr.vaddI d a b p t, fun k => (x k : Int) + y k), (.vsubI d a b p t, fun k => (x k : Int) - y k),
         (.vmulI d a b p t, fun k => (x k : Int) * y k), (.vmulh d a b p t, fun k => X k * Y k / 2 ^ w),
         (.vmulhn d a b p t, fun k => (x k : Int) * y k / 2 ^ w), (.vminI d a b p t, fun k => min (X k) (Y k)),
         (.vmaxI d a b p t, fun k => max (X k) (Y k)), (.vminn d a b p t, fun k => min (x k : Int) (y k)),
         (.vmaxn d a b p t, fun k => max (x k : Int) (y k)), (.vabsI d a p t, fun k => |X k|),
         (.vnegI d a p t, fun k => -X k), (.vidx d p t, fun k => (k : Int))] →
       ∃ u, exec i s = .next u ∧ LanesPosted s u d (s.rp p) w 2 false fun k => (ofSigned w (f k), 0)) ∧
  (∀ (s : State) (d a b : BitVec 4) (p : BitVec 5) (t : Ty),
     let w := t.width
     let clamp := fun (lo hi z : Int) => (ofSigned w (min (max z lo) hi), if z < lo ∨ hi < z then 32 else 0)
     let x := fun k => (laneN w (s.rv a) k : Int)
     let y := fun k => (laneN w (s.rv b) k : Int)
     let X := laneI w (s.rv a)
     let Y := laneI w (s.rv b)
     let lo : Int := -(2 ^ (w - 1))
     let hi : Int := 2 ^ (w - 1) - 1
     ∀ (i : Instr) (f : Nat → Nat × Nat),
       (i, f) ∈ [(Instr.vadds d a b p t, fun k => clamp lo hi (X k + Y k)), (.vsubs d a b p t, fun k => clamp lo hi (X k - Y k)),
         (.vaddsn d a b p t, fun k => clamp 0 (2 ^ w - 1) (x k + y k)),
         (.vsubsn d a b p t, fun k => clamp 0 (2 ^ w - 1) (x k - y k))] →
       ∃ u, exec i s = .next u ∧ LanesPosted s u d (s.rp p) w 2 false f)

/-- R141: bitwise logic at 2 cy, and shifts by the lane of vb, of which an amount of w or more leaves zeros or copies of the
sign. R144: the integer forms of a lane and a scalar register at 2 cy, the scalar's low w bits as operand b; a shift takes
the whole of s[sb]. -/
def Obligations.VectorLogicShiftAndScalarLaneResults : Prop :=
  (∀ (s : State) (d a b : BitVec 4) (p : BitVec 5) (t : Ty),
     let w := t.width
     let x := laneN w (s.rv a)
     let y := laneN w (s.rv b)
     let X := laneI w (s.rv a)
     ∀ (i : Instr) (f : Nat → Nat),
       (i, f) ∈ [(Instr.vand d a b p t, fun k => x k &&& y k), (.vor d a b p t, fun k => x k ||| y k),
         (.vxor d a b p t, fun k => x k ^^^ y k), (.vandn d a b p t, fun k => x k &&& (2 ^ w - 1 - y k)),
         (.vnot d a p t, fun k => 2 ^ w - 1 - x k), (.vshl d a b p t, fun k => if y k < w then x k * 2 ^ y k else 0),
         (.vshr d a b p t, fun k => if y k < w then x k / 2 ^ y k else 0),
         (.vsra d a b p t, fun k => ofSigned w (X k / 2 ^ min (y k) w))] →
       ∃ u, exec i s = .next u ∧ LanesPosted s u d (s.rp p) w 2 false fun k => (f k, 0)) ∧
  (∀ (s : State) (d a : BitVec 4) (b p : BitVec 5) (t : Ty),
     let w := t.width
     let x := laneN w (s.rv a)
     let X := laneI w (s.rv a)
     let n := (s.rs b).toNat
     let y := n % 2 ^ w
     let Y := toSigned w n
     ∀ (i : Instr) (f : Nat → Int),
       (i, f) ∈ [(Instr.vaddVsI d a b p t, fun k => (x k : Int) + y), (.vsubVsI d a b p t, fun k => (x k : Int) - y),
         (.vrsubVsI d a b p t, fun k => (y : Int) - x k), (.vmulVsI d a b p t, fun k => (x k : Int) * y),
         (.vminVsI d a b p t, fun k => min (X k) Y), (.vmaxVsI d a b p t, fun k => max (X k) Y),
         (.vminnVs d a b p t, fun k => min (x k : Int) y), (.vmaxnVs d a b p t, fun k => max (x k : Int) y),
         (.vandVs d a b p t, fun k => ((x k &&& y : Nat) : Int)), (.vorVs d a b p t, fun k => ((x k ||| y : Nat) : Int)),
         (.vxorVs d a b p t, fun k => ((x k ^^^ y : Nat) : Int)),
         (.vshlVs d a b p t, fun k => if n < w then (x k : Int) * 2 ^ n else 0),
         (.vshrVs d a b p t, fun k => if n < w then (x k : Int) / 2 ^ n else 0),
         (.vsraVs d a b p t, fun k => X k / 2 ^ min n w)] →
       ∃ u, exec i s = .next u ∧ LanesPosted s u d (s.rp p) w 2 false fun k => (ofSigned w (f k), 0))

/-- R142, R143 and R144: the floating-point operations on lanes, and on a lane and a scalar, at 4 cy, each rounding the
exact result in FP.MODE as `addF`, `mulF`, `fmaF`, `minF` and `maxF` of the model do, and the fused forms on integer types,
which wrap; with `.z` the inactive lanes become zero. Sign changes touch the sign bit alone and raise nothing. -/
def Obligations.VectorFloatLaneResults : Prop :=
  ∀ (s : State) (d a b c : BitVec 4) (sb p : BitVec 5) (t : Ty) (z : Bool),
    let w := t.width
    let g := fmtOf t
    let rm := s.fpMode
    let x := laneN w (s.rv a)
    let y := laneN w (s.rv b)
    let r := (s.rs sb).toNat % 2 ^ w
    let X := fun k => decodeF g (x k)
    let Y := fun k => decodeF g (y k)
    let C := fun k => decodeF g (laneN w (s.rv c) k)
    let R := decodeF g r
    (∀ (i : Instr) (f : Nat → Nat × Nat),
      (i, f) ∈ [(Instr.vaddF d a b p t, fun k => addF g rm (X k) (Y k)), (.vsubF d a b p t, fun k => addF g rm (X k) (Y k).neg),
        (.vmulF d a b p t, fun k => mulF g rm (X k) (Y k)), (.vminF d a b p t, fun k => minF g (x k) (y k)),
        (.vmaxF d a b p t, fun k => maxF g (x k) (y k)), (.vabsF d a p t, fun k => (x k % 2 ^ (g.width - 1), 0)),
        (.vnegF d a p t, fun k => (x k ^^^ 2 ^ (g.width - 1), 0)), (.vaddVsF d a sb p t, fun k => addF g rm (X k) R),
        (.vsubVsF d a sb p t, fun k => addF g rm (X k) R.neg), (.vmulVsF d a sb p t, fun k => mulF g rm (X k) R),
        (.vminVsF d a sb p t, fun k => minF g (x k) r), (.vmaxVsF d a sb p t, fun k => maxF g (x k) r)] →
      ∃ u, exec i s = .next u ∧ LanesPosted s u d (s.rp p) w 4 false f) ∧
    (∃ u, exec (.vrsubVsF d a sb p t) s = .next u ∧ LanesPosted s u d (s.rp p) w 4 false fun k =>
      match firstNan g [X k, R] with
      | some n => (n, snanFlag [X k, R])
      | none => addF g rm R (X k).neg) ∧
    ∀ (i : Instr) (np nc : Bool),
      (i, np, nc) ∈ [(Instr.vfma d a b c p t z, false, false), (.vfms d a b c p t z, false, true),
        (.vfnma d a b c p t z, true, false)] →
      ∃ u, exec i s = .next u ∧ LanesPosted s u d (s.rp p) w 4 z fun k =>
        if t.isFloat then fmaF g rm np nc (X k) (Y k) (C k)
        else
          let prod : Int := (x k : Int) * y k
          let add : Int := laneN w (s.rv c) k
          (ofSigned w ((if np then -prod else prod) + (if nc then -add else add)), 0)

/-- R145 to R148: `vsel` writes every lane; broadcast, insert, the two extracts, and the copy to another group at 1 cy. R154
to R157: the permutes at 2 cy, with E = 2,048 div w elements: each active lane takes the element its rule names; `vcmpr`
writes every lane. -/
def Obligations.VectorMoveAndPermuteResults : Prop :=
  (∀ (s : State) (d a b k j : BitVec 4) (sb p : BitVec 5) (t : Ty) (g : Grp),
     let w := t.width
     let e := k.toNat * 16 + j.toNat
     (∃ u, exec (.vsel d a b p t) s = .next u ∧ AllLanesPosted s u (s.vix d) w 2 0 fun i =>
       if active w (s.rp p) i then laneN w (s.rv a) i else laneN w (s.rv b) i) ∧
     (∃ u, exec (.vbcst d sb p t) s = .next u ∧
       LanesPosted s u d (s.rp p) w 2 false fun _ => ((s.rs sb).toNat, 0)) ∧
     (e < 2048 / w → ∃ x m : VReg, exec (.vins d k sb t j) s = .next (s.posted [(2, .vec (s.vix d) x m)]) ∧
       (Eff.vec (s.vix d) x m).leavesLanes (s.vix d) w fun i old => if i = e then (s.rs sb).toNat % 2 ^ w else old) ∧
     (e < 2048 / w → exec (.vext k a p t j) s = .next (s.posted (regResult p 2 (BitVec.ofInt 64 (laneI w (s.rv a) e))))) ∧
     (e < 2048 / w → exec (.vextn k a p t j) s = .next (s.posted (regResult p 2 (BitVec.ofNat 64 (laneN w (s.rv a) e))))) ∧
     ∃ x m : VReg, exec (.vxc d a p t g) s = .next (s.posted [(1, .vec (grpNo g * 16 + d.toNat) x m)]) ∧
       (Eff.vec (grpNo g * 16 + d.toNat) x m).leavesLanes (grpNo g * 16 + d.toNat) w fun i old =>
         if active w (s.rp p) i then laneN w (s.rv a) i else old) ∧
  (∀ (s : State) (d a b : BitVec 4) (sb p : BitVec 5) (t : Ty),
     let w := t.width
     let E := 2048 / w
     let x := laneN w (s.rv a)
     let y := laneN w (s.rv b)
     let k := (s.rs sb).toNat
     let cat := fun i => if i < E then x i else y (i - E)
     let act := activeLanes w (s.rp p)
     (∀ (i : Instr) (f : Nat → Nat),
       (i, f) ∈ [(Instr.vperm d a b p t, fun i => x (y i % E)), (.vrot d a sb p t, fun i => x ((i + k) % E)),
         (.vslideDn d a sb p t, fun i => if i + k < E then x (i + k) else 0),
         (.vslideUp d a sb p t, fun i => if k ≤ i then x (i - k) else 0),
         (.vzipLo d a b p t, fun i => if i % 2 = 0 then x (i / 2) else y (i / 2)),
         (.vzipHi d a b p t, fun i => if i % 2 = 0 then x (i / 2 + E / 2) else y (i / 2 + E / 2)),
         (.vunzipEv d a b p t, fun i => cat (2 * i)), (.vunzipOd d a b p t, fun i => cat (2 * i + 1)),
         (.vexpd d a p t, fun i => x (act.countP (· < i)))] →
       ∃ u, exec i s = .next u ∧ LanesPosted s u d (s.rp p) w 2 false fun k => (f k, 0)) ∧
     ∃ u, exec (.vcmpr d a p t) s = .next u ∧ AllLanesPosted s u (s.vix d) w 2 0 fun i => (act.map x).getD i 0)

/-- R149 to R152: a compare or class test leaves a predicate that is true exactly for the active elements for which its
condition holds, an element's bits all alike, at 2 cy; the quiet compares raise NV for a signalling NaN in an active
element, the signalling ones for any NaN, the others nothing. The eight conditions of R151 by the values that two patterns hold, and
the nine classes of R152 by a pattern's sign, exponent and fraction. R153: predicate logic at 1 cy, bit by bit; `pfirst` keeps the
lowest set bit alone. -/
def Obligations.VectorCompareAndPredicateResults : Prop :=
  (∀ (s : State) (d : BitVec 5) (a b m : BitVec 4) (p : BitVec 5) (t : Ty) (n : BitVec 3) (q : BitVec 2),
     let w := t.width
     let g := fmtOf t
     let A := fun k => active w (s.rp p) k
     let x := laneN w (s.rv a)
     let y := laneN w (s.rv b)
     let X := laneI w (s.rv a)
     let Y := laneI w (s.rv b)
     let nan := fun k => (decodeF g (x k)).isNan || (decodeF g (y k)).isNan
     let snan := fun k => (decodeF g (x k)).isSnan || (decodeF g (y k)).isSnan
     let fl := fun (f : Nat → Bool) => if (activeLanes w (s.rp p)).any f then 1 else 0
     (∀ (c : VCc) (f : Int → Int → Bool),
       (c, f) ∈ [(VCc.eq, fun u v => decide (u = v)), (.ne, fun u v => decide (u ≠ v)), (.lt, fun u v => decide (u < v)),
         (.ge, fun u v => decide (v ≤ u)), (.le, fun u v => decide (u ≤ v)), (.gt, fun u v => decide (v < u))] →
       (∃ u, exec (.vcmp d a b p t c) s = .next u ∧ PredicatePosted s u d w 0 fun k => A k && f (X k) (Y k)) ∧
       ∃ u, exec (.vcmpn d a b p t c) s = .next u ∧ PredicatePosted s u d w 0 fun k => A k && f (x k) (y k)) ∧
     (∀ c : FCc,
       (∃ u, exec (.vfcmp d a b p t c) s = .next u ∧
         PredicatePosted s u d w (fl snan) fun k => A k && fccHolds g c (x k) (y k)) ∧
       ∃ u, exec (.vfcmpSig d a b p t c) s = .next u ∧
         PredicatePosted s u d w (fl nan) fun k => A k && fccHolds g c (x k) (y k)) ∧
     (t.isFloat = true → ∀ i j, i < 2 ^ w → j < 2 ^ w →
       let a := decodeF g i
       let b := decodeF g j
       let un := a.isNan || b.isNan
       ∀ (c : FCc) (r : Bool), (c, r) ∈ [(FCc.eq, !un && !a.below b && !b.below a), (.ne, un || a.below b || b.below a),
         (.lt, a.below b), (.le, !un && !b.below a), (.gt, b.below a), (.ge, !un && !a.below b), (.un, un), (.ord, !un)] →
         fccHolds g c i j = r) ∧
     (t.isFloat = true → ∀ i, i < 2 ^ w →
       let minus := decide (2 ^ (w - 1) ≤ i)
       let ex := i / 2 ^ g.mb % 2 ^ g.eb
       let fr := i % 2 ^ g.mb
       classOf g i = if ex = 2 ^ g.eb - 1 then (if fr = 0 then (if minus then 0 else 6) else if fr < 2 ^ (g.mb - 1) then 7 else 8)
         else if ex = 0 then (if fr = 0 then 3 else if minus then 2 else 4) else if minus then 1 else 5) ∧
     ∃ u, exec (.vclass d a m p t n q) s = .next u ∧ PredicatePosted s u d w 0 fun k =>
       A k && (m.toNat + n.toNat * 16 + q.toNat * 128).testBit (classOf g (x k))) ∧
  (∀ (s : State) (d a b c : BitVec 5),
     let A := s.rp a
     let B := s.rp b
     let C := s.rp c
     exec (.pand d a b) s = .next (s.posted [(1, .pred d (A &&& B))]) ∧
     exec (.por d a b) s = .next (s.posted [(1, .pred d (A ||| B))]) ∧
     exec (.pxor d a b) s = .next (s.posted [(1, .pred d (A ^^^ B))]) ∧
     exec (.pandn d a b) s = .next (s.posted [(1, .pred d (A &&& ~~~B))]) ∧
     exec (.pnot d a) s = .next (s.posted [(1, .pred d (~~~A))]) ∧
     (∃ x : PReg, exec (.psel d a b c) s = .next (s.posted [(1, .pred d x)]) ∧
       ∀ i, i < 256 → x.getLsbD i = if C.getLsbD i then A.getLsbD i else B.getLsbD i) ∧
     ∃ x : PReg, exec (.pfirst d a) s = .next (s.posted [(1, .pred d x)]) ∧
       ∀ i, i < 256 → (x.getLsbD i = true ↔ A.getLsbD i = true ∧ ∀ k, k < i → A.getLsbD k = false))

/-- R158: the exact integer reductions at 4 cy. Lane 0 of the result combines lane 0 of vb with every active lane, and every
other lane is zero; `vred.cnt` counts the active elements. R158 for floating point: at 8 cy, the tree of 8 levels over the
lanes with the identity in the inactive ones, then lane 0 of vb in front of its root, with the flags of every node. The tree
is the model's `treeFold`. R159: an active lane of a scan holds the combination of lane 0 of vb with every active lane up to
itself, in ascending order; integers at 4 cy, floating point at 8 cy. -/
def Obligations.VectorReductionAndScanResults : Prop :=
  (∀ (s : State) (d a b : BitVec 4) (p : BitVec 5) (t : Ty),
     let w := t.width
     let xs := (activeLanes w (s.rp p)).map (laneN w (s.rv a))
     let Xs := (activeLanes w (s.rp p)).map (laneI w (s.rv a))
     let y := laneN w (s.rv b) 0
     let Y := laneI w (s.rv b) 0
     (∀ (i : Instr) (r : Nat),
       (i, r) ∈ [(Instr.vredAddI d a b p t, (y + xs.sum) % 2 ^ w), (.vredMin d a b p t, ofSigned w (Xs.foldl min Y)),
         (.vredMax d a b p t, ofSigned w (Xs.foldl max Y)), (.vredMinn d a b p t, xs.foldl min y),
         (.vredMaxn d a b p t, xs.foldl max y), (.vredAnd d a b p t, xs.foldl (· &&& ·) y),
         (.vredOr d a b p t, xs.foldl (· ||| ·) y), (.vredXor d a b p t, xs.foldl (· ^^^ ·) y)] →
       ∃ u, exec i s = .next u ∧ AllLanesPosted s u (s.vix d) w 4 0 fun k => if k = 0 then r else 0) ∧
     ∃ u, exec (.vredCnt d p t) s = .next u ∧
       AllLanesPosted s u (s.vix d) 64 4 0 fun k => if k = 0 then xs.length else 0) ∧
  (∀ (s : State) (d a b : BitVec 4) (p : BitVec 5) (t : Ty),
     let w := t.width
     let g := fmtOf t
     let ls := fun (ident : Nat) =>
       (List.range (2048 / w)).map fun i => if active w (s.rp p) i then laneN w (s.rv a) i else ident
     ∀ (i : Instr) (ident : Nat) (op : Nat → Nat → Nat × Nat),
       (i, ident, op) ∈ [(Instr.vredAddF d a b p t, g.signed true 0, fun x y => addF g s.fpMode (decodeF g x) (decodeF g y)),
         (.vredMinF d a b p t, g.infMag, minF g), (.vredMaxF d a b p t, g.signed true g.infMag, maxF g)] →
       let r := treeFold op 8 (ls ident)
       let z := op (laneN w (s.rv b) 0) (r.1.headD ident)
       exec i s = .next (s.posted
         ((8, .vec (s.vix d) (BitVec.ofNat 2048 z.1) (BitVec.allOnes 2048)) :: flagResult 8 (r.2 ||| z.2)))) ∧
  (∀ (s : State) (d a b : BitVec 4) (p : BitVec 5) (t : Ty),
     let w := t.width
     let g := fmtOf t
     let upTo := fun k => ((activeLanes w (s.rp p)).filter (· ≤ k)).map (laneN w (s.rv a))
     ∀ (i : Instr) (lat : Nat) (op : Nat → Nat → Nat × Nat),
       (i, lat, op) ∈ [(Instr.vscanAddI d a b p t, 4, fun x y => ((x + y) % 2 ^ w, 0)),
         (.vscanMin d a b p t, 4, fun x y => (if toSigned w y < toSigned w x then y else x, 0)),
         (.vscanMax d a b p t, 4, fun x y => (if toSigned w x < toSigned w y then y else x, 0)),
         (.vscanMinn d a b p t, 4, fun x y => (min x y, 0)), (.vscanMaxn d a b p t, 4, fun x y => (max x y, 0)),
         (.vscanAddF d a b p t, 8, fun x y => addF g s.fpMode (decodeF g x) (decodeF g y)),
         (.vscanMinF d a b p t, 8, minF g), (.vscanMaxF d a b p t, 8, maxF g)] →
       ∃ u, exec i s = .next u ∧ LanesPosted s u d (s.rp p) w lat false fun k =>
         let xs := upTo k
         let before := xs.dropLast.foldl (fun acc x => (op acc x).1) (laneN w (s.rv b) 0)
         op before (xs.getLastD 0))

/-- R160 to R164: a conversion at 4 cy takes each active element from its source type to its destination type;
`vnarrow` writes the part of vd that its part field names and keeps the rest, `vwiden` reads such a part. The cases of R161, R62 and
R63: a finite value rounds to the destination format, a zero and an infinity keep their sign, an infinity becomes e4m3's NaN with NV, a
NaN is delivered quieted, with NV where it signals; to an integer a NaN gives 0 and a value out of range the nearest bound, with NV,
and an inexact one NX; an integer rounds to a format, and is clamped to another integer type with SAT. The pairs of R163 and R164. -/
def Obligations.ConversionResults : Prop :=
  ((∀ (f g : Fmt) (rm : Rm) (rnd x : Nat),
      let c := convert (.flt f) (.flt g) rm rnd x
      (∀ q m, decodeF f x = .nan q m → c = (g.nan q m, if m < 2 ^ 22 then 1 else 0)) ∧
      (∀ q, decodeF f x = .inf q → c = if g.e4 then (g.signed q g.nanMag, 1) else (g.signed q g.infMag, 0)) ∧
      (∀ q e, decodeF f x = .fin q 0 e → c = (g.signed q 0, 0)) ∧
      ∀ q m e, decodeF f x = .fin q m e → m ≠ 0 → c = roundQ g rm rnd q m 1 e) ∧
   (∀ (f : Fmt) (sg : Bool) (v : Nat) (rm : Rm) (rnd x : Nat),
      let c := convert (.flt f) (.int sg v) rm rnd x
      let lo : Int := if sg then -(2 ^ (v - 1) : Nat) else 0
      let hi : Int := if sg then (2 ^ (v - 1) : Nat) - 1 else (2 ^ v : Nat) - 1
      (∀ q m, decodeF f x = .nan q m → c = (0, 1)) ∧
      (∀ q, decodeF f x = .inf q → c = (ofSigned v (if q then lo else hi), 1)) ∧
      ∀ q m e, decodeF f x = .fin q m e →
        let r := roundAt rm rnd q m 1 e 0
        let i : Int := if q then -(r.1 : Int) else r.1
        c = if i < lo then (ofSigned v lo, 1) else if hi < i then (ofSigned v hi, 1) else (ofSigned v i, if r.2 then 16 else 0)) ∧
   (∀ (g : Fmt) (sg : Bool) (v : Nat) (rm : Rm) (rnd x : Nat),
      convert (.int sg v) (.flt g) rm rnd x = roundDy g rm rnd false (if sg then toSigned v x else x) 0) ∧
   ∀ (sg th : Bool) (v w : Nat) (rm : Rm) (rnd x : Nat),
      let lo : Int := if th then -(2 ^ (w - 1) : Nat) else 0
      let hi : Int := if th then (2 ^ (w - 1) : Nat) - 1 else (2 ^ w : Nat) - 1
      let i : Int := if sg then toSigned v x else x
      convert (.int sg v) (.int th w) rm rnd x =
        if i < lo then (ofSigned w lo, 32) else if hi < i then (ofSigned w hi, 32) else (ofSigned w i, 0)) ∧
  (let f32 := CTy.flt fmtF32
   let bf16 := CTy.flt fmtBf16
   let f16 := CTy.flt fmtF16
   let e4m3 := CTy.flt fmtE4m3
   let e5m2 := CTy.flt fmtE5m2
   let i := CTy.int true
   let n := CTy.int false
   let narrow := [(f32, bf16), (f32, f16), (f32, e4m3), (f32, e5m2), (bf16, e4m3), (bf16, e5m2), (f16, e4m3), (f16, e5m2),
     (i 16, i 8), (i 32, i 16), (i 64, i 32), (n 16, n 8), (n 32, n 16), (n 64, n 32), (i 16, n 8), (i 32, n 16)]
   (List.range 16).map narrowPair = narrow ∧
   (List.range 16).map widenPair = (narrow.take 14).map (fun p => (p.2, p.1)) ++ [(i 16, f32), (i 8, f16)] ∧
   (List.range 28).map cvtPair = narrow ++ [(f32, i 32), (f32, n 32), (i 32, f32), (n 32, f32), (bf16, f16), (f16, bf16), (bf16, i 16),
     (f16, i 16), (i 16, bf16), (i 16, f16), (e4m3, e5m2), (e5m2, e4m3)]) ∧
  ∀ (s : State) (d a b : BitVec 4) (p : BitVec 5) (r : Rm) (f : BitVec 6) (q : BitVec 2) (n : BitVec 4),
    let rm := match r with
      | .mode => s.fpMode
      | m => m
    (let c := cvtPair f.toNat
     let w := c.1.width
     ∃ u, exec (.vcvt d a b p r f) s = .next u ∧ LanesPosted s u d (s.rp p) w 4 false fun i =>
       convert c.1 c.2 rm (srWord w (s.rv b) i) (laneN w (s.rv a) i)) ∧
    (let c := narrowPair n.toNat
     let w := c.1.width
     let v := c.2.width
     let E := 2048 / w
     let y := fun i => convert c.1 c.2 rm (srWord w (s.rv b) i) (laneN w (s.rv a) i)
     (q.toNat + 1) * E * v ≤ 2048 → ∃ x m : VReg,
       exec (.vnarrow d a b p r q n) s =
         .next (s.posted ((4, .vec (s.vix d) x m) :: flagResult 4 (laneFlags w (s.rp p) y))) ∧
       (Eff.vec (s.vix d) x m).leavesLanes (s.vix d) v fun j old =>
         if q.toNat * E ≤ j ∧ j < (q.toNat + 1) * E ∧ active w (s.rp p) (j - q.toNat * E) then
           (y (j - q.toNat * E)).1 % 2 ^ v
         else old) ∧
    let c := widenPair n.toNat
    let v := c.2.width
    ∃ u, exec (.vwiden d a p q n) s = .next u ∧ LanesPosted s u d (s.rp p) v 4 false fun i =>
      convert c.1 c.2 .rne 0 (laneN c.1.width (s.rv a) (q.toNat * (2048 / v) + i))

/-! ### Control (R110 to R137) -/

/-- R111 to R113 with R73 and R110: outside a consist a branch, a jump and a call give the bundle its target; a conditional
branch that is not taken does nothing, so control passes to PC + 32. `call` posts s23 := PC + 32 at 1 cy. R114 and R115:
`jr` and `ret` pass control to s[sa] when it lies in the global space and is 32-byte aligned; any other value raises the
address-fault trap. `jr` posts its link, and pops loops only without one. R43 and R116: in a consist the lead logs its outcome; a
member whose control-flow outcome differs from its lead's raises the consist-divergence trap; the lead, and a member whose outcome
agrees, do what each of these instructions does outside a consist, with the count of outcomes advanced. -/
def Obligations.ControlTransfers : Prop :=
  ∀ (s : State) (o : BitVec 26) (n : BitVec 18) (d a : BitVec 5) (c : BCc) (p : Bool),
    let pc := s.iss.pc
    let A := s.rs a
    let near : Word := pc + BitVec.ofInt 64 (n.toInt * 32)
    let far : Word := pc + BitVec.ofInt 64 (o.toInt * 32)
    let ok := A.toNat / 2 ^ 56 = 0 ∧ A.toNat % 32 = 0
    (c, p) ∈ [(BCc.eq, decide (A = 0)), (.ne, decide (A ≠ 0)), (.lt, decide (A.toInt < 0)), (.ge, decide (0 ≤ A.toInt)),
      (.le, decide (A.toInt ≤ 0)), (.gt, decide (0 < A.toInt))] →
    let moves := fun (u : State) =>
      [(Instr.br o, (1 : Word), u.transfer far true),
       (.jmp o, 1, u.transfer (pc.extractLsb' 31 33 ++ o ++ 0#5 : BitVec 64) true),
       (.call o, 1, (u.posted [(1, .sreg 23 (pc + 32))]).transfer far false),
       (.bcc a c n, if p then 1 else 0, if p then u.transfer near true else u),
       (.jr d a, A, if ok then (u.posted (regResult d 1 (pc + 32))).transfer A (decide (d = 0)) else u.raise (u.issTrap 0x03 A)),
       (.ret a, A, if ok then u.transfer A false else u.raise (u.issTrap 0x03 A))]
    (s.cur.cons = none → ∀ m ∈ moves s, exec m.1 s = .next m.2.2) ∧
    ∀ (i : Nat) (x : Consist), s.cur.cons = some i → s.consists.find? (·.id = i) = some x →
      (∀ (out : Word), s.cur.cpos = 0 ∨ x.log[s.cur.cfCount]? = some out → ∀ m ∈ moves (s.logged i out), m.2.1 = out →
        exec m.1 s = .next m.2.2) ∧
      ∀ w, s.cur.cpos ≠ 0 → x.log[s.cur.cfCount]? = some w → ∀ m ∈ moves s, m.2.1 ≠ w → exec m.1 s = .next (s.raise (s.issTrap 0x09))

/-- R120, with R110 and R121: as control passes from a bundle without a transfer, nothing but the pc and the loop state that
the bundle itself gave changes unless the bundle ends the innermost loop's body; there a REMAINING above 1 is counted down,
control goes to START, and each register that the entry's steps name gets the sum of them 1 cy later, as issued after the
bundle; otherwise the entry is popped, no step is applied, and the rule applies to the new innermost entry. With a transfer
that pops, exactly the innermost entries are dropped whose body holds the bundle and not the target. -/
def Obligations.LoopBackRule : Prop :=
  ∀ s : State,
    let v := match s.iss.loops with
      | none => s.cur.vis
      | some l => { s.cur.vis with loops := l.1, steps := l.2 }
    let pc := s.iss.pc
    (s.iss.xfer = none →
      (((v.loops = [] ∨ ∃ e r, v.loops = e :: r ∧ e.fin ≠ pc) →
        s.passControl = s.modCur fun c => { c with pc := pc + 32, vis := v }) ∧
      ∀ e r, v.loops = e :: r → e.fin = pc →
        (1 < e.remaining.toNat →
          ∃ ws : List (BitVec 5 × Word), s.passControl =
            (s.posted (ws.map fun w => (1, .sreg w.1 w.2))).modCur (fun c => { c with
              pc := e.start, vis := { v with loops := { e with remaining := e.remaining - 1 } :: r } }) ∧
            (ws.map (·.1)).Nodup ∧ (∀ q : BitVec 5, q ∈ ws.map (·.1) ↔ q ≠ 0 ∧ q ∈ e.steps.map (·.1)) ∧
            ∀ w ∈ ws, w.2 = v.s w.1 + ((e.steps.filter (·.1 = w.1)).map (·.2)).sum) ∧
        (e.remaining.toNat ≤ 1 → s.passControl =
          { ({ s with iss := { s.iss with loops := some (r, v.steps) } } : State).passControl with iss := s.iss }))) ∧
    ∀ x : Xfer, s.iss.xfer = some x → ∃ ls : List LoopEntry, ls <:+ v.loops ∧
      s.passControl = s.modCur (fun c => { c with pc := x.target, vis := { v with loops := ls } }) ∧
      (x.pops = false → ls = v.loops) ∧
      (x.pops = true → ∃ out, v.loops = out ++ ls ∧ (∀ e ∈ out, e.holds pc = true ∧ e.holds x.target = false) ∧
        ∀ e, ls.head? = some e → ¬(e.holds pc = true ∧ e.holds x.target = false))

/-- R118 and R119: `lstep` appends a step, the fifth raising the loop-stack trap; `loop` with count 0 skips its body, with
another count pushes an entry that takes the pending steps, and raises the loop-stack trap on a full stack and on a body
that ends after the enclosing body. The loop state goes with the bundle. R43 and R116: in a consist the count of `loop` is its
control-flow outcome: the lead logs it, a member with another count raises the consist-divergence trap, and the lead and a member
that agrees do the same. R123, R126 and R38: `yield` resets the watchdog
count and marks the bundle for the core's choice; `trap` raises the program trap with its code and s[sa]. R32, R33 and R44:
`cnext` delivers the next owned card's index and eight words once it is prefetched, and removes it from those kept; a card
kept with a fault raises that fault, one not yet prefetched blocks the bundle; past the last card it gives -1, and in a
consist where another member still has one, -2 and zeros. -/
def Obligations.LoopYieldTrapAndCardInstructions : Prop :=
  (∀ (s : State) (a b d : BitVec 5) (l : Bool) (o : BitVec 18),
     let v := s.cur.vis
     let pc := s.iss.pc
     let fin : Word := pc + BitVec.ofNat 64 (32 * o.toNat)
     let beyond := ∃ e r, v.loops = e :: r ∧ e.start.toNat ≤ pc.toNat ∧ pc.toNat ≤ e.fin.toNat ∧ e.fin.toNat < fin.toNat
     let loops := fun (u : State) (out : Res) =>
       (beyond → out = .next (u.raise (u.issTrap 0x0B))) ∧
       (¬beyond → s.rs a = 0 →
         out = .next { u with iss := { u.iss with loops := some (v.loops, []), xfer := some ⟨fin + 32, false⟩ } }) ∧
       (¬beyond → s.rs a ≠ 0 → 4 ≤ v.loops.length → out = .next (u.raise (u.issTrap 0x0B))) ∧
       (¬beyond → s.rs a ≠ 0 → v.loops.length < 4 →
         out = .next { u with iss := { u.iss with loops := some (⟨pc + 32, fin, s.rs a, v.steps⟩ :: v.loops, []) } })
     (v.steps.length < 4 → exec (.lstep d b l) s =
       .next { s with iss := { s.iss with loops := some (v.loops, v.steps ++ [(d, s.opB b l)]) } }) ∧
     (4 ≤ v.steps.length → exec (.lstep d b l) s = .next (s.raise (s.issTrap 0x0B))) ∧
     (s.cur.cons = none → loops s (exec (.loop a o) s)) ∧
     ∀ (i : Nat) (x : Consist), s.cur.cons = some i → s.consists.find? (·.id = i) = some x →
       (s.cur.cpos = 0 ∨ x.log[s.cur.cfCount]? = some (s.rs a) → loops (s.logged i (s.rs a)) (exec (.loop a o) s)) ∧
       ∀ w, s.cur.cpos ≠ 0 → x.log[s.cur.cfCount]? = some w → s.rs a ≠ w → exec (.loop a o) s = .next (s.raise (s.issTrap 0x09))) ∧
  (∀ (s : State) (c a : BitVec 5),
     exec .yield s = .next { (s.modCur fun c => { c with wdog := 0 }) with iss := { s.iss with yields := true } } ∧
     exec (.trap c a) s = .next (s.raise
       { kind := 0x0A, pc := s.iss.pc, arg := s.rs a, code := c.setWidth 8, slot := BitVec.ofNat 8 s.iss.slot })) ∧
  (∀ (s : State) (d : BitVec 5),
     let c := s.cur
     let n := c.vis.taken
     let deal := fun (i : Word) (ws : List Word) =>
       s.posted (regResult d 1 i ++ (List.range 8).map fun w => (1, .sreg (BitVec.ofNat 5 (24 + w)) (ws.getD w 0)))
     (n < c.owned →
       (∀ card, c.cards.find? (·.pos = n) = some card →
         (card.bad = none → exec (.cnext d) s =
           .next ((deal (BitVec.ofNat 64 card.gidx) card.words).modCur fun x => { x with
             vis := { c.vis with taken := n + 1 }, cards := c.cards.filter (·.pos ≠ n) })) ∧
         ∀ t, card.bad = some t → exec (.cnext d) s =
           .next (s.raise { t with pc := s.iss.pc, slot := BitVec.ofNat 8 s.iss.slot })) ∧
       (c.cards.find? (·.pos = n) = none → exec (.cnext d) s = .next (s.blocked .cardWait [n] [] [] []))) ∧
     (c.owned ≤ n →
       ((∃ p ∈ s.peers s.iss.ctx, n < (s.ctx p).owned) → exec (.cnext d) s =
         .next ((deal (-2) []).modVis fun v => { v with taken := n + 1 })) ∧
       ((∀ p ∈ s.peers s.iss.ctx, (s.ctx p).owned ≤ n) → exec (.cnext d) s = .next (s.posted (regResult d 1 (-1))))))

/-- R128 with R131 to R136, and R27: `csrr` posts the register as it stands at issue, ID.SELF by its fields. R129 with R131
to R136: `csrw` posts the previous value for s[sd] and its own write, both at 1 cy; the write changes the named register's
fields and nothing else, a rounding mode above 4 becomes 0, and a read-only register keeps its value. Two points are the
model's choice: a number that no rule describes, whose word R130 makes an illegal encoding and which so reaches no slot, would
post 0 (log 48); and the previous value is the one that stands at issue (log 41). -/
def Obligations.StatusRegisters : Prop :=
  (∀ (s : State) (d : BitVec 5),
     let v := s.cur.vis
     let c := s.iss.ctx
     (∀ (n : BitVec 16) (x : Word),
       (n, x) ∈ [(0x000, v.fpFlags.setWidth 64), (0x001, v.fpMode.setWidth 64), (0x002, v.cntMal.setWidth 64),
         (0x003, v.cntSat.setWidth 64), (0x004, v.batch.setWidth 64),
         (0x005, BitVec.ofNat 64 (v.loops.length + 8 * v.steps.length)), (0x007, v.cntBank), (0x008, v.cntGrp),
         (0x011, s.idLnch c), (0x012, s.idCards c)] →
       exec (.csrr d n) s = .next (s.posted (regResult d 1 x))) ∧
     (s.detOf c = true → exec (.csrr d 0x006) s = .next (s.posted (regResult d 1 0))) ∧
     (∀ t0, s.detOf c = false → s.cur.startCycle = some t0 →
       exec (.csrr d 0x006) s = .next (s.posted (regResult d 1 (BitVec.ofNat 64 (s.now - t0))))) ∧
     (c < 8192 → s.cur.l < 16 → s.cur.g < 384 → s.luvex.pos < 4096 →
       ∃ x : Word, exec (.csrr d 0x010) s = .next (s.posted (regResult d 1 x)) ∧
         fld x 0 2 = c % 4 ∧ fld x 2 2 = c / 4 % 4 ∧ fld x 4 4 = s.cur.l ∧ fld x 8 3 = c / 16 % 8 ∧ fld x 11 6 = c / 128 ∧
         fld x 17 9 = s.cur.g ∧ fld x 26 12 = s.luvex.pos ∧ fld x 38 26 = 0) ∧
     ∀ n : BitVec 16, (8 < n.toNat ∧ n.toNat < 16) ∨ 18 < n.toNat → exec (.csrr d n) s = .next (s.posted (regResult d 1 0))) ∧
  ((∀ (s : State) (d a : BitVec 5) (n : BitVec 16),
     exec (.csrw d a n) s = .next (s.posted (regResult d 1 (s.readCsr n.toNat) ++ [(1, .csr n (s.rs a))]))) ∧
   ∀ (v : Vis) (x : Word),
     v.apply (.csr 0x000 x) = { v with fpFlags := x.extractLsb' 0 6 } ∧
     (x.toNat % 8 ≤ 4 → v.apply (.csr 0x001 x) = { v with fpMode := x.extractLsb' 0 3 }) ∧
     (4 < x.toNat % 8 → v.apply (.csr 0x001 x) = { v with fpMode := 0 }) ∧
     v.apply (.csr 0x002 x) = { v with cntMal := x.extractLsb' 0 32 } ∧
     v.apply (.csr 0x003 x) = { v with cntSat := x.extractLsb' 0 32 } ∧
     v.apply (.csr 0x004 x) = { v with batch := x.extractLsb' 0 2 } ∧
     v.apply (.csr 0x007 x) = { v with cntBank := x } ∧
     v.apply (.csr 0x008 x) = { v with cntGrp := x } ∧
     ∀ n : BitVec 16, n ∉ [0x000, 0x001, 0x002, 0x003, 0x004, 0x007, 0x008] → v.apply (.csr n x) = v)

/-- R125 and R359: a checkpoint bundle that withholds nothing only takes the checkpoint: the visible state, the pc, and
every result in flight as belonging to it; the records that the bundles since the last one took are then beyond recall. `safe` marks its
bundle as a safe point besides. R124: `halt` that withholds
nothing leaves the context halting, its end due in the next cycle, and its bundle marked. R357 and R358 with R124, R125 and R366: each
of the three performs its bundle's withheld entries in program order, those to global memory at their L2 homes later in the cycle
(R316), once every translation they need is held and none is rejected, and then does the same; an outstanding translation makes it
wait, a rejected one raises the first entry's trap. -/
def Obligations.CheckpointsReleasesAndHalt : Prop :=
  let takes := fun (s : State) => s.modCur fun c => { c with
    chk := c.vis, chkPc := c.pc, chkCf := c.cfCount, pend := c.pend.map fun p => { p with inChk := true }
    popped := if c.cons.isSome then c.popped else [] }
  let safely := fun (s : State) => let t := takes s; { t with iss := { t.iss with safe := true } }
  let ends := fun (s : State) =>
    let t := s.modCur fun c => { c with status := .halting }
    { t with iss := { t.iss with halts := true }
             agenda := t.agenda ++ [{ at_ := t.now + 1, ev := .contextDone, due := { ctx := s.iss.ctx } }] }
  (∀ s : State, s.cur.wb = [] → ∀ (i : Instr) (does : State → State),
     (i, does) ∈ [(Instr.ckpt, takes), (.safe, safely), (.halt, ends)] → exec i s = .next (does s)) ∧
  ∀ (s : State) (i : Instr) (does : State → State), (i, does) ∈ [(Instr.ckpt, takes), (.safe, safely), (.halt, ends)] →
    let es := s.cur.wb
    let gone := ((s.learnAll es).modCur fun c => { c with wb := [] }).perform s.iss.ctx s.iss.cyc (es.map s.mapped)
    (s.iss.held = false → s.walksNeeded es ≠ [] → exec i s = .next (s.blocked .loadBlock [] [] [] (s.walksNeeded es))) ∧
    (∀ t, s.iss.held = false → s.walksNeeded es = [] → s.releaseFault es = some t → exec i s = .next (s.raise t)) ∧
    (s.iss.held = true ∨ (s.walksNeeded es = [] ∧ s.releaseFault es = none) → exec i s = .next (does gone))

/-! ### The X slot (R165 to R184) -/

/-- R167 and R171: each function of the X slot acts on the active lanes at 8 cy, `fsqrt` and `fdiv` in FP.MODE. A finite
nonzero quotient, and the reciprocal of a finite nonzero operand, are the exact rational rounded by the model's `roundQ`.
R170: the table of special operands, for the three formats, with the flags it gives: NV is 1 and DZ is 2. R169: in f32 the
exponential to base 2 of an integer from -149 to 127 is its exact power with no flag; the tangent of an operand with its
sign bit inverted is the result with its sign bit inverted, in each format, for every operand but a NaN. -/
def Obligations.SpecialFunctionResults : Prop :=
  (∀ (s : State) (d a b : BitVec 4) (p : BitVec 5) (t : Ty),
     let w := t.width
     let g := fmtOf t
     let x := laneN w (s.rv a)
     let y := laneN w (s.rv b)
     (∀ (i : Instr) (f : Nat → Nat × Nat),
       (i, f) ∈ [(Instr.fexp2 d a p t, fun k => tEval g .exp2 (x k)), (.flog2 d a p t, fun k => tEval g .log2 (x k)),
         (.fexp d a p t, fun k => tEval g .exp (x k)), (.flog d a p t, fun k => tEval g .log (x k)),
         (.frcp d a p t, fun k => rcpEval g (x k)), (.frsqrt d a p t, fun k => rsqrtEval g (x k)),
         (.fsqrt d a p t, fun k => sqrtF g s.fpMode (decodeF g (x k))), (.ftanh d a p t, fun k => tEval g .tanh (x k)),
         (.fsig d a p t, fun k => tEval g .sig (x k)),
         (.fdiv d a b p t, fun k => divF g s.fpMode (decodeF g (x k)) (decodeF g (y k)))] →
       ∃ u, exec i s = .next u ∧ LanesPosted s u d (s.rp p) w 8 false f) ∧
     (∀ k sx mx ex, decodeF g (x k) = .fin sx mx ex → mx ≠ 0 →
       rcpEval g (x k) = xFlags g (roundQ g .rne 0 sx 1 mx (-ex)) ∧
       ∀ sy my ey, decodeF g (y k) = .fin sy my ey → my ≠ 0 →
         divF g s.fpMode (decodeF g (x k)) (decodeF g (y k)) = roundQ g s.fpMode 0 (sx ^^ sy) mx my (ex - ey))) ∧
  (∀ (g : Fmt), g ∈ [fmtF32, fmtBf16, fmtF16] → ∀ x : Nat,
     let inf := fun s => g.signed s g.infMag
     let zero := fun s => g.signed s 0
     (∀ s e, decodeF g x = .fin s 0 e →
       tEval g .exp2 x = (g.one, 0) ∧ tEval g .exp x = (g.one, 0) ∧ tEval g .log2 x = (inf true, 2) ∧
       tEval g .log x = (inf true, 2) ∧ rcpEval g x = (inf s, 2) ∧ rsqrtEval g x = (inf s, 2) ∧
       (∀ rm, sqrtF g rm (decodeF g x) = (zero s, 0)) ∧ tEval g .tanh x = (zero s, 0) ∧ tEval g .sig x = (g.half, 0)) ∧
     (∀ s, decodeF g x = .inf s →
       tEval g .exp2 x = (if s then zero false else inf false, 0) ∧ tEval g .exp x = (if s then zero false else inf false, 0) ∧
       tEval g .log2 x = (if s then (g.cnan, 1) else (inf false, 0)) ∧
       tEval g .log x = (if s then (g.cnan, 1) else (inf false, 0)) ∧ rcpEval g x = (zero s, 0) ∧
       rsqrtEval g x = (if s then (g.cnan, 1) else (zero false, 0)) ∧
       (∀ rm, sqrtF g rm (decodeF g x) = if s then (g.cnan, 1) else (inf false, 0)) ∧
       tEval g .tanh x = (g.signed s g.one, 0) ∧ tEval g .sig x = (if s then zero false else g.one, 0)) ∧
     ∀ m e, decodeF g x = .fin true m e → m ≠ 0 →
       tEval g .log2 x = (g.cnan, 1) ∧ tEval g .log x = (g.cnan, 1) ∧ rsqrtEval g x = (g.cnan, 1) ∧
       ∀ rm, sqrtF g rm (decodeF g x) = (g.cnan, 1)) ∧
  ((∀ (x m : Nat) (s : Bool) (e n : Int), decodeF fmtF32 x = .fin s m e → m ≠ 0 → -149 ≤ n → n ≤ 127 →
     (0 ≤ e → (if s then -(m : Int) else m) * 2 ^ e.toNat = n) → (e < 0 → (if s then -(m : Int) else m) = n * 2 ^ (-e).toNat) →
     tEval fmtF32 .exp2 x = (if -126 ≤ n then (n + 127).toNat * 2 ^ 23 else 2 ^ (n + 149).toNat, 0)) ∧
   ∀ g ∈ [fmtF32, fmtBf16, fmtF16], ∀ x : Nat, x < 2 ^ (g.eb + g.mb) → (decodeF g x).isNan = false →
     let r := tEval g .tanh x
     tEval g .tanh (x + 2 ^ (g.eb + g.mb)) = (r.1 + 2 ^ (g.eb + g.mb), r.2))

/-- R174, R175 and R177: a Skink point's bit k is the parity of matrix row k and the direction numbers that the index bits
select, changed by the shift's bit k; `qrgen` gives lane j its dimension and index in the two modes; `qrscr` leaves a lower
triangular matrix with unit diagonal from the seed's words, `qrscr.id` the identity and shift 0. R176: `qrload` takes the 65
words of each dimension from scratchpad memory, and the tables change at 130 cy; the matrix rows are put in canonical form. In a
bundle that stalls, or behind an acquiring atomic of its bundle, it is withheld like every load. -/
def Obligations.SkinkPointsScramblesAndTables : Prop :=
  ((∀ (dm : SkinkDim) (i : BitVec 32) (k : Nat) (h : k < 32),
     let y := (List.range 32).foldl (fun y b => if i.getLsbD b then y ^^^ dm.v.getD b 0 else y) (0 : BitVec 32)
     (dm.point i).getLsbD k =
       (decide (((List.range 32).countP fun b => ((dm.l[k]'h) &&& y).getLsbD b) % 2 = 1) ^^ dm.h.getLsbD k)) ∧
   (∀ (s : State) (d : BitVec 4) (b p : BitVec 5) (t : Ty) (m : Bool) (o : QOut),
     let A := (s.rs b).toNat
     let d0 := A / 2 ^ 32 % 32
     let pt := fun (dim i : Nat) => (s.cur.vis.skink.getD dim SkinkDim.reset).point (BitVec.ofNat 32 i)
     ∃ u, exec (.qrgen d b p t m o) s = .next u ∧ LanesPosted s u d (s.rp p) 32 6 false fun j =>
       (qrLane o (if m then pt ((d0 + j) % 32) (A + (d0 + j) / 32) else pt d0 (A + j)), 0)) ∧
   ∀ (s : State) (a n d : BitVec 5),
     (∃ L : Nat → Vector (BitVec 32) 32, exec (.qrscr a n d) s = .next (s.posted
         ((List.range (n.toNat + 1)).map fun i => (36, .skinkScr (d.toNat + i) (L i) (scrambleWord (s.rs a) (d.toNat + i) 32)))) ∧
       ∀ i k, (h : k < 32) → ∀ j, j < 32 → ((L i)[k]'h).getLsbD j =
         if j < k then false else if j = k then true else (scrambleWord (s.rs a) (d.toNat + i) k).getLsbD j) ∧
     ∃ L : Vector (BitVec 32) 32, exec (.qrscrId n d) s = .next (s.posted
         ((List.range (n.toNat + 1)).map fun i => (36, .skinkScr (d.toNat + i) L 0))) ∧
       ∀ k, (h : k < 32) → ∀ j, j < 32 → (L[k]'h).getLsbD j = decide (j = k)) ∧
  (∀ (s : State) (a n d : BitVec 5),
     let word := fun (i : Nat) => s.rs a + BitVec.ofNat 64 (4 * i)
     let u := s.readAll ((List.range (65 * (n.toNat + 1))).map word)
     (∀ i, i < 65 * (n.toNat + 1) → ∃ x, s.loadsLocal 4 (word i) x) →
     ∃ v, exec (.qrload a n d) s = .next v ∧ LoadDone s u v (.qrload a n d) 6 fun v =>
       ∃ W : Nat → BitVec 32, (∀ i, i < 65 * (n.toNat + 1) → s.readsAt (word i) 4 (W i).toNat) ∧
         v = u.posted ((List.range (n.toNat + 1)).map fun m => (130, .skinkDim (d.toNat + m)
           { v := Vector.ofFn fun b => W (65 * m + b.val)
             l := Vector.ofFn fun r => canonRow r.val (W (65 * m + 32 + r.val))
             h := W (65 * m + 64) })))

/-- R180 to R182: `hist` counts each active element in the counter that its exponent and the base name, NaNs in none; the
base is the one that stands when the counts arrive, that of the newest `hclr` in flight when there is one; a counter
saturates at 2^32 - 1; the reads give the bins, and under, over, base and the saturating sum; `hclr` empties the histogram
and sets its base from bits 8:0. -/
def Obligations.HistogramResults : Prop :=
  ∀ (s : State) (a d : BitVec 4) (b p : BitVec 5) (t : Ty),
    let h := s.cur.vis.hist
    let sum := h.under.toNat + h.above.toNat + (h.bins.toList.map (·.toNat)).sum
    let slot := fun (base : BitVec 9) (x : FVal) => match x with
      | .nan _ _ => none
      | .inf _ => some 65
      | .fin _ m e =>
        if m = 0 ∨ (m.log2 : Int) + e < base.toInt then some 64
        else if base.toInt + 63 < (m.log2 : Int) + e then some 65
        else some (((m.log2 : Int) + e) - base.toInt).toNat
    let counts := fun (base : BitVec 9) => exec (.hist a p t) s = .next (s.posted [(2, .histAdd
      ((activeLanes t.width (s.rp p)).filterMap fun k => slot base (decodeF (fmtOf t) (laneN t.width (s.rv a) k))))])
    let clears := fun (q : Pending) => ∃ b', q.eff = .histClear b'
    ((∀ q ∈ s.cur.pend, ¬clears q) → counts h.base) ∧
    (∀ pre q post b', s.cur.pend = pre ++ q :: post → q.eff = .histClear b' → (∀ q' ∈ post, ¬clears q') → counts b') ∧
    (∃ u, exec (.histRd d) s = .next u ∧ AllLanesPosted s u (s.vix d) 32 2 0 fun k => (h.bins.getD k 0).toNat) ∧
    (∃ u, exec (.histRdx d) s = .next u ∧ AllLanesPosted s u (s.vix d) 32 2 0 fun k =>
      [h.under.toNat, h.above.toNat, ofSigned 32 h.base.toInt, min sum (2 ^ 32 - 1)].getD k 0) ∧
    exec (.hclr b) s = .next (s.posted [(2, .histClear ((s.rs b).extractLsb' 0 9))]) ∧
    ∀ (v : Vis) (ks : List Nat) (b' : BitVec 9),
      (∀ k, (hk : k < 64) → ((v.apply (.histAdd ks)).hist.bins[k]'hk).toNat = min ((v.hist.bins[k]'hk).toNat + ks.count k) (2 ^ 32 - 1)) ∧
      (v.apply (.histAdd ks)).hist.under.toNat = min (v.hist.under.toNat + ks.count 64) (2 ^ 32 - 1) ∧
      v.apply (.histClear b') = { v with hist := { base := b', bins := Vector.replicate 64 0, under := 0, above := 0 } }

/-- R183: `qscale` writes one SCALE into every active lane at 4 cy: e is the exponent below the base when under alone holds
the need, else the first bin's at which the running count reaches it, else one beyond the last bin; SCALE is e - 2 + 127
kept to 0 to 254. R184: `qpack` writes the 64 bytes of its part and no other byte: the Q4O block that the model's
`encodeBlock` makes of the active elements, row by row, in the layout of lane 0 of vb, or as one row of 124 where that
layout does not fit. -/
def Obligations.ScaleChoiceAndPackedBlock : Prop :=
  (∀ (s : State) (d : BitVec 4) (b p : BitVec 5),
     let h := s.cur.vis.hist
     let base := h.base.toInt
     let bins := h.bins.toList.map (·.toNat)
     let total := h.under.toNat + h.above.toNat + bins.sum
     let upTo := fun k => h.under.toNat + (bins.take (k + 1)).sum
     let enough := fun n => min (s.rs b).toNat 256 * total ≤ 256 * n
     ∃ e : Int, (∃ u, exec (.qscale d b p) s = .next u ∧
         LanesPosted s u d (s.rp p) 32 4 false fun _ => ((min (max (e - 2 + 127) 0) 254).toNat, 0)) ∧
       (enough h.under.toNat → e = base - 1) ∧
       (¬enough h.under.toNat → (∀ k, k < 64 → enough (upTo k) → (∀ j, j < k → ¬enough (upTo j)) → e = base + k) ∧
         ((∀ k, k < 64 → ¬enough (upTo k)) → e = base + 64))) ∧
  (∀ (s : State) (d a b : BitVec 4) (p : BitVec 5) (t : Ty) (q : BitVec 2),
     let w := t.width
     let lay := laneN 32 (s.rv b) 0
     let rw0 := if lay / 2 ^ 8 % 128 = 0 then 124 else lay / 2 ^ 8 % 128
     let n0 := lay / 2 ^ 15 % 128
     let fits := 0 < n0 ∧ rw0 ≤ 124 ∧ n0 * ((rw0 + 1) / 2) ≤ 62
     let rw := if fits then rw0 else 124
     let n := if fits then n0 else 1
     let elem := fun m => if m < 2048 / w ∧ active w (s.rp p) m then decodeF (fmtOf t) (laneN w (s.rv a) m) else .fin false 0 0
     let e := encodeBlock 1 (lay % 256) rw ((List.range n).map fun r => fun k => elem (r * rw + k))
     ∃ x m : VReg, exec (.qpack d a b p t q) s = .next (s.posted
         ((4, .vec (s.vix d) x m) :: flagResult 4 e.flags ++ if e.sats = 0 then [] else [(4, .sat e.sats)])) ∧
       (e.blk < 2 ^ 512 → (Eff.vec (s.vix d) x m).leavesLanes (s.vix d) 512 fun i old => if i = q.toNat then e.blk else old))

/-! ### Memory access (R185 to R219) -/

/-- R197 with R15, R87 and R194: a scalar load of a scratchpad address that the context may load, plain, SYNC or in a platform's
published front (R222, R315, R333), posts the n bytes read there, sign-extended or not, at 6 cy, and registers the read of a plain
granule; it changes nothing else. Of an address that is not aligned it raises
the address-fault trap. R197 with R87 and R190: a scalar load of a global address whose line is there posts the n bytes at
10 cy, at 14 with fused L1; the translation is held from then on and the line becomes the most recently used. R196: a scalar
load through a window whose granule is not in the remote buffer makes its bundle wait for that granule, and posts its bytes at 10 cy
once it is there. R89 and R212: in a bundle that stalls, or behind an acquiring atomic of its bundle, the load is withheld with the
registers that it reads, and its value is taken later. R86, R188,
R195 and R324: a byte that a context loads is the last it has itself written there and that is not performed, or that a fence of its
bundle has made visible; otherwise a
scratchpad byte is read as the cycle's bundles find it, one behind a window as it stands in the remote buffer, in a bundle with
acquire ordering before it as the peer's bank holds it, a global byte as
memory holds it where no home has read its line for the load, and otherwise as the home read it (R319). The form in which such a load
is withheld is the model's (log 74). -/
def Obligations.ScalarLoads : Prop :=
  (∀ (s : State) (t b : BitVec 5) (o : BitVec 16) (i : Instr) (n : Nat) (sg : Bool),
     (i, n, sg) ∈ [(Instr.ldI64 t b o, 8, false), (.ldI32 t b o, 4, true), (.ldN32 t b o, 4, false), (.ldI16 t b o, 2, true),
       (.ldN16 t b o, 2, false), (.ldI8 t b o, 1, true), (.ldN8 t b o, 1, false)] →
     let c := s.iss.ctx
     let ea : Word := s.rs b + BitVec.ofInt 64 (o.toInt * n)
     let done := fun (u : State) (lat : Nat) => ∃ v, exec i s = .next v ∧ LoadDone s u v i lat fun v =>
       ∃ x, s.readsAt ea n x ∧
         v = u.posted (regResult t lat (if sg then (BitVec.ofNat (8 * n) x).signExtend 64 else BitVec.ofNat 64 x))
     (∀ a, s.loadsLocal n ea a → done (s.readAll [ea]) 6) ∧
     (ea.toNat % n ≠ 0 → s.iss.paid = none → exec i s = .next (s.raise (s.issTrap 0x03 ea))) ∧
     (∀ m e, s.loadsGlobal n ea m e →
       done ((s.learn e).touch c (m / 64)) (if (s.cluster (clOf c)).fuse then 14 else 10)) ∧
     ∀ w a,
       let id := w * 2 ^ 23 + a / 64
       let ask := if (s.win c w).mod = s.modNo then id else id + 2 ^ 28 * ((2 ^ n - 1) * 2 ^ (a % 64))
       (spaceOf ea = .window w a → ea.toNat % n = 0 → (s.win c w).valid = true → s.iss.held = false → s.loadFenced c = false →
         s.iss.paid = none → id ∉ s.cur.remote → exec i s = .next (s.blocked .loadBlock [] [ask] [] [])) ∧
       (s.loadsWindow n ea w a → done (s.readAll [ea]) 10)) ∧
  (∀ (s : State) (ov : List (Nat × Byte)) (ea : Word) (k : Nat), s.keyAt s.iss.ctx ea = some k →
     let lastIn := fun (bs : List (Nat × Byte)) (b : Byte) => ∃ pre post, bs = pre ++ (k, b) :: post ∧ ∀ p ∈ post, p.1 ≠ k
     (∀ b, lastIn ov b → s.loadByte ov ea = b) ∧
     ((∀ p ∈ ov, p.1 ≠ k) →
       (∀ b, lastIn s.iss.view b → s.loadByte ov ea = b) ∧
       ((∀ p ∈ s.iss.view, p.1 ≠ k) → s.iss.paid = none →
         (∀ a, spaceOf ea = .localSp a → s.loadByte ov ea = memRead s.memCyc k) ∧
         (∀ w a, spaceOf ea = .window w a → s.iss.acq = false → s.loadByte ov ea = memRead s.mem (bufferKey s.iss.ctx w a)) ∧
         (∀ w a, spaceOf ea = .window w a → s.iss.acq = true → (s.win s.iss.ctx w).mod = s.modNo →
           s.platAt (s.win s.iss.ctx w).peer a = none → s.loadByte ov ea = memRead s.memCyc k) ∧
         ∀ va, spaceOf ea = .global va → (∀ t, targetOf k = some t → t < 26) →
           ((∀ x ∈ s.cur.checked, x.1 = lineOf k → x.2 = []) → s.loadByte ov ea = memRead s.mem k) ∧
           ∀ x, s.cur.checked.find? (fun x => x.1 = lineOf k && decide (x.2 ≠ [])) = some x →
             s.loadByte ov ea = x.2.getD (k % 64) 0)))

/-- R198 to R200: a vector load from scratchpad addresses that the context may load, of its own cluster or behind windows,
writes, at 6 cy, or at 10 cy with one behind a window (R196), each active element with the bytes at its
address, base plus byte, base plus lane times stride, base plus index; it leaves every other byte of the register, registers
the reads of plain granules, and changes nothing else. With no active element it does nothing. R190 with R87: from global addresses whose lines are
there it does so at 10 cy, at 14 with fused L1, holding each page's translation and using each line. R201: a described load from a
scratchpad block, or from a global one whose line is there, decodes its 64 bytes, and writes the active lanes of its half at 6 cy, at 10 or 14 from
global memory, with the flags that the active lanes raise and
the count of malformed codes; a block that no rule decodes leaves the error NaN. R89 and R212: in a bundle that stalls, or behind an
acquiring atomic of its bundle, each is withheld (log 74). -/
def Obligations.VectorAndDescribedLoads : Prop :=
  (∀ (s : State) (t ix : BitVec 4) (b st p : BitVec 5) (o : BitVec 12) (z : Sz) (sg sc : Bool)
     (i : Instr) (w : Nat) (at_ : Nat → Word),
     let a0 : Word := s.rs b + BitVec.ofInt 64 (o.toInt * 256)
     let wz := 8 * Sz.bytes z
     (i, w, at_) ∈ [(Instr.vld t b p o, 8, fun k => a0 + BitVec.ofNat 64 k),
       (.vlds t b st p z, wz, fun k => s.rs b + BitVec.ofNat 64 k * s.rs st),
       (.vgath t b ix p z sg sc, wz, fun k => s.rs b + BitVec.ofInt 64
         ((if sg then laneI wz (s.rv ix) k else (laneN wz (s.rv ix) k : Int)) * (if sc then (Sz.bytes z : Int) else 1)))] →
     let act := activeLanes w (s.rp p)
     let eas := act.map at_
     let lands := fun (u : State) (lat : Nat) => ∃ v, exec i s = .next v ∧ LoadDone s u v i lat fun v =>
       ∃ x m : VReg, v = u.posted [(lat, .vec (s.vix t) x m)] ∧
         ∃ g : Nat → Nat, (∀ k ∈ act, s.readsAt (at_ k) (w / 8) (g k)) ∧
           (Eff.vec (s.vix t) x m).leavesLanes (s.vix t) w fun k old => if active w (s.rp p) k then g k else old
     let far := fun (k : Nat) => ∃ v a, s.loadsWindow (w / 8) (at_ k) v a
     (i = .vld t b p o → s.nameable {} 64 a0 = true) →
     (act = [] → s.iss.paid = none → ∃ v, exec i s = .next v ∧ LoadDone s s v i 0 fun v => v = s) ∧
     (act ≠ [] → (∀ k ∈ act, ∃ a, s.loadsLocal (w / 8) (at_ k) a) → lands (s.readAll eas) 6) ∧
     ((∃ k ∈ act, far k) → (∀ k ∈ act, far k ∨ ∃ a, s.loadsLocal (w / 8) (at_ k) a) → lands (s.readAll eas) 10) ∧
     ∀ (M : Word → Nat) (E : Word → Tlb), act ≠ [] → (∀ k ∈ act, s.loadsGlobal (w / 8) (at_ k) (M (at_ k)) (E (at_ k))) →
       let u := (firstOfGranule eas).foldl (fun u ea => u.learn (E ea)) s
       lands ((firstOfGranule eas).foldl (fun u ea => u.touch s.iss.ctx (M ea / 64)) u)
         (if (s.cluster (clOf s.iss.ctx)).fuse then 14 else 10)) ∧
  (∀ (s : State) (t : BitVec 4) (b p : BitVec 5) (o : BitVec 12) (i : Instr) (hi : Bool) (u : State) (lat : Nat),
     (i, hi) ∈ [(Instr.vlddLo t b p o, false), (.vlddHi t b p o, true)] →
     let ea : Word := s.rs b + BitVec.ofInt 64 (o.toInt * 64)
     let off := if hi then 64 else 0
     ((∃ a, s.loadsLocal 64 ea a ∧ u = s.readAll [ea]) ∧ lat = 6) ∨
       ((∃ m e, s.loadsGlobal 64 ea m e ∧ u = (s.learn e).touch s.iss.ctx (m / 64)) ∧
         lat = if (s.cluster (clOf s.iss.ctx)).fuse then 14 else 10) →
     ∃ v, exec i s = .next v ∧ LoadDone s u v i lat fun v => ∃ blk x m fl mal, s.readsAt ea 64 blk ∧
       v = u.posted ((lat, .vec (s.vix t) x m) :: flagResult lat fl ++ if mal = 0 then [] else [(lat, .mal mal)]) ∧
       (Eff.vec (s.vix t) x m).leavesLanes (s.vix t) 32 (fun k old =>
         if active 32 (s.rp p) k then
           match decodeWhole blk with
           | none => 0x7FC00B01
           | some xs => match xs[off + k]? with
             | none => 0
             | some y => (convF fmtF32 .rne 0 y.1).1 % 2 ^ 32
         else old) ∧
       (fl = orFlags ((activeLanes 32 (s.rp p)).map fun k =>
         match (decodeWhole blk).bind fun xs => xs[off + k]? with
         | none => 0
         | some y => (convF fmtF32 .rne 0 y.1).2)) ∧
       mal = match decodeWhole blk with
         | none => 0
         | some xs => (activeLanes 32 (s.rp p)).countP fun k => ((xs[off + k]?).map (·.2)).getD false)

/-- R197, R198, R200, R176 and R357: a store form whose elements are all accepted appends one entry with its bytes, in lane
order, the batch tag that stands, and for `vscat` the element size as the unit of a posted remote write (R216); memory, registers and every other part of the machine stay as they are until the
release. R202: `vstd` withholds the 64 bytes of the block that the model's `encodeBlock` makes of the active f32 lanes in
the format and scale named, and posts the encoding's flags at 4 cy. -/
def Obligations.StoresAreWithheldUntilRelease : Prop :=
  (∀ (s : State) (t : BitVec 5) (v ix : BitVec 4) (b p n d : BitVec 5) (o16 : BitVec 16) (o12 : BitVec 12) (z : Sz) (sg sc : Bool)
     (i : Instr) (acc : Accepts) (align : Nat) (els : List (Word × List Byte)) (unit : Nat),
     let near := fun (k : Nat) => s.rs b + BitVec.ofInt 64 (o16.toInt * k)
     let a0 : Word := s.rs b + BitVec.ofInt 64 (o12.toInt * 256)
     let wz := 8 * Sz.bytes z
     let tab := (List.range (n.toNat + 1)).flatMap fun m => (s.cur.vis.skink.getD (d.toNat + m) SkinkDim.reset).bytes
     (i, acc, align, els, unit) ∈ [(Instr.st64 t b o16, {}, 8, [(near 8, leBytes 8 (s.rs t).toNat)], 0),
       (.st32 t b o16, {}, 4, [(near 4, leBytes 4 (s.rs t).toNat)], 0),
       (.st16 t b o16, {}, 2, [(near 2, leBytes 2 (s.rs t).toNat)], 0), (.st8 t b o16, {}, 1, [(near 1, leBytes 1 (s.rs t).toNat)], 0),
       (.vst v b p o12, {}, 1,
         (activeLanes 8 (s.rp p)).map fun k => (a0 + BitVec.ofNat 64 k, [BitVec.ofNat 8 (laneN 8 (s.rv v) k)]), 0),
       (.vscat v b ix p z sg sc, {}, Sz.bytes z, (activeLanes wz (s.rp p)).map fun k => (s.rs b + BitVec.ofInt 64
         ((if sg then laneI wz (s.rv ix) k else (laneN wz (s.rv ix) k : Int)) * (if sc then (Sz.bytes z : Int) else 1)),
         leBytes (Sz.bytes z) (laneN wz (s.rv v) k)), Sz.bytes z),
       (.qrsave b n d, { win := false }, 4, (List.range (65 * (n.toNat + 1))).map fun k =>
         (s.rs b + BitVec.ofNat 64 (4 * k), (tab.drop (4 * k)).take 4), 0)] →
     (i = .vst v b p o12 → s.nameable {} 64 a0 = true) →
     (∀ e ∈ els, s.storable acc align e.2.length e.1) →
     exec i s = .next (s.withheld (.store (storedBytes els) s.cur.vis.batch unit))) ∧
  (∀ (s : State) (t : BitVec 4) (b p : BitVec 5) (f : BitVec 3) (sc : BitVec 8),
     let e := encodeBlock f.toNat sc.toNat (blkElems f.toNat) [fun i =>
       if i < 64 ∧ active 32 (s.rp p) i then decodeF fmtF32 (laneN 32 (s.rv t) i) else .fin false 0 0]
     s.storable { win := false } 64 64 (s.rs b) → s.iss.sig = .ok →
     exec (.vstd t b p f sc) s =
       .next ((s.withheld (.store (storedBytes [(s.rs b, leBytes 64 e.blk)]) s.cur.vis.batch 0)).posted (flagResult 4 e.flags)))

/-- R190, R222, R318, R374, R376 and R407: a 64-bit load of a global address that has no valid translation raises 0x05, one
that the access table rejects 0x06, one whose line is absent makes its bundle wait for that line; of a scratchpad byte of a
platform that is not published it raises 0x07 with ACC 3, and of a granule whose tag forbids the load 0x07 with the tag.
R194, R216, R222, R254 and R274: a scalar store at an address that it may not name raises 0x03; one through a window at its
allowance makes its bundle wait; one to a byte in a consumption window, in an array of a command in flight or in a platform
raises 0x07, a platform's with ACC 3. That the trap of a store into a consumption window is raised at its issue, and not only at its
release, is the model's reading (log 68, DEDUCED). -/
def Obligations.AccessesThatTrapOrWait : Prop :=
  (∀ (s : State) (t b : BitVec 5) (o : BitVec 16),
     let c := s.iss.ctx
     let ea : Word := s.rs b + BitVec.ofInt 64 (o.toInt * 8)
     ea.toNat % 8 = 0 → s.accumulates c ea 8 = false → s.iss.paid = none →
     (s.iss.held = false → s.loadFenced c = true → s.nameable {} 8 ea = true →
       ∃ lines, exec (.ldI64 t b o) s = .next (s.blocked .loadBlock lines [] [] [])) ∧
     (s.loadFenced c = false →
     (spaceOf ea = .global ea.toNat →
       (∀ r lv, s.translate (s.who c) ea.toNat .r = .fault r lv →
         exec (.ldI64 t b o) s = .next (s.raise (s.issTrap 0x05 ea (BitVec.ofNat 64 (r + 16 * lv))))) ∧
       (s.translate (s.who c) ea.toNat .r = .denied → exec (.ldI64 t b o) s = .next (s.raise (s.issTrap 0x06 ea))) ∧
       ∀ m e, s.translate (s.who c) ea.toNat .r = .ok m e → s.iss.held = false → s.inL1 c (m / 64) = false →
         ∃ checks, exec (.ldI64 t b o) s = .next (s.blocked .loadBlock [ea.toNat / 64] [] checks [])) ∧
     ∀ a, spaceOf ea = .localSp a → s.poisoned (spKey (clOf c) (a / 64 * 64)) 64 = none →
       (∀ pn, s.platAt (clOf c) a = some pn → (s.platNow (clOf c) pn).published a = false → s.iss.stall = false →
         exec (.ldI64 t b o) s = .next (s.raise (s.issTrap 0x07 ea 0 3))) ∧
       ∀ g tag, s.platAt (clOf c) a = none → s.syncAt (clOf c) a = false →
         s.conflict (s.party c) .load [s.spGran (clOf c) a] = some (g, tag) →
         exec (.ldI64 t b o) s = .next (s.raise (s.raceTrap ea 0 tag)))) ∧
  (∀ (s : State) (t b : BitVec 5) (o : BitVec 16),
     let c := s.iss.ctx
     let ea : Word := s.rs b + BitVec.ofInt 64 (o.toInt * 4)
     let out := exec (.st32 t b o) s
     (s.windowFull ea = true → out = .next (s.blocked .engineQueue [] [] [] [])) ∧
     (s.windowFull ea = false →
       (s.nameable {} 4 ea = false → out = .next (s.raise (s.issTrap 0x03 ea))) ∧
       (s.nameable {} 4 ea = true →
         ((∃ i, i < 4 ∧ s.guarded c (ea + BitVec.ofNat 64 i) = true) → out = .next (s.raise (s.issTrap 0x07 ea 0 1))) ∧
         ∀ a, spaceOf ea = .localSp a → (∀ i, i < 4 → s.guarded c (ea + BitVec.ofNat 64 i) = false) →
           (s.platAt (clOf c) a).isSome = true → out = .next (s.raise (s.issTrap 0x07 ea 0 3)))))

/-- R205, R207, R208 and R210 with R125: an atomic on plain scratchpad addresses is never withheld beyond
its own bundle: it takes its place, with its operands as read at issue and its 8 cy, among the entries that its checkpoint bundle
releases in program order; nothing is read and nothing written before. That this place is an entry of the buffer that holds
withheld stores is the model's form. R211 and R209: in deterministic mode a value-returning atomic on a local address or on a SYNC page
raises 0x07, and so does a `famo` that would be the 477th gathered or whose target is not local; the others complete as ever. R212: one
with release semantics at a scope beyond its context stands behind a fence entry, and
a release fence is such an entry alone; one with acquire semantics, and an acquire fence, put later loads and atomics behind the
atomics so far, those of the bundle's later slots too; a full fence besides lands the context's released window writes and puts later
loads behind them; a fence at the
scope of its context changes nothing. The form of these orders is the model's too (log 74). -/
def Obligations.AtomicsEnterTheReleaseOfTheirBundle : Prop :=
  (∀ (s : State) (d a b c : BitVec 5) (t ix : BitVec 4) (p : BitVec 5) (oo : Ord) (sc : Scope) (z : Bool) (f : AmoOp) (sz : Sz)
    (fk : FKind),
    let det := s.detOf s.iss.ctx
    let key := fun (x : Nat) => spKey (clOf s.iss.ctx) (x / 64 * 64)
    let mine := fun (n : Nat) (ea : Word) => ∃ x, spaceOf ea = .localSp x ∧ ea.toNat % n = 0 ∧ s.storeTrap 2 n ea = none
    let ok := fun (n : Nat) (ea : Word) => mine n ea ∧ ∀ x, spaceOf ea = .localSp x → s.sound (key x)
    let synced := fun (n : Nat) (ea : Word) => ∃ m e, s.nameable { win := false } n ea = true ∧ spaceOf ea = .global ea.toNat ∧
      s.translate (s.who s.iss.ctx) ea.toNat .rw = .ok m e ∧ e.sync = true ∧ s.storeWindow n ea 2 = none ∧
      (s.iss.held = true ∨ s.inL1 s.iss.ctx (m / 64) = true)
    let traps := fun (i : Instr) (ea : Word) => exec i s = .next (s.raise (s.issTrap 0x07 ea 0 2))
    let w := 8 * Sz.bytes sz
    let at_ := fun k => s.rs b + BitVec.ofInt 64 ((laneN w (s.rv ix) k : Int) * (Sz.bytes sz : Int))
    let act := activeLanes w (s.rp p)
    let rel := (oo = .rel ∨ oo = .ar) ∧ sc ≠ .ctx
    let free := s.iss.held = true ∨ s.atomFenced s.iss.ctx (decide rel) = false
    let behind := if rel then s.withheld .fence else s
    let mark := fun (t : State) =>
      ({ t with iss := { t.iss with acq := true } } : State).modCur fun x => { x with acqAt := x.ents }
    let ahead := fun (t : State) => if (oo = .acq ∨ oo = .ar) ∧ sc ≠ .ctx then
      (let u := mark t; { u with iss := { u.iss with late := true } }) else t
    (free → det = false → ok (if z then 8 else 4) (s.rs a) →
      exec (.amo d a b oo sc z f) s = .next (ahead (behind.withheld (.amo f z (s.rs a) (s.rs b) d 8))) ∧
      exec (.cas d a b c sc oo z) s = .next (ahead (behind.withheld (.cas z (s.rs a) (s.rs b) (s.rs c) d 8)))) ∧
    (free → det = true → mine (if z then 8 else 4) (s.rs a) ∨ synced (if z then 8 else 4) (s.rs a) →
      traps (.amo d a b oo sc z f) (s.rs a) ∧ traps (.cas d a b c sc oo z) (s.rs a)) ∧
    (s.iss.held = true ∨ s.atomFenced s.iss.ctx false = false →
      (∀ ty : FTy, ok (if ty = .f32 then 4 else 2) (s.rs a) → (∃ y, spaceOf (s.rs c) = .localSp y) → (s.rs c).toNat % 16 = 0 →
        (det = true → s.gathering < 476) →
        exec (.famo a b c ty) s = .next ((s.nameBarrier (clOf s.iss.ctx) ((s.rs c).toNat % 2 ^ 23)).withheld
          (.famo ty (s.rs a) ((s.rs b).extractLsb' 0 32) (s.rs c)))) ∧
      (∀ ty : FTy, det = true → (∃ y, spaceOf (s.rs c) = .localSp y) → (s.rs c).toNat % 16 = 0 →
        (ok (if ty = .f32 then 4 else 2) (s.rs a) ∧ 476 ≤ s.gathering) ∨
          (synced (if ty = .f32 then 4 else 2) (s.rs a) ∧ ∀ m e, s.translate (s.who s.iss.ctx) (s.rs a).toNat .rw = .ok m e →
            s.poisoned (m / 64 * 64) 64 = none) →
        traps (.famo a b c ty) (s.rs a)) ∧
      ((det = false ∨ z = false) → (∀ k ∈ act, ok (Sz.bytes sz) (at_ k)) →
        exec (.vamo t b ix p sz z f) s = .next (s.withheld (.vamo f (decide (w = 64)) z
          (act.map fun k => (k, at_ k, BitVec.ofNat 64 (laneN w (s.rv t) k))) (s.vix t) (if act = [] then 0 else 8)))) ∧
      ∀ k ks, det = true → act = k :: ks → (∀ j ∈ act, mine (Sz.bytes sz) (at_ j)) → traps (.vamo t b ix p sz true f) (at_ k)) ∧
    let gone := mark (s.making fun s => s.famoLandAll s.iss.ctx)
    exec (.fence fk sc) s = .next (
      if sc = .ctx then s
      else if fk = .acq then gone
      else if fk = .rel then s.withheld .fence
      else ((gone.making fun s => s.landAll s.iss.ctx).modCur fun x =>
        { x with fullAt := (x.wb.head?.map (·.ord)).getD x.ents }).withheld .fence)) ∧
  ∀ (s : State) (f : State → State), ∃ new : List (Nat × Byte),
    s.making f = { f s with iss := { (f s).iss with view := (f s).iss.view ++ new } } ∧
    ∀ p, p ∈ new ↔ p.1 ∈ s.underWayKeys ∧ s.byteNow p.1 ≠ (f s).byteNow p.1 ∧ p.2 = (f s).byteNow p.1

/-- R203: `ldblk` declares a FREE tag's block of n + 1 lines, none arrived, and posts 0; on a tag in use it posts 1 outside
deterministic mode; `ldblk.q` posts 0, 1 or 2 for FREE, FILLING and COMPLETE; `ldblk.rel` makes the tag FREE. R204: `lock`
of a readable line posts 0 and locks it when it is in L1 and the quota is not used up, posts 0 again on a line that is
locked, 1 when the quota is used up, and makes its bundle wait for an absent line; `unlock` unlocks that line alone. That a block's lines
arrive within 1,900 cycles is the model's bound on a time that no rule gives (log 1). -/
def Obligations.LoadBlocksAndLocks : Prop :=
  (∀ (s : State) (a d : BitVec 5) (g : BitVec 4) (n : BitVec 6), s.detOf s.iss.ctx = false →
     let c := s.iss.ctx
     let tagged := fun (b : LoadBlock) => b.tag = g.toNat
     (s.nameable { loc := false, win := false } 64 (s.rs a) = false →
       exec (.ldblk a d g n) s = .next (s.raise (s.issTrap 0x03 (s.rs a)))) ∧
     (s.nameable { loc := false, win := false } 64 (s.rs a) = true →
       ((∃ b ∈ s.cur.blocks, tagged b) → exec (.ldblk a d g n) s = .next (s.posted (regResult d 1 1))) ∧
       ((∀ b ∈ s.cur.blocks, ¬tagged b) → ∃ (t : State) (b : LoadBlock), exec (.ldblk a d g n) s = .next (t.posted (regResult d 1 0)) ∧
         (t.ctx c).blocks = s.cur.blocks ++ [b] ∧ tagged b ∧ b.lines = [] ∧ b.bad = [] ∧
         b.want = (List.range (n.toNat + 1)).map (fun i => (s.rs a + BitVec.ofNat 64 (64 * i)).toNat) ∧
         (t.ctx c).vis = s.cur.vis ∧ t.mem = s.mem ∧ t.cores = s.cores ∧ (∀ c', c' ≠ c → t.ctx c' = s.ctx c') ∧
         ∃ due, t.agenda = s.agenda ++ due ∧ due.map (·.due.arg) = b.want ∧
           ∀ x ∈ due, x.ev = .lineArrival ∧ x.due.ctx = c ∧ s.now < x.at_ ∧ x.at_ ≤ s.now + 1900)) ∧
     (∃ r, exec (.ldblkQ d g) s = .next (s.posted (regResult d 1 r)) ∧
       ((∀ b ∈ s.cur.blocks, ¬tagged b) → r = 0) ∧
       ∀ b, s.cur.blocks.find? (·.tag = g.toNat) = some b → r = if b.want = [] then 2 else 1) ∧
     ∃ t, exec (.ldblkRel g) s = .next t ∧ (t.ctx c).blocks = s.cur.blocks.filter (fun b => b.tag ≠ g.toNat) ∧
       (t.ctx c).vis = s.cur.vis ∧ t.mem = s.mem ∧ ∀ c', c' ≠ c → t.ctx c' = s.ctx c') ∧
  (∀ (s : State) (a d : BitVec 5) (m : Nat) (e : Tlb),
     let c := s.iss.ctx
     let ea := s.rs a
     let ls := s.cur.vis.locks
     let quota := (s.cluster (clOf c)).lockq
     spaceOf ea = .global ea.toNat → ea.toNat % 64 = 0 → s.translate (s.who c) ea.toNat .r = .ok m e →
     let t := s.learn e
     (m / 64 ∈ ls → exec (.lock a d) s = .next (t.posted (regResult d 1 0))) ∧
     (m / 64 ∉ ls → quota ≤ ls.length → exec (.lock a d) s = .next (t.posted (regResult d 1 1))) ∧
     (m / 64 ∉ ls → ls.length < quota → s.iss.held = false → s.inL1 c (m / 64) = false →
       exec (.lock a d) s = .next (t.blocked .loadBlock [ea.toNat / 64] [] [] [])) ∧
     (m / 64 ∉ ls → ls.length < quota → (s.iss.held = true ∨ s.inL1 c (m / 64) = true) → exec (.lock a d) s =
       .next ((t.modVis fun v => { v with locks := ls ++ [m / 64] }).posted (regResult d 1 0))) ∧
     exec (.unlock a) s = .next (t.modVis fun v => { v with locks := ls.filter (· ≠ m / 64) }))

/-! ### Barriers, events, platforms and engines (R213 to R313) -/

/-- R215 with R36 and R89: on a 16-byte aligned local object, `bar.arr` and `bar.exp` are withheld; `bar.wait` goes on once
the object's phase, as the last cycle left it, differs from h, or its bound is reached, and otherwise makes its bundle wait;
`bar.try` posts the object's low 64 bits; both order what follows as an acquire fence of cluster scope does (R212). Each names the object a barrier from its cycle on. Any other address raises 0x03.
R214: the barrier unit applies an arrival, an expectation and a command's delivery to an object's eight bytes as the rule
says: the counts go down and up within their fields; when both reach zero, by an arrival or by a delivery, the phase advances modulo 16 and
the pending count takes the expected one; an operation that the counts do not admit sets OVR and changes nothing else of the object. With no
gathered add for the object no other byte changes. -/
def Obligations.BarrierInstructionsAndUnit : Prop :=
  (∀ (s : State) (a b d : BitVec 5) (k : BitVec 8) (h : BitVec 4), s.detOf s.iss.ctx = false →
     let ea := s.rs a
     let x := ea.toNat % 2 ^ 23
     let t := s.nameBarrier (clOf s.iss.ctx) x
     let obj := memNat s.memPrev (spKey (clOf s.iss.ctx) x) 8
     let reached := (s.rs b).toNat ≤ s.now - s.cur.wait.getD s.now
     let acquired := fun (t : State) => exec (.fence .acq .cl) t
     (ea.toNat % 16 = 0 ∧ (∃ y, spaceOf ea = .localSp y) →
       exec (.barArr a k) s = .next (t.withheld (.barArr x k.toNat)) ∧
       exec (.barExp a b) s = .next (t.withheld (.barExp x (s.rs b).toNat)) ∧
       (obj / 2 ^ 48 % 16 ≠ h.toNat ∨ reached ∨ s.iss.held = true → exec (.barWait a b h) s = acquired t) ∧
       (obj / 2 ^ 48 % 16 = h.toNat → ¬reached → s.iss.held = false →
         exec (.barWait a b h) s = .next (t.blocked .barrier [(s.rs b).toNat] [] [] [])) ∧
       exec (.barTry a d) s = acquired (t.posted (regResult d 1 (BitVec.ofNat 64 obj)))) ∧
     (¬(ea.toNat % 16 = 0 ∧ ∃ y, spaceOf ea = .localSp y) →
       ∀ i ∈ [Instr.barArr a k, .barExp a b, .barWait a b h, .barTry a d], exec i s = .next (s.raise (s.issTrap 0x03 ea)))) ∧
  (∀ (s : State) (k a n : Nat) (r : BarReq), Memory.wf s.mem = true → (∀ g ∈ (s.cluster k).famo, barObj g.bar ≠ a) →
     let key := spKey k a
     let w := memNat s.mem key 8
     let pend := w / 2 ^ 16 % 2 ^ 16
     let txn := w / 2 ^ 32 % 2 ^ 16
     let ph := w / 2 ^ 48 % 16
     let t := s.barApply k a r
     let obj := memNat t.mem key 8
     let completes := obj / 2 ^ 16 % 2 ^ 16 = w % 2 ^ 16 ∧ obj / 2 ^ 48 % 16 = (ph + 1) % 16 ∧ obj % 2 ^ 16 = w % 2 ^ 16 ∧
       obj / 2 ^ 32 % 2 ^ 16 = 0 ∧ obj / 2 ^ 52 = w / 2 ^ 52
     ((∀ bs, r.op ≠ .store bs) → ∀ q, q < key ∨ key + 8 ≤ q → memRead t.mem q = memRead s.mem q) ∧
     (r.op = .arrive n →
       (pend < n → obj = w ||| 2 ^ 52) ∧ (n ≤ pend → n < pend ∨ txn ≠ 0 → obj = w - n * 2 ^ 16) ∧
       (n = pend → txn = 0 → completes)) ∧
     (r.op = .expect n → (txn + n ≤ 65535 → obj = w + n * 2 ^ 32) ∧ (65535 < txn + n → obj = w ||| 2 ^ 52)) ∧
     (r.op = .deliver n → (txn = 0 → obj = w ||| 2 ^ 52) ∧ (0 < txn → 1 < txn ∨ pend ≠ 0 → obj = w - 2 ^ 32) ∧
       (txn = 1 → pend = 0 → completes) ∧
       t.agenda = s.agenda ++ [{ at_ := s.now + 1, ev := .eventRecordArrival, due := { id := n, ctx := r.ctx } }]))

/-- R239, R241 and R242 outside deterministic mode: `evpop` takes the oldest record, posts its four words, flags and counts
at 2 cy and frees its slot then; of an empty queue it posts zeros. `evpeek` posts the queue's length, the reserved slots,
and SEQ, KIND and STATUS of the oldest record, which no longer counts once `evpop` has taken it (log 72). R333 to R335 in deterministic mode: `evpop` takes the record of the lowest place in
issue order, of those in the queue and those that accepted commands and closed batches still owe; it waits where that record has
not arrived, posts zeros where none is owed, and raises 0x07 on one whose STATUS depends on time; `evpeek` raises 0x07. R227, R228, R246 and R256: `ewr` posts its write at 1 cy and `erd` the
register as it stands, at 2 cy, a template's words by ECP.TMPL and EMX.STAT by its fields among them, that of an accumulator by its
oldest operation (log 72); the write lands with the register's reserved bits zero and changes no other shadow register,
and a read-only register keeps its value. -/
def Obligations.EventQueueAndEngineRegisters : Prop :=
  (∀ (s : State) (d : BitVec 5),
     let c := s.cur
     let words := fun (x : Nat) => (List.range 4).flatMap fun w =>
       regResult (d + BitVec.ofNat 5 w) 2 (BitVec.ofNat 64 (x / 2 ^ (64 * w)))
     let pops := fun (r : Record) => exec (.evpop d) s =
       .next ((s.modCur fun c => { c with
           evq := c.evq.erase r, freeing := c.freeing + 1, popped := c.popped ++ [(c.chkNo, r)] }).posted
         (words (leNat r.bytes) ++ (if r.flags = 0 then [] else [(2, .flags r.flags)]) ++ [(2, .freeSlot)] ++
           (if r.mal = 0 then [] else [(2, .mal r.mal.toNat)]) ++ if r.satc = 0 then [] else [(2, .sat r.satc.toNat)]))
     (s.detOf s.iss.ctx = false →
       (c.evq = [] → exec (.evpop d) s = .next (s.posted (words 0)) ∧
         exec (.evpeek d) s = .next (s.posted (regResult d 1 (BitVec.ofNat 64 (s.reserved s.iss.ctx * 2 ^ 7))))) ∧
       ∀ r q, c.evq = r :: q → pops r ∧
         exec (.evpeek d) s = .next (s.posted (regResult d 1 (BitVec.ofNat 64 (c.evq.length + s.reserved s.iss.ctx * 2 ^ 7 +
           r.seq.toNat * 2 ^ 16 + r.kind.toNat * 2 ^ 32 + r.status.toNat * 2 ^ 40))))) ∧
     (s.detOf s.iss.ctx = true →
       let owed := s.awaited s.iss.ctx
       exec (.evpeek d) s = .next (s.raise (s.issTrap 0x07)) ∧
       (c.evq = [] → owed = [] → exec (.evpop d) s = .next (s.posted (words 0))) ∧
       (∀ k ∈ owed, (∀ r ∈ c.evq, k ≤ r.key) → s.iss.held = false →
         exec (.evpop d) s = .next (s.blocked .engineQueue [] [] [] [])) ∧
       ∀ r ∈ c.evq, (∀ q ∈ c.evq, q = r ∨ r.key < q.key) → (∀ k ∈ owed, r.key < k) →
         (r.status ∈ [0x22, 0x23, 0x26, 0x29] → exec (.evpop d) s = .next (s.raise (s.issTrap 0x07))) ∧
         (r.status ∉ [0x22, 0x23, 0x26, 0x29] → pops r))) ∧
  ((∀ (s : State) (b d : BitVec 5) (r : BitVec 16),
     exec (.ewr b r) s = .next (s.posted [(1, .eng r (s.rs b))]) ∧
     ∀ x : Word, (r, x) ∈ [(0x0000, s.cur.vis.shadow.ecpTmpl), (0x1000, s.cur.vis.shadow.emxAbase),
         (0x1001, s.cur.vis.shadow.emxBbase), (0x1002, s.cur.vis.shadow.emxStride), (0x1003, s.cur.vis.shadow.emxShape),
         (0x1004, s.cur.vis.shadow.emxSparse), (0x1010, s.cur.vis.shadow.emxAcc), (0x2000, s.cur.vis.shadow.eepDst),
         (0x2001, s.cur.vis.shadow.eepVec), (0x2002, s.cur.vis.shadow.eepAct), (0x2003, s.cur.vis.shadow.eepOut),
         (0x2010, s.cur.vis.shadow.eepAcc)] ++ (List.range 16).map (fun k =>
           (BitVec.ofNat 16 (0x0010 + k), s.cur.vis.shadow.ecpAcc.getD k 0)) →
       exec (.erd d r) s = .next (s.posted (regResult d 2 x))) ∧
   (∀ (s : State) (d : BitVec 5) (n : Nat), n < 4 →
     let t := (s.cluster (clOf s.iss.ctx)).tmpl.getD (s.cur.vis.shadow.ecpTmpl.toNat % 256) 0
     exec (.erd d (BitVec.ofNat 16 (n + 1))) s = .next (s.posted (regResult d 2 (t.extractLsb' (64 * n) 64)))) ∧
   (∀ (s : State) (d : BitVec 5),
     let mx := (s.core (coreOf s.iss.ctx)).mx
     mx.countP (fun o => !o.fed) < 3 → ∃ x : Word, exec (.erd d 0x1011) s = .next (s.posted (regResult d 2 x)) ∧
       (∀ a, a < 4 → fld x (2 * a) 2 = match mx.find? (·.acc = a) with
         | none => 0
         | some o => if o.sparse then 2 else 1) ∧
       fld x 8 2 = mx.countP (fun o => !o.fed) ∧ fld x 10 54 = 0) ∧
   ∀ (v : Vis) (x : Word),
     let put := fun (n : BitVec 16) => (v.apply (.eng n x)).shadow
     put 0x0000 = { v.shadow with ecpTmpl := x &&& 0xFF } ∧ put 0x1000 = { v.shadow with emxAbase := x &&& 0x7FFFFF } ∧
     put 0x1001 = { v.shadow with emxBbase := x &&& 0x7FFFFF } ∧ put 0x1002 = { v.shadow with emxStride := x &&& 0xFFFFFFFF } ∧
     put 0x1003 = { v.shadow with emxShape := x &&& 0x1FFFFFF } ∧ put 0x1004 = { v.shadow with emxSparse := x &&& 0x3F3F3F } ∧
     put 0x2000 = { v.shadow with eepDst := x &&& 0x7FFFFFFFFFFFFF } ∧
     put 0x2001 = { v.shadow with eepVec := x &&& 0xFFFFFFFFFFFF } ∧
     put 0x2002 = { v.shadow with eepAct := x &&& 0xFFFFFFFF0000000F } ∧
     put 0x2003 = { v.shadow with eepOut := x &&& 0x3FFFFFF1F } ∧
     ∀ n : BitVec 16, n ∉ [0x0000, 0x1000, 0x1001, 0x1002, 0x1003, 0x1004, 0x2000, 0x2001, 0x2002, 0x2003] →
       v.apply (.eng n x) = v)

/-- R218, R219, R224 to R226 with R36, R215 and R238: `bclose` is withheld when a record slot can be reserved, and otherwise
makes its bundle wait; `bwait` goes on once no closed batch of its tag is outstanding, or its bound is reached, and otherwise
makes its bundle wait; `pwait` goes on once the platform, as the last cycle left it, meets its condition, or its bound is reached, with the ordering of an
acquire fence of cluster scope (R212);
`prel` is withheld on a declared platform that is not FILLING, nor held by a sparse operation (R264); `pstat`
posts the platform's word, and raises 0x07 in deterministic mode (R333). An undeclared platform raises 0x03 in `pwait` and `prel`. R221 and R225: what a publish, a fill's
release, completion and failure and a `prel` do to a platform: the states they lead to, the halves that swap, the count of
publishes, and the reservation that ends. -/
def Obligations.BatchesAndPlatforms : Prop :=
  (∀ (s : State) (b d : BitVec 5) (g : BitVec 2) (c : PCond) (n : BitVec 6), s.iss.held = false →
     let k := clOf s.iss.ctx
     let was := (s.cluster k).prev.getD n.toNat Platform.none
     let p := s.plat k n.toNat
     let bound := [(s.rs b).toNat]
     let ok := match c with
       | .pub => was.st = .full ∨ was.st = .draining
       | .idle => (was.st = .free ∨ was.st = .full) ∧ was.resv = none
       | .free => was.st = .free ∧ was.resv = none
     let open_ := ∃ x ∈ s.cur.batches, x.tag = g ∧ x.closed = true
     (s.freeSlots s.iss.ctx = 0 → exec (.bclose g) s = .next (s.blocked .engineQueue [] [] [] [])) ∧
     (s.freeSlots s.iss.ctx ≠ 0 →
       exec (.bclose g) s = .next (({ s with nextId := s.nextId + 1 } : State).withheld (.bclose g s.nextId))) ∧
     (s.closesHere g = false → s.closingNow s.iss.ctx g = false → ¬open_ → exec (.bwait b g) s = .next s) ∧
     (open_ ∨ s.closingNow s.iss.ctx g = true → s.boundReached (s.rs b) = false →
       exec (.bwait b g) s = .next (s.blocked .barrier bound [] [] [])) ∧
     (s.boundReached (s.rs b) = true → exec (.bwait b g) s = .next s) ∧
     (was.decl = false → exec (.pwait b c n) s = .next (s.raise (s.issTrap 0x03))) ∧
     (was.decl = true → ok → exec (.pwait b c n) s = exec (.fence .acq .cl) s) ∧
     (was.decl = true → ¬ok → s.boundReached (s.rs b) = false →
       exec (.pwait b c n) s = .next (s.blocked .platform bound [] [] [])) ∧
     (was.decl = true → s.boundReached (s.rs b) = true → exec (.pwait b c n) s = exec (.fence .acq .cl) s) ∧
     (p.decl = false → exec (.prel n) s = .next (s.raise (s.issTrap 0x03))) ∧
     (p.decl = true → p.st = .filling ∨ p.holds ≠ [] → exec (.prel n) s = .next (s.blocked .platform [] [] [] [])) ∧
     (p.decl = true → p.st ≠ .filling → p.holds = [] → exec (.prel n) s = .next (s.withheld (.prel n))) ∧
     (s.detOf s.iss.ctx = false → exec (.pstat d n) s = .next (s.posted (regResult d 2 was.word))) ∧
     (s.detOf s.iss.ctx = true → exec (.pstat d n) s = .next (s.raise (s.issTrap 0x07)))) ∧
  (∀ (p : Platform) (id : Nat),
     ((p.fillReleased id).st = if p.st = .full then .draining else .filling) ∧
     (p.st ≠ .draining → p.fillCompleted.st = .full ∧ p.fillCompleted.front = !p.front ∧ p.fillCompleted.gen = p.gen + 1) ∧
     (p.st = .draining → p.fillCompleted.st = .draining ∧ p.fillCompleted.held = true ∧ p.fillCompleted.front = p.front ∧
       p.fillCompleted.gen = p.gen) ∧
     (p.fillFailed.st = if p.st = .draining then .full else .free) ∧ p.fillFailed.front = p.front ∧ p.fillFailed.gen = p.gen ∧
     p.fillCompleted.resv = none ∧ p.fillFailed.resv = none ∧
     (p.st = .full → p.released = some { p with st := .free }) ∧
     (p.st = .draining → p.held = false → p.released = some { p with st := .filling }) ∧
     (p.st = .draining → p.held = true →
       p.released = some { p with st := .full, held := false, front := !p.front, gen := p.gen + 1 }) ∧
     (p.st = .free ∨ p.st = .filling → p.released = none) ∧
     (p.st ≠ .draining → p.fillCompleted.shadowAt = p.frontAt ∧ p.fillCompleted.frontAt = p.shadowAt))

/-- R229, R232 and R235: a 64-bit store to the aperture, and the same store as a step of its own, starts a copy. On a
platform and channel that are free it is accepted with the bound of its class when no check of R232 refuses it, and refused
with the code of the first that does otherwise, its refusal record withheld: the checks are written out in their order. R380, R385 and R386: `tlbir` is accepted for whole pages from
the one that holds s[sa], without an acceptance word; it waits while no record slot is free or eight invalidations are
unacknowledged. A write of SYS.MIGSUB, by `sysw` or as a step of its own, whose request stands in plain scratchpad memory is
accepted when no migration in flight overlaps its page, the page's leaf is of the size asked for, free of the unmovable mark,
and its destination can take it; a request that breaks the layout is refused with 0x03 (R385), to which the model adds, as its
choice, a VA or a destination that is not aligned to the page's size (log 27). -/
def Obligations.CopyInvalidationAndMigrationCommands : Prop :=
  (∀ (s : State) (i : Instr) (ea data : Word),
     (∃ (t b : BitVec 5) (o : BitVec 16), i = .st64 t b o ∧ ea = s.rs b + BitVec.ofInt 64 (o.toInt * 8) ∧ data = s.rs t ∧
       ∃ x, spaceOf ea = .aperture x) ∨
     (i = .copyStart ∧ ea = BitVec.ofNat 64 s.due.arg ∧ data = s.due.word) →
     let c := s.iss.ctx
     let ch := ea.toNat / 2 ^ 6 % 16
     let tidx := data.toNat % 256
     let raw := (s.cluster (clOf c)).tmpl.getD tidx 0
     let t := tmplOf raw
     let pn : BitVec 6 := if data.getLsbD 14 then data.extractLsb' 8 6 else BitVec.ofNat 6 t.pn
     let p := s.plat (clOf c) pn.toNat
     let a0 := t.sbase + (data.extractLsb' 16 48).signExtend 64
     let e := s.boundEntry 0 t.cls (copyBound t.cls)
     let res := fun w => [(1, Eff.engAcc (BitVec.ofNat 16 (16 + ch)) w)]
     p.busy = false → s.freeSlots c ≠ 0 → ea.toNat % 64 = 0 → ea.toNat / 2 ^ 10 % 2 ^ 46 = 0 →
     (s.cmds.countP fun x => x.ctx = c && (match x.k with
       | .copy ch' _ _ _ => ch' = ch
       | _ => false)) < 4 →
     let elem := if t.conv = 0 then 1 else if t.conv = 1 ∨ t.conv = 3 then 4 else 2
     let out := if t.conv = 1 ∨ t.conv = 3 then t.rbytes / 2 else if t.conv = 2 ∨ t.conv = 4 then t.rbytes * 2 else t.rbytes
     let at_ := fun (r n : Nat) => (a0 + BitVec.ofInt 64 (r * t.sstride) + BitVec.ofNat 64 n).toNat
     let wild := t.rows = 0 ∨ t.rbytes = 0 ∨ 2 ^ 21 < t.rbytes ∨ t.clean = false
     let astray := 1 < a0.toNat / 2 ^ 56 ∨ ∃ r n, r < t.rows ∧ n < t.rbytes ∧
       (at_ r n / 2 ^ 56 ≠ a0.toNat / 2 ^ 56 ∨ (a0.toNat / 2 ^ 56 = 1 ∧ at_ r n / 2 ^ 23 % 2 ^ 33 ≠ 0))
     let early := wild ∨ astray ∨ 6 < t.conv ∨ t.rbytes % elem ≠ 0
     let beyond := p.half < t.doff + (t.rows - 1) * t.dstride + out
     let late := (1 < t.rows ∧ t.dstride < out) ∨ data.getLsbD 15 = true ∨ (t.baren = true ∧ t.baddr % 16 ≠ 0)
     let refused := fun (code : Nat) => ∃ u r, exec i s = .next (u.withheld (.refusedCopy r)) ∧
       CommandRefused { s with nextId := s.nextId + 1 } u code t.cls res ∧
       r.seq = s.cur.vis.seq ∧ r.kind = 1 ∧ r.status = BitVec.ofNat 8 code ∧ r.pn = pn.setWidth 16
     (early → refused 3) ∧
     (¬early → p.decl = false → refused 4) ∧
     (¬early → p.decl = true → beyond → refused 6) ∧
     (¬early → p.decl = true → ¬beyond → late → refused 3) ∧
     (¬early → p.decl = true → ¬beyond → ¬late → ∃ u, exec i s = .next u ∧
       CommandAccepted s u (.copy ch tidx raw a0) 1 t.cls (e.base + ceilDiv (t.rows * out) 64 * e.unit) (some pn)
         (if t.baren then some t.baddr else none) res)) ∧
  (∀ (s : State) (a b d : BitVec 5) (asid : BitVec 16),
     (s.iss.held = false → s.freeSlots s.iss.ctx = 0 ∨ 8 ≤ s.invals.length →
       exec (.tlbir a b asid) s = .next (s.blocked .engineQueue [] [] [] [])) ∧
     (s.freeSlots s.iss.ctx ≠ 0 → s.invals.length < 8 →
       (2 ^ 56 ≤ (s.rs a).toNat → exec (.tlbir a b asid) s = .next (s.raise (s.issTrap 0x03 (s.rs a)))) ∧
       ((s.rs a).toNat < 2 ^ 56 → ∃ t, exec (.tlbir a b asid) s = .next t ∧
         let va := (s.rs a).toNat
         let n := (s.rs b).toNat
         CommandAccepted s t (.tlbir (va - va % 4096)
           (if n = 0 then va - va % 4096 else (min (va + n) (2 ^ 56) + 4095) / 4096 * 4096) asid.toNat) 10 0 0 none none
           fun _ => [])) ∧
     ∀ (i : Instr) (ea : Word) (x : Nat), s.loadsLocal 32 ea x →
       (i = .sysw d a 0x162 ∧ ea = s.rs a) ∨ (i = .migrationSubmit ∧ ea = s.due.word ∧ d = BitVec.ofNat 5 s.due.arg) →
       let u := s.readAll [ea]
       let r := migReq ((List.range 4).map fun (k : Nat) =>
         BitVec.ofNat 64 (s.loadNat (s.own s.iss.ctx) (ea + BitVec.ofNat 64 (8 * k)) 8))
       let n := migSize r.sz
       let res := fun w => regResult d 1 w
       let e := u.boundEntry 7 0 { base := 10000, unit := 2, unit2 := 0, limit := 0 }
       (r.clean = false → ∃ t, exec i s = .next t ∧ CommandRefused u t 3 0 res) ∧
       (r.clean = true → (∀ y ∈ u.cmds, y.migrates r.asid r.va n = false) → u.freeSlots s.iss.ctx ≠ 0 → ∀ at_ leaf, u.leafAt r.asid r.va = .ok (at_, leaf, n) →
         leaf / 2 ^ 9 % 2 = 0 → u.frameOk r.dst n = true → r.dst ≠ leaf / 2 ^ 12 % 2 ^ 40 * 4096 →
         ∃ t, exec i s = .next t ∧
           CommandAccepted u t (.mig r.va n r.asid r.dst) 11 0 (e.base + n / 64 * e.unit) none none res))

/-- R272, R273, R284, R289 and R305: `pool`, `upd` and `a2a` whose block stands in plain scratchpad memory are accepted when
every check of theirs passes, with the bound of their class and what they capture; and refused with 0x03 when the block is
malformed; that a GBASE off its element size is so for `upd` is the model's choice (log 72). The record of an `a2a` is of KIND 0x03 by R307, where the table of R239 lists 0x07 for it (log 77). -/
def Obligations.LookupAndUpdateCommands : Prop :=
  ∀ (s : State) (a d : BitVec 5) (i o m : Bool) (c : BitVec 2) (pn : BitVec 6) (x : Nat), s.loadsLocal 64 (s.rs a) x →
    let u := s.readAll [s.rs a]
    let blk := s.blockAt (s.rs a)
    let b := poolBlk blk
    let ub := updBlk blk
    let p := s.plat (clOf s.iss.ctx) pn.toNat
    let cls := c.toNat
    let res := fun w => regResult d 1 w
    let bar := fun (on : Bool) (at_ : Nat) => if on then some at_ else none
    let row := fun (tid w : Nat) => ((u.table? s.iss.ctx tid).map (·.w)).getD 0 * w
    let pr := row b.tid (if o then 2 else 4)
    let ur := row ub.tid (if m then 2 else 4)
    let pe := u.boundEntry 2 cls (poolBound cls)
    let ue := u.boundEntry 3 cls (updBound cls)
    let bound := pe.base + pe.unit * b.nidx + pe.unit2 * ceilDiv (b.nbags * pr) 64
    let badPool := poolMalformed b i (blk.getD 5 0 != 0 || blk.getD 6 0 != 0 || blk.getD 7 0 != 0) pr = true
    let badUpd := ub.clean = false ∨ ub.npair = 0 ∨ 2 ^ 24 < ub.npair ∨ ub.gstr % 4 ≠ 0 ∨ ub.gstr < ur ∨
      ub.ibase.toNat % (if i then 8 else 4) ≠ 0 ∨ ub.gbase.toNat % (if m then 2 else 4) ≠ 0 ∨ arrayOk ub.ibase = false ∨
      arrayOk ub.gbase = false ∨ (ub.baren = true ∧ ub.baddr % 16 ≠ 0)
    (s.poolCount < 16 → p.busy = false →
      (badPool → ∃ t, exec (.pool a d i o m c pn) s = .next t ∧ CommandRefused u t 3 cls res) ∧
      (¬badPool → p.decl = true → ∀ tab, u.nameable? b.tid = some tab → u.depotDown tab = false → b.nidx ≤ pe.limit →
        b.doff + (b.nbags - 1) * b.dstr + pr ≤ p.half → u.freeSlots s.iss.ctx ≠ 0 → u.admits tab cls b.nidx bound = true →
        ∃ t, exec (.pool a d i o m c pn) s = .next t ∧
          CommandAccepted u t (.pool blk m o i) 3 cls bound (some pn) (bar b.baren b.baddr) res)) ∧
    (s.poolCount < 16 → u.updElsewhere ub.tid = false →
      (badUpd → ∃ t, exec (.upd a d i m c) s = .next t ∧ CommandRefused u t 3 cls res) ∧
      (¬badUpd → ∀ tab, u.nameable? ub.tid = some tab → tab.ro = false → tab.opt ≠ 0 → u.depotDown tab = false →
        ub.npair ≤ ue.limit → u.freeSlots s.iss.ctx ≠ 0 → u.admits tab cls ub.npair (ue.base + ue.unit * ub.npair) = true →
        ∃ t, exec (.upd a d i m c) s = .next t ∧
          CommandAccepted u t (.upd blk m i) 4 cls (ue.base + ue.unit * ub.npair) none (bar ub.baren ub.baddr) res)) ∧
    (s.msgCount < 16 → p.busy = false →
      let w5 := blk.getD 5 0
      let w6 := blk.getD 6 0
      let dl := w6.toNat % 2 ^ 32
      let me := u.msgEntry 4 cls
      let bad := fld w5 23 41 != 0 || fld w5 0 2 != 0 || fld w6 32 32 != 0 || blk.getD 7 0 != 0 || decide (dl < 1000) ||
        decide (me.limit * 1000 < dl)
      (poolMalformed b i bad pr = true → ∃ t, exec (.a2a a d i o m c pn) s = .next t ∧ CommandRefused u t 3 cls res) ∧
      ∀ tab ranks, poolMalformed b i bad pr = false → p.decl = true → u.nameable? b.tid = some tab →
        (tab.shf = 1 ∨ tab.shf = 2 ∧ tab.shpar.toNat % 2 = 1) → 0 < tab.shcnt → tab.shcnt ≤ 64 →
        let eas := (List.range tab.shcnt).map fun (k : Nat) => localEa (w5.toNat % 2 ^ 23) + BitVec.ofNat 64 (4 * k)
        (∀ q ∈ eas, ∃ y, u.loadsLocal 4 q y) → ranks = eas.map (fun q => u.loadNat (u.own u.iss.ctx) q 4) →
        let u2 := u.readAll eas
        (∀ r ∈ ranks, u2.rankOk r = true) → u2.depotDown tab = false → b.nidx ≤ pe.limit →
        let bound := dl + me.base + me.unit * ceilDiv (b.nbags * pr) 64
        b.doff + (b.nbags - 1) * b.dstr + pr ≤ p.half → u2.freeSlots s.iss.ctx ≠ 0 → u2.admits tab cls b.nidx bound = true →
        ∃ t, exec (.a2a a d i o m c pn) s = .next t ∧
          CommandAccepted u2 t (.a2a blk m o i ranks) 3 cls bound (some pn) (bar b.baren b.baddr) res)

/-- R236, R293, R297, R298, R303, R304 and R313: `msend`, `rpost`, `rcancel` and `gsub` are accepted when every check of
theirs passes. Where its die has sixteen or more messaging commands accepted `msend`, and where other packets are in flight
`gsub`, may also be refused with code 2, as a free value of the model decides (log 1); otherwise they are not. `rprobe` posts the oldest unexpected message that its block
matches, or zeros. -/
def Obligations.MessageCommands : Prop :=
  ∀ (s : State) (a d : BitVec 5) (c : BitVec 2) (pn : BitVec 6), s.detOf s.iss.ctx = false →
    let u := s.readAll [s.rs a]
    let blk := s.blockAt (s.rs a)
    let p := s.plat (clOf s.iss.ctx) pn.toNat
    let cls := c.toNat
    let res := fun w => regResult d 1 w
    let bar := fun (on : Bool) (at_ : Nat) => if on then some at_ else none
    (∀ x, s.loadsLocal 64 (s.rs a) x → s.msgCount < 16 →
      let b := sendBlk blk
      b.clean = true → arrayOk b.sbase = true → (b.baren = true → b.baddr % 16 = 0) → u.rankOk b.dst = true → b.len ≤ 2 ^ 26 →
      u.freeSlots s.iss.ctx ≠ 0 →
      let life := if 32768 < b.len then (u.msgEntry 6 cls).limit * 1000 else 0
      let bound := (u.msgEntry (u.routeOf b.dst) cls).base + (u.msgEntry 4 cls).unit * ceilDiv b.len 64 + life
      let load := s.cmds.countP fun y => dieOf y.ctx = dieOf s.iss.ctx && (match y.k with
        | .msend _ => true
        | .rpost _ => true
        | .a2a _ _ _ _ _ => true
        | _ => false)
      (load < 16 → ∃ t, exec (.msend a d c) s = .next t ∧
        CommandAccepted u t (.msend blk) 5 cls bound none (bar b.baren b.baddr) res) ∧
      (16 ≤ load → ∃ t, exec (.msend a d c) s = .next t ∧
        let v : State := { u with free := u.free + 1 }
        (CommandAccepted v t (.msend blk) 5 cls bound none (bar b.baren b.baddr) res ∨ CommandRefused v t 2 cls res))) ∧
    (∀ x, s.loadsLocal 64 (s.rs a) x → s.msgCount < 16 → p.busy = false →
      let b := postBlk blk
      b.clean = true → b.conv ≤ 6 → b.doff % 4 = 0 → b.timeout ≠ 0 → b.timeout ≤ (u.msgEntry 4 cls).limit →
      (b.baren = true → b.baddr % 16 = 0) → p.decl = true → b.doff + b.maxlen ≤ p.half →
      u.postsOf (dieOf s.iss.ctx) < 4096 → u.freeSlots s.iss.ctx ≠ 0 →
      ∃ t, exec (.rpost a d c pn) s = .next t ∧ CommandAccepted
        (u.modCur fun y => { y with posts := (y.posts ++ [(y.vis.seq, u.nextId, 0)]).drop (y.posts.length - 63) }) t
        (.rpost blk) 6 cls (b.timeout * 1000 + (u.msgEntry 6 cls).base + (u.msgEntry 4 cls).unit * ceilDiv b.maxlen 64)
        (some pn) (bar b.baren b.baddr) res) ∧
    (s.freeSlots s.iss.ctx ≠ 0 → ∃ t, exec (.rcancel a d) s = .next t ∧
      CommandAccepted s t (.rcancel ((s.rs a).extractLsb' 0 16)) 6 0 2000 none none res) ∧
    (s.freeSlots s.iss.ctx = 0 → ∃ t, exec (.rcancel a d) s = .next t ∧ CommandRefused s t 7 0 res) ∧
    (∀ x, s.loadsLocal 64 (s.rs a) x →
      let hit := s.unexpPrev.find? fun m => m.dst = s.rank (clOf s.iss.ctx) && (postBlk blk).matches m
      let ws := match hit with
        | some m => [m.len + bit m.pulled * 2 ^ 62 + 2 ^ 63, m.src, m.tag.toNat, m.comm.toNat]
        | none => [0, 0, 0, 0]
      exec (.rprobe a d) s = .next (u.posted ((List.range 4).flatMap fun k =>
        regResult (d + BitVec.ofNat 5 k) 1 (BitVec.ofNat 64 (ws.getD k 0))))) ∧
    ∀ x, s.loadsLocal 64 (s.rs a) x →
      ((u.guest.fitted = false ∨ u.guest.st ≠ .serving) →
        ∃ t, exec (.gsub a d c) s = .next t ∧ CommandRefused u t 1 cls res) ∧
      (u.guest.fitted = true → u.guest.st = .serving →
        (∃ q, u.parts[u.partOf s.iss.ctx]? = some q ∧ q.guest = true) → packetOk blk = true →
        u.packets.length < u.guest.qdepth → u.freeSlots s.iss.ctx ≠ 0 →
        let k := CmdK.gsub (packetFilled blk s.cur.vis.seq.toNat (s.lidOf s.iss.ctx) (s.asidOf s.iss.ctx) cls)
        let v : State := { u with free := u.free + 1 }
        ∃ t, exec (.gsub a d c) s = .next t ∧
          if u.packets = [] then CommandAccepted u t k 8 cls (u.guest.base.getD cls 0) none none res
          else CommandAccepted v t k 8 cls (u.guest.base.getD cls 0) none none res ∨ CommandRefused v t 2 cls res)

/-- R244, R251, R253, R257, R263 and R264: `mxgo`, `mxsgo` and `epgo` on an accumulator of another context raise 0x0D. With
the unit's queue open, `mxgo` whose described operation breaks no rule of R251 enters the queue, withheld, its word for EMX.ACC
posted, and one that breaks a rule raises 0x0D; `mxsgo` besides has the limits of R263, raises 0x03 for an undeclared platform and 0x0D
for operands that R264 forbids, and takes its hold on the three platforms; `epgo` on a free platform, with no operation on the
accumulator, is accepted with the bound of its class when no check of R257 refuses it, is refused with the first one's code
otherwise, and raises 0x0E while a dense operation is on it. The conditions are those of the shadow registers' fields. -/
def Obligations.MatrixCommands : Prop :=
  ∀ (s : State) (z : Bool) (a : BitVec 2), s.iss.held = false → s.mxBlocked = false →
    let c := s.iss.ctx
    let q := coreOf c
    let h := s.cur.vis.shadow
    let entered := fun (t : State) (o : MxOp) (extra : Nat) =>
      let ahead := (((s.core q).mx.find? fun p => !p.fed).map (·.feed)).getD 0
      let bound := (10 * (1 + ahead + (96 + o.feed) + extra) + 18) / 19
      t.core q = { s.core q with mx := (s.core q).mx ++ [o] } ∧ t.cmds = s.cmds ∧ t.mem = s.mem ∧
      t.cur = s.commanded s.nextId [(1, .engAcc 0x1010 (s.acceptance bound 0))] ∧ (∀ c', c' ≠ c → t.ctx c' = s.ctx c') ∧
      ∀ q', q' ≠ q → t.core q' = s.core q'
    let dense := s.mxOp z false a s.nextId
    let sparse := s.mxOp z true a s.nextId
    let shape := h.emxShape.toNat
    let K := shape % 2 ^ 16
    let desc := h.emxShape.getLsbD 16
    let aty := shape / 2 ^ 17 % 8
    let bty := shape / 2 ^ 20 % 8
    let astr := h.emxStride.toNat % 2 ^ 16
    let bstr := h.emxStride.toNat / 2 ^ 16 % 2 ^ 16
    let abase := h.emxAbase.toNat % 2 ^ 23
    let bbase := h.emxBbase.toNat % 2 ^ 23
    let span := fun (ty : Nat) => if desc then 64 * (K / 31) else K * (if ty ≤ 1 then 2 else 1)
    let aext := 64 * astr * 31 + span aty
    let bext := 64 * bstr * 63 + span bty
    let badDense := (desc = false ∧ (4 < aty ∨ 4 < bty)) ∨ (desc = true ∧ shape / 2 ^ 23 % 4 = 3) ∨ K = 0 ∨
      K % (if desc then 31 else 32) ≠ 0 ∨ abase % 64 ≠ 0 ∨ bbase % 64 ≠ 0 ∨ astr * 64 < span aty ∨ bstr * 64 < span bty ∨
      abase / 2 ^ 21 = bbase / 2 ^ 21 ∨ (abase + aext - 1) / 2 ^ 21 ≠ abase / 2 ^ 21 ∨ (bbase + bext - 1) / 2 ^ 21 ≠ bbase / 2 ^ 21
    let pa := h.emxSparse.toNat % 2 ^ 6
    let pb := h.emxSparse.toNat / 2 ^ 8 % 2 ^ 6
    let pm := h.emxSparse.toNat / 2 ^ 16 % 2 ^ 6
    let at_ := fun (n : Nat) => s.plat (clOf c) n
    let ps := [pa, pb, pm]
    let badShape := desc = true ∨ 4 < aty ∨ 4 < bty ∨ K = 0 ∨ K % 32 ≠ 0 ∨ 4096 < K
    let undeclared := ∃ p ∈ ps, (at_ p).decl = false
    let badFronts := (at_ pa).frontAt / 2 ^ 21 = (at_ pb).frontAt / 2 ^ 21 ∨ (∃ p ∈ ps, (at_ p).st = .free) ∨ (at_ pm).half < 1024 ∨
      (at_ pa).half < aext ∨ (at_ pb).half < bext
    let sparseTraps := fun (kd : BitVec 8) => exec (.mxsgo z a) s = .next (s.raise (s.issTrap kd))
    (s.owns a = false → exec (.mxgo z a) s = .next (s.raise (s.issTrap 0x0D)) ∧
      ((∀ p ∈ ps, (s.plat (clOf c) p).st ≠ .filling) → exec (.mxsgo z a) s = .next (s.raise (s.issTrap 0x0D)))) ∧
    (s.owns a = true →
      (badDense → exec (.mxgo z a) s = .next (s.raise (s.issTrap 0x0D))) ∧
      (¬badDense → ∃ t, exec (.mxgo z a) s = .next t ∧ entered t dense 0 ∧ t.clusters = s.clusters) ∧
      ((∀ p ∈ ps, (s.plat (clOf c) p).st ≠ .filling) →
        (badShape → sparseTraps 0x0D) ∧ (¬badShape → undeclared → sparseTraps 0x03) ∧
        (¬badShape → ¬undeclared → badFronts → sparseTraps 0x0D) ∧
        (¬badShape → ¬undeclared → ¬badFronts → ∃ t, exec (.mxsgo z a) s = .next t ∧ entered t sparse 32 ∧
          ∀ p, p < 64 → (t.plat (clOf c) p).holds =
            if p ∈ ps then s.nextId :: (s.plat (clOf c) p).holds else (s.plat (clOf c) p).holds))) ∧
    let pn : BitVec 6 := h.eepDst.extractLsb' 0 6
    let cls := h.eepDst.toNat / 2 ^ 6 % 4
    let res := fun w => [(1, Eff.engAcc 0x2010 w)]
    let e := s.boundEntry 1 cls (epBound cls)
    (s.plat (clOf c) pn.toNat).busy = false →
    (s.cmds.countP fun x => match x.k with
      | .epgo q' _ _ _ _ _ => q' = q
      | _ => false) < 2 →
    (s.owns a = false → exec (.epgo a) s = .next (s.raise (s.issTrap 0x0D))) ∧
    (s.owns a = true → (∀ o ∈ (s.core q).mx, o.acc = a.toNat → o.sparse = false) →
      ((∃ o ∈ (s.core q).mx, o.acc = a.toNat) → exec (.epgo a) s = .next (s.raise (s.issTrap 0x0E))) ∧
      ((∀ o ∈ (s.core q).mx, o.acc ≠ a.toNat) →
        let oty := h.eepOut.toNat % 16
        let dst := h.eepDst.toNat
        let vec := h.eepVec.toNat
        let rowBytes := [256, 128, 128, 64, 64, 0, 0, 0, 64, 128, 128, 128, 192, 192].getD oty 0
        let doff := dst / 2 ^ 8 % 2 ^ 23
        let dstr := dst / 2 ^ 31 % 2 ^ 24
        let invalid := 5 < h.eepAct.toNat % 16 ∨ rowBytes = 0 ∨ (h.eepOut.getLsbD 4 = true ∧ oty ≠ 8) ∨
          256 < h.eepOut.toNat / 2 ^ 25 % 2 ^ 9 ∨ (vec / 2 ^ 23 % 2 = 1 ∧ vec % 2 ^ 23 % 64 ≠ 0) ∨
          (vec / 2 ^ 47 % 2 = 1 ∧ vec / 2 ^ 24 % 2 ^ 23 % 64 ≠ 0) ∨ doff % 64 ≠ 0 ∨ dstr % 64 ≠ 0 ∨ dstr < rowBytes
        let p := s.plat (clOf c) pn.toNat
        let beyond := p.half < doff + 31 * dstr + rowBytes
        let full := s.freeSlots c = 0
        let refused := fun (code : Nat) => if s.detOf c = true ∧ code = 7
          then exec (.epgo a) s = .next (s.raise (s.issTrap 0x07))
          else ∃ t, exec (.epgo a) s = .next t ∧ CommandRefused s t code cls res
        (invalid → refused 3) ∧ (¬invalid → p.decl = false → refused 4) ∧ (¬invalid → p.decl = true → beyond → refused 6) ∧
        (¬invalid → p.decl = true → ¬beyond → full → refused 7) ∧
        (¬invalid → p.decl = true → ¬beyond → ¬full → ∃ t, exec (.epgo a) s = .next t ∧
          CommandAccepted s t (.epgo q a.toNat h.eepDst h.eepVec h.eepAct h.eepOut) 2 cls
            (e.base + ceilDiv (32 * rowBytes) 64 * e.unit) (some pn) none res)))

/-! ### Events -/

/-- R190 to R192, R196, R319, R358, R374: what a line of L1, a remote granule, the home's race check, a page walk and a card
of the prefetcher leave when they arrive. A line enters the L1 as the most recently used; a block's line is marked faulting
where it cannot be read; a granule reaches the buffer with its bytes; a check of an access registers its reads and keeps the
bytes read, or changes no tag and keeps the first rejection, the access's other lines not asked for again; that of an access which
touches scratchpads too registers nothing, for the access does so at its issue (the model's form, log 74); a walk's leaf is held; a
card is kept with its eight words, from a SYNC page or from RD memory, whose read is registered, or with the fault its `cnext` raises. A granule of a peer on this module comes with that peer's
bytes of the cycle, rejected with ACC 3 where they are no platform's published front (R222). The form in which another module
answers, with the granule's bytes or a rejection, is the model's (log 78). -/
def Obligations.ArrivalsFromMemory : Prop :=
  ∀ s : State,
    let d := s.due
    let c := d.ctx
    let x := s.ctx c
    let roomy := fun (q : Nat) =>
      (s.core q).lines.length + ((s.fillingLines q).filter fun l => !(s.core q).lines.contains l).length < 4096
    (d.id = 0 → d.arg ∉ (s.core (s.l1Of c d.arg)).lines → roomy (s.l1Of c d.arg) → ∃ t : State, exec .lineArrival s = .next t ∧
      (t.core (s.l1Of c d.arg)).lines = (s.core (s.l1Of c d.arg)).lines ++ [d.arg] ∧ t.ctxs = s.ctxs ∧ t.tags = s.tags ∧
      ∀ q, q ≠ s.l1Of c d.arg → t.core q = s.core q) ∧
    (∀ b, d.id ≠ 0 → x.blocks.find? (fun b => b.decl + 1 = d.id) = some b →
      let ea := BitVec.ofNat 64 d.arg
      let settled := fun (y : LoadBlock) => { y with want := y.want.filter (· ≠ d.arg) }
      let blocks := fun (f : LoadBlock → LoadBlock) => x.blocks.map fun y => if y.decl = b.decl then f (settled y) else y
      let marked := fun (t : TrapInfo) => blocks fun y => { y with bad := y.bad ++ [(d.arg, t)] }
      (∀ m e, ea.toNat / 2 ^ 56 = 0 → s.translate (s.who c) d.arg .r = .ok m e → roomy (s.l1Of c (m / 64)) →
        ∃ t : State, exec .lineArrival s = .next t ∧ (s.corr = [] → t.sys = s.sys) ∧
          (t.ctx c).blocks = blocks fun y => { y with lines := y.lines ++ [m / 64] }) ∧
      (ea.toNat / 2 ^ 56 ≠ 0 → ∃ t : State, exec .lineArrival s = .next t ∧ t.mem = s.mem ∧
        (t.ctx c).blocks = marked { kind := 0x03, pc := 0 }) ∧
      (∀ r l, ea.toNat / 2 ^ 56 = 0 → s.translate (s.who c) d.arg .r = .fault r l →
        ∃ t : State, exec .lineArrival s = .next t ∧ t.mem = s.mem ∧
          (t.ctx c).blocks = marked { kind := 0x05, pc := 0, faddr := ea, arg := BitVec.ofNat 64 (r + 16 * l) })) ∧
    (d.arg ∈ x.remAsk → Memory.wf s.mem = true →
      let w := d.arg / 2 ^ 23
      let key := bufferKey c w (d.arg % 2 ^ 23 * 64)
      ∃ t : State, exec .remoteGranuleArrival s = .next t ∧
        (t.ctx c).remote = d.arg :: x.remote ∧ (t.ctx c).remAsk = x.remAsk.erase d.arg ∧ (t.ctx c).vis = x.vis ∧
        (∀ c', c' ≠ c → t.ctx c' = s.ctx c') ∧ (∀ q, q < key ∨ key + 64 ≤ q → memRead t.mem q = memRead s.mem q) ∧
        let rejects := fun (no : TrapInfo) => (t.ctx c).raceAns = (2 ^ 60 + d.arg, no) :: x.raceAns
        let rr := BitVec.ofNat 32 (d.nats.getD 0 0)
        let rl := BitVec.ofNat 8 (d.nats.getD 1 0)
        ((s.win c w).mod = s.modNo →
          (∀ i, i < 64 → memRead t.mem (key + i) = memRead s.bankMem (spKey (s.win c w).peer (d.arg % 2 ^ 23 * 64) + i)) ∧
          (s.unpublished (s.win c w).peer (d.arg % 2 ^ 23 * 64) = false → (t.ctx c).raceAns = x.raceAns) ∧
          (s.unpublished (s.win c w).peer (d.arg % 2 ^ 23 * 64) = true → rejects { kind := 0x07, pc := 0, acc := 3 })) ∧
        ((s.win c w).mod ≠ s.modNo →
          (∀ i, i < 64 → (h : i < d.bytes.length) → memRead t.mem (key + i) = d.bytes[i]) ∧
          (d.wr = false → (t.ctx c).raceAns = x.raceAns) ∧
          (d.wr = true → rejects
            { kind := 0x07, pc := 0, arg := d.word, rrank := rr, rl := rl, acc := BitVec.ofNat 8 (d.nats.getD 2 0) }))) ∧
    (∀ ls : List Nat, d.wr = false → ls ≠ [] → (∀ l ∈ ls, l < jointCheck) → d.nats = ls.map (· + jointCheck) → d.nats ∈ x.raceAsk →
      (∀ l ∈ ls, s.conflict (s.party c) .load [s.gGran c (64 * l)] = none) → ∃ t : State, exec .raceCheckAnswer s = .next t ∧
      t.mem = s.mem ∧ t.tags = s.tags ∧ (t.ctx c).raceAns = x.raceAns ∧ (t.ctx c).checked = (ls.map fun l => (l, [])) ++ x.checked) ∧
    (d.wr = false → (∀ l ∈ d.nats, l < jointCheck) → d.nats ∈ x.raceAsk → ∃ t : State, exec .raceCheckAnswer s = .next t ∧ t.mem = s.mem ∧
      (t.ctx c).raceAsk = x.raceAsk.erase d.nats ∧ (t.ctx c).vis = x.vis ∧
      ((∀ l ∈ d.nats, s.conflict (s.party c) .load [s.gGran c (64 * l)] = none) →
        t.tags = (s.register (s.party c) .load (d.nats.map fun l => s.gGran c (64 * l))).tags ∧ (t.ctx c).raceAns = x.raceAns ∧
        (t.ctx c).checked = (d.nats.map fun l => (l, s.gbytes (64 * l) 64)) ++ x.checked) ∧
      (∀ pre l post g u, d.nats = pre ++ l :: post → (∀ k ∈ pre, s.conflict (s.party c) .load [s.gGran c (64 * k)] = none) →
        s.conflict (s.party c) .load [s.gGran c (64 * l)] = some (g, u) → t.tags = s.tags ∧
        (t.ctx c).checked = ((d.nats.filter (· ≠ l)).map fun k => (k, s.gbytes (64 * k) 64)) ++ x.checked ∧
        (t.ctx c).raceAns = (l, { kind := 0x07, pc := 0, arg := u.arg, rrank := u.far.1, rl := u.far.2 }) :: x.raceAns)) ∧
    (d.arg ∈ x.walkAsk → ∃ t : State, exec .translationWalkComplete s = .next t ∧ (s.corr = [] → t.mem = s.mem) ∧
      (t.ctx c).walkAsk = x.walkAsk.erase d.arg ∧ (t.ctx c).walked = d.arg :: x.walked ∧
      (∀ e, s.walk (s.who c) (4096 * d.arg) = .ok e → e ∈ t.tlb ∧ ∀ y ∈ s.tlb, y ∈ t.tlb) ∧
      (∀ r l, s.walk (s.who c) (4096 * d.arg) = .bad r l → t.tlb = s.tlb)) ∧
    (∀ l, s.launchOf c = some l → d.arg < x.owned → (∀ k ∈ x.cards, k.pos ≠ d.arg) →
      let ea := BitVec.ofNat 64 (l.pkt.cbase + 64 * s.cardIndex c d.arg)
      ∃ (t : State) (k : Card), exec .cardPrefetch s = .next t ∧ (t.ctx c).cards = x.cards ++ [k] ∧ k.pos = d.arg ∧
        k.gidx = s.cardIndex c d.arg ∧ (t.ctx c).vis = x.vis ∧ (∀ c', c' ≠ c → t.ctx c' = s.ctx c') ∧
        (∀ m e, s.translate (s.who c) ea.toNat .r = .ok m e → e.sync = true → s.poisoned m 64 = none →
          k.bad = none ∧ k.words = (List.range 8).map fun (i : Nat) => BitVec.ofNat 64 (t.gnat (m + 8 * i) 8)) ∧
        (∀ m e, s.translate (s.who c) ea.toNat .r = .ok m e → e.sync = false → s.poisoned m 64 = none →
          (s.inRd c ea.toNat = false → k.bad = some { kind := 0x07, pc := 0, faddr := ea }) ∧
          (s.inRd c ea.toNat = true → s.conflict (s.party c) .load [s.gGran c m] = none →
            k.bad = none ∧ k.words = (List.range 8).map (fun (i : Nat) => BitVec.ofNat 64 (t.gnat (m + 8 * i) 8)) ∧
            t.tags = (s.register (s.party c) .load [s.gGran c m]).tags) ∧
          ∀ g u, s.inRd c ea.toNat = true → s.conflict (s.party c) .load [s.gGran c m] = some (g, u) →
            k.bad = some { kind := 0x07, pc := 0, faddr := ea, arg := u.arg, rrank := u.far.1, rl := u.far.2 } ∧ t.tags = s.tags) ∧
        (∀ r v, s.translate (s.who c) ea.toNat .r = .fault r v →
          k.bad = some { kind := 0x05, pc := 0, faddr := ea, arg := BitVec.ofNat 64 (r + 16 * v) }))

/-- R39, R360, R35, R215, R124 and R34: the watchdog's trap is taken on the context's due bundle, and so are the deferred ones,
in the order of their operations' release; a wait whose bound is reached makes its context READY; a halting context whose last results and operations are done becomes DONE
with nothing withheld and no record kept; a die whose contexts are DONE adds the cards its clusters own to the completion
word, which retires the launch when it reaches N; a word that cannot be corrected is never taken as data: the error is logged, and the
sum does not come about, which is the model's reading (R427; log 72). -/
def Obligations.ContextsExpireAndEnd : Prop :=
  ∀ s : State,
    let d := s.due
    let c := d.ctx
    let x := s.ctx c
    exec .watchdogExpiry s = .next (s.takeTrap c [{ kind := 0x08, pc := x.pc }]) ∧
    (∀ t ts, x.deferred = t :: ts →
      exec .deferredTrap s = .next ((s.modCtx c fun y => { y with deferred := [] }).takeTrap c (inRelease (t :: ts)))) ∧
    (x.status = .blocked .barrier ∨ x.status = .blocked .platform →
      exec .waitBoundExpiry s = .next (s.setCtx c { x with status := .ready })) ∧
    (x.status = .halting → x.deferred = [] →
      let busy := x.pend ≠ [] ∨ x.winq ≠ [] ∨ (∃ k ∈ s.clusters, ∃ r ∈ k.2.barq, r.ctx = c) ∨
        (∃ r ∈ (s.cluster (clOf c)).prels, r.ctx = c) ∨ (∃ e ∈ s.l2q, e.ctx = c) ∨ ∃ a ∈ s.agenda, a.ev = .famoArrival ∧ a.due.ctx = c
      (busy → exec .contextDone s = .next (s.schedule (s.now + 1) .contextDone d)) ∧
      (¬busy → ∃ t : State, exec .contextDone s = .next t ∧ (t.ctx c).status = .done ∧ (t.ctx c).wb = [] ∧ (t.ctx c).evq = [] ∧
        (t.ctx c).vis.locks = [] ∧ (t.ctx c).vis.sreg = x.vis.sreg ∧ ∀ c', c' ≠ c → t.ctx c' = s.ctx c')) ∧
    (∀ l a, s.launch? d.id = some l → l.st = .running ∨ l.st = .preempting → d.arg ∉ l.contrib →
      (∀ u ∈ l.ctxids, dieOf u = d.arg → (s.ctx u).status = .done ∧ (∀ y ∈ s.cmds, y.ctx ≠ u) ∧
        (∀ o ∈ (s.core (coreOf u)).mx, o.ctx ≠ u) ∧ s.underWay u = false) →
      s.cwordAt l = some a →
      let total := (l.clus.zipIdx.map fun kg => if kg.1 / 6 = d.arg then ownedCount l.pkt.pol l.pkt.n l.clus.length kg.2 else 0).sum
      let sum := (s.gnat a 8 + total) % 2 ^ 64
      let u := s.modLaunch l.id fun y => { y with contrib := d.arg :: y.contrib }
      let t := (u.write (runAt a (leBytes 8 sum))).heatCword l
      (s.sound (a / 64 * 64) → (sum ≠ l.pkt.n → exec .dieCompletion s = .next t) ∧
        (sum = l.pkt.n → exec .dieCompletion s = .next (t.retire l))) ∧
      ∀ k, s.poisoned (a / 64 * 64) 64 = some k → exec .dieCompletion s = .next ((u.memError d.arg k).heatCword l))

/-- R216 to R219, R209, R214, R264 and R319: the peer takes a window write in order and it lands, but for the bytes that its
context has stored over since (log 74), or leaves the module, which answers later, or is rejected there under a deferred trap and
its window's bit of the batch's error bitmap; a write of another module's context lands, or is rejected, and is answered; a
summary ends the wait for its peer, and the bound of the summaries that for all of them, each window of the batch to a peer that
did not reply in error; another module's context gets the summary of a batch of its writes here once all of them have landed or failed; a released `famo` is added at its home, or gathered in deterministic
mode; the barrier unit applies an operation that has arrived and takes it from its queue; `prel`s kept by a sparse hold are
applied once it has ended. The bytes of a landed write also replace those that its context's remote buffer holds of them (R195). The
model's choices: a bound of 200 cycles on the acceptance and landing, which R216 does not give (log 1); the form of writes from and
answers of other modules (log 78); a summary for each peer of the batch (log 31); the rejection of an atomic at its home as a
deferred trap (log 43). -/
def Obligations.WritesSummariesAndBarriersArrive : Prop :=
  ∀ s : State,
    let d := s.due
    let c := d.ctx
    let x := s.ctx c
    let held := fun (q : Nat) => ∃ id ∈ x.remote,
      bufferKey c (id / 2 ^ 23) (id % 2 ^ 23 * 64) ≤ q ∧ q < bufferKey c (id / 2 ^ 23) (id % 2 ^ 23 * 64) + 64
    let landsAt := fun (k : Nat) (bs : List (Nat × Byte)) (but : Nat → Prop) (s t : State) =>
      let keys := bs.map fun p => (spKey k p.1, p.2)
      (∀ q, q ∉ keys.map (·.1) → ¬but q → memRead t.mem q = memRead s.mem q) ∧
      ∀ pre q b post, keys = pre ++ (q, b) :: post → q ∉ post.map (·.1) → memRead t.mem q = b
    let rejected := fun (e : WinWrite) (t : State) (a : Nat) (acc : BitVec 8) (arg : Word) (rr : BitVec 32) (rl : BitVec 8) =>
      (x.status ≠ .done → x.status ≠ .idle → (t.ctx c).deferred = x.deferred ++
        [{ kind := 0x07, pc := e.pc, faddr := BitVec.ofNat 64 ((0x20 + e.win) * 2 ^ 56 + a), arg := arg,
           slot := BitVec.ofNat 8 e.slot, acc := acc, rrank := rr, rl := rl, ord := e.ord, deferred := true }]) ∧
      ∀ b ∈ (t.ctx c).batches, b.id = e.batch → b.errs &&& (1#32 <<< e.win) = 1#32 <<< e.win
    let isOf := fun (batch : Nat) (y : FarSum) => y.rank = d.nats.getD 0 0 && y.l = d.nats.getD 1 0 && y.batch = batch
    let sumOf := fun (batch : Nat) => (s.farSums.find? (isOf batch)).getD
      { rank := d.nats.getD 0 0, l := d.nats.getD 1 0, batch := batch, landed := 0, failed := false, asked := none }
    (∀ e, x.winq.find? (fun e => decide (e.win = d.arg) && decide (e.st < 2)) = some e → ∃ t : State,
      exec .windowWriteAccept s = .next t ∧ t.mem = s.mem ∧
      (t.ctx c).winq = x.winq.replace e { e with st := 2 } ∧
      ∃ a, t.agenda = s.agenda ++ [a] ∧ a.ev = .windowWriteLand ∧ s.now < a.at_ ∧ a.at_ ≤ s.now + 200) ∧
    (d.arg2 = 0 → ∀ e, x.winq.find? (fun e => decide (e.win = d.arg) && decide (e.st = 2)) = some e → ∃ t : State,
      exec .windowWriteLand s = .next t ∧
      ((s.win c e.win).mod ≠ s.modNo → t.mem = s.mem ∧ t.tags = s.tags ∧ (t.ctx c).winq = x.winq.replace e { e with st := 3 } ∧
        t.out = s.out ++ [.window (localRank (s.win c e.win).peer + (s.win c e.win).mod * 512) (s.rank (clOf c)) x.l e.batch e.bytes]) ∧
      ((s.win c e.win).mod = s.modNo →
        let k := (s.win c e.win).peer
        let rest := fun (q : List WinWrite) => q.map fun y => { y with dead := [] }
        let new := e.bytes.filter fun p => decide (p.1 ∉ e.dead)
        rest (t.ctx c).winq = rest (x.winq.erase e) ∧
        (s.landCheck (s.party c) k e.bytes = none → Memory.wf s.mem = true → s.migs = [] →
          (∀ p ∈ e.bytes, p.1 < 2 ^ 23 ∧ s.isBarrier k p.1 = false) → landsAt k new held s t ∧
          ((∀ id ∈ x.remote, id % 2 ^ 23 < 2 ^ 17) → ∀ id ∈ x.remote, ∀ i, i < 64 → ∀ pre p post, new = pre ++ p :: post →
            p.1 ∉ post.map (·.1) → s.windowKey c (id / 2 ^ 23) (id % 2 ^ 23 * 64 + i) = spKey k p.1 →
            memRead t.mem (bufferKey c (id / 2 ^ 23) (id % 2 ^ 23 * 64 + i)) = p.2)) ∧
        ∀ a acc g, s.landCheck (s.party c) k e.bytes = some (a, acc, g) → t.mem = s.mem ∧ t.tags = s.tags ∧
          rejected e t a acc g.arg g.far.1 g.far.2)) ∧
    (d.arg2 = 1 →
      let bytes := runAt d.arg d.bytes
      let p := Party.far (d.nats.getD 0 0) (d.nats.getD 1 0)
      let was := sumOf (d.nats.getD 3 0)
      let counted := fun (t : State) (no : Bool) =>
        { was with landed := was.landed + 1, failed := was.failed || no } ∈ t.farSums ∧ ∀ y ∈ s.farSums, ¬isOf (d.nats.getD 3 0) y → y ∈ t.farSums
      let answer := fun (a : Nat) (no : Option (BitVec 8 × Word × BitVec 32 × BitVec 8)) =>
        OutMsg.landed (d.nats.getD 0 0) (d.nats.getD 1 0) d.id a no
      (∀ y ∈ s.farSums, y.asked = none) → ∃ t : State, exec .windowWriteLand s = .next t ∧
      let sync := if d.nats.getD 2 0 = 1 then bytes.find? fun b => s.syncAt d.id b.1 else none
      (s.landCheck p d.id bytes = none → sync = none → Memory.wf s.mem = true → s.migs = [] →
        (∀ b ∈ bytes, s.isBarrier d.id b.1 = false) →
        landsAt d.id bytes (fun _ => False) s t ∧ t.tags = (s.register p .store (s.landGrans d.id bytes)).tags ∧
        t.out = s.out ++ [answer d.arg none] ∧ counted t false) ∧
      (∀ b, s.landCheck p d.id bytes = none → sync = some b →
        t.mem = s.mem ∧ t.tags = s.tags ∧ t.out = s.out ++ [answer b.1 (some (1, Tag.none.arg, Tag.none.far.1, Tag.none.far.2))] ∧
        counted t true) ∧
      ∀ a acc g, s.landCheck p d.id bytes = some (a, acc, g) →
        t.mem = s.mem ∧ t.tags = s.tags ∧ t.out = s.out ++ [answer a (some (acc, g.arg, g.far.1, g.far.2))] ∧ counted t true) ∧
    (d.arg2 = 1 →
      let was := sumOf (d.nats.getD 2 0)
      let rest := s.farSums.filter fun y => !isOf (d.nats.getD 2 0) y
      exec .batchSummary s = .next (if d.nats.getD 3 0 ≤ was.landed
        then { s with farSums := rest, out := s.out ++ [.summary (d.nats.getD 0 0) (d.nats.getD 1 0) (d.nats.getD 2 0) was.failed] }
        else { s with farSums := rest ++ [{ was with asked := some (d.nats.getD 3 0) }] })) ∧
    (d.arg2 = 2 → ∀ e, x.winq.find? (fun e => decide (e.win = d.arg) && decide (e.st = 3)) = some e → ∃ t : State,
      exec .windowWriteLand s = .next t ∧ (t.ctx c).winq = x.winq.erase e ∧ t.tags = s.tags ∧
      (d.wr = false → (t.ctx c).deferred = x.deferred ∧
        (Memory.wf s.mem = true → ∀ q, ¬held q → memRead t.mem q = memRead s.mem q)) ∧
      (d.wr = true → t.mem = s.mem ∧ rejected e t (d.nats.getD 0 0) (BitVec.ofNat 8 (d.nats.getD 1 0)) d.word (BitVec.ofNat 32 (d.nats.getD 2 0))
        (BitVec.ofNat 8 (d.nats.getD 3 0)))) ∧
    (∀ b, x.batches.find? (·.id = d.id) = some b →
      (d.arg2 ≠ 1 → ∃ t : State, exec .batchSummary s = .next t ∧ t.mem = s.mem ∧ ∀ y ∈ (t.ctx c).batches, y.id = d.id →
        ∃ z ∈ x.batches, z.id = d.id ∧ y.waiting = z.waiting.erase d.arg ∧
          y.errs = if d.wr then z.errs ||| (1#32 <<< d.arg) else z.errs) ∧
      (∃ t : State, exec .batchSummaryBoundExpiry s = .next t ∧ t.mem = s.mem ∧ ∀ y ∈ (t.ctx c).batches, y.id = d.id →
        y.waiting = []) ∧
      (x.batches = [b] → b.closed = true → x.status = .ready →
        let last := fun (e : BitVec 32) (t : State) => (t.ctx c).batches = [] ∧ (t.ctx c).evq = x.evq ++
          [{ seq := 0, kind := 0x09, detail := BitVec.ofNat 128 (e.toNat + b.tag.toNat * 2 ^ 32), key := b.key }]
        (d.arg2 ≠ 1 → b.waiting = [d.arg] → ∃ t : State, exec .batchSummary s = .next t ∧
          last (if d.wr then b.errs ||| (1#32 <<< d.arg) else b.errs) t) ∧
        ∃ t : State, exec .batchSummaryBoundExpiry s = .next t ∧
          last ((b.touched.filter fun w => b.waiting.any (s.samePeer c w)).foldl (fun e w => e ||| (1#32 <<< w)) b.errs) t)) ∧
    (let ty : FTy := if d.wr then .bf16 else .f32
     let ea := BitVec.ofNat 64 d.arg
     let eas := eaRun ea (FTy.bytes ty)
     let maps := tlbOfNats (d.nats.drop 4)
     let v : State := if maps = [] then s else { s with fixed := maps }
     let back := fun (t : State) => if maps = [] then t else { t with fixed := [] }
     let cold := x.remote = [] ∧ ∀ va m, spaceOf ea = .global va → v.page? (v.who c) va = some m → m.leaf.toNat / 2 ^ 10 % 2 = 0
     (∀ f, v.homeCheck c .atomic (BitVec.ofNat 64 (d.nats.getD 0 0)) (d.nats.getD 1 0) eas = some f →
       exec .famoArrival s = .next (back (v.defer c { f with ord := d.nats.getD 2 0 }))) ∧
     (v.homeCheck c .atomic (BitVec.ofNat 64 (d.nats.getD 0 0)) (d.nats.getD 1 0) eas = none → ∃ t : State,
       exec .famoArrival s = .next t ∧ (t.ctx c).vis = x.vis ∧ (∀ c', c' ≠ c → t.ctx c' = s.ctx c') ∧
       (s.detOf c = true → t.mem = s.mem ∧ t.ctxs = s.ctxs ∧ (t.cluster (clOf c)).famo = (s.cluster (clOf c)).famo ++
         [{ loc := d.arg % 2 ^ 23, bar := d.word.toNat % 2 ^ 23, ty := ty, l := x.l,
            x := BitVec.ofNat 32 d.arg2, ord := d.nats.getD 2 0, ctx := c }]) ∧
       (∀ k, s.detOf c = false → d.nats[3]? = some k → cold → t.mem = (s.famoApply k ty (BitVec.ofNat 32 d.arg2)).mem))) ∧
    (∀ r, (s.cluster d.id).barq.filter (·.addr = d.arg) = [r] → r.at_ ≤ s.now → exec .barrierUnitApply s =
      .next ((s.modCluster d.id fun y => { y with barq := y.barq.erase r }).barApply d.id d.arg r)) ∧
    ((s.plat d.id d.arg).holds = [] → exec .prelHoldApply s = .next
      (((s.cluster d.id).prels.filter (·.pn = d.arg)).foldl (fun s r => s.applyPrel { r with cy := s.now })
        (s.modCluster d.id fun y => { y with prels := y.prels.filter (·.pn ≠ d.arg) })))

/-- R221, R223, R234, R238, R239, R252, R254, R255 and R264: a fill that completes writes its bytes into the shadow and
publishes or is held; one that fails zeroes its extent and gives the platform back; each builds the command's record, which
then enters its context's queue. A copy reads its rows one after another and ends so with the last, or at the first that it
cannot read. A matrix operation counts its malformed codes as it reads, feeds for F cycles and has its result 96 + F after its
start; its result replaces its accumulator and no other, and ends a sparse operation's holds; a fault found while it streams is kept for its
context's next due bundle. R231 fixes no order among the rows of a copy: ascending, each a step of its own, is the model's choice
(log 1); so is that a matrix operation reads and counts all its blocks in its first cycle (log 72). -/
def Obligations.FillsAndMatrixOperationsEnd : Prop :=
  ∀ s : State,
    let d := s.due
    (∀ x, s.cmd? d.id = some x → x.ended = false →
      let k := clOf x.ctx
      let pn := (x.pn.getD 0).toNat
      let f := (s.fillWork x).1
      let u := (s.fillWork x).2
      let built := fun (t : State) (r : Record → Prop) => ∃ y, t.cmd? x.id = some y ∧ y.ended = true ∧ r y.record
      let zeros := fun (u : State) => memPut u.mem ((f.extent.filter fun a => !u.consumed k a u.now).map fun a => (spKey k a, 0))
      ((∀ ch ti raw a0, x.k ≠ .copy ch ti raw a0) → (∀ m ∈ u.msgs, m.post ≠ some x.id) → u.cmd? x.id = some x →
        (f.status = 0 → (∀ p ∈ f.bytes, u.consumed k p.1 u.now = false) → ∃ t : State, exec .fillComplete s = .next t ∧
          t.mem = memPut u.mem (f.bytes.map fun p => (spKey k p.1, p.2)) ∧ t.plat k pn = (u.plat k pn).fillCompleted ∧
          built t fun r => r = { f.record with pfl := if (u.plat k pn).st = .draining then 1 else 0 }) ∧
        (f.status ≠ 0 → ∃ t : State, exec .fillComplete s = .next t ∧ t.mem = zeros u ∧ t.plat k pn = (u.plat k pn).fillFailed ∧
          built t fun r => r.status = f.status)) ∧
      (∀ ch ti raw a0 r, x.k = .copy ch ti raw a0 → d.arg = r → r < (tmplOf raw).rows →
        let tm := tmplOf raw
        (∀ bs fl v, s.copyRow x tm a0 r = .row bs fl v → v.cmd? x.id = some x →
          let all := x.out ++ bs
          (r + 1 < tm.rows → ∃ (t : State) (y : Cmd), exec .fillComplete s = .next t ∧ t.mem = v.mem ∧ t.clusters = v.clusters ∧
            t.cmd? x.id = some y ∧ y.out = all ∧ y.ended = false ∧
            ∃ a, t.agenda = v.agenda ++ [a] ∧ a.ev = .fillComplete ∧ a.due.id = x.id ∧ a.due.arg = r + 1 ∧ s.now ≤ a.at_) ∧
          (r + 1 = tm.rows → (∀ m ∈ v.msgs, m.post ≠ some x.id) → (∀ p ∈ all, v.consumed k p.1 v.now = false) → ∃ t : State,
            exec .fillComplete s = .next t ∧ t.mem = memPut v.mem (all.map fun p => (spKey k p.1, p.2)) ∧
            t.plat k pn = (v.plat k pn).fillCompleted ∧ built t fun z => z.status = 0 ∧ z.kind = 0x01 ∧ z.seq = x.seq)) ∧
        (∀ st at_ v, s.copyRow x tm a0 r = .bad st at_ v → st ≠ 0 → v.cmd? x.id = some x → (∀ m ∈ v.msgs, m.post ≠ some x.id) →
          ∃ t : State, exec .fillComplete s = .next t ∧
            t.mem = memPut v.mem (((v.copyExtent x tm).filter fun a => !v.consumed k a v.now).map fun a => (spKey k a, 0)) ∧
            t.plat k pn = (v.plat k pn).fillFailed ∧ built t fun z => z.status = st)) ∧
      ((∀ m ∈ s.msgs, m.post ≠ some x.id) → ∃ t : State, exec .fillFail s = .next t ∧ t.plat k pn = (s.plat k pn).fillFailed ∧
        built t fun r => r.status = BitVec.ofNat 8 d.arg)) ∧
    (∀ x, s.cmd? d.id = some x → ∃ t : State, exec .eventRecordArrival s = .next t ∧ t.mem = s.mem ∧
      t.cmds = s.cmds.filter (·.id ≠ x.id) ∧ (∀ c', c' ≠ x.ctx → t.ctx c' = s.ctx c') ∧
      (t.ctx x.ctx).evq = if (s.ctx x.ctx).status = .done ∨ (s.ctx x.ctx).status = .idle then (s.ctx x.ctx).evq
        else (s.ctx x.ctx).evq ++ [x.record]) ∧
    (let q := d.arg
     ∀ o, (s.core q).mx.find? (·.id = d.id) = some o →
      (∃ t : State, exec .matrixFeedEnd s = .next t ∧ t.mem = s.mem ∧ (t.core q).acc = (s.core q).acc ∧
        (t.core q).mx = (s.core q).mx.map fun y => if y.id = d.id then { y with fed := true } else y) ∧
      ((∀ p ∈ (s.core q).mx.takeWhile (·.id ≠ o.id), p.acc = o.acc → p.result = none) → ∃ t : State,
        exec .matrixResult s = .next t ∧ t.mem = s.mem ∧ (t.core q).mx = (s.core q).mx.filter (·.id ≠ o.id) ∧
        (o.acc < 4 → (t.core q).acc.getD o.acc Acc.launch =
          { (s.core q).acc.getD o.acc Acc.launch with c := o.result.getD 0, flags := o.flags }) ∧
        (∀ a, a ≠ o.acc → (t.core q).acc.getD a Acc.launch = (s.core q).acc.getD a Acc.launch) ∧
        ∀ pn, (t.plat (clOf o.ctx) pn).holds =
          if o.sparse then (s.plat (clOf o.ctx) pn).holds.filter (· ≠ o.id) else (s.plat (clOf o.ctx) pn).holds) ∧
      (∀ f, o.fault = some f → (s.ctx o.ctx).status = .ready → ∃ t : State, exec .matrixStreamFault s = .next t ∧
        (t.ctx o.ctx).deferred = (s.ctx o.ctx).deferred ++ [{ f with deferred := true }] ∧ t.mem = s.mem) ∧
      (o.sparse = false →
        let v := (s.schedule (s.now + ceilDiv o.k o.rho) .matrixFeedEnd { id := d.id, arg := q }).schedule
          (s.now + (96 + ceilDiv o.k o.rho)) .matrixResult { id := d.id, arg := q }
        let was := (s.core q).before o
        let cut := fun (xs : List (List FVal)) => xs.map (chunksOf o.chunk (o.k / o.chunk + 1))
        ∀ ra ma u rb mb w, State.mxRows o o.aty o.abase o.astr v 32 = .ok ra ma u →
          State.mxRows o o.bty o.bbase o.bstr u 64 = .ok rb mb w →
          let acc := (w.core q).acc.getD o.acc Acc.launch
          ∃ t : State, exec .matrixOperationStart s = .next t ∧ t.agenda = w.agenda ∧ t.mem = w.mem ∧
            (t.core q).acc = (w.core q).acc.setIfInBounds o.acc { acc with mal := satAdd32 (if o.z then 0 else acc.mal) (ma + mb) } ∧
            (t.core q).mx = (w.core q).mx.map fun y => if y.id = d.id then
              { y with result := some (accumulate was.c (cut ra) (cut rb)).1,
                       flags := was.flags ||| (accumulate was.c (cut ra) (cut rb)).2 } else y))

/-- R274, R277, R279 to R288: a lookup's dispatcher reads its arrays and routes every entry to its row's Depot; a source's
partials are merged into the bags, and the last one has the entries of the bags without fault counted and ends the fill; a
promotion that is evicted gives its entry to the row that waits first, and one that is published makes a row readable there, with where
its home stands (R20, R281); a
sketch decays; an update's pairs are sorted by row, in batch order within a row, those out of range are dropped and counted, each row takes its step
once, behind that of an earlier update, is skipped for
its format or fails with its access's STATUS, and the record follows the last with the counts of R288. The model's choices: the entries are counted once the
last partial is in, and rows that want one entry wait in its list (log 22); a row that fails is left whole, the first such STATUS
standing in the record (log 23); a lookup's fill ends within an eighth of the time that it has left (log 1). -/
def Obligations.LookupsAndUpdatesProceed : Prop :=
  ∀ s : State,
    let d := s.due
    (∀ x blk mean bf n64 t offs idx st u, s.cmd? d.id = some x → x.k = .pool blk mean bf n64 → s.table? x.ctx (poolBlk blk).tid = some t →
      s.readArrays x (poolBlk blk) n64 = ((some (offs, idx), st), u) → ∃ (v : State) (j : Job), exec .lookupDispatch s = .next v ∧
        v.jobs = u.jobs ++ [j] ∧ j.id = x.id ∧ j.cmd = x.id ∧ v.mem = u.mem ∧
        j.await = (j.routed.map (·.depot)).dedup ∧ j.bags.length = (poolBlk blk).nbags ∧
        ∀ r ∈ j.routed, r.depot = t.depotOf r.row ∧ r.hot = none ∧ r.bag < (poolBlk blk).nbags) ∧
    (∀ j x t tid n, s.jobs.find? (·.id = d.id) = some j → s.cmd? j.cmd = some x → x.charge = some (tid, n) →
      s.table? x.ctx tid = some t →
      (∃ u : State, exec .depotGather s = .next u ∧ u.sketches = s.sketches ∧ ∀ y, u.jobs.find? (·.id = d.id) = some y →
        (∀ r ∈ y.routed, r.depot = d.arg → r.hot ≠ none) ∧
        y.served = j.served ++ j.routed.filter fun r => r.depot = d.arg && r.hot.isNone) ∧
      ∃ u : State, exec .sidingPartial s = .next u ∧ ∀ y, u.jobs.find? (·.id = d.id) = some y →
        ∀ r ∈ y.routed, ¬(r.depot = d.arg2 ∧ ∃ p, r.hot = some p ∧ p / 16 = d.arg)) ∧
    (∀ j, s.jobs.find? (·.id = d.id) = some j →
      let got := { j.take (aget [] j.inbox d.arg) with await := j.await.erase d.arg, inbox := j.inbox.filter (·.1 ≠ d.arg) }
      (got.await ≠ [] → exec .mergePartialArrival s = .next (s.modJob d.id fun _ => got)) ∧
      let faulty := fun (b : Nat) => ∃ g ∈ got.bags, g.part.bag = b ∧ g.part.fault.isSome
      (∀ x, got.await = [] → s.cmd? j.cmd = some x → j.shard = none → (∀ r ∈ j.served, faulty r.bag) → ∃ t : State,
        exec .mergePartialArrival s = .next t ∧ t.sketches = s.sketches ∧ t.jobs = (s.modJob d.id fun _ => { got with served := [] }).jobs ∧
        ∃ a, t.agenda = s.agenda ++ [a] ∧ a.ev = .fillComplete ∧ a.due = { id := x.id } ∧
          s.now < a.at_ ∧ a.at_ ≤ s.now + max 1 ((x.deadline - s.now) / 8)) ∧
      (∀ x t tid n r, got.await = [] → s.cmd? j.cmd = some x → x.charge = some (tid, n) → s.table? x.ctx tid = some t →
        j.served = [r] → ¬faulty r.bag → (s.sketch r.depot t.hgrp).total + 1 < 2 ^ 20 → ∃ u : State,
        exec .mergePartialArrival s = .next u ∧ u.sketch r.depot t.hgrp = (s.sketch r.depot t.hgrp).count tid r.row)) ∧
    (∀ h n ns p, s.hot.find? (fun h => h.isAt d.arg d.arg2 d.id) = some h → h.pub = some p → h.next = n :: ns → ∃ t : State,
      exec .promotionEviction s = .next t ∧ t.mem = s.mem ∧
      t.hot = s.hot.map fun y => if y = h then { h with what := n, pub := none, next := ns } else y) ∧
    (∀ h, s.hot.find? (fun h => h.isAt d.arg d.arg2 d.id) = some h →
      (h.pub.isSome = true → exec .promotionPublish s = .next s) ∧
      (∀ b u, h.pub = none → s.jobs = [] → h.what.nblk = 1 →
        s.rowBlk 0 { asid := h.what.asid, part := h.what.part, exec := h.what.exec } h.what.va = (some b, u) →
        let w := u.write (runAt ((u.region d.arg).1 + d.arg2 * 65536 + d.id * 4096) (leBytes 64 b))
        let home := (({ w with nextId := w.nextId + 1 } : State).page?
          { asid := h.what.asid, part := h.what.part, exec := h.what.exec } h.what.va).map (·.addr h.what.va)
        ∃ t : State, exec .promotionPublish s = .next t ∧ t.mem = w.mem ∧
          t.hot = w.hot.map fun y => if y = h then { h with pub := some w.nextId, what := { h.what with at_ := home.toList } } else y) ∧
      (∀ u, h.pub = none → s.jobs = [] → h.what.nblk = 1 →
        s.rowBlk 0 { asid := h.what.asid, part := h.what.part, exec := h.what.exec } h.what.va = (none, u) →
        ∃ t : State, exec .promotionPublish s = .next t ∧ t.mem = u.mem ∧
          (h.next = [] → t.hot = u.hot.filter (· ≠ h)) ∧
          ∀ n ns, h.next = n :: ns → t.hot = u.hot.map fun y => if y = h then { h with what := n, pub := none, next := ns } else y)) ∧
    (let k := s.sketch d.arg d.arg2
     ∃ t : State, exec .heatSketchDecay s = .next t ∧ (t.sketch d.arg d.arg2).total = 0 ∧ t.mem = s.mem ∧
      (∀ p, p ∈ (t.sketch d.arg d.arg2).cnt ↔ p.2 ≠ 0 ∧ ∃ n, (p.1, n) ∈ k.cnt ∧ p.2 = n / 2) ∧
      ∀ a b, a ≠ d.arg ∨ b ≠ d.arg2 → t.sketch a b = s.sketch a b) ∧
    (∀ x blk bf n64, s.cmd? d.id = some x → x.k = .upd blk bf n64 → s.table? x.ctx (updBlk blk).tid = none →
      exec .updateDispatch s = .next (s.finish x.id { x.record with status := 0x11, detail := 0xFFFFFFFF <<< 64 })) ∧
    (∀ x blk bf n64 t ib (g : Nat → List Byte) (st : Nat → State), s.cmd? d.id = some x → x.k = .upd blk bf n64 →
      s.table? x.ctx (updBlk blk).tid = some t →
      let b := updBlk blk
      s.cmdRead x b.ibase (idxSize n64 * b.npair) = .ok ib (st 0) →
      (∀ p, p < b.npair → (st p).cmdRead x (b.gbase + BitVec.ofNat 64 (p * b.gstr)) (t.w * gradSize bf) = .ok (g p) (st (p + 1))) →
      let w := st b.npair
      let row := fun (p : Nat) => ((pieces (idxSize n64) b.npair ib).map leNat).getD p 0
      let grad := fun (p : Nat) => (pieces (gradSize bf) t.w (g p)).map fun y => BitVec.ofNat 32 (if bf then leNat y * 2 ^ 16 else leNat y)
      let dropped := (List.range b.npair).filter fun p => decide (t.rows ≤ row p)
      ∃ (u : State) (rows : List (Nat × List (List (BitVec 32)))) (due : List Agendum), exec .updateDispatch s = .next u ∧ u.mem = w.mem ∧
        u.upds = w.upds ++ [{ id := x.id, nrow := 0, ndrop := dropped.length, fdrop := dropped.headD 0xFFFFFFFF, nskip := 0, fail := 0,
                              flags := 0, rows := rows }] ∧
        (rows.map (·.1)).Pairwise (· < ·) ∧
        (∀ r gs, (r, gs) ∈ rows ↔ r < t.rows ∧ gs ≠ [] ∧ gs = ((List.range b.npair).filter fun p => row p = r).map grad) ∧
        u.agenda = w.agenda ++ due ∧
        due.map (·.due) = (if rows = [] then [2 ^ 64] else rows.map (·.1)).map (fun r => { id := x.id, arg := r }) ∧
        ∀ a ∈ due, a.ev = .turntableRowUpdate ∧ w.now < a.at_) ∧
    ∀ x u blk bf n64 t gs, s.cmd? d.id = some x → s.upds.find? (·.id = d.id) = some u → x.k = .upd blk bf n64 →
      s.table? x.ctx (updBlk blk).tid = some t →
      (s.updBefore x (updBlk blk).tid d.arg = true → ∃ v : State, exec .turntableRowUpdate s = .next v ∧ v.mem = s.mem ∧
        v.upds = s.upds ∧ { at_ := s.now, ev := .turntableRowUpdate, due := { id := d.id, arg := d.arg } } ∈ v.agenda) ∧
      (s.updBefore x (updBlk blk).tid d.arg = false → u.rows.find? (·.1 = d.arg) = some (d.arg, gs) →
        let y := s.updateRow x t (updBlk blk).tid (updBlk blk).step d.arg gs
        let left := u.rows.filter (·.1 ≠ d.arg)
        let z : Upd := match y.1 with
          | .done fl => { u with rows := left, nrow := u.nrow + 1, flags := u.flags ||| BitVec.ofNat 6 fl }
          | .skipped => { u with rows := left, nskip := u.nskip + 1 }
          | .failed st => { u with rows := left, fail := if u.fail = 0 then st else u.fail }
        (left ≠ [] → exec .turntableRowUpdate s =
          .next { y.2 with upds := y.2.upds.map fun q => if q.id = d.id then z else q }) ∧
        (left = [] → exec .turntableRowUpdate s =
          .next (({ y.2 with upds := y.2.upds.filter (·.id ≠ d.id) } : State).finish d.id { x.record with
            status := if z.fail ≠ 0 then z.fail else if z.ndrop ≠ 0 then 0x20 else if z.nskip ≠ 0 then 0x21 else 0
            flags := z.flags
            detail := BitVec.ofNat 128 (z.nrow + z.ndrop * 2 ^ 32 + z.fdrop * 2 ^ 64 + min z.nskip 0xFFFF * 2 ^ 96) })))

/-- R294 to R301, R303 and R306 to R311: a message's header that reaches its Junction is matched to the first post that
takes it, kept as unexpected where there is room, or ends its send; a post is matched to the first unexpected message that
it takes, or listed; a cancel, a timeout and an expired header withdraw what is still unmatched, and a cancel of a post that has matched,
its payload landed or not, changes nothing and says so; a payload read, here or by the
module that sent it, completes the post's fill, or fails it, and one read for another module's Junction leaves; an exchange's buckets go to their owners, and its round ends when every owner has answered or is late; a
link error ends the commands that lost traffic and sets the window's bit, and a retry changes the log alone. Partials that arrive
in the deadline's own cycle are in time. The model's choices: STATUS 0x10 for a transport failure between PODs (log 54); the form in
which pulls, messages and buckets leave the module (log 78). -/
def Obligations.MessagesAndExchangesProceed : Prop :=
  ∀ s : State,
    let d := s.due
    let due := fun (t u : State) (ev : Instr) (p : Due) => ∃ a, t.agenda = u.agenda ++ [a] ∧ a.ev = ev ∧ a.due = p ∧ u.now ≤ a.at_
    let lands := fun (t u : State) (m : Msg) (post : Nat) =>
      if m.pulled then
        if m.cmd = none then t.out = u.out ++ [.pull m.src m.id] else due t u .pullComplete { id := m.id }
      else due t u .fillComplete { id := post }
    (∀ m m' u k, d.msg = none → s.junctionFirst .messageHeaderArrival = none → s.msgs.find? (·.id = d.id) = some m →
      s.earlierFar m = false → s.earlier m = [] →
      (m.pulled = true ∧ m' = m ∧ u = s) ∨ (m.pulled = false ∧ ∃ bs, s.payload m = (.inr bs, u) ∧ m' = { m with data := bs }) →
      u.clusterOf m.dst = some k →
      let v := u.modMsg m.id fun _ => m'
      let live := (u.cluster k).launch ≠ none ∧ (u.die (k / 6)).st = .serving
      (¬live → exec .messageHeaderArrival s = .next ((u.sendEnd m' 0x28).dropMsg m.id)) ∧
      (∀ p, live → v.postFor k m' = some p → ∃ t : State, exec .messageHeaderArrival s = .next t ∧
        t.dies = (v.modDie (dieOf p.ctx) fun y => { y with posts := y.posts.erase p.id, unexp := y.unexp.erase m.id }).dies ∧
        t.mem = v.mem ∧ lands t v m p.id) ∧
      (live → v.postFor k m' = none → v.roomFor (k / 6) m' = false →
        exec .messageHeaderArrival s = .next ((v.sendEnd m' 0x23).dropMsg m.id)) ∧
      (live → v.postFor k m' = none → v.roomFor (k / 6) m' = true → ∃ t : State, exec .messageHeaderArrival s = .next t ∧
        (t.die (k / 6)).unexp = (v.die (k / 6)).unexp ++ [m.id] ∧ (t.die (k / 6)).posts = (v.die (k / 6)).posts ∧ t.mem = v.mem ∧
        t.msgs = v.msgs.map fun y => if y.id = m.id then { y with st := .unexpected } else y)) ∧
    (∀ x blk, s.junctionFirst .postArrival = none → s.cmd? d.id = some x → x.k = .rpost blk →
      let k := clOf x.ctx
      let took := ((s.die (k / 6)).unexp.filterMap fun i => s.msgs.find? (·.id = i)).find? fun m =>
        decide (s.clusterOf m.dst = some k) && (postBlk blk).matches m
      (took = none → exec .postArrival s = .next (s.setDie (k / 6) { s.die (k / 6) with posts := (s.die (k / 6)).posts ++ [x.id] })) ∧
      (∀ m, took = some m → ∃ t : State, exec .postArrival s = .next t ∧ t.mem = s.mem ∧
        (t.die (dieOf x.ctx)).unexp = (s.die (dieOf x.ctx)).unexp.erase m.id ∧
        lands t s m x.id)) ∧
    (∀ x target, s.junctionFirst .cancelArrival = none → s.cmd? d.id = some x → x.k = .rcancel target →
      let last := (s.ctx x.ctx).posts.reverse.find? (·.1 = target)
      let tells := fun (t : State) (result : Nat) => ∃ y, t.cmd? x.id = some y ∧ y.ended = true ∧
        y.record.detail = BitVec.ofNat 128 (target.toNat + result * 2 ^ 16 + 2 ^ 112)
      (∀ p y, last = some p → s.cmd? p.2.1 = some y → y.id ∈ (s.die (dieOf y.ctx)).posts → ∃ t : State, exec .cancelArrival s = .next t ∧
        tells t 0 ∧ (t.die (dieOf y.ctx)).posts = (s.die (dieOf y.ctx)).posts.erase y.id ∧
        ∃ a ∈ t.agenda, a.ev = .fillFail ∧ a.due = { id := y.id, arg := 0x27 }) ∧
      (∀ p, last = some p → (∀ y, s.cmd? p.2.1 = some y → y.id ∉ (s.die (dieOf y.ctx)).posts) → ∃ t : State,
        exec .cancelArrival s = .next t ∧ t.dies = s.dies ∧ t.msgs = s.msgs ∧ tells t (if p.2.2 = 1 then 1 else 2)) ∧
      (last = none → ∃ t : State, exec .cancelArrival s = .next t ∧ t.dies = s.dies ∧ tells t 2)) ∧
    (∀ x, s.junctionFirst .postTimeout = none → s.cmd? d.id = some x →
      (x.id ∉ (s.die (dieOf x.ctx)).posts → exec .postTimeout s = .next s) ∧
      (x.id ∈ (s.die (dieOf x.ctx)).posts → ∃ t : State, exec .postTimeout s = .next t ∧ t.mem = s.mem ∧
        (t.die (dieOf x.ctx)).posts = (s.die (dieOf x.ctx)).posts.erase x.id ∧ due t s .fillFail { id := x.id, arg := 0x26 })) ∧
    (∀ m k, s.junctionFirst .headerLifetimeExpiry = none → s.msgs.find? (·.id = d.id) = some m → s.clusterOf m.dst = some k →
      (m.id ∉ (s.die (k / 6)).unexp → exec .headerLifetimeExpiry s = .next s) ∧
      (m.id ∈ (s.die (k / 6)).unexp → ∃ t : State, exec .headerLifetimeExpiry s = .next t ∧ t.mem = s.mem ∧
        (t.die (k / 6)).unexp = (s.die (k / 6)).unexp.erase m.id ∧ ∀ y ∈ t.msgs, y.id ≠ m.id)) ∧
    (∀ m p u, s.msgs.find? (·.id = d.id) = some m → m.cmd ≠ none → m.post = some p →
      (∀ st, s.payload m = (.inl st, u) →
        exec .pullComplete s = .next ((u.sendEnd m st).schedule u.now .fillFail { id := p, arg := st.toNat })) ∧
      (∀ bs, s.payload m = (.inr bs, u) →
        exec .pullComplete s = .next ((u.modMsg m.id fun y => { y with data := bs }).schedule u.now .fillComplete { id := p }))) ∧
    (∀ m p, s.msgs.find? (·.id = d.id) = some m → m.cmd = none → m.post = some p → exec .pullComplete s = .next (
      if d.arg ≠ 0 then s.schedule s.now .fillFail { id := p, arg := d.arg }
      else (s.modMsg m.id fun y => { y with data := d.bytes }).schedule s.now .fillComplete { id := p })) ∧
    (∀ m bs u, s.msgs.find? (·.id = d.id) = some m → m.cmd ≠ none → m.post = none → d.wr = true → s.payload m = (.inr bs, u) →
      ∃ t : State, exec .pullComplete s = .next t ∧ t.out = u.out ++ [.message m.dst { m with data := bs }] ∧
        ∀ y ∈ t.msgs, y.id ≠ m.id) ∧
    (∀ x blk mean bf n64 ranks t offs idx st u, s.cmd? d.id = some x → x.k = .a2a blk mean bf n64 ranks →
      s.table? x.ctx (poolBlk blk).tid = some t → s.readArrays x (poolBlk blk) n64 = ((some (offs, idx), st), u) →
      ∃ (v : State) (j : Job), exec .marshalDispatch s = .next v ∧ v.mem = u.mem ∧ j ∈ v.jobs ∧ j.id = x.id ∧
        j.bags.length = (poolBlk blk).nbags ∧ (∀ o ∈ j.owners, o.1 < t.shcnt ∧ o.2 = ranks.getD o.1 0) ∧
        ∀ o ∈ j.owners, u.clusterOf o.2 = none → ∃ ps, .bucket o.2 (poolBlk blk).tid ps ∈ v.out ∧ ps ≠ [] ∧ ∀ p ∈ ps, t.shard p.2 = o.1) ∧
    (∀ x j, s.cmd? d.id = some x → s.jobs.find? (·.id = d.id) = some j →
      (d.arg ∈ j.owners.map (·.1) →
        let y := if d.wr then j.miss [d.arg] else { j.take d.parts with owners := j.owners.filter (·.1 ≠ d.arg) }
        ∃ t : State, exec .ownerPartialArrival s = .next t ∧ t.jobs = s.jobs.map (fun z => if z.id = d.id then y else z) ∧
          (∀ o ∈ y.owners, o.1 ≠ d.arg) ∧ (y.owners ≠ [] → t.agenda = s.agenda) ∧
          (y.owners = [] → due t s .fillComplete { id := x.id })) ∧
      (j.owners ≠ [] → (∀ a ∈ s.agenda, a.ev = .ownerPartialArrival → a.due.id = d.id → s.now < a.at_) → ∃ t : State,
        exec .roundDeadline s = .next t ∧ t.mem = s.mem ∧ due t s .fillComplete { id := x.id } ∧
        ∀ y ∈ t.jobs, y.id = d.id → y.owners = [] ∧ ∀ o ∈ j.owners, o.1 < 64 → y.late.getLsbD o.1 = true)) ∧
    (let logged := fun (t : State) => t.luvex.rasPos = s.luvex.rasPos + 1
     (∃ t : State, exec .linkRetry s = .next t ∧ logged t ∧ t.ctxs = s.ctxs ∧ t.cmds = s.cmds ∧ t.msgs = s.msgs ∧ t.agenda = s.agenda) ∧
     (∀ x, s.cmd? d.id = some x → x.ended = false → x.release ≠ none → x.pn ≠ none → (∀ blk, x.k ≠ .msend blk) →
       (d.wr = false → exec .uecTransportFailure s = .next (s.schedule s.now .fillFail { id := d.id, arg := 0x10 })) ∧
       (d.wr = false → d.nats = [d.id] → ∃ t : State, exec .uncorrectableLinkError s = .next t ∧ logged t ∧
         due t s .fillFail { id := d.id, arg := 0x10 })) ∧
     ∀ e, d.wr = true → d.nats = [] → (s.ctx d.ctx).winq.find? (·.win = d.arg2) = some e →
       let lost := fun (t : State) => (t.ctx d.ctx).winq = (s.ctx d.ctx).winq.erase e ∧
         ∀ b ∈ (t.ctx d.ctx).batches, b.id = e.batch → b.errs &&& (1#32 <<< e.win) = 1#32 <<< e.win
       (∃ t : State, exec .uncorrectableLinkError s = .next t ∧ logged t ∧ lost t) ∧
       ∃ t : State, exec .uecTransportFailure s = .next t ∧ t.mem = s.mem ∧ lost t)

/-- R381, R387 and R415 to R420: an invalidation ends once its drain and the guest have answered, its drain waiting for the
contexts that had accesses under way, and a guest that does not answer in time is shut out; a migration copies its granules one by one and then changes the leaf if it is still the one it read, and
ends with STATUS 0x11 where the table rejects its engine; a completion of the guest posts its packet's record, one that matches no
packet is a guest fault, unless it is late, a packet past its bound ends with STATUS 0x2B and one that the guest had when a quiesce
began, and has not completed in time, with
0x2C; the guest's translation requests and coherent accesses are answered as the tables allow. The model's choices: the next granule,
the switch and the next look at a drain one cycle later (log 1); the guest's accesses checked against the tags of every launch
(log 63). -/
def Obligations.GuestAndMigrationEvents : Prop :=
  ∀ s : State,
    let d := s.due
    let ends := fun (t : State) (x : Cmd) (r : Record) => ∃ y, t.cmd? x.id = some y ∧ y.ended = true ∧ y.record = r
    (∀ x v, s.cmd? d.id = some x → s.invals = [v] → v.id = d.id → (∀ g ∈ s.migs, g.id ≠ d.id) →
      let ready := ∀ c ∈ d.nats, s.asking c = false
      (¬ready → exec .invalidationDrainComplete s =
        .next (s.schedule (s.now + 1) .invalidationDrainComplete { d with nats := d.nats.filter fun c => s.asking c })) ∧
      (ready → v.guestAck = false → exec .invalidationDrainComplete s = .next { s with invals := [{ v with drained := true }] }) ∧
      (v.drained = false → exec .guestInvalidationCompletion s = .next { s with invals := [{ v with guestAck := true }] }) ∧
      (ready → v.guestAck = true → ∃ t : State, exec .invalidationDrainComplete s = .next t ∧ t.invals = [] ∧ t.mem = s.mem ∧ ends t x x.record) ∧
      (v.drained = true → ∃ t : State, exec .guestInvalidationCompletion s = .next t ∧ t.invals = [] ∧ t.mem = s.mem ∧ ends t x x.record) ∧
      (v.guestAck = false → (∀ a ∈ s.agenda, a.ev ≠ .guestInvalidationCompletion) → ∃ t : State,
        exec .guestInvalidationTimeout s = .next t ∧ t.guest.shut = true ∧ (s.guest.st = .serving → t.guest.st = .draining) ∧
        (v.drained = true → t.invals = []) ∧ (v.drained = false → t.invals = [{ v with guestAck := true }]))) ∧
    (∀ g x, s.migs.find? (·.id = d.id) = some g → s.cmd? d.id = some x → Memory.wf s.mem = true →
      let src := g.old + 64 * d.arg
      let dst := g.dst + 64 * d.arg
      let plain := fun (a n : Nat) => (∀ i, i < n → ∀ t, targetOf (a + i) = some t → t < 26) ∧
        ∀ y ∈ s.migs, a + n ≤ y.old ∨ y.old + y.size ≤ a
      (s.allowed src 0x0A false .r = true → s.allowed dst 0x0A false .w = true → s.poisoned src 64 = none →
        (∀ y ∈ s.corr, y < src ∨ src + 64 ≤ y) → plain dst 64 →
        ∃ t : State, exec .migrationGranuleCopy s = .next t ∧ (∀ i, i < 64 → memRead t.mem (dst + i) = s.gbyte (src + i)) ∧
          (∀ q, q < dst ∨ dst + 64 ≤ q → memRead t.mem q = memRead s.mem q) ∧
          t.agenda = s.agenda ++ [if 64 * (d.arg + 1) < g.size then
              { at_ := s.now + 1, ev := .migrationGranuleCopy, due := { id := d.id, arg := d.arg + 1 } }
            else { at_ := s.now + 1, ev := .migrationSwitch, due := { id := d.id } }]) ∧
      (s.allowed src 0x0A false .r = false ∨ s.allowed dst 0x0A false .w = false → s.poisoned src 64 = none → ∃ t : State,
        exec .migrationGranuleCopy s = .next t ∧ (∀ y ∈ t.migs, y.id ≠ d.id) ∧ ends t x { x.record with status := 0x11 }) ∧
      (s.allowed g.leafAt 0x0A false .rw = false → ∃ t : State, exec .migrationSwitch s = .next t ∧ (∀ y ∈ t.migs, y.id ≠ d.id) ∧
        ends t x { x.record with status := 0x11 }) ∧
      (s.allowed g.leafAt 0x0A false .rw = true → s.gnat g.leafAt 8 ≠ g.p0.toNat → ∃ t : State, exec .migrationSwitch s = .next t ∧ (∀ y ∈ t.migs, y.id ≠ d.id) ∧
        ends t x { x.record with status := 0x30 }) ∧
      (∀ va size asid df, s.allowed g.leafAt 0x0A false .rw = true → plain g.leafAt 8 → s.gnat g.leafAt 8 = g.p0.toNat →
        x.k = .mig va size asid df → ∃ t : State,
        exec .migrationSwitch s = .next t ∧ (∀ e ∈ t.tlb, e.asid = asid → va + size ≤ e.va ∨ e.va + e.size ≤ va) ∧
        (∀ q, q < g.leafAt ∨ g.leafAt + 8 ≤ q → memRead t.mem q = memRead s.mem q) ∧
        memNat t.mem g.leafAt 8 = (g.p0.toNat - g.p0.toNat / 2 ^ 12 % 2 ^ 40 * 2 ^ 12 + g.dst / 4096 * 2 ^ 12) % 2 ^ 64)) ∧
    (let w := leNat d.bytes
     let done := fun (t : State) (x : Cmd) (r : Record) => t.cmds = s.cmds.filter (·.id ≠ x.id) ∧ t.guestq = s.guestq.filter (· ≠ x.id) ∧
       ((s.ctx x.ctx).status = .ready → (t.ctx x.ctx).evq = (s.ctx x.ctx).evq ++ [r])
     (∀ x, d.arg = 0x200FFFFFF000 → d.bytes.length = 16 →
       s.packets.find? (fun c => s.guestq.contains c.id && decide (c.packet?.map packetKey = some (w / 2 ^ 16 % 2 ^ 16, w % 2 ^ 16))) = some x →
       w / 2 ^ 32 % 2 ^ 8 ∈ [0, 0x10, 0x11, 0x12] ++ (List.range 16).map (0x20 + ·) → ∃ t : State, exec .guestCompletion s = .next t ∧
         t.mem = s.mem ∧ done t x { x.record with status := BitVec.ofNat 8 (w / 2 ^ 32), flags := BitVec.ofNat 6 (w / 2 ^ 40),
                                                  detail := BitVec.ofNat 128 (w / 2 ^ 64 % 2 ^ 64) }) ∧
     (d.arg = 0x200FFFFFF000 → d.bytes.length = 16 →
       let key := (w / 2 ^ 16 % 2 ^ 16, w % 2 ^ 16)
       let named := fun (c : Cmd) => c.id ∈ s.guestq ∧ c.packet?.map packetKey = some key
       ((∃ c ∈ s.packets, named c) → w / 2 ^ 32 % 2 ^ 8 ∉ [0, 0x10, 0x11, 0x12] ++ (List.range 16).map (0x20 + ·) →
         exec .guestCompletion s = .next (s.guestFault 4 none)) ∧
       ((∀ c ∈ s.packets, ¬named c) →
         (key ∈ s.guest.late → exec .guestCompletion s = .next { s with guest := { s.guest with late := s.guest.late.erase key } }) ∧
         (key ∉ s.guest.late → exec .guestCompletion s = .next (s.guestFault 4 none)))) ∧
     (d.arg ≠ 0x200FFFFFF000 ∨ d.bytes.length ≠ 16 → exec .guestCompletion s = .next (s.guestFault 4 none)) ∧
     (∀ x, s.outPacket? d.id = some x → (∀ a ∈ s.agenda, a.ev ≠ .guestCompletion) → ∃ t : State, exec .guestCompletionTimeout s = .next t ∧
       (s.guest.st = .serving → t.guest.st = .draining) ∧ done t x { x.record with status := 0x2B, flags := 0, detail := 0 }) ∧
     (∀ x, s.packets.filter (fun x => s.guestq.contains x.id && decide (x.packet?.map packetAsid = some d.arg) &&
         ((s.launchOf x.ctx).any (fun l => decide (l.id + 1 = d.id)) || decide (x.release.getD 0 ≤ d.arg2))) = [x] →
       (∀ a ∈ s.agenda, a.ev ≠ .guestCompletion) → ∃ t : State, exec .guestQuiesceTimeout s = .next t ∧
       (s.guest.st = .serving → t.guest.st = .draining) ∧ done t x { x.record with status := 0x2C, flags := 0, detail := 0 })) ∧
    (let busy := ∃ x ∈ s.packets, x.id ∈ s.guestq ∧ x.packet?.map packetAsid = some d.arg
     (d.arg2 ≠ 0 ∨ ¬busy ∨ d.word.toNat / 2 ^ 56 ≠ 0 → exec .atsTranslationRequest s = .next (s.emit (.atsAnswer d.arg none))) ∧
     (d.arg2 = 0 → busy → d.word.toNat / 2 ^ 56 = 0 →
       let page := s.page? { asid := d.arg, part := ((s.asidEntry d.arg).map (·.2)).getD 0, exec := false } d.word.toNat
       let need := if d.wr then Need.w else .r
       (∀ e, page = some e → e.permits need = true → ∃ t : State, exec .atsTranslationRequest s = .next t ∧ e ∈ t.tlb ∧
         (∃ o, t.out = s.out ++ o ++ [.atsAnswer d.arg (some (e.addr d.word.toNat))]) ∧
         (s.corr = [] → t.mem = s.mem ∧ t.out = s.out ++ [.atsAnswer d.arg (some (e.addr d.word.toNat))])) ∧
       ((∀ e, page = some e → e.permits need = false) → exec .atsTranslationRequest s = .next (s.emit (.atsAnswer d.arg none))))) ∧
    (let m := d.arg / 64 * 64
     inPort m = false → (∀ e ∈ s.tlb, m < e.frame ∨ e.frame + e.size ≤ m) →
      (s.allowedRun m 64 9 false (if d.wr then .w else .r) = false →
        exec .guestCacheRequest s = .next (s.emit (.guestData m 0x11 0))) ∧
      (s.allowedRun m 64 9 false (if d.wr then .w else .r) = true →
        s.conflict .guest (if d.wr then .store else .load) (s.outerGrans m) ≠ none →
        exec .guestCacheRequest s = .next (s.emit (.guestData m 0x12 0))) ∧
      (d.wr = false → s.allowedRun m 64 9 false .r = true → (∀ y ∈ s.corr, y < m ∨ m + 64 ≤ y) → (∀ i, i < 64 → s.accGlobal (m + i) 1 = false) →
        s.conflict .guest .load (s.outerGrans m) = none → s.poisoned m 64 = none →
        ∃ t : State, exec .guestCacheRequest s = .next t ∧ t.mem = s.mem ∧
          t.out = s.out ++ [.guestData m 0 (BitVec.ofNat 512 (leNat (s.gbytes m 64)))]))

/-- R365, R366, R394, R399 to R404 and R26: a pre-emption request sets bits and clears none; clearing OVR claims the records
that waited, those of pre-empted contexts too; a doorbell makes the scheduler read WR, and takes nothing of a descriptor that it may
not read; a scheduling step starts a waiting launch
of an enabled queue whose clusters nothing holds, and none on a cluster of a launch of its PRI or higher that waits since before; a launch that can be saved leaves its clusters, its scratchpads in their slots,
unless a context's state cannot be corrected, which is fatal (R369); a gang's last READY inside the gate makes the leader send GO
and fixes the start, when one that names a die out of service is refused with 0x45; a gate that closes or an ABANDON puts the
launch back, and a READY that comes within GLIM of the leader's ABANDON is ignored. A context starts READY at the entry bundle with
its registers zero. The model's choices and readings: a READY of a gang that the leader does not know yet waits, a cycle at a time
(logs 62 and 1); code 0x45 is tested once more at the gang's start (log 71); a pre-empted launch keeps the records of its contexts,
and is looked at again each cycle until it can be saved (logs 25 and 1). -/
def Obligations.SchedulerEvents : Prop :=
  (∀ s : State,
    let d := s.due
    (∃ t : State, exec .preemptRequest s = .next t ∧ (t.die d.id).preReq = (s.die d.id).preReq ||| BitVec.ofNat 6 d.arg ∧
      t.ctxs = s.ctxs ∧ ∀ k, k ≠ d.id → t.die k = s.die k) ∧
    (s.ctxs.flatMap (fun p => p.2.pendRec) = [] → (∀ l ∈ s.launches, ∀ p ∈ l.kept, p.2.pendRec = []) → s.guest.pend = [] →
      ∃ t : State, exec .trapOverflowClear s = .next t ∧ t.sys = { s.sys with trapOvr := false } ∧ t.mem = s.mem) ∧
    (∀ l c y r, s.ctxs.flatMap (fun p => p.2.pendRec) = [] → s.launches = [l] → l.kept = [(c, y)] → y.pendRec = [r] → s.guest.pend = [] →
      s.sys.ringOpen = true → s.ringBad = false → ∃ t : State, exec .trapOverflowClear s = .next t ∧
        t.sys = { s.sys with trapOvr := false, trapWr := s.sys.trapWr + 1 } ∧ ∀ z ∈ t.launches, ∀ p ∈ z.kept, p.2.pendRec = []) ∧
    (∀ c r, s.ctxs.flatMap (fun p => p.2.pendRec.map fun r => (p.1, r)) = [(c, r)] → (s.ctx c).pendRec = [r] →
      (s.ctx c).status = .parked .trapPending → (∀ l ∈ s.launches, ∀ p ∈ l.kept, p.2.pendRec = []) → s.guest.pend = [] → s.sys.ringOpen = true → s.ringBad = false → ∃ t : State,
        exec .trapOverflowClear s = .next t ∧ t.sys = { s.sys with trapOvr := false, trapWr := s.sys.trapWr + 1 } ∧
        (t.ctx c).status = .parked .trap ∧ (t.ctx c).pendRec = []) ∧
    (let q := d.arg % 64
     let bytes := s.cpBytes? (s.qAddr q) 64
     (bytes ≠ none → ∃ (t : State) (y : Queue), exec .queueDoorbell s = .next t ∧ t.queue? q = some y ∧
       y.wr = BitVec.ofNat 32 (s.qdesc q).wr ∧ (s.corr = [] → t.mem = s.mem) ∧
       (s.queue? q = none → y.next = BitVec.ofNat 32 (s.qdesc q).rd) ∧ ∃ a ∈ t.agenda, a.ev = .schedulingStep) ∧
     (bytes = none → ∃ t : State, exec .queueDoorbell s = .next t ∧ t.queues = s.queues ∧ t.agenda = s.agenda)) ∧
    (s.luvex.boot ≠ .ready → exec .schedulingStep s = .next s) ∧
    (∀ l x, s.luvex.boot = .ready → s.launches = [l] → s.queues = [x] → l.qid = x.q → l.st = .waiting → x.off = false → x.holdTo ≤ s.now →
      (s.qdesc x.q).en = true → x.lseq ≠ none → (∀ k ∈ l.clus, (s.cluster k).freeAt ≤ s.now) →
      (x.wr.toNat + 2 ^ 32 - (s.qdesc x.q).rd) % 2 ^ 32 ≤ 2 ^ (s.qdesc x.q).log2n → s.dieDown l.pkt = false →
      let u := s.modLaunch l.id fun y => { y with waits := none }
      exec .schedulingStep s =
        .next (if l.pkt.gn = 0 then u.startLaunch { l with waits := none } else u.gangSelect { l with waits := none })) ∧
    (∀ l w n kept, l.waits = none → w ∈ s.launches → w.waits = some n → s.considered w = true → w.id ≠ l.id → l.pri ≤ w.pri →
      (∃ k ∈ l.clus, k ∈ w.clus) → ∃ t : State, s.schedOne kept l = (t, kept ++ l.clus) ∧ t.ctxs = s.ctxs ∧ t.mem = s.mem ∧
        t.launches = s.launches.map fun y => if y.id = l.id then { y with waits := some s.nextId } else y) ∧
    (∀ l, s.launch? d.id = some l → l.st = .preempting →
      (s.saveReady l = false → exec .clusterSave s = .next (s.schedule (s.now + 1) .clusterSave d)) ∧
      (s.saveReady l = true → ∀ c, l.ctxids.find? (fun c => s.poison.contains (chkKey c)) = some c →
        exec .clusterSave s = .next (s.fatalError 2 (some c))) ∧
      (∀ k, s.saveReady l = true → (∀ c ∈ l.ctxids, chkKey c ∉ s.poison) → l.clus = [k] → Memory.wf s.mem = true → s.migs = [] →
        (s.cluster k).famo.length ≤ 476 → slotAt l.save k + 0xA00000 ≤ 2 ^ 52 →
        (∀ i, i < 0xA00000 → s.cpMay (slotAt l.save k + i) .w = true ∧ ∀ u, targetOf (slotAt l.save k + i) = some u → u < 26) →
        ∃ t : State, exec .clusterSave s = .next t ∧
        (∀ y ∈ t.launches, y.id = l.id → y.st = .preempted) ∧ (∀ c ∈ l.ctxids, t.ctx c = Ctx.idle) ∧
        t.cluster k = { Cluster.reset with freeAt := s.now + 1 } ∧
        ∀ i, i < 2 ^ 23 → memRead t.mem (slotAt l.save k + 0x4000 + i) = memRead s.mem (spKey k i))) ∧
    (let mine := fun (t : State) (l : Launch) (p : Launch → Prop) => ∀ y ∈ t.launches, y.id = l.id → p y
     let back := fun (t : State) (l : Launch) => mine t l fun y => y.st = .waiting ∧ y.ready = [] ∧ y.gate = none ∧ y.tgo = none
     let stale := s.now < aget 0 s.gangsOut d.arg
     (stale → exec .gangReady s = .next s) ∧
     (¬stale → s.gang? d.arg = none → exec .gangReady s = .next (s.schedule (s.now + 1) .gangReady d)) ∧
     (∀ l, ¬stale → s.gang? d.arg = some l → l.st = .gang → l.gate ≠ none → l.tgo = none → d.arg2 ∉ l.ready →
       ((∃ m ∈ l.gmem, m ≠ d.arg2 ∧ m ∉ l.ready) → ∃ t : State, exec .gangReady s = .next t ∧ t.out = s.out ∧ t.agenda = s.agenda ∧
         mine t l fun y => d.arg2 ∈ y.ready) ∧
       ((∀ m ∈ l.gmem, m = d.arg2 ∨ m ∈ l.ready) → ∃ t : State, exec .gangReady s = .next t ∧
         t.out = s.out ++ (l.gmem.filter (· ≠ s.luvex.pos)).map (fun p => .gangGo p l.pkt.gid (s.ns + 10000)) ∧
         t.agenda = s.agenda ++ [{ at_ := firstCycleOf (s.ns + 10000), ev := .gangStart, due := { id := l.id } }] ∧
         mine t l fun y => y.tgo = some (s.ns + 10000))) ∧
     (∀ l, s.launch? d.id = some l → l.st = .gang → l.tgo = none →
       (∀ a ∈ s.agenda, a.ev ≠ .gangReady) → ∃ t : State, exec .gangLimitExpiry s = .next t ∧ back t l ∧
         t.out = s.out ++ (l.gmem.filter (· ≠ s.luvex.pos)).map fun p => .gangAbandon p l.pkt.gid) ∧
     (∀ l, s.gang? d.arg = some l → l.tgo = none → ∃ t : State, exec .gangAbandon s = .next t ∧ back t l ∧ t.out = s.out) ∧
     (∀ l, s.gang? d.arg = some l → l.st = .gang → l.tgo = none → ∃ t : State, exec .gangGo s = .next t ∧
       mine t l (fun y => y.tgo = some d.arg2) ∧
       t.agenda = s.agenda ++ [{ at_ := max (s.now + 1) (firstCycleOf d.arg2), ev := .gangStart, due := { id := l.id } }]) ∧
     (∀ l, s.launch? d.id = some l → l.st = .gang → l.tgo ≠ none →
       exec .gangStart s = .next (if s.dieDown l.pkt = true then s.refuseLaunch l 0x45 else s.startLaunch l)))) ∧
  ∀ (l : Launch) (h q g : Nat) (cons : Option Nat) (pos : Nat) (sk : Vector SkinkDim 32) (win : Vector Word 32) (wlim : Nat),
    let x := contextAtLaunch l h q g cons pos sk win wlim
    x.status = .ready ∧ x.pc = BitVec.ofNat 64 l.entry ∧ x.chkPc = x.pc ∧ x.chk = x.vis ∧ x.exec = l.exec ∧ x.l = h * l.m + q ∧
    (∀ r, x.vis.s r = 0) ∧ (∀ i, x.vis.v i = 0) ∧ (∀ p, p ≠ 0 → x.vis.p p = 0) ∧ x.vis.fpFlags = 0 ∧ x.vis.fpMode = 0 ∧
    x.vis.loops = [] ∧ x.vis.taken = 0 ∧ x.vis.seq = 0 ∧ x.vis.skink = sk ∧ x.evq = [] ∧ x.wb = []

/-- R369, R407, R421, R424 to R426 and R429: the host's accesses are refused until the module is ready, but for the mailbox, which answers in recovery mode too, and then
answered as the access table allows; a reset clears the machine but for flash, measures the image and stops where its signature fails, a
warm one keeping the dump; an attestation is answered with the measurements; the power cap never passes 5,500 W; the
watchdog of Luvex and a thermal trip are fatal. The model's choices and readings: a reset keeps the time, flash and nothing else
(log 29), and the boot sequence is done within the reset's one step (log 61); the host's accesses are checked against the tags of
every launch (log 63); what the host reads of the mailbox is free bytes, for no rule gives its layout (log 79). -/
def Obligations.BoardEvents : Prop :=
  ∀ s : State,
    let d := s.due
    let mailbox := d.wr = false → d.arg < 0x1000 → ∃ bs : List Byte, bs.length = d.arg2 ∧
      exec .hostAccess s = .next { s.emit (.hostData d.arg true bs) with free := s.free + d.arg2 }
    (s.luvex.boot ≠ .ready → (d.id ≠ 1 ∨ s.luvex.boot = .reset ∨ d.wr = true ∨ 0x1000 ≤ d.arg) → exec .hostAccess s = .next s) ∧
    (s.luvex.boot ≠ .ready → s.luvex.boot ≠ .reset → d.id = 1 → mailbox) ∧
    (s.luvex.boot = .ready → d.id = 1 →
      (d.wr = true → d.bytes.length = 4 → 0x1000 ≤ d.arg → d.arg < 0x2000 →
        exec .hostAccess s = .next (s.doorbell (leNat d.bytes % 64))) ∧
      mailbox ∧
      (d.wr = false ∧ 0x1000 ≤ d.arg ∨ d.wr = true ∧ (d.bytes.length ≠ 4 ∨ d.arg < 0x1000 ∨ 0x2000 ≤ d.arg) →
        exec .hostAccess s = .next s)) ∧
    (s.luvex.boot = .ready → d.id = 0 → d.wr = false → d.arg2 = 64 → d.arg % 64 = 0 →
      (s.allowedRun d.arg 64 8 false .r = false → exec .hostAccess s = .next (s.emit (.hostData d.arg false []))) ∧
      (s.allowedRun d.arg 64 8 false .r = true → s.conflict .host .load (s.outerGrans d.arg) ≠ none →
        exec .hostAccess s = .next (s.emit (.hostData d.arg false []))) ∧
      (s.allowedRun d.arg 64 8 false .r = true → (∀ y ∈ s.corr, y < d.arg ∨ d.arg + 64 ≤ y) → (∀ i, i < 64 → s.accGlobal (d.arg + i) 1 = false) →
        s.conflict .host .load (s.outerGrans d.arg) = none → s.poisoned d.arg 64 = none →
        ∃ t : State, exec .hostAccess s = .next t ∧ t.mem = s.mem ∧ t.out = s.out ++ [.hostData d.arg true (s.gbytes d.arg 64)])) ∧
    (let keep := fun (t : State) => t.now = s.now ∧ t.launches = [] ∧ t.cmds = [] ∧ t.fatal = none ∧ t.ctxs = [] ∧ t.out = [] ∧
       t.luvex.flash.boots = s.luvex.flash.boots + 1 ∧ t.luvex.flash.image = s.luvex.flash.image
     let signed := Config.mlDsaVerify s.luvex.flash.keyDig (Config.shake256 s.luvex.flash.image 64) s.luvex.flash.imageSig
     let out := fun (t : State) => t.luvex.boot = .failed 1 ∧ (∀ k, k < 64 → (t.die k).st = .retired) ∧ t.guest.fitted = false ∧
       t.luvex.mailbox = [.failing 1] ∧
       t.luvex.mr.getD 0 [] = Config.shake256 (List.replicate 64 0 ++ Config.shake256 s.luvex.flash.image 64) 64
     (∃ t : State, exec .coldReset s = .next t ∧ keep t ∧ (signed = false → out t ∧ t.mem = [])) ∧
     ∃ t : State, exec .warmReset s = .next t ∧ keep t ∧ (signed = false → out t ∧ (Memory.wf s.mem = true → ∀ a, memRead t.mem a =
       if s.luvex.dumpAt.1 ≤ a ∧ a < s.luvex.dumpAt.1 + s.luvex.dumpAt.2 then memRead s.mem a else 0))) ∧
    ((∀ a ∈ s.agenda, a.ev ≠ .repairReload) → ∃ (t : State) (sig : List Byte), exec .attestationRequest s = .next t ∧
      t.luvex.mailbox = s.luvex.mailbox ++ [.report
        (BitVec.ofNat 256 (leNat ((d.bytes ++ List.replicate (32 - d.bytes.length) 0).take 32))) (s.luvex.mr.take 5)
        s.luvex.flash.boots s.luvex.flash.fuse Config.identityKey sig] ∧ t.mem = s.mem ∧ t.ctxs = s.ctxs) ∧
    exec .powerCapSet s = .next { s with luvex := { s.luvex with power := min d.arg 5500 } } ∧
    (∃ t : State, exec .luvexWatchdogExpiry s = .next t ∧ t.fatal = some 3 ∧ t.luvex.mailbox = s.luvex.mailbox ++ [.fatal 3] ∧ t.ctxs = s.ctxs) ∧
    ∃ t : State, exec .thermalTrip s = .next t ∧ t.fatal = some 5 ∧ t.luvex.rasPos = s.luvex.rasPos + 1 ∧
      t.luvex.mailbox = s.luvex.mailbox ++ [.fatal 5] ∧ t.ctxs = s.ctxs

/-! ### Privileged state and traps (R347 to R370) -/

/-- R349, R350 and R392: `sysr` posts a system register as it stands, at 1 cy; a write-only register reads as zero (R8); of
SYS.RSTATE0 to 2 the state codes of the units. R349, R350, R376 and R392: `sysw` posts the previous value and has its write arrive 1 cy later;
the write changes the writable fields of its register and nothing else: alignment, ranges and locks as the map gives them; one to
SYS.QBELL rings the doorbell of its queue; one that
sets the OVR bit of SYS.TRAPCTL re-raises the pending records too (R365). A write
of SYS.WIN changes the window of a PARKED context alone, its reserved bits zero (R9, R308). The model's choices: the previous value
is the one that stands at issue (log 41); which requests of SYS.PREEMPT the scheduler has carried out (log 25). -/
def Obligations.SystemRegisters : Prop :=
  (∀ (s : State) (d : BitVec 5),
     let c := s.cur
     let die := s.die (dieOf s.iss.ctx)
     let y := s.sys
     let b := fun (x : Bool) => if x then 1 else 0
     (∀ (n : BitVec 16) (x : Word),
       (n, x) ∈ [(0x100, if c.exec then 1 else 0), (0x101, c.evec), (0x102, c.epc), (0x103, c.ecause.setWidth 64), (0x104, c.eaddr),
         (0x105, if c.inh then 1 else 0), (0x110, y.trapBase.setWidth 64),
         (0x111, BitVec.ofNat 64 (y.trapLog2n + b y.trapEn * 2 ^ 5 + b y.trapOvr * 2 ^ 6)), (0x112, y.trapWr.setWidth 64),
         (0x113, y.trapRd.setWidth 64), (0x120, BitVec.ofNat 64 die.wdogDef), (0x121, BitVec.ofNat 64 die.lockQ),
         (0x130, BitVec.ofNat 64 (die.preReq.toNat + s.preemptDone (dieOf s.iss.ctx) * 2 ^ 8)),
         (0x150, BitVec.ofNat 64 (die.wselCtx.toNat + die.wselWin.toNat * 2 ^ 16)),
         (0x151, (s.ctx die.wselCtx.toNat).win.getD die.wselWin.toNat 0),
         (0x160, BitVec.ofNat 64 (b y.asidEn + y.asidBase.toNat)),
         (0x161, BitVec.ofNat 64 (s.asidOf s.iss.ctx + s.partOf s.iss.ctx * 2 ^ 16)), (0x162, 0), (0x163, y.heatBase.setWidth 64),
         (0x164, y.retBase.setWidth 64), (0x165, BitVec.ofNat 64 (y.retCnt.toNat + b y.retFull * 2 ^ 17)),
         (0x166, y.mapBase.setWidth 64), (0x170, y.qtab.setWidth 64), (0x171, 0), (0x172, y.ptab.setWidth 64), (0x173, 0)] →
       exec (.sysr d n) s = .next (s.posted (regResult d 1 x))) ∧
     (∀ k, k < 6 → exec (.sysr d (BitVec.ofNat 16 (0x140 + k))) s =
       .next (s.posted (regResult d 1 (BitVec.ofNat 64 (s.cstate (6 * dieOf s.iss.ctx + k)))))) ∧
     ∀ (n : BitVec 16) (u : Nat), (n, u) ∈ [(0x174, 0), (0x175, 32), (0x176, 64)] →
       ∃ x : Word, exec (.sysr d n) s = .next (s.posted (regResult d 1 x)) ∧
         (∀ k, k < (if u = 64 then 16 else 32) → fld x (2 * k) 2 = (s.unitSt (u + k)).code) ∧
         (u = 64 → fld x 32 2 = (s.unitSt 80).code ∧ fld x 34 30 = 0)) ∧
  ((∀ (s : State) (d a : BitVec 5) (n : BitVec 16), n ≠ 0x162 → n ≠ 0x173 → exec (.sysw d a n) s =
     .next ((s.posted (regResult d 1 (s.readSys n.toNat))).schedule (s.iss.cyc + 1) .registerWrite
       { ctx := s.iss.ctx, arg := n.toNat, arg2 := d.toNat, word := s.rs a, wr := s.iss.ckpt })) ∧
   ∀ (s : State) (t : State),
     let c := s.due.ctx
     let w := s.due.word
     let y := s.sys
     (s.due.arg, t) ∈ [(0x101, s.modCtx c fun z => { z with evec := w &&& ~~~31 }), (0x102, s.modCtx c fun z => { z with epc := w }),
       (0x103, s.modCtx c fun z => { z with ecause := w.extractLsb' 0 8 }), (0x104, s.modCtx c fun z => { z with eaddr := w }),
       (0x105, s.modCtx c fun z => { z with inh := w.getLsbD 0 }),
       (0x112, s), (0x113, { s with sys := { y with trapRd := w.extractLsb' 0 32 } }),
       (0x120, s.modDie (dieOf c) fun z => { z with wdogDef := max (2 ^ 16) (min (w.toNat % 2 ^ 33) (2 ^ 32)) }),
       (0x121, s.modDie (dieOf c) fun z => { z with lockQ := min (w.toNat % 2 ^ 11) 1024 }),
       (0x130, s.modDie (dieOf c) fun z =>
         { z with preReq := z.preReq ||| w.extractLsb' 0 6, preDone := z.preDone &&& ~~~(w.extractLsb' 0 6) }),
       (0x150, s.modDie (dieOf c) fun z => { z with wselCtx := w.extractLsb' 0 13, wselWin := w.extractLsb' 16 5 }),
       (0x160, { s with sys := { y with
         asidEn := w.getLsbD 0
         asidBase := if y.asidEn then y.asidBase else w.extractLsb' 20 32 ++ 0#20 } }),
       (0x161, s), (0x163, s), (0x164, s), (0x165, s), (0x166, s),
       (0x170, { s with sys := { y with qtab := w.extractLsb' 12 40 ++ 0#12 } }), (0x171, s.doorbell (w.toNat % 64)), (0x172, s),
       (0x174, s), (0x175, s), (0x176, s), (0x100, s)] ++ (List.range 6).map (fun k => (0x140 + k, s)) →
     exec .registerWrite s = .next t) ∧
  ∀ s : State,
    let c := s.due.ctx
    let w := s.due.word
    let die := s.die (dieOf c)
    let u := die.wselCtx.toNat
    (s.due.arg = 0x110 → w.toNat % 64 = 0 → exec .registerWrite s = .next
      (if s.sys.trapEn then s else { s with sys := { s.sys with trapBase := w.extractLsb' 0 56 } })) ∧
    (s.due.arg = 0x111 →
      let t : State := { s with sys := { s.sys with
        trapLog2n := if s.sys.trapEn then s.sys.trapLog2n else min (max (w.toNat % 32) 10) 20, trapEn := w.getLsbD 5 } }
      exec .registerWrite s = if w.getLsbD 6 then exec .trapOverflowClear t else .next t) ∧
    (s.due.arg = 0x151 →
      ((∀ p, (s.ctx u).status ≠ .parked p) → exec .registerWrite s = .next s) ∧
      ∀ p, (s.ctx u).status = .parked p → exec .registerWrite s = .next
        (s.modCtx u fun z => { z with win := z.win.setIfInBounds die.wselWin.toNat (w &&& 0x7FFFFFFFFFFF) }))

/-- R392, R408 and R411: a write of SYS.REPAIR by `sysw` posts nothing then; as it arrives its status goes to s[sd]: 2 for
no unit, 0 for an action that the unit's state admits, 1 otherwise. A unit set draining is OFFLINE once it is idle; OFFLINE
it can be retired, recorded in flash, returned or reloaded; after a retirement a bound table waits for its engine's commands before
it changes (R423), looked at again one cycle later (log 1). R354: context control gives 3 for a target that names no context
and 1 for one in no state that it takes; `ctxkill` of a PARKED context outside a consist makes it DONE, `ctxres` of a saved
or trapped one makes it READY from the next cycle with its own state and no load-block or lock (R367), both with 0; where that
state cannot be corrected the error is fatal (R369). -/
def Obligations.RepairActionsAndContextControl : Prop :=
  ((∀ (s : State) (d a : BitVec 5), exec (.sysw d a 0x173) s = .next (s.schedule (s.iss.cyc + 1) .registerWrite
     { ctx := s.iss.ctx, arg := 0x173, arg2 := d.toNat, word := s.rs a, wr := s.iss.ckpt })) ∧
   (∀ s : State, s.due.arg = 0x173 → s.due.arg2 ≠ 0 →
     let u := s.due.word.toNat % 2 ^ 7
     let act := s.due.word.toNat / 2 ^ 8 % 8
     ∃ t st, exec .registerWrite s = .next t ∧ (t.ctx s.due.ctx).pend = (s.ctx s.due.ctx).pend ++
         [{ at_ := s.now, inChk := s.due.wr, eff := .sreg (BitVec.ofNat 5 s.due.arg2) (BitVec.ofNat 64 st) }] ∧
       (80 < u → st = 2) ∧
       (u ≤ 80 → st = if (act = 1 ∧ s.unitSt u = .serving) ∨ (2 ≤ act ∧ act ≤ 4 ∧ s.unitSt u = .offline) then 0 else 1)) ∧
   ∀ s : State, s.due.id ≤ 80 →
     let u := s.due.id
     (s.unitSt u = .serving → ∃ t, exec .repairDrain s = .next t ∧ t.unitSt u = .draining) ∧
     (s.unitSt u = .draining → s.unitIdle u = true → ∃ t, exec .unitOffline s = .next t ∧ t.unitSt u = .offline) ∧
     (s.unitSt u = .offline →
       (s.due.arg = 0 → ∃ t, exec .repairRetire s = .next t ∧ t.unitSt u = .retired ∧ u ∈ t.luvex.flash.units) ∧
       (∃ t, exec .repairReturn s = .next t ∧ t.unitSt u = .serving) ∧
       ∃ t, exec .repairReload s = .next t ∧ t.unitSt u = .serving ∧
         t.luvex.mr[3]? = s.luvex.mr[3]?.map fun m => Config.shake256 (m ++ Config.shake256 (Config.unitImage u) 64) 64) ∧
     (s.due.arg ≠ 0 → (∃ x ∈ s.cmds, x.ofEngine (s.due.arg - 1) = true) →
       exec .repairRetire s = .next (s.schedule (s.now + 1) .repairRetire s.due))) ∧
  (∀ (s : State) (a b d : BitVec 5),
     let t := (s.rs a).toNat
     let named := t < 2 ^ 13 ∧ t / 16 % 8 < 6
     let gives := fun (i : Instr) (n : Nat) => exec i s = .next (s.posted (regResult d 1 (BitVec.ofNat 64 n)))
     let saved := (s.ctx t).status = .parked .trap ∨ (s.ctx t).status = .parked .preempted
     (¬named → ∀ i ∈ [Instr.ctxsave a b d, .ctxres a d, .ctxresImg a b d, .ctxresLd a b d, .ctxkill a d], gives i 3) ∧
     (named → ¬saved → ∀ i ∈ [Instr.ctxsave a b d, .ctxres a d, .ctxresImg a b d, .ctxresLd a b d], gives i 1) ∧
     (named → (∀ p, (s.ctx t).status ≠ .parked p) → gives (.ctxkill a d) 1) ∧
     (named → (s.ctx t).cons = none → t ≠ s.iss.ctx →
       (∀ p, (s.ctx t).status = .parked p → ∃ u : State, exec (.ctxkill a d) s = .next (u.posted (regResult d 1 0)) ∧
         (u.ctx t).status = .done ∧ (u.ctx t).vis.sreg = (s.ctx t).vis.sreg ∧ (u.ctx t).wb = [] ∧ u.cur = s.cur) ∧
       (saved → chkKey t ∈ s.poison → exec (.ctxres a d) s = .next ((s.fatalError 2 (some t)).posted (regResult d 1 0))) ∧
       (saved → chkKey t ∉ s.poison → ∃ u : State, exec (.ctxres a d) s = .next (u.posted (regResult d 1 0)) ∧
         (u.ctx t).status = .ready ∧ (u.ctx t).vis = { (s.ctx t).vis with locks := [] } ∧ (u.ctx t).blocks = [] ∧ (u.ctx t).pc = (s.ctx t).pc ∧ s.iss.cyc < (u.ctx t).resumeAt ∧ u.cur = s.cur ∧
         u.mem = s.mem ∧ (u.die (clOf t / 6)).preReq.getLsbD (clOf t % 6) = false)))

/-- R354, R367 and R368: `ctxsave` to plain scratchpad memory writes the 57,856 bytes of the target's image there and no
other byte but those of them that the context's remote buffer holds (R195), and drops the target's load-blocks and locks; `ctxres.ld` and `ctxres.img` load an image that fits the target
from plain scratchpad memory and give 0, or 2 for one that does not fit; the loaded registers and the pc are the image's, bits 4:0 of the pc zero (R73). While
the transfer is in progress the bundle waits (R245); a checkpoint that cannot be corrected makes the save fatal (R369). -/
def Obligations.ContextImages : Prop :=
  ∀ (s : State) (a b d : BitVec 5) (x : Nat),
    let t := (s.rs a).toNat
    let ea := s.rs b
    let k := clOf s.iss.ctx
    let at_ := fun (i : Nat) => ea + BitVec.ofNat 64 i
    t < 2 ^ 13 → t / 16 % 8 < 6 → (s.ctx t).saveable = true → s.busyTarget t = false → t ≠ s.iss.ctx →
    spaceOf ea = .localSp x → x % 64 = 0 → x + 57856 ≤ 2 ^ 23 →
    (∀ i ∈ [Instr.ctxsave a b d, .ctxresImg a b d, .ctxresLd a b d], i = .ctxsave a b d ∨ (s.ctx t).resumable = true →
      ∃ u, exec i s = .next (if s.transferring then s.blocked .engineQueue [] [] [] [] else u)) ∧
    (s.transferring = false → chkKey t ∈ s.poison → exec (.ctxsave a b d) s = .next (s.fatalError 2 (some t))) ∧
    (s.transferring = false → chkKey t ∉ s.poison → Memory.wf s.mem = true → s.migs = [] → s.cur.winq = [] → s.iss.ctx < 2 ^ 13 →
      s.imageTrap ea = none → (∀ i, i < 57856 → s.isBarrier k (x + i) = false) →
      s.homeCheck s.iss.ctx .store s.iss.pc s.iss.slot (eaRun ea 57856) = none →
      let im := (s.modCtx t Ctx.settled).image t
      im.length = 57856 → ∃ u : State, exec (.ctxsave a b d) s = .next (u.posted (regResult d 1 0)) ∧
        (∀ i, (h : i < im.length) → memRead u.mem (spKey k (x + i)) = im[i]) ∧
        (∀ q, q < spKey k x ∨ spKey k x + 57856 ≤ q → (∀ id ∈ s.cur.remote, q < bufferKey s.iss.ctx (id / 2 ^ 23) (id % 2 ^ 23 * 64) ∨
          bufferKey s.iss.ctx (id / 2 ^ 23) (id % 2 ^ 23 * 64) + 64 ≤ q) → memRead u.mem q = memRead s.mem q) ∧
        (u.ctx t).blocks = [] ∧ (u.ctx t).vis.locks = [] ∧ (u.ctx t).chk.locks = [] ∧ u.cur = s.cur) ∧
    (s.transferring = false → (s.ctx t).cons = none → (∀ i, i < 904 → ∃ y, s.loadsLocal 64 (at_ (64 * i)) y) →
      ∃ (v : State) (bs : List Byte), v.ctxs = s.ctxs ∧ v.mem = s.mem ∧ bs.length = 57856 ∧
        (∀ i, (h : i < bs.length) → bs[i] = s.loadByte (s.own s.iss.ctx) (at_ i)) ∧
        (v.imageFits t bs = false → ∀ i ∈ [Instr.ctxresImg a b d, .ctxresLd a b d],
          exec i s = .next (v.posted (regResult d 1 2))) ∧
        (v.imageFits t bs = true →
          let w := { v.loadImage t bs with
            poison := (v.loadImage t bs).poison.filter fun q => decide (q ≠ chkKey t) && decide (q ≠ regKey t) }
          exec (.ctxresLd a b d) s = .next (w.posted (regResult d 1 0)) ∧
          exec (.ctxresImg a b d) s = .next ((w.resume t).posted (regResult d 1 0)) ∧
          let y := w.ctx t
          y.chk = y.vis ∧ y.pend = [] ∧ y.pc = BitVec.ofNat 64 (leNat ((bs.drop 0x10).take 8) / 32 * 32) ∧ y.status = (s.ctx t).status ∧
          ∀ r : BitVec 5, r ≠ 0 → y.vis.s r = BitVec.ofNat 64 (leNat ((bs.drop (0x40 + 8 * r.toNat)).take 8))))

/-- R359, R361 to R363: a trap on a kernel context outside a consist, and by R364 on an executive one whose SYS.EVEC is 0, while the
ring is open and sound, restores the last
checkpoint, with the records that `evpop` has taken since back in the queue (R243), parks the context, and writes the 64 bytes of the
trap's record at the ring's next index; no other byte of memory changes. R362
and R365: with the ring full or disabled the context is parked with its record pending, OVR is set, and no memory changes. That
deferred traps not yet raised survive another trap is the model's reading (log 67). R43: a trap on a member of a kernel launch's
consist parks every member that has not ended, each rolled back to the last checkpoint that all of them have taken, with the one
record; a member that is DONE stays so, which is the model's choice (log 72). -/
def Obligations.TrapOnAKernelContext : Prop :=
  let parks := fun (y : Ctx) => y.exec = false ∨ (y.inh = false ∧ y.evec = 0)
  (∀ (s : State) (c : Nat) (t : TrapInfo), Memory.wf s.mem = true → parks (s.ctx c) → (s.ctx c).cons = none →
     t.kind ≠ 0x10 → chkKey c ∉ s.poison → chkKey c ∉ s.corr → s.sys.ringOpen = true → s.ringBad = false → s.migs = [] →
     (∀ i, i < 64 → ∀ u, targetOf (s.sys.trapBase.toNat + 64 * (s.sys.trapWr.toNat % 2 ^ s.sys.trapLog2n) + i) = some u → u < 26) →
     let u := s.takeTrap c [t]
     let x := s.ctx c
     let y := u.ctx c
     let at_ := s.sys.trapBase.toNat + 64 * (s.sys.trapWr.toNat % 2 ^ s.sys.trapLog2n)
     let l := s.launchOf c
     y.evq = (x.popped.filter fun p => decide (x.chkNo ≤ p.1)).map (·.2) ++ x.evq ∧
     y.status = .parked .trap ∧ y.vis = x.chk ∧ y.pc = x.chkPc ∧ y.wb = [] ∧ y.pend = x.pend.filter (·.inChk) ∧
     y.deferred = x.deferred ∧ y.wdog = 0 ∧ u.sys = { s.sys with trapWr := s.sys.trapWr + 1 } ∧ u.fatal = s.fatal ∧
     (∀ c', c' ≠ c → u.ctx c' = s.ctx c') ∧
     (∀ q, q < at_ ∨ at_ + 64 ≤ q → memRead u.mem q = memRead s.mem q) ∧
     ∃ bs : List Byte, bs.length = 64 ∧ (∀ i, (h : i < bs.length) → memRead u.mem (at_ + i) = bs[i]) ∧
       bs = leBytes 1 t.kind.toNat ++ leBytes 1 0 ++ leBytes 1 (if t.deferred then 4 else 0) ++ leBytes 1 t.code.toNat ++ leBytes 2 c ++
         leBytes 2 (dieOf c * 128 + c / 16 % 8 * 16 + x.l) ++ leBytes 2 ((l.map (·.pkt.asid)).getD 0) ++
         leBytes 2 ((l.map (·.lseq.toNat)).getD 0) ++ leBytes 1 ((l.map (·.qid)).getD 0) ++ leBytes 3 0 ++
         leBytes 8 t.pc.toNat ++ leBytes 8 x.chkPc.toNat ++ leBytes 8 t.faddr.toNat ++ leBytes 8 t.arg.toNat ++
         leBytes 1 t.slot.toNat ++ leBytes 1 t.acc.toNat ++ leBytes 4 t.rrank.toNat ++ leBytes 1 t.rl.toNat ++ leBytes 1 0 ++
         leBytes 8 (s.now * 10 / 19)) ∧
  (∀ (s : State) (c : Nat) (t : TrapInfo), parks (s.ctx c) → (s.ctx c).cons = none → t.kind ≠ 0x10 →
     chkKey c ∉ s.poison → chkKey c ∉ s.corr → s.sys.ringOpen = false →
     let u := s.takeTrap c [t]
     (u.ctx c).status = .parked .trapPending ∧ (∃ r, (u.ctx c).pendRec = [r] ∧ r.info = t ∧ r.resume = (s.ctx c).chkPc) ∧
     u.sys = { s.sys with trapOvr := true } ∧ u.mem = s.mem ∧ (u.ctx c).vis = (s.ctx c).chk) ∧
  (∀ (s : State) (c i : Nat) (x : Consist) (t : TrapInfo), (s.ctx c).exec = false ∨ ((s.ctx c).inh = false ∧ (s.ctx c).evec = 0) →
     (s.ctx c).cons = some i → s.consists.find? (·.id = i) = some x → x.members.Nodup → c ∈ x.members → t.kind ≠ 0x10 →
     let ended := fun (p : Nat) => p ≠ c ∧ ((s.ctx p).status = .done ∨ (s.ctx p).status = .idle)
     (∀ p ∈ x.members, ¬ended p → chkKey p ∉ s.poison ∧ chkKey p ∉ s.corr) →
     let n := s.consistChk c
     let back := fun (y : Ctx) => match y.olds.find? fun o => o.no = n && decide (n < y.chkNo) with
       | none => (y.chk, y.chkPc)
       | some o => (o.vis, o.pc)
     let u := s.takeTrap c [t]
     (∀ p ∈ x.members, ¬ended p → ((u.ctx p).vis, (u.ctx p).pc) = back (s.ctx p) ∧ (u.ctx p).wb = [] ∧ (u.ctx p).wdog = 0 ∧
       (p ≠ c → (u.ctx p).status = .parked .trap)) ∧
     (∀ p, p ∉ x.members ∨ ended p → u.ctx p = s.ctx p) ∧
     (s.sys.ringOpen = true → s.ringBad = false →
       (u.ctx c).status = .parked .trap ∧ u.sys = { s.sys with trapWr := s.sys.trapWr + 1 }) ∧
     (s.sys.ringOpen = false →
       (u.ctx c).status = .parked .trapPending ∧ u.sys = { s.sys with trapOvr := true } ∧ u.mem = s.mem ∧
         ∃ r, (u.ctx c).pendRec = [r] ∧ r.info = t ∧ r.cons = true))

/-- R364, R369 and R351: a trap on an executive context outside a consist whose EVEC is set enters its handler: EPC is
RESUME, ECAUSE the kind, EADDR the faulting address, INH 1, control at EVEC; with INH 1 already it is a fatal error of cause
1, and one of cause 2 where its checkpoint cannot be corrected. In a consist, where every member has an EVEC, each that has not
ended enters its own handler from the last checkpoint of all (R43; log 16), and the consist's skew counts from there (R42). The watchdog's count starts anew in a handler, which is the model's choice
(log 72). `rte` clears INH and passes control to EPC, or raises the address-fault trap for an EPC that is no target. R11 and R356:
a trap that an instruction raises is taken by its context, and its bundle is told of it. -/
def Obligations.TrapOnAnExecutiveContext : Prop :=
  ((∀ (s : State) (c : Nat) (t : TrapInfo), (s.ctx c).exec = true → (s.ctx c).cons = none → t.kind ≠ 0x10 →
     let x := s.ctx c
     let u := s.takeTrap c [t]
     (x.inh = true → u.fatal = some 1) ∧
     (x.inh = false → chkKey c ∈ s.poison → t.key ≠ chkKey c → u.fatal = some 2) ∧
     (x.inh = false → chkKey c ∉ s.poison → chkKey c ∉ s.corr → x.evec ≠ 0 → (u.ctx c).wdog = 0 ∧ (u.ctx c).epc = x.chkPc ∧ (u.ctx c).ecause = t.kind ∧ (u.ctx c).eaddr = t.faddr ∧
       (u.ctx c).inh = true ∧ (u.ctx c).pc = x.evec ∧ (u.ctx c).status = .ready ∧ (u.ctx c).vis = x.chk ∧ (u.ctx c).wb = [] ∧
       u.mem = s.mem ∧ u.sys = s.sys ∧ ∀ c', c' ≠ c → u.ctx c' = s.ctx c')) ∧
   (∀ (s : State) (c i : Nat) (x : Consist) (t : TrapInfo), (s.ctx c).exec = true → (s.ctx c).inh = false →
     (s.ctx c).cons = some i → s.consists.find? (·.id = i) = some x → x.members.Nodup → c ∈ x.members → t.kind ≠ 0x10 →
     let ended := fun (p : Nat) => p ≠ c ∧ ((s.ctx p).status = .done ∨ (s.ctx p).status = .idle)
     (∀ p ∈ x.members, ¬ended p → chkKey p ∉ s.poison ∧ chkKey p ∉ s.corr ∧ (s.ctx p).evec ≠ 0 ∧ (s.ctx p).chkNo = s.consistChk c) →
     let u := s.takeTrap c [t]
     (∀ p ∈ x.members, ¬ended p → (u.ctx p).epc = (s.ctx p).chkPc ∧ (u.ctx p).ecause = t.kind ∧ (u.ctx p).eaddr = t.faddr ∧
       (u.ctx p).inh = true ∧ (u.ctx p).pc = (s.ctx p).evec ∧ (u.ctx p).status = .ready ∧ (u.ctx p).vis = (s.ctx p).chk ∧ (u.ctx p).wdog = 0) ∧
     (∀ y ∈ u.consists, y.id = i → y.beats = 0) ∧ (∀ p, p ∉ x.members ∨ ended p → u.ctx p = s.ctx p) ∧ u.mem = s.mem ∧ u.sys = s.sys) ∧
   ∀ s : State,
     (s.cur.epc.toNat / 2 ^ 56 = 0 ∧ s.cur.epc.toNat % 32 = 0 →
       exec .rte s = .next ((s.modCur fun c => { c with inh := false }).transfer s.cur.epc false)) ∧
     (¬(s.cur.epc.toNat / 2 ^ 56 = 0 ∧ s.cur.epc.toNat % 32 = 0) → exec .rte s = .next (s.raise (s.issTrap 0x03 s.cur.epc)))) ∧
  (∀ (s : State) (t : TrapInfo),
     (s.raise t).iss = { s.iss with sig := .trap t } ∧ { s.raise t with iss := s.iss } = s.takeTrap s.iss.ctx [t])

/-- R316 and R358: a withheld store whose bytes all lie in the scratchpad, none in a barrier object, and which its home
takes, writes at its release exactly its bytes, the last of two to one address, where nothing that its context released before is
under way; no other byte of memory changes, but for what the context's remote buffer holds of those bytes (R195). R205, R207,
R208, R316 and R358: a released atomic on plain scratchpad bytes of the cluster, which its home takes, reads them and writes
them in one step: the new value that the table of R207 gives for the operation, or for a compare that fails nothing; the old value,
extended as the table says, is posted at the latency of its issue as a result of the checkpoint; no other byte changes. -/
def Obligations.ReleasedStoresAndAtomics : Prop :=
  let alone := fun (s : State) => s.iss.ctx < 2 ^ 13 ∧ s.cur.winq = [] ∧ (∀ r ∈ s.l2q, r.ctx ≠ s.iss.ctx) ∧
    (∀ a ∈ s.agenda, a.ev = .famoArrival → a.due.ctx ≠ s.iss.ctx) ∧
    ∀ x ∈ s.cmds, x.ctx = s.iss.ctx → x.release = none ∨ x.ended = true
  let held := fun (s : State) (q : Nat) => ∃ id ∈ s.cur.remote, bufferKey s.iss.ctx (id / 2 ^ 23) (id % 2 ^ 23 * 64) ≤ q ∧
    q < bufferKey s.iss.ctx (id / 2 ^ 23) (id % 2 ^ 23 * 64) + 64
  (∀ (s : State) (e : Entry) (bs : List (Nat × Byte)) (tag : BitVec 2) (unit : Nat), Memory.wf s.mem = true → e.k = .store bs tag unit →
     let c := s.iss.ctx
     let k := clOf c
     let local_ := fun (p : Nat × Byte) => ∃ a, spaceOf (BitVec.ofNat 64 p.1) = .localSp a ∧ s.isBarrier k a = false ∧ s.syncAt k a = false
     bs ≠ [] → (∀ p ∈ bs, p.1 < 2 ^ 64 ∧ local_ p) → s.migs = [] → alone s →
     s.homeCheck c .store e.pc e.slot (bs.map fun p => BitVec.ofNat 64 p.1) = none →
     let t := s.perform c s.iss.cyc [e]
     let keys := bs.map fun p => (spKey k (p.1 % 2 ^ 56), p.2)
     (∀ q, q ∉ keys.map (·.1) → ¬held s q → memRead t.mem q = memRead s.mem q) ∧
     (∀ pre q b post, keys = pre ++ (q, b) :: post → q ∉ post.map (·.1) → memRead t.mem q = b) ∧
     t.ctxs = s.ctxs ∧ t.sys = s.sys ∧ t.cmds = s.cmds) ∧
  (∀ (s : State) (e : Entry) (ea b cmp : Word) (d : BitVec 5) (lat a : Nat) (op : AmoOp) (w64 : Bool), Memory.wf s.mem = true →
     let n := if w64 then 8 else 4
     let c := s.iss.ctx
     let key := spKey (clOf c) a
     let old := memNat s.mem key n
     let t := s.perform c s.iss.cyc [e]
     let dealt := fun (x : Word) =>
       if d = 0 then [] else [{ at_ := max (s.iss.cyc + lat) (s.now + 1), inChk := true, eff := .sreg d x : Pending }]
     let w := 8 * n
     let B := b.toNat % 2 ^ w
     let so := toSigned w old
     let sb := toSigned w B
     let natural := BitVec.ofNat 64 old
     let signed := BitVec.ofInt 64 so
     spaceOf ea = .localSp a → a + n ≤ 2 ^ 23 → s.migs = [] → alone s → (∀ k ∈ s.clusters, ∀ r ∈ k.2.barq, r.ctx ≠ c) →
     (∀ p ∈ s.cur.pend, p.ent ≠ some e.ord) →
     s.homeCheck c .atomic e.pc e.slot (eaRun ea n) = none →
     (e.k = .amo op w64 ea b d lat ∨ e.k = .cas w64 ea b cmp d lat) →
     (∀ q, q < key ∨ key + n ≤ q → ¬held s q → memRead t.mem q = memRead s.mem q) ∧
     (∀ (new : Nat) (x : Word), e.k = .amo op w64 ea b d lat →
       (op, new, x) ∈ [(AmoOp.add, (old + B) % 2 ^ w, signed), (.and, old &&& B, natural), (.or, old ||| B, natural),
         (.xor, old ^^^ B, natural), (.min, ofSigned w (min so sb), signed), (.max, ofSigned w (max so sb), signed),
         (.minn, min old B, natural), (.maxn, max old B, natural), (.xchg, B, signed)] →
       memNat t.mem key n = new ∧ t.cur.pend = s.cur.pend ++ dealt x) ∧
     (e.k = .cas w64 ea b cmp d lat →
       memNat t.mem key n = (if old = cmp.toNat % 256 ^ n then b.toNat % 256 ^ n else old) ∧
       t.cur.pend = s.cur.pend ++ dealt (BitVec.ofNat 64 old)))

/-- R317 and R318: the table of the race tags: what each kind of access by a party makes of each tag, and which raise the
exception. An access to several granules is rejected as a whole when one of them rejects it; otherwise each of them takes
the tag that the table gives, and no other tag changes. -/
def Obligations.RaceTagTable : Prop :=
  (∀ (s : State) (x : Party) (k : AccKind) (gs : List Gran),
    (s.conflict x k gs = none ↔ ∀ g ∈ gs, (s.tag g).step x g.ph k ≠ none) ∧
    (s.conflict x k gs = none → (∀ g ∈ gs, ∀ h ∈ gs, (g.space, g.n) = (h.space, h.n) → g = h) →
      (∀ g ∈ gs, (s.tag g).step x g.ph k = some ((s.register x k gs).tag g)) ∧
      (∀ g : Gran, (∀ h ∈ gs, (h.space, h.n) ≠ (g.space, g.n)) → (s.register x k gs).tag g = s.tag g) ∧
      { s.register x k gs with tags := s.tags } = s)) ∧
  ∀ (t : Tag) (x : Party) (ph : Nat),
    let own := t.id = some x
    let new := fun st => some { st := st, id := some x, ph := ph : Tag }
    (t.st = .none → t.step x ph .load = new .read1 ∧ t.step x ph .store = new .written ∧ t.step x ph .atomic = new .atomic) ∧
    (t.st = .written → own → t.step x ph .load = some t ∧ t.step x ph .store = some t ∧ t.step x ph .atomic = new .atomic) ∧
    (t.st = .read1 → own → t.step x ph .load = some t ∧ t.step x ph .store = new .written ∧ t.step x ph .atomic = new .atomic) ∧
    (t.st = .written → ¬own → ∀ k, t.step x ph k = none) ∧
    (t.st = .read1 → ¬own → t.step x ph .load = some { st := .readN, id := none, ph := ph } ∧ t.step x ph .store = none ∧
      t.step x ph .atomic = none) ∧
    (t.st = .readN → t.step x ph .load = some t ∧ t.step x ph .store = none ∧ t.step x ph .atomic = none) ∧
    (t.st = .atomic → t.step x ph .load = none ∧ t.step x ph .store = none ∧ t.step x ph .atomic = some t)

/-- R58 to R62 with R48: a finite value that an f32, f16 or bf16 pattern holds rounds to that pattern's own value in every
rounding mode, exactly: no flag is raised. -/
def Obligations.RepresentableValuesRoundToThemselves : Prop :=
  ∀ g ∈ [fmtF32, fmtBf16, fmtF16], ∀ (x rnd : Nat) (rm : Rm) (s zs : Bool) (m : Nat) (e : Int),
    x < 2 ^ (1 + g.eb + g.mb) → decodeF g x = .fin s m e → m ≠ 0 → roundDy g rm rnd zs (if s then -(m : Int) else m) e = (x, 0)

/-! ### Results, the step, reset -/

/-- R87 and R357: posting results changes nothing of the machine but the issuing context's list of results in flight, to
which it adds them at the bundle's issue cycle plus their latency. R74, R87, R88 and R90: as a result arrives it writes its
own register, predicate, flags or counter and leaves every other part of the visible state as it is; s0 reads as zero and p0
as all ones whatever is written. R88, R90, R125 and R129: RESULT ARRIVAL writes the context's results that are due, `csrw`
and `hclr` before the others of the same moment, otherwise in issue order, into the visible state, and into the checkpoint
those that belong to it; those not due stay in flight; nothing else of the machine changes. -/
def Obligations.ResultsPostedAndArriving : Prop :=
  (∀ (s : State) (rs : List (Nat × Eff)),
     (s.posted rs).cur = { s.cur with
       pend := s.cur.pend ++ rs.map fun r => { at_ := s.iss.cyc + r.1, inChk := false, eff := r.2 } } ∧
     (∀ c, c ≠ s.iss.ctx → (s.posted rs).ctx c = s.ctx c) ∧ { s.posted rs with ctxs := s.ctxs } = s) ∧
  (∀ (v : Vis) (r q : BitVec 5) (n m : Nat) (x : Word) (y : PReg) (z mask : VReg) (f : BitVec 6),
     v.s 0 = 0 ∧ v.p 0 = BitVec.allOnes 256 ∧
     (v.apply (.sreg r x)).s q = (if q = r ∧ r ≠ 0 then x else v.s q) ∧
     { v.apply (.sreg r x) with sreg := v.sreg } = v ∧
     (q.toNat < 24 → (v.apply (.pred r y)).p q = (if q = r ∧ r ≠ 0 then y else v.p q)) ∧
     { v.apply (.pred r y) with pred := v.pred } = v ∧
     (n < 48 → (v.apply (.vec n z mask)).v m = if m = n then (v.v m &&& ~~~mask) ||| (z &&& mask) else v.v m) ∧
     { v.apply (.vec n z mask) with vec := v.vec } = v ∧
     v.apply (.flags f) = { v with fpFlags := v.fpFlags ||| f } ∧
     v.apply (.mal n) = { v with cntMal := BitVec.ofNat 32 (min (v.cntMal.toNat + n) 0xFFFFFFFF) } ∧
     v.apply (.sat n) = { v with cntSat := BitVec.ofNat 32 (min (v.cntSat.toNat + n) 0xFFFFFFFF) }) ∧
  (∀ s : State,
     let c := s.due.ctx
     let x := s.ctx c
     let due := x.pend.filter fun p => p.at_ ≤ s.now
     let order := due.filter (fun p => p.eff.first) ++ due.filter fun p => !p.eff.first
     exec .resultArrival s = .next (s.modCtx c fun x => { x with
       vis := order.foldl (fun v p => v.apply p.eff) x.vis
       chk := (order.filter (·.inChk)).foldl (fun v p => v.apply p.eff) x.chk
       pend := x.pend.filter fun p => s.now < p.at_
       freeing := x.freeing - order.countP (·.eff = .freeSlot) }))

/-- R7, R88, R316, R368 and R369: what one step is. Results that are due arrive first, then the first due event happens, then the
next core has its turn, then the L2 homes perform what is left to them, the lowest identity first, then the cycle ends and time
advances by one cycle; after a fatal error nothing happens but a reset. Where the cycle's trap records were raised in ascending
CTXID, memory changes at a cycle's end by race tags that an L2
home evicts alone, a free choice of the model (log 75). That due events come before the bundles' turns (log 6), and that cores have
their turns in ascending number over the module (log 20), are the model's choices. -/
def Obligations.StepOrder : Prop :=
  ∀ s : State,
    (s.fatal = none →
      (∀ c, s.arriving = some c → step s = exec .resultArrival { s with due := { ctx := c } }) ∧
      (s.arriving = none →
        (∀ a rest, s.dueEvent = some (a, rest) → a.at_ ≤ s.now ∧ step s = exec a.ev { s with agenda := rest, due := a.due }) ∧
        (s.dueEvent = none →
          (∀ q rest, s.turns = q :: rest → step s = s.openTurn q rest) ∧
          (s.turns = [] →
            (∀ r, s.homeNext = some (.entry r) → r ∈ s.l2q ∧ s.mayLeave r = true ∧
              (∀ x ∈ s.l2q, s.mayLeave x = true → s.lidOf r.ctx ≤ s.lidOf x.ctx) ∧
              step s = .next (s.performHome r)) ∧
            (∀ a, s.homeNext = some (.event a) → a ∈ s.agenda ∧ a.at_ ≤ s.now ∧
              step s = exec a.ev { s with agenda := s.agenda.erase a, due := a.due }) ∧
            (s.homeNext = none → ∃ t, step s = .next t ∧ t.now = s.now + 1 ∧ t.memPrev = t.mem ∧ t.agenda = s.agenda ∧
              ((∀ g ∈ s.tags, g.1.1 = 0) → (s.claims.map fun r => r.1.ctxid.toNat).Pairwise (· ≤ ·) → t.mem = s.mem)))))) ∧
    (∀ n, s.fatal = some n → s.comingReset = none → step s = .fault .held)

/-- R37, R85, R86 and R356: A STEP RUNS THE DECODED BUNDLE. In the turn of a core whose CURRENT context, outside a consist,
has a bundle that is due, fetched, legal and permitted, without a stall and with no deferred trap, no context of the core being
BLOCKED, every slot's instruction is executed by `exec` in the order S0 to M1, a checkpoint and `halt` last; when none blocks or
traps, the watchdog has not expired and the withholding buffer holds no more than 128 entries, the step's state is the one so
reached, with control passed on, and the bookkeeping of an issue. -/
def Obligations.StepRunsTheDecodedBundle : Prop :=
  ∀ (s : State) (q h : Nat) (rest : List Nat) (words : List (BitVec 32)) (e : Tlb) (is : List Instr),
    let c := 4 * q + h
    let s0 := { (if s.opened then s else { s with opened := true, memCyc := s.mem, pubs := s.cyclePubs }) with turns := rest }
    let s1 := s0.modCtx c fun x => { x with wdog := x.wdog + 1 }
    let m := e.addr (s1.ctx c).pc.toNat
    let s2 := ((((s1.learn e).heat m e.leaf).corrected (dieOf c) (m / 64 * 64) 64).corrected (dieOf c) (regKey c) 1).modCtx c fun x =>
      { x with wait := some (x.wait.getD s1.now) }
    let runs := fun (l : List (Nat × Instr)) => l.foldl (fun (r : State × Bool) ki =>
      match exec ki.2 { r.1 with iss := { r.1.iss with slot := ki.1, sig := .ok } } with
      | .next t => (t, r.2 && decide (t.iss.sig = .ok))
      | _ => (r.1, false)) (s2.beginBundle c words is false false, true)
    let run := runs (earlySlots is ++ lateSlots is)
    s.fatal = none → s.arriving = none → s.dueEvent = none → s.turns = q :: rest → (s.ctx (4 * q)).cons = none →
    (s.core q).hold = none → (s.core q).cur = some h → (s.ctx c).cons = none → (∀ i, i < 4 → (s.ctx (4 * q + i)).isBlocked = false) →
    (s1.ctx c).candidate s.now = true → regKey c ∉ s.poison → s1.fetch c = .ok words e → decodeBundle words = .ok is →
    ((s1.ctx c).exec = true ∨ ∀ i ∈ is, i.privileged = false) → (s1.ctx c).deferred = [] → is.length = 8 →
    bankStall ((s2.beginBundle c words is false true).bundleAddrs is) +
      s2.groupWait (clOf c) ((s2.beginBundle c words is false true).bundleAddrs is) s2.now = 0 →
    run.2 = true → ((s2.ctx c).wdog ≠ s2.wdogOf c ∨ .yield ∈ is) →
    ((∃ i ∈ is, i.checkpoints = true) ∨ ((runs (earlySlots is)).1.ctx c).overfull = false) →
    step s = .next (run.1.completed.afterIssue c 0 0)

/-- R84, R347 and R356: a due bundle that breaks a rule of encoding or legality raises 0x01 naming its slot, and a legal one
with a privileged instruction in a kernel context raises 0x02 naming the first such slot, before any of its slots acts. -/
def Obligations.IllegalAndPrivilegedBundlesTrap : Prop :=
  ∀ (s : State) (c : Nat) (words : List (BitVec 32)) (e : Tlb), regKey c ∉ s.poison → s.fetch c = .ok words e →
    let pc := (s.ctx c).pc
    (∀ k, decodeBundle words = .error k →
      s.evaluate c = .trap true [{ kind := 0x01, pc := pc, slot := BitVec.ofNat 8 k }]) ∧
    ∀ is k, decodeBundle words = .ok is → (s.ctx c).exec = false → k < 8 → (is.getD k .nop).privileged = true →
      (∀ j, j < k → (is.getD j .nop).privileged = false) →
      s.evaluate c = .trap true [{ kind := 0x02, pc := pc, slot := BitVec.ofNat 8 k }]

/-- The reset state of the model (R7, R131, R221, R350, R369): nothing runs, memory lists nothing and is canonical, the trap
ring is disabled with 2^14 entries, no error is fatal, and the boot sequence is due. The memory's form is the model's own
(log 2). -/
def Obligations.ResetState : Prop :=
  MemoryCanonical State.reset ∧ State.reset.mem = [] ∧ State.reset.now = 0 ∧ State.reset.fatal = none ∧
  State.reset.ctxs = [] ∧ State.reset.launches = [] ∧ State.reset.cmds = [] ∧ State.reset.sys.trapEn = false ∧
  State.reset.sys.trapLog2n = 14 ∧ State.reset.sys.trapBase = 0 ∧ State.reset.sys.trapWr = 0 ∧ State.reset.sys.trapRd = 0 ∧
  State.reset.sys.asidEn = false ∧ (∀ d, (State.reset.die d).wdogDef = 2 ^ 24 ∧ (State.reset.die d).lockQ = 64) ∧
  State.reset.agenda.map (·.ev) = [.coldReset] ∧ ∀ a, memRead State.reset.mem a = 0

/-- Every step keeps the canonical form of the model's memory (log 2): keys strictly rising, no entry that reads as an
unlisted byte does, in memory itself and in the two copies that a cycle keeps. -/
def Obligations.EveryStepKeepsMemoryCanonical : Prop :=
  ∀ s t : State, MemoryCanonical s → step s = .next t → MemoryCanonical t

/-! ### Encodings (R75 to R84) -/

/-- R75 to R82: the words that the spec itself writes out beside its rules decode, in the class of the slots they stand in,
to the instructions it names; one word means different things in different classes. -/
def Obligations.WorkedEncodings : Prop :=
  (∀ p ∈ [(0x04A11000#32, Instr.add 5 1 2 false), (0x18C11006#32, .scmp 6 1 2 false .ltn), (0x4467FFFC#32, .bcc 3 .ne (-4)),
      (0x4C000064#32, .call 100), (0x58200002#32, .loop 1 2), (0x5C403C00#32, .lstep 2 7 true), (0x60000001#32, .halt),
      (0x60A30004#32, .trap 5 3), (0x80030000#32, .ewr 3 0), (0x84040012#32, .erd 4 0x12), (0x94060005#32, .pwait 6 .pub 5),
      (0x98000005#32, .prel 5), (0x88000005#32, .mxgo true 1), (0x8C000006#32, .mxsgo true 2), (0x90000001#32, .epgo 1),
      (0xC0000000#32, .rte), (0#32, .nop), (0xE0000005#32, .literal 5)], decode .scalar p.1 = .ok p.2) ∧
  (∀ p ∈ [(0x0C48D0B8#32, Instr.vfma 1 2 3 4 5 .f32 false), (0x20E46049#32, .vcmpn 7 2 3 0 .i32 .lt),
      (0x3485204A#32, .vext 2 1 9 .i32 5), (0x39180182#32, .vxc 4 6 0 .f32 .gc), (0x70958140#32, .vcvt 2 5 6 0 .sr 0),
      (0xE0000005#32, .literal 5)], decode .vector p.1 = .ok p.2) ∧
  (∀ p ∈ [(0x048C0180#32, Instr.fexp2 2 3 0 .f32), (0x4D058100#32, .qpack 4 1 6 0 .bf16 0)], decode .xclass p.1 = .ok p.2) ∧
  ∀ p ∈ [(0x04E20002#32, Instr.ldI64 7 2 2), (0x4C8AE341#32, .vgath 2 5 7 3 .b32 false true), (0x706532D0#32, .amo 3 5 6 .acq .die true .add),
      (0x80000024#32, .fence .rel .mod), (0x84800003#32, .barArr 4 3), (0x88860000#32, .barWait 4 6 0), (0x94080000#32, .evpop 8),
      (0x98090000#32, .evpeek 9), (0xC0890005#32, .pool 4 9 false false false 0 5), (0xC4CA0001#32, .upd 6 10 false false 1),
      (0xC8890001#32, .msend 4 9 1)], decode .memory p.1 = .ok p.2

/-- R75 to R79: in the scalar class the decoder reads every well-formed instruction back from its word, with every operand,
and in every class it reads the no-operation and every literal word. -/
def Obligations.EncodedScalarWordsDecode : Prop :=
  (∀ (i : Instr) (w : BitVec 32), i.wf = true → i.cls = some .scalar → encode i = some w → decode .scalar w = .ok i) ∧
  ∀ c : SlotClass, decode c 0 = .ok .nop ∧ ∀ p : BitVec 29, decode c (7#3 ++ p) = .ok (.literal p)

/-- R77, R78, R80 and R81: in the vector and X classes the decoder reads every well-formed instruction back from its word,
with every operand. -/
def Obligations.EncodedVectorWordsDecode : Prop :=
  ∀ (i : Instr) (w : BitVec 32), i.wf = true → encode i = some w →
    (i.cls = some .vector → decode .vector w = .ok i) ∧ (i.cls = some .xclass → decode .xclass w = .ok i)

/-- R77, R78 and R82: in the memory class the decoder reads every well-formed instruction back from its word, with every
operand. -/
def Obligations.EncodedMemoryWordsDecode : Prop :=
  ∀ (i : Instr) (w : BitVec 32), i.wf = true → i.cls = some .memory → encode i = some w → decode .memory w = .ok i

/-- R78 to R84: the decoder accepts a word only as the encoding of a well-formed instruction of the class, every bit
counted: an unassigned major, code or operand and a field that should be zero are refused. -/
def Obligations.AcceptedWordsAreEncodings : Prop :=
  ∀ (c : SlotClass) (w : BitVec 32) (i : Instr), decode c w = .ok i →
    encode i = some w ∧ i.wf = true ∧ i.isWord = true ∧ (i.cls = some c ∨ i = .nop ∨ ∃ p, i = .literal p)
end

