-- ==== Sys2Proof/Laws/State.lean ====
section
/-! SUPPORT. Sys2Proof/Laws/State.lean: for each update of the state, what each field is after it, so that no proof unfolds a
record update; reading a context, core, cluster or die after writing one. -/

namespace Sys2Proof.Machine

/-! ### Lists kept by key -/

theorem aget_aset_self {α : Type} (d : α) (l : List (Nat × α)) (k : Nat) (x : α) : aget d (aset l k x) k = x := by
  induction l with
  | nil => simp [aset, aget]
  | cons p r ih =>
    obtain ⟨k', y⟩ := p
    unfold aset
    split
    · simp [aget]
    · split
      · simp [aget]
      · next h _ => simpa [aget, Ne.symm h] using ih

theorem aget_aset_ne {α : Type} (d : α) (l : List (Nat × α)) {k j : Nat} (x : α) (h : j ≠ k) :
    aget d (aset l k x) j = aget d l j := by
  induction l with
  | nil => simp [aset, aget, h.symm]
  | cons p r ih =>
    obtain ⟨k', y⟩ := p
    unfold aset
    split
    · next e => simp [aget, ← e, h.symm]
    · split
      · simp [aget, h.symm]
      · simp [aget, ih]

/-! ### State.put -/

section
variable (s : State) (bs : List (Nat × Byte))
@[simp] theorem State.put_now : (s.put bs).now = s.now := rfl
@[simp] theorem State.put_agenda : (s.put bs).agenda = s.agenda := rfl
@[simp] theorem State.put_turns : (s.put bs).turns = s.turns := rfl
@[simp] theorem State.put_due : (s.put bs).due = s.due := rfl
@[simp] theorem State.put_iss : (s.put bs).iss = s.iss := rfl
@[simp] theorem State.put_free : (s.put bs).free = s.free := rfl
@[simp] theorem State.put_nextId : (s.put bs).nextId = s.nextId := rfl
@[simp] theorem State.put_ctxs : (s.put bs).ctxs = s.ctxs := rfl
@[simp] theorem State.put_cores : (s.put bs).cores = s.cores := rfl
@[simp] theorem State.put_clusters : (s.put bs).clusters = s.clusters := rfl
@[simp] theorem State.put_dies : (s.put bs).dies = s.dies := rfl
@[simp] theorem State.put_sys : (s.put bs).sys = s.sys := rfl
@[simp] theorem State.put_depots : (s.put bs).depots = s.depots := rfl
@[simp] theorem State.put_guest : (s.put bs).guest = s.guest := rfl
@[simp] theorem State.put_memPrev : (s.put bs).memPrev = s.memPrev := rfl
@[simp] theorem State.put_memCyc : (s.put bs).memCyc = s.memCyc := rfl
@[simp] theorem State.put_opened : (s.put bs).opened = s.opened := rfl
@[simp] theorem State.put_pubs : (s.put bs).pubs = s.pubs := rfl
@[simp] theorem State.put_banked : (s.put bs).banked = s.banked := rfl
@[simp] theorem State.put_farSums : (s.put bs).farSums = s.farSums := rfl
@[simp] theorem State.put_l2q : (s.put bs).l2q = s.l2q := rfl
@[simp] theorem State.put_fixed : (s.put bs).fixed = s.fixed := rfl
@[simp] theorem State.put_claims : (s.put bs).claims = s.claims := rfl
@[simp] theorem State.put_tags : (s.put bs).tags = s.tags := rfl
@[simp] theorem State.put_tlb : (s.put bs).tlb = s.tlb := rfl
@[simp] theorem State.put_access : (s.put bs).access = s.access := rfl
@[simp] theorem State.put_parts : (s.put bs).parts = s.parts := rfl
@[simp] theorem State.put_bounds : (s.put bs).bounds = s.bounds := rfl
@[simp] theorem State.put_pop : (s.put bs).pop = s.pop := rfl
@[simp] theorem State.put_retired : (s.put bs).retired = s.retired := rfl
@[simp] theorem State.put_regions : (s.put bs).regions = s.regions := rfl
@[simp] theorem State.put_poison : (s.put bs).poison = s.poison := rfl
@[simp] theorem State.put_corr : (s.put bs).corr = s.corr := rfl
@[simp] theorem State.put_corrCnt : (s.put bs).corrCnt = s.corrCnt := rfl
@[simp] theorem State.put_cmds : (s.put bs).cmds = s.cmds := rfl
@[simp] theorem State.put_jobs : (s.put bs).jobs = s.jobs := rfl
@[simp] theorem State.put_upds : (s.put bs).upds = s.upds := rfl
@[simp] theorem State.put_msgs : (s.put bs).msgs = s.msgs := rfl
@[simp] theorem State.put_unexpPrev : (s.put bs).unexpPrev = s.unexpPrev := rfl
@[simp] theorem State.put_migs : (s.put bs).migs = s.migs := rfl
@[simp] theorem State.put_invals : (s.put bs).invals = s.invals := rfl
@[simp] theorem State.put_hot : (s.put bs).hot = s.hot := rfl
@[simp] theorem State.put_sketches : (s.put bs).sketches = s.sketches := rfl
@[simp] theorem State.put_launches : (s.put bs).launches = s.launches := rfl
@[simp] theorem State.put_queues : (s.put bs).queues = s.queues := rfl
@[simp] theorem State.put_lastQ : (s.put bs).lastQ = s.lastQ := rfl
@[simp] theorem State.put_gangsOut : (s.put bs).gangsOut = s.gangsOut := rfl
@[simp] theorem State.put_consists : (s.put bs).consists = s.consists := rfl
@[simp] theorem State.put_luvex : (s.put bs).luvex = s.luvex := rfl
@[simp] theorem State.put_guestq : (s.put bs).guestq = s.guestq := rfl
@[simp] theorem State.put_fatal : (s.put bs).fatal = s.fatal := rfl
@[simp] theorem State.put_out : (s.put bs).out = s.out := rfl
end

/-! ### State.setCtx -/

section
variable (s : State) (c : Nat) (x : Ctx)
@[simp] theorem State.setCtx_now : (s.setCtx c x).now = s.now := rfl
@[simp] theorem State.setCtx_agenda : (s.setCtx c x).agenda = s.agenda := rfl
@[simp] theorem State.setCtx_turns : (s.setCtx c x).turns = s.turns := rfl
@[simp] theorem State.setCtx_due : (s.setCtx c x).due = s.due := rfl
@[simp] theorem State.setCtx_iss : (s.setCtx c x).iss = s.iss := rfl
@[simp] theorem State.setCtx_free : (s.setCtx c x).free = s.free := rfl
@[simp] theorem State.setCtx_nextId : (s.setCtx c x).nextId = s.nextId := rfl
@[simp] theorem State.setCtx_cores : (s.setCtx c x).cores = s.cores := rfl
@[simp] theorem State.setCtx_clusters : (s.setCtx c x).clusters = s.clusters := rfl
@[simp] theorem State.setCtx_dies : (s.setCtx c x).dies = s.dies := rfl
@[simp] theorem State.setCtx_sys : (s.setCtx c x).sys = s.sys := rfl
@[simp] theorem State.setCtx_depots : (s.setCtx c x).depots = s.depots := rfl
@[simp] theorem State.setCtx_guest : (s.setCtx c x).guest = s.guest := rfl
@[simp] theorem State.setCtx_mem : (s.setCtx c x).mem = s.mem := rfl
@[simp] theorem State.setCtx_memPrev : (s.setCtx c x).memPrev = s.memPrev := rfl
@[simp] theorem State.setCtx_memCyc : (s.setCtx c x).memCyc = s.memCyc := rfl
@[simp] theorem State.setCtx_opened : (s.setCtx c x).opened = s.opened := rfl
@[simp] theorem State.setCtx_pubs : (s.setCtx c x).pubs = s.pubs := rfl
@[simp] theorem State.setCtx_banked : (s.setCtx c x).banked = s.banked := rfl
@[simp] theorem State.setCtx_farSums : (s.setCtx c x).farSums = s.farSums := rfl
@[simp] theorem State.setCtx_l2q : (s.setCtx c x).l2q = s.l2q := rfl
@[simp] theorem State.setCtx_fixed : (s.setCtx c x).fixed = s.fixed := rfl
@[simp] theorem State.setCtx_claims : (s.setCtx c x).claims = s.claims := rfl
@[simp] theorem State.setCtx_tags : (s.setCtx c x).tags = s.tags := rfl
@[simp] theorem State.setCtx_tlb : (s.setCtx c x).tlb = s.tlb := rfl
@[simp] theorem State.setCtx_access : (s.setCtx c x).access = s.access := rfl
@[simp] theorem State.setCtx_parts : (s.setCtx c x).parts = s.parts := rfl
@[simp] theorem State.setCtx_bounds : (s.setCtx c x).bounds = s.bounds := rfl
@[simp] theorem State.setCtx_pop : (s.setCtx c x).pop = s.pop := rfl
@[simp] theorem State.setCtx_retired : (s.setCtx c x).retired = s.retired := rfl
@[simp] theorem State.setCtx_regions : (s.setCtx c x).regions = s.regions := rfl
@[simp] theorem State.setCtx_poison : (s.setCtx c x).poison = s.poison := rfl
@[simp] theorem State.setCtx_corr : (s.setCtx c x).corr = s.corr := rfl
@[simp] theorem State.setCtx_corrCnt : (s.setCtx c x).corrCnt = s.corrCnt := rfl
@[simp] theorem State.setCtx_cmds : (s.setCtx c x).cmds = s.cmds := rfl
@[simp] theorem State.setCtx_jobs : (s.setCtx c x).jobs = s.jobs := rfl
@[simp] theorem State.setCtx_upds : (s.setCtx c x).upds = s.upds := rfl
@[simp] theorem State.setCtx_msgs : (s.setCtx c x).msgs = s.msgs := rfl
@[simp] theorem State.setCtx_unexpPrev : (s.setCtx c x).unexpPrev = s.unexpPrev := rfl
@[simp] theorem State.setCtx_migs : (s.setCtx c x).migs = s.migs := rfl
@[simp] theorem State.setCtx_invals : (s.setCtx c x).invals = s.invals := rfl
@[simp] theorem State.setCtx_hot : (s.setCtx c x).hot = s.hot := rfl
@[simp] theorem State.setCtx_sketches : (s.setCtx c x).sketches = s.sketches := rfl
@[simp] theorem State.setCtx_launches : (s.setCtx c x).launches = s.launches := rfl
@[simp] theorem State.setCtx_queues : (s.setCtx c x).queues = s.queues := rfl
@[simp] theorem State.setCtx_lastQ : (s.setCtx c x).lastQ = s.lastQ := rfl
@[simp] theorem State.setCtx_gangsOut : (s.setCtx c x).gangsOut = s.gangsOut := rfl
@[simp] theorem State.setCtx_consists : (s.setCtx c x).consists = s.consists := rfl
@[simp] theorem State.setCtx_luvex : (s.setCtx c x).luvex = s.luvex := rfl
@[simp] theorem State.setCtx_guestq : (s.setCtx c x).guestq = s.guestq := rfl
@[simp] theorem State.setCtx_fatal : (s.setCtx c x).fatal = s.fatal := rfl
@[simp] theorem State.setCtx_out : (s.setCtx c x).out = s.out := rfl
end

/-! ### State.modCtx -/

section
variable (s : State) (c : Nat) (f : Ctx → Ctx)
@[simp] theorem State.modCtx_now : (s.modCtx c f).now = s.now := rfl
@[simp] theorem State.modCtx_agenda : (s.modCtx c f).agenda = s.agenda := rfl
@[simp] theorem State.modCtx_turns : (s.modCtx c f).turns = s.turns := rfl
@[simp] theorem State.modCtx_due : (s.modCtx c f).due = s.due := rfl
@[simp] theorem State.modCtx_iss : (s.modCtx c f).iss = s.iss := rfl
@[simp] theorem State.modCtx_free : (s.modCtx c f).free = s.free := rfl
@[simp] theorem State.modCtx_nextId : (s.modCtx c f).nextId = s.nextId := rfl
@[simp] theorem State.modCtx_cores : (s.modCtx c f).cores = s.cores := rfl
@[simp] theorem State.modCtx_clusters : (s.modCtx c f).clusters = s.clusters := rfl
@[simp] theorem State.modCtx_dies : (s.modCtx c f).dies = s.dies := rfl
@[simp] theorem State.modCtx_sys : (s.modCtx c f).sys = s.sys := rfl
@[simp] theorem State.modCtx_depots : (s.modCtx c f).depots = s.depots := rfl
@[simp] theorem State.modCtx_guest : (s.modCtx c f).guest = s.guest := rfl
@[simp] theorem State.modCtx_mem : (s.modCtx c f).mem = s.mem := rfl
@[simp] theorem State.modCtx_memPrev : (s.modCtx c f).memPrev = s.memPrev := rfl
@[simp] theorem State.modCtx_memCyc : (s.modCtx c f).memCyc = s.memCyc := rfl
@[simp] theorem State.modCtx_opened : (s.modCtx c f).opened = s.opened := rfl
@[simp] theorem State.modCtx_pubs : (s.modCtx c f).pubs = s.pubs := rfl
@[simp] theorem State.modCtx_banked : (s.modCtx c f).banked = s.banked := rfl
@[simp] theorem State.modCtx_farSums : (s.modCtx c f).farSums = s.farSums := rfl
@[simp] theorem State.modCtx_l2q : (s.modCtx c f).l2q = s.l2q := rfl
@[simp] theorem State.modCtx_fixed : (s.modCtx c f).fixed = s.fixed := rfl
@[simp] theorem State.modCtx_claims : (s.modCtx c f).claims = s.claims := rfl
@[simp] theorem State.modCtx_tags : (s.modCtx c f).tags = s.tags := rfl
@[simp] theorem State.modCtx_tlb : (s.modCtx c f).tlb = s.tlb := rfl
@[simp] theorem State.modCtx_access : (s.modCtx c f).access = s.access := rfl
@[simp] theorem State.modCtx_parts : (s.modCtx c f).parts = s.parts := rfl
@[simp] theorem State.modCtx_bounds : (s.modCtx c f).bounds = s.bounds := rfl
@[simp] theorem State.modCtx_pop : (s.modCtx c f).pop = s.pop := rfl
@[simp] theorem State.modCtx_retired : (s.modCtx c f).retired = s.retired := rfl
@[simp] theorem State.modCtx_regions : (s.modCtx c f).regions = s.regions := rfl
@[simp] theorem State.modCtx_poison : (s.modCtx c f).poison = s.poison := rfl
@[simp] theorem State.modCtx_corr : (s.modCtx c f).corr = s.corr := rfl
@[simp] theorem State.modCtx_corrCnt : (s.modCtx c f).corrCnt = s.corrCnt := rfl
@[simp] theorem State.modCtx_cmds : (s.modCtx c f).cmds = s.cmds := rfl
@[simp] theorem State.modCtx_jobs : (s.modCtx c f).jobs = s.jobs := rfl
@[simp] theorem State.modCtx_upds : (s.modCtx c f).upds = s.upds := rfl
@[simp] theorem State.modCtx_msgs : (s.modCtx c f).msgs = s.msgs := rfl
@[simp] theorem State.modCtx_unexpPrev : (s.modCtx c f).unexpPrev = s.unexpPrev := rfl
@[simp] theorem State.modCtx_migs : (s.modCtx c f).migs = s.migs := rfl
@[simp] theorem State.modCtx_invals : (s.modCtx c f).invals = s.invals := rfl
@[simp] theorem State.modCtx_hot : (s.modCtx c f).hot = s.hot := rfl
@[simp] theorem State.modCtx_sketches : (s.modCtx c f).sketches = s.sketches := rfl
@[simp] theorem State.modCtx_launches : (s.modCtx c f).launches = s.launches := rfl
@[simp] theorem State.modCtx_queues : (s.modCtx c f).queues = s.queues := rfl
@[simp] theorem State.modCtx_lastQ : (s.modCtx c f).lastQ = s.lastQ := rfl
@[simp] theorem State.modCtx_gangsOut : (s.modCtx c f).gangsOut = s.gangsOut := rfl
@[simp] theorem State.modCtx_consists : (s.modCtx c f).consists = s.consists := rfl
@[simp] theorem State.modCtx_luvex : (s.modCtx c f).luvex = s.luvex := rfl
@[simp] theorem State.modCtx_guestq : (s.modCtx c f).guestq = s.guestq := rfl
@[simp] theorem State.modCtx_fatal : (s.modCtx c f).fatal = s.fatal := rfl
@[simp] theorem State.modCtx_out : (s.modCtx c f).out = s.out := rfl
end

/-! ### State.setCore -/

section
variable (s : State) (q : Nat) (x : Core)
@[simp] theorem State.setCore_now : (s.setCore q x).now = s.now := rfl
@[simp] theorem State.setCore_agenda : (s.setCore q x).agenda = s.agenda := rfl
@[simp] theorem State.setCore_turns : (s.setCore q x).turns = s.turns := rfl
@[simp] theorem State.setCore_due : (s.setCore q x).due = s.due := rfl
@[simp] theorem State.setCore_iss : (s.setCore q x).iss = s.iss := rfl
@[simp] theorem State.setCore_free : (s.setCore q x).free = s.free := rfl
@[simp] theorem State.setCore_nextId : (s.setCore q x).nextId = s.nextId := rfl
@[simp] theorem State.setCore_ctxs : (s.setCore q x).ctxs = s.ctxs := rfl
@[simp] theorem State.setCore_clusters : (s.setCore q x).clusters = s.clusters := rfl
@[simp] theorem State.setCore_dies : (s.setCore q x).dies = s.dies := rfl
@[simp] theorem State.setCore_sys : (s.setCore q x).sys = s.sys := rfl
@[simp] theorem State.setCore_depots : (s.setCore q x).depots = s.depots := rfl
@[simp] theorem State.setCore_guest : (s.setCore q x).guest = s.guest := rfl
@[simp] theorem State.setCore_mem : (s.setCore q x).mem = s.mem := rfl
@[simp] theorem State.setCore_memPrev : (s.setCore q x).memPrev = s.memPrev := rfl
@[simp] theorem State.setCore_memCyc : (s.setCore q x).memCyc = s.memCyc := rfl
@[simp] theorem State.setCore_opened : (s.setCore q x).opened = s.opened := rfl
@[simp] theorem State.setCore_pubs : (s.setCore q x).pubs = s.pubs := rfl
@[simp] theorem State.setCore_banked : (s.setCore q x).banked = s.banked := rfl
@[simp] theorem State.setCore_farSums : (s.setCore q x).farSums = s.farSums := rfl
@[simp] theorem State.setCore_l2q : (s.setCore q x).l2q = s.l2q := rfl
@[simp] theorem State.setCore_fixed : (s.setCore q x).fixed = s.fixed := rfl
@[simp] theorem State.setCore_claims : (s.setCore q x).claims = s.claims := rfl
@[simp] theorem State.setCore_tags : (s.setCore q x).tags = s.tags := rfl
@[simp] theorem State.setCore_tlb : (s.setCore q x).tlb = s.tlb := rfl
@[simp] theorem State.setCore_access : (s.setCore q x).access = s.access := rfl
@[simp] theorem State.setCore_parts : (s.setCore q x).parts = s.parts := rfl
@[simp] theorem State.setCore_bounds : (s.setCore q x).bounds = s.bounds := rfl
@[simp] theorem State.setCore_pop : (s.setCore q x).pop = s.pop := rfl
@[simp] theorem State.setCore_retired : (s.setCore q x).retired = s.retired := rfl
@[simp] theorem State.setCore_regions : (s.setCore q x).regions = s.regions := rfl
@[simp] theorem State.setCore_poison : (s.setCore q x).poison = s.poison := rfl
@[simp] theorem State.setCore_corr : (s.setCore q x).corr = s.corr := rfl
@[simp] theorem State.setCore_corrCnt : (s.setCore q x).corrCnt = s.corrCnt := rfl
@[simp] theorem State.setCore_cmds : (s.setCore q x).cmds = s.cmds := rfl
@[simp] theorem State.setCore_jobs : (s.setCore q x).jobs = s.jobs := rfl
@[simp] theorem State.setCore_upds : (s.setCore q x).upds = s.upds := rfl
@[simp] theorem State.setCore_msgs : (s.setCore q x).msgs = s.msgs := rfl
@[simp] theorem State.setCore_unexpPrev : (s.setCore q x).unexpPrev = s.unexpPrev := rfl
@[simp] theorem State.setCore_migs : (s.setCore q x).migs = s.migs := rfl
@[simp] theorem State.setCore_invals : (s.setCore q x).invals = s.invals := rfl
@[simp] theorem State.setCore_hot : (s.setCore q x).hot = s.hot := rfl
@[simp] theorem State.setCore_sketches : (s.setCore q x).sketches = s.sketches := rfl
@[simp] theorem State.setCore_launches : (s.setCore q x).launches = s.launches := rfl
@[simp] theorem State.setCore_queues : (s.setCore q x).queues = s.queues := rfl
@[simp] theorem State.setCore_lastQ : (s.setCore q x).lastQ = s.lastQ := rfl
@[simp] theorem State.setCore_gangsOut : (s.setCore q x).gangsOut = s.gangsOut := rfl
@[simp] theorem State.setCore_consists : (s.setCore q x).consists = s.consists := rfl
@[simp] theorem State.setCore_luvex : (s.setCore q x).luvex = s.luvex := rfl
@[simp] theorem State.setCore_guestq : (s.setCore q x).guestq = s.guestq := rfl
@[simp] theorem State.setCore_fatal : (s.setCore q x).fatal = s.fatal := rfl
@[simp] theorem State.setCore_out : (s.setCore q x).out = s.out := rfl
end

/-! ### State.modCore -/

section
variable (s : State) (q : Nat) (f : Core → Core)
@[simp] theorem State.modCore_now : (s.modCore q f).now = s.now := rfl
@[simp] theorem State.modCore_agenda : (s.modCore q f).agenda = s.agenda := rfl
@[simp] theorem State.modCore_turns : (s.modCore q f).turns = s.turns := rfl
@[simp] theorem State.modCore_due : (s.modCore q f).due = s.due := rfl
@[simp] theorem State.modCore_iss : (s.modCore q f).iss = s.iss := rfl
@[simp] theorem State.modCore_free : (s.modCore q f).free = s.free := rfl
@[simp] theorem State.modCore_nextId : (s.modCore q f).nextId = s.nextId := rfl
@[simp] theorem State.modCore_ctxs : (s.modCore q f).ctxs = s.ctxs := rfl
@[simp] theorem State.modCore_clusters : (s.modCore q f).clusters = s.clusters := rfl
@[simp] theorem State.modCore_dies : (s.modCore q f).dies = s.dies := rfl
@[simp] theorem State.modCore_sys : (s.modCore q f).sys = s.sys := rfl
@[simp] theorem State.modCore_depots : (s.modCore q f).depots = s.depots := rfl
@[simp] theorem State.modCore_guest : (s.modCore q f).guest = s.guest := rfl
@[simp] theorem State.modCore_mem : (s.modCore q f).mem = s.mem := rfl
@[simp] theorem State.modCore_memPrev : (s.modCore q f).memPrev = s.memPrev := rfl
@[simp] theorem State.modCore_memCyc : (s.modCore q f).memCyc = s.memCyc := rfl
@[simp] theorem State.modCore_opened : (s.modCore q f).opened = s.opened := rfl
@[simp] theorem State.modCore_pubs : (s.modCore q f).pubs = s.pubs := rfl
@[simp] theorem State.modCore_banked : (s.modCore q f).banked = s.banked := rfl
@[simp] theorem State.modCore_farSums : (s.modCore q f).farSums = s.farSums := rfl
@[simp] theorem State.modCore_l2q : (s.modCore q f).l2q = s.l2q := rfl
@[simp] theorem State.modCore_fixed : (s.modCore q f).fixed = s.fixed := rfl
@[simp] theorem State.modCore_claims : (s.modCore q f).claims = s.claims := rfl
@[simp] theorem State.modCore_tags : (s.modCore q f).tags = s.tags := rfl
@[simp] theorem State.modCore_tlb : (s.modCore q f).tlb = s.tlb := rfl
@[simp] theorem State.modCore_access : (s.modCore q f).access = s.access := rfl
@[simp] theorem State.modCore_parts : (s.modCore q f).parts = s.parts := rfl
@[simp] theorem State.modCore_bounds : (s.modCore q f).bounds = s.bounds := rfl
@[simp] theorem State.modCore_pop : (s.modCore q f).pop = s.pop := rfl
@[simp] theorem State.modCore_retired : (s.modCore q f).retired = s.retired := rfl
@[simp] theorem State.modCore_regions : (s.modCore q f).regions = s.regions := rfl
@[simp] theorem State.modCore_poison : (s.modCore q f).poison = s.poison := rfl
@[simp] theorem State.modCore_corr : (s.modCore q f).corr = s.corr := rfl
@[simp] theorem State.modCore_corrCnt : (s.modCore q f).corrCnt = s.corrCnt := rfl
@[simp] theorem State.modCore_cmds : (s.modCore q f).cmds = s.cmds := rfl
@[simp] theorem State.modCore_jobs : (s.modCore q f).jobs = s.jobs := rfl
@[simp] theorem State.modCore_upds : (s.modCore q f).upds = s.upds := rfl
@[simp] theorem State.modCore_msgs : (s.modCore q f).msgs = s.msgs := rfl
@[simp] theorem State.modCore_unexpPrev : (s.modCore q f).unexpPrev = s.unexpPrev := rfl
@[simp] theorem State.modCore_migs : (s.modCore q f).migs = s.migs := rfl
@[simp] theorem State.modCore_invals : (s.modCore q f).invals = s.invals := rfl
@[simp] theorem State.modCore_hot : (s.modCore q f).hot = s.hot := rfl
@[simp] theorem State.modCore_sketches : (s.modCore q f).sketches = s.sketches := rfl
@[simp] theorem State.modCore_launches : (s.modCore q f).launches = s.launches := rfl
@[simp] theorem State.modCore_queues : (s.modCore q f).queues = s.queues := rfl
@[simp] theorem State.modCore_lastQ : (s.modCore q f).lastQ = s.lastQ := rfl
@[simp] theorem State.modCore_gangsOut : (s.modCore q f).gangsOut = s.gangsOut := rfl
@[simp] theorem State.modCore_consists : (s.modCore q f).consists = s.consists := rfl
@[simp] theorem State.modCore_luvex : (s.modCore q f).luvex = s.luvex := rfl
@[simp] theorem State.modCore_guestq : (s.modCore q f).guestq = s.guestq := rfl
@[simp] theorem State.modCore_fatal : (s.modCore q f).fatal = s.fatal := rfl
@[simp] theorem State.modCore_out : (s.modCore q f).out = s.out := rfl
end

/-! ### State.setCluster -/

section
variable (s : State) (k : Nat) (x : Cluster)
@[simp] theorem State.setCluster_now : (s.setCluster k x).now = s.now := rfl
@[simp] theorem State.setCluster_agenda : (s.setCluster k x).agenda = s.agenda := rfl
@[simp] theorem State.setCluster_turns : (s.setCluster k x).turns = s.turns := rfl
@[simp] theorem State.setCluster_due : (s.setCluster k x).due = s.due := rfl
@[simp] theorem State.setCluster_iss : (s.setCluster k x).iss = s.iss := rfl
@[simp] theorem State.setCluster_free : (s.setCluster k x).free = s.free := rfl
@[simp] theorem State.setCluster_nextId : (s.setCluster k x).nextId = s.nextId := rfl
@[simp] theorem State.setCluster_ctxs : (s.setCluster k x).ctxs = s.ctxs := rfl
@[simp] theorem State.setCluster_cores : (s.setCluster k x).cores = s.cores := rfl
@[simp] theorem State.setCluster_dies : (s.setCluster k x).dies = s.dies := rfl
@[simp] theorem State.setCluster_sys : (s.setCluster k x).sys = s.sys := rfl
@[simp] theorem State.setCluster_depots : (s.setCluster k x).depots = s.depots := rfl
@[simp] theorem State.setCluster_guest : (s.setCluster k x).guest = s.guest := rfl
@[simp] theorem State.setCluster_mem : (s.setCluster k x).mem = s.mem := rfl
@[simp] theorem State.setCluster_memPrev : (s.setCluster k x).memPrev = s.memPrev := rfl
@[simp] theorem State.setCluster_memCyc : (s.setCluster k x).memCyc = s.memCyc := rfl
@[simp] theorem State.setCluster_opened : (s.setCluster k x).opened = s.opened := rfl
@[simp] theorem State.setCluster_pubs : (s.setCluster k x).pubs = s.pubs := rfl
@[simp] theorem State.setCluster_banked : (s.setCluster k x).banked = s.banked := rfl
@[simp] theorem State.setCluster_farSums : (s.setCluster k x).farSums = s.farSums := rfl
@[simp] theorem State.setCluster_l2q : (s.setCluster k x).l2q = s.l2q := rfl
@[simp] theorem State.setCluster_fixed : (s.setCluster k x).fixed = s.fixed := rfl
@[simp] theorem State.setCluster_claims : (s.setCluster k x).claims = s.claims := rfl
@[simp] theorem State.setCluster_tags : (s.setCluster k x).tags = s.tags := rfl
@[simp] theorem State.setCluster_tlb : (s.setCluster k x).tlb = s.tlb := rfl
@[simp] theorem State.setCluster_access : (s.setCluster k x).access = s.access := rfl
@[simp] theorem State.setCluster_parts : (s.setCluster k x).parts = s.parts := rfl
@[simp] theorem State.setCluster_bounds : (s.setCluster k x).bounds = s.bounds := rfl
@[simp] theorem State.setCluster_pop : (s.setCluster k x).pop = s.pop := rfl
@[simp] theorem State.setCluster_retired : (s.setCluster k x).retired = s.retired := rfl
@[simp] theorem State.setCluster_regions : (s.setCluster k x).regions = s.regions := rfl
@[simp] theorem State.setCluster_poison : (s.setCluster k x).poison = s.poison := rfl
@[simp] theorem State.setCluster_corr : (s.setCluster k x).corr = s.corr := rfl
@[simp] theorem State.setCluster_corrCnt : (s.setCluster k x).corrCnt = s.corrCnt := rfl
@[simp] theorem State.setCluster_cmds : (s.setCluster k x).cmds = s.cmds := rfl
@[simp] theorem State.setCluster_jobs : (s.setCluster k x).jobs = s.jobs := rfl
@[simp] theorem State.setCluster_upds : (s.setCluster k x).upds = s.upds := rfl
@[simp] theorem State.setCluster_msgs : (s.setCluster k x).msgs = s.msgs := rfl
@[simp] theorem State.setCluster_unexpPrev : (s.setCluster k x).unexpPrev = s.unexpPrev := rfl
@[simp] theorem State.setCluster_migs : (s.setCluster k x).migs = s.migs := rfl
@[simp] theorem State.setCluster_invals : (s.setCluster k x).invals = s.invals := rfl
@[simp] theorem State.setCluster_hot : (s.setCluster k x).hot = s.hot := rfl
@[simp] theorem State.setCluster_sketches : (s.setCluster k x).sketches = s.sketches := rfl
@[simp] theorem State.setCluster_launches : (s.setCluster k x).launches = s.launches := rfl
@[simp] theorem State.setCluster_queues : (s.setCluster k x).queues = s.queues := rfl
@[simp] theorem State.setCluster_lastQ : (s.setCluster k x).lastQ = s.lastQ := rfl
@[simp] theorem State.setCluster_gangsOut : (s.setCluster k x).gangsOut = s.gangsOut := rfl
@[simp] theorem State.setCluster_consists : (s.setCluster k x).consists = s.consists := rfl
@[simp] theorem State.setCluster_luvex : (s.setCluster k x).luvex = s.luvex := rfl
@[simp] theorem State.setCluster_guestq : (s.setCluster k x).guestq = s.guestq := rfl
@[simp] theorem State.setCluster_fatal : (s.setCluster k x).fatal = s.fatal := rfl
@[simp] theorem State.setCluster_out : (s.setCluster k x).out = s.out := rfl
end

/-! ### State.modCluster -/

section
variable (s : State) (k : Nat) (f : Cluster → Cluster)
@[simp] theorem State.modCluster_now : (s.modCluster k f).now = s.now := rfl
@[simp] theorem State.modCluster_agenda : (s.modCluster k f).agenda = s.agenda := rfl
@[simp] theorem State.modCluster_turns : (s.modCluster k f).turns = s.turns := rfl
@[simp] theorem State.modCluster_due : (s.modCluster k f).due = s.due := rfl
@[simp] theorem State.modCluster_iss : (s.modCluster k f).iss = s.iss := rfl
@[simp] theorem State.modCluster_free : (s.modCluster k f).free = s.free := rfl
@[simp] theorem State.modCluster_nextId : (s.modCluster k f).nextId = s.nextId := rfl
@[simp] theorem State.modCluster_ctxs : (s.modCluster k f).ctxs = s.ctxs := rfl
@[simp] theorem State.modCluster_cores : (s.modCluster k f).cores = s.cores := rfl
@[simp] theorem State.modCluster_dies : (s.modCluster k f).dies = s.dies := rfl
@[simp] theorem State.modCluster_sys : (s.modCluster k f).sys = s.sys := rfl
@[simp] theorem State.modCluster_depots : (s.modCluster k f).depots = s.depots := rfl
@[simp] theorem State.modCluster_guest : (s.modCluster k f).guest = s.guest := rfl
@[simp] theorem State.modCluster_mem : (s.modCluster k f).mem = s.mem := rfl
@[simp] theorem State.modCluster_memPrev : (s.modCluster k f).memPrev = s.memPrev := rfl
@[simp] theorem State.modCluster_memCyc : (s.modCluster k f).memCyc = s.memCyc := rfl
@[simp] theorem State.modCluster_opened : (s.modCluster k f).opened = s.opened := rfl
@[simp] theorem State.modCluster_pubs : (s.modCluster k f).pubs = s.pubs := rfl
@[simp] theorem State.modCluster_banked : (s.modCluster k f).banked = s.banked := rfl
@[simp] theorem State.modCluster_farSums : (s.modCluster k f).farSums = s.farSums := rfl
@[simp] theorem State.modCluster_l2q : (s.modCluster k f).l2q = s.l2q := rfl
@[simp] theorem State.modCluster_fixed : (s.modCluster k f).fixed = s.fixed := rfl
@[simp] theorem State.modCluster_claims : (s.modCluster k f).claims = s.claims := rfl
@[simp] theorem State.modCluster_tags : (s.modCluster k f).tags = s.tags := rfl
@[simp] theorem State.modCluster_tlb : (s.modCluster k f).tlb = s.tlb := rfl
@[simp] theorem State.modCluster_access : (s.modCluster k f).access = s.access := rfl
@[simp] theorem State.modCluster_parts : (s.modCluster k f).parts = s.parts := rfl
@[simp] theorem State.modCluster_bounds : (s.modCluster k f).bounds = s.bounds := rfl
@[simp] theorem State.modCluster_pop : (s.modCluster k f).pop = s.pop := rfl
@[simp] theorem State.modCluster_retired : (s.modCluster k f).retired = s.retired := rfl
@[simp] theorem State.modCluster_regions : (s.modCluster k f).regions = s.regions := rfl
@[simp] theorem State.modCluster_poison : (s.modCluster k f).poison = s.poison := rfl
@[simp] theorem State.modCluster_corr : (s.modCluster k f).corr = s.corr := rfl
@[simp] theorem State.modCluster_corrCnt : (s.modCluster k f).corrCnt = s.corrCnt := rfl
@[simp] theorem State.modCluster_cmds : (s.modCluster k f).cmds = s.cmds := rfl
@[simp] theorem State.modCluster_jobs : (s.modCluster k f).jobs = s.jobs := rfl
@[simp] theorem State.modCluster_upds : (s.modCluster k f).upds = s.upds := rfl
@[simp] theorem State.modCluster_msgs : (s.modCluster k f).msgs = s.msgs := rfl
@[simp] theorem State.modCluster_unexpPrev : (s.modCluster k f).unexpPrev = s.unexpPrev := rfl
@[simp] theorem State.modCluster_migs : (s.modCluster k f).migs = s.migs := rfl
@[simp] theorem State.modCluster_invals : (s.modCluster k f).invals = s.invals := rfl
@[simp] theorem State.modCluster_hot : (s.modCluster k f).hot = s.hot := rfl
@[simp] theorem State.modCluster_sketches : (s.modCluster k f).sketches = s.sketches := rfl
@[simp] theorem State.modCluster_launches : (s.modCluster k f).launches = s.launches := rfl
@[simp] theorem State.modCluster_queues : (s.modCluster k f).queues = s.queues := rfl
@[simp] theorem State.modCluster_lastQ : (s.modCluster k f).lastQ = s.lastQ := rfl
@[simp] theorem State.modCluster_gangsOut : (s.modCluster k f).gangsOut = s.gangsOut := rfl
@[simp] theorem State.modCluster_consists : (s.modCluster k f).consists = s.consists := rfl
@[simp] theorem State.modCluster_luvex : (s.modCluster k f).luvex = s.luvex := rfl
@[simp] theorem State.modCluster_guestq : (s.modCluster k f).guestq = s.guestq := rfl
@[simp] theorem State.modCluster_fatal : (s.modCluster k f).fatal = s.fatal := rfl
@[simp] theorem State.modCluster_out : (s.modCluster k f).out = s.out := rfl
end

/-! ### State.setDie -/

section
variable (s : State) (d : Nat) (x : Die)
@[simp] theorem State.setDie_now : (s.setDie d x).now = s.now := rfl
@[simp] theorem State.setDie_agenda : (s.setDie d x).agenda = s.agenda := rfl
@[simp] theorem State.setDie_turns : (s.setDie d x).turns = s.turns := rfl
@[simp] theorem State.setDie_due : (s.setDie d x).due = s.due := rfl
@[simp] theorem State.setDie_iss : (s.setDie d x).iss = s.iss := rfl
@[simp] theorem State.setDie_free : (s.setDie d x).free = s.free := rfl
@[simp] theorem State.setDie_nextId : (s.setDie d x).nextId = s.nextId := rfl
@[simp] theorem State.setDie_ctxs : (s.setDie d x).ctxs = s.ctxs := rfl
@[simp] theorem State.setDie_cores : (s.setDie d x).cores = s.cores := rfl
@[simp] theorem State.setDie_clusters : (s.setDie d x).clusters = s.clusters := rfl
@[simp] theorem State.setDie_sys : (s.setDie d x).sys = s.sys := rfl
@[simp] theorem State.setDie_depots : (s.setDie d x).depots = s.depots := rfl
@[simp] theorem State.setDie_guest : (s.setDie d x).guest = s.guest := rfl
@[simp] theorem State.setDie_mem : (s.setDie d x).mem = s.mem := rfl
@[simp] theorem State.setDie_memPrev : (s.setDie d x).memPrev = s.memPrev := rfl
@[simp] theorem State.setDie_memCyc : (s.setDie d x).memCyc = s.memCyc := rfl
@[simp] theorem State.setDie_opened : (s.setDie d x).opened = s.opened := rfl
@[simp] theorem State.setDie_pubs : (s.setDie d x).pubs = s.pubs := rfl
@[simp] theorem State.setDie_banked : (s.setDie d x).banked = s.banked := rfl
@[simp] theorem State.setDie_farSums : (s.setDie d x).farSums = s.farSums := rfl
@[simp] theorem State.setDie_l2q : (s.setDie d x).l2q = s.l2q := rfl
@[simp] theorem State.setDie_fixed : (s.setDie d x).fixed = s.fixed := rfl
@[simp] theorem State.setDie_claims : (s.setDie d x).claims = s.claims := rfl
@[simp] theorem State.setDie_tags : (s.setDie d x).tags = s.tags := rfl
@[simp] theorem State.setDie_tlb : (s.setDie d x).tlb = s.tlb := rfl
@[simp] theorem State.setDie_access : (s.setDie d x).access = s.access := rfl
@[simp] theorem State.setDie_parts : (s.setDie d x).parts = s.parts := rfl
@[simp] theorem State.setDie_bounds : (s.setDie d x).bounds = s.bounds := rfl
@[simp] theorem State.setDie_pop : (s.setDie d x).pop = s.pop := rfl
@[simp] theorem State.setDie_retired : (s.setDie d x).retired = s.retired := rfl
@[simp] theorem State.setDie_regions : (s.setDie d x).regions = s.regions := rfl
@[simp] theorem State.setDie_poison : (s.setDie d x).poison = s.poison := rfl
@[simp] theorem State.setDie_corr : (s.setDie d x).corr = s.corr := rfl
@[simp] theorem State.setDie_corrCnt : (s.setDie d x).corrCnt = s.corrCnt := rfl
@[simp] theorem State.setDie_cmds : (s.setDie d x).cmds = s.cmds := rfl
@[simp] theorem State.setDie_jobs : (s.setDie d x).jobs = s.jobs := rfl
@[simp] theorem State.setDie_upds : (s.setDie d x).upds = s.upds := rfl
@[simp] theorem State.setDie_msgs : (s.setDie d x).msgs = s.msgs := rfl
@[simp] theorem State.setDie_unexpPrev : (s.setDie d x).unexpPrev = s.unexpPrev := rfl
@[simp] theorem State.setDie_migs : (s.setDie d x).migs = s.migs := rfl
@[simp] theorem State.setDie_invals : (s.setDie d x).invals = s.invals := rfl
@[simp] theorem State.setDie_hot : (s.setDie d x).hot = s.hot := rfl
@[simp] theorem State.setDie_sketches : (s.setDie d x).sketches = s.sketches := rfl
@[simp] theorem State.setDie_launches : (s.setDie d x).launches = s.launches := rfl
@[simp] theorem State.setDie_queues : (s.setDie d x).queues = s.queues := rfl
@[simp] theorem State.setDie_lastQ : (s.setDie d x).lastQ = s.lastQ := rfl
@[simp] theorem State.setDie_gangsOut : (s.setDie d x).gangsOut = s.gangsOut := rfl
@[simp] theorem State.setDie_consists : (s.setDie d x).consists = s.consists := rfl
@[simp] theorem State.setDie_luvex : (s.setDie d x).luvex = s.luvex := rfl
@[simp] theorem State.setDie_guestq : (s.setDie d x).guestq = s.guestq := rfl
@[simp] theorem State.setDie_fatal : (s.setDie d x).fatal = s.fatal := rfl
@[simp] theorem State.setDie_out : (s.setDie d x).out = s.out := rfl
end

/-! ### State.modLaunch -/

section
variable (s : State) (l : Nat) (f : Launch → Launch)
@[simp] theorem State.modLaunch_now : (s.modLaunch l f).now = s.now := rfl
@[simp] theorem State.modLaunch_agenda : (s.modLaunch l f).agenda = s.agenda := rfl
@[simp] theorem State.modLaunch_turns : (s.modLaunch l f).turns = s.turns := rfl
@[simp] theorem State.modLaunch_due : (s.modLaunch l f).due = s.due := rfl
@[simp] theorem State.modLaunch_iss : (s.modLaunch l f).iss = s.iss := rfl
@[simp] theorem State.modLaunch_free : (s.modLaunch l f).free = s.free := rfl
@[simp] theorem State.modLaunch_nextId : (s.modLaunch l f).nextId = s.nextId := rfl
@[simp] theorem State.modLaunch_ctxs : (s.modLaunch l f).ctxs = s.ctxs := rfl
@[simp] theorem State.modLaunch_cores : (s.modLaunch l f).cores = s.cores := rfl
@[simp] theorem State.modLaunch_clusters : (s.modLaunch l f).clusters = s.clusters := rfl
@[simp] theorem State.modLaunch_dies : (s.modLaunch l f).dies = s.dies := rfl
@[simp] theorem State.modLaunch_sys : (s.modLaunch l f).sys = s.sys := rfl
@[simp] theorem State.modLaunch_depots : (s.modLaunch l f).depots = s.depots := rfl
@[simp] theorem State.modLaunch_guest : (s.modLaunch l f).guest = s.guest := rfl
@[simp] theorem State.modLaunch_mem : (s.modLaunch l f).mem = s.mem := rfl
@[simp] theorem State.modLaunch_memPrev : (s.modLaunch l f).memPrev = s.memPrev := rfl
@[simp] theorem State.modLaunch_memCyc : (s.modLaunch l f).memCyc = s.memCyc := rfl
@[simp] theorem State.modLaunch_opened : (s.modLaunch l f).opened = s.opened := rfl
@[simp] theorem State.modLaunch_pubs : (s.modLaunch l f).pubs = s.pubs := rfl
@[simp] theorem State.modLaunch_banked : (s.modLaunch l f).banked = s.banked := rfl
@[simp] theorem State.modLaunch_farSums : (s.modLaunch l f).farSums = s.farSums := rfl
@[simp] theorem State.modLaunch_l2q : (s.modLaunch l f).l2q = s.l2q := rfl
@[simp] theorem State.modLaunch_fixed : (s.modLaunch l f).fixed = s.fixed := rfl
@[simp] theorem State.modLaunch_claims : (s.modLaunch l f).claims = s.claims := rfl
@[simp] theorem State.modLaunch_tags : (s.modLaunch l f).tags = s.tags := rfl
@[simp] theorem State.modLaunch_tlb : (s.modLaunch l f).tlb = s.tlb := rfl
@[simp] theorem State.modLaunch_access : (s.modLaunch l f).access = s.access := rfl
@[simp] theorem State.modLaunch_parts : (s.modLaunch l f).parts = s.parts := rfl
@[simp] theorem State.modLaunch_bounds : (s.modLaunch l f).bounds = s.bounds := rfl
@[simp] theorem State.modLaunch_pop : (s.modLaunch l f).pop = s.pop := rfl
@[simp] theorem State.modLaunch_retired : (s.modLaunch l f).retired = s.retired := rfl
@[simp] theorem State.modLaunch_regions : (s.modLaunch l f).regions = s.regions := rfl
@[simp] theorem State.modLaunch_poison : (s.modLaunch l f).poison = s.poison := rfl
@[simp] theorem State.modLaunch_corr : (s.modLaunch l f).corr = s.corr := rfl
@[simp] theorem State.modLaunch_corrCnt : (s.modLaunch l f).corrCnt = s.corrCnt := rfl
@[simp] theorem State.modLaunch_cmds : (s.modLaunch l f).cmds = s.cmds := rfl
@[simp] theorem State.modLaunch_jobs : (s.modLaunch l f).jobs = s.jobs := rfl
@[simp] theorem State.modLaunch_upds : (s.modLaunch l f).upds = s.upds := rfl
@[simp] theorem State.modLaunch_msgs : (s.modLaunch l f).msgs = s.msgs := rfl
@[simp] theorem State.modLaunch_unexpPrev : (s.modLaunch l f).unexpPrev = s.unexpPrev := rfl
@[simp] theorem State.modLaunch_migs : (s.modLaunch l f).migs = s.migs := rfl
@[simp] theorem State.modLaunch_invals : (s.modLaunch l f).invals = s.invals := rfl
@[simp] theorem State.modLaunch_hot : (s.modLaunch l f).hot = s.hot := rfl
@[simp] theorem State.modLaunch_sketches : (s.modLaunch l f).sketches = s.sketches := rfl
@[simp] theorem State.modLaunch_queues : (s.modLaunch l f).queues = s.queues := rfl
@[simp] theorem State.modLaunch_lastQ : (s.modLaunch l f).lastQ = s.lastQ := rfl
@[simp] theorem State.modLaunch_gangsOut : (s.modLaunch l f).gangsOut = s.gangsOut := rfl
@[simp] theorem State.modLaunch_consists : (s.modLaunch l f).consists = s.consists := rfl
@[simp] theorem State.modLaunch_luvex : (s.modLaunch l f).luvex = s.luvex := rfl
@[simp] theorem State.modLaunch_guestq : (s.modLaunch l f).guestq = s.guestq := rfl
@[simp] theorem State.modLaunch_fatal : (s.modLaunch l f).fatal = s.fatal := rfl
@[simp] theorem State.modLaunch_out : (s.modLaunch l f).out = s.out := rfl
end

/-! ### State.push -/

section
variable (s : State) (lat : Nat) (e : Eff)
@[simp] theorem State.push_now : (s.push lat e).now = s.now := rfl
@[simp] theorem State.push_agenda : (s.push lat e).agenda = s.agenda := rfl
@[simp] theorem State.push_turns : (s.push lat e).turns = s.turns := rfl
@[simp] theorem State.push_due : (s.push lat e).due = s.due := rfl
@[simp] theorem State.push_iss : (s.push lat e).iss = s.iss := rfl
@[simp] theorem State.push_free : (s.push lat e).free = s.free := rfl
@[simp] theorem State.push_nextId : (s.push lat e).nextId = s.nextId := rfl
@[simp] theorem State.push_cores : (s.push lat e).cores = s.cores := rfl
@[simp] theorem State.push_clusters : (s.push lat e).clusters = s.clusters := rfl
@[simp] theorem State.push_dies : (s.push lat e).dies = s.dies := rfl
@[simp] theorem State.push_sys : (s.push lat e).sys = s.sys := rfl
@[simp] theorem State.push_depots : (s.push lat e).depots = s.depots := rfl
@[simp] theorem State.push_guest : (s.push lat e).guest = s.guest := rfl
@[simp] theorem State.push_mem : (s.push lat e).mem = s.mem := rfl
@[simp] theorem State.push_memPrev : (s.push lat e).memPrev = s.memPrev := rfl
@[simp] theorem State.push_memCyc : (s.push lat e).memCyc = s.memCyc := rfl
@[simp] theorem State.push_opened : (s.push lat e).opened = s.opened := rfl
@[simp] theorem State.push_pubs : (s.push lat e).pubs = s.pubs := rfl
@[simp] theorem State.push_banked : (s.push lat e).banked = s.banked := rfl
@[simp] theorem State.push_farSums : (s.push lat e).farSums = s.farSums := rfl
@[simp] theorem State.push_l2q : (s.push lat e).l2q = s.l2q := rfl
@[simp] theorem State.push_fixed : (s.push lat e).fixed = s.fixed := rfl
@[simp] theorem State.push_claims : (s.push lat e).claims = s.claims := rfl
@[simp] theorem State.push_tags : (s.push lat e).tags = s.tags := rfl
@[simp] theorem State.push_tlb : (s.push lat e).tlb = s.tlb := rfl
@[simp] theorem State.push_access : (s.push lat e).access = s.access := rfl
@[simp] theorem State.push_parts : (s.push lat e).parts = s.parts := rfl
@[simp] theorem State.push_bounds : (s.push lat e).bounds = s.bounds := rfl
@[simp] theorem State.push_pop : (s.push lat e).pop = s.pop := rfl
@[simp] theorem State.push_retired : (s.push lat e).retired = s.retired := rfl
@[simp] theorem State.push_regions : (s.push lat e).regions = s.regions := rfl
@[simp] theorem State.push_poison : (s.push lat e).poison = s.poison := rfl
@[simp] theorem State.push_corr : (s.push lat e).corr = s.corr := rfl
@[simp] theorem State.push_corrCnt : (s.push lat e).corrCnt = s.corrCnt := rfl
@[simp] theorem State.push_cmds : (s.push lat e).cmds = s.cmds := rfl
@[simp] theorem State.push_jobs : (s.push lat e).jobs = s.jobs := rfl
@[simp] theorem State.push_upds : (s.push lat e).upds = s.upds := rfl
@[simp] theorem State.push_msgs : (s.push lat e).msgs = s.msgs := rfl
@[simp] theorem State.push_unexpPrev : (s.push lat e).unexpPrev = s.unexpPrev := rfl
@[simp] theorem State.push_migs : (s.push lat e).migs = s.migs := rfl
@[simp] theorem State.push_invals : (s.push lat e).invals = s.invals := rfl
@[simp] theorem State.push_hot : (s.push lat e).hot = s.hot := rfl
@[simp] theorem State.push_sketches : (s.push lat e).sketches = s.sketches := rfl
@[simp] theorem State.push_launches : (s.push lat e).launches = s.launches := rfl
@[simp] theorem State.push_queues : (s.push lat e).queues = s.queues := rfl
@[simp] theorem State.push_lastQ : (s.push lat e).lastQ = s.lastQ := rfl
@[simp] theorem State.push_gangsOut : (s.push lat e).gangsOut = s.gangsOut := rfl
@[simp] theorem State.push_consists : (s.push lat e).consists = s.consists := rfl
@[simp] theorem State.push_luvex : (s.push lat e).luvex = s.luvex := rfl
@[simp] theorem State.push_guestq : (s.push lat e).guestq = s.guestq := rfl
@[simp] theorem State.push_fatal : (s.push lat e).fatal = s.fatal := rfl
@[simp] theorem State.push_out : (s.push lat e).out = s.out := rfl
end

/-! ### State.schedule -/

section
variable (s : State) (n : Nat) (ev : Instr) (d : Due)
@[simp] theorem State.schedule_now : (s.schedule n ev d).now = s.now := rfl
@[simp] theorem State.schedule_turns : (s.schedule n ev d).turns = s.turns := rfl
@[simp] theorem State.schedule_due : (s.schedule n ev d).due = s.due := rfl
@[simp] theorem State.schedule_iss : (s.schedule n ev d).iss = s.iss := rfl
@[simp] theorem State.schedule_free : (s.schedule n ev d).free = s.free := rfl
@[simp] theorem State.schedule_nextId : (s.schedule n ev d).nextId = s.nextId := rfl
@[simp] theorem State.schedule_ctxs : (s.schedule n ev d).ctxs = s.ctxs := rfl
@[simp] theorem State.schedule_cores : (s.schedule n ev d).cores = s.cores := rfl
@[simp] theorem State.schedule_clusters : (s.schedule n ev d).clusters = s.clusters := rfl
@[simp] theorem State.schedule_dies : (s.schedule n ev d).dies = s.dies := rfl
@[simp] theorem State.schedule_sys : (s.schedule n ev d).sys = s.sys := rfl
@[simp] theorem State.schedule_depots : (s.schedule n ev d).depots = s.depots := rfl
@[simp] theorem State.schedule_guest : (s.schedule n ev d).guest = s.guest := rfl
@[simp] theorem State.schedule_mem : (s.schedule n ev d).mem = s.mem := rfl
@[simp] theorem State.schedule_memPrev : (s.schedule n ev d).memPrev = s.memPrev := rfl
@[simp] theorem State.schedule_memCyc : (s.schedule n ev d).memCyc = s.memCyc := rfl
@[simp] theorem State.schedule_opened : (s.schedule n ev d).opened = s.opened := rfl
@[simp] theorem State.schedule_pubs : (s.schedule n ev d).pubs = s.pubs := rfl
@[simp] theorem State.schedule_banked : (s.schedule n ev d).banked = s.banked := rfl
@[simp] theorem State.schedule_farSums : (s.schedule n ev d).farSums = s.farSums := rfl
@[simp] theorem State.schedule_l2q : (s.schedule n ev d).l2q = s.l2q := rfl
@[simp] theorem State.schedule_fixed : (s.schedule n ev d).fixed = s.fixed := rfl
@[simp] theorem State.schedule_claims : (s.schedule n ev d).claims = s.claims := rfl
@[simp] theorem State.schedule_tags : (s.schedule n ev d).tags = s.tags := rfl
@[simp] theorem State.schedule_tlb : (s.schedule n ev d).tlb = s.tlb := rfl
@[simp] theorem State.schedule_access : (s.schedule n ev d).access = s.access := rfl
@[simp] theorem State.schedule_parts : (s.schedule n ev d).parts = s.parts := rfl
@[simp] theorem State.schedule_bounds : (s.schedule n ev d).bounds = s.bounds := rfl
@[simp] theorem State.schedule_pop : (s.schedule n ev d).pop = s.pop := rfl
@[simp] theorem State.schedule_retired : (s.schedule n ev d).retired = s.retired := rfl
@[simp] theorem State.schedule_regions : (s.schedule n ev d).regions = s.regions := rfl
@[simp] theorem State.schedule_poison : (s.schedule n ev d).poison = s.poison := rfl
@[simp] theorem State.schedule_corr : (s.schedule n ev d).corr = s.corr := rfl
@[simp] theorem State.schedule_corrCnt : (s.schedule n ev d).corrCnt = s.corrCnt := rfl
@[simp] theorem State.schedule_cmds : (s.schedule n ev d).cmds = s.cmds := rfl
@[simp] theorem State.schedule_jobs : (s.schedule n ev d).jobs = s.jobs := rfl
@[simp] theorem State.schedule_upds : (s.schedule n ev d).upds = s.upds := rfl
@[simp] theorem State.schedule_msgs : (s.schedule n ev d).msgs = s.msgs := rfl
@[simp] theorem State.schedule_unexpPrev : (s.schedule n ev d).unexpPrev = s.unexpPrev := rfl
@[simp] theorem State.schedule_migs : (s.schedule n ev d).migs = s.migs := rfl
@[simp] theorem State.schedule_invals : (s.schedule n ev d).invals = s.invals := rfl
@[simp] theorem State.schedule_hot : (s.schedule n ev d).hot = s.hot := rfl
@[simp] theorem State.schedule_sketches : (s.schedule n ev d).sketches = s.sketches := rfl
@[simp] theorem State.schedule_launches : (s.schedule n ev d).launches = s.launches := rfl
@[simp] theorem State.schedule_queues : (s.schedule n ev d).queues = s.queues := rfl
@[simp] theorem State.schedule_lastQ : (s.schedule n ev d).lastQ = s.lastQ := rfl
@[simp] theorem State.schedule_gangsOut : (s.schedule n ev d).gangsOut = s.gangsOut := rfl
@[simp] theorem State.schedule_consists : (s.schedule n ev d).consists = s.consists := rfl
@[simp] theorem State.schedule_luvex : (s.schedule n ev d).luvex = s.luvex := rfl
@[simp] theorem State.schedule_guestq : (s.schedule n ev d).guestq = s.guestq := rfl
@[simp] theorem State.schedule_fatal : (s.schedule n ev d).fatal = s.fatal := rfl
@[simp] theorem State.schedule_out : (s.schedule n ev d).out = s.out := rfl
end

/-! ### State.emit -/

section
variable (s : State) (m : OutMsg)
@[simp] theorem State.emit_now : (s.emit m).now = s.now := rfl
@[simp] theorem State.emit_agenda : (s.emit m).agenda = s.agenda := rfl
@[simp] theorem State.emit_turns : (s.emit m).turns = s.turns := rfl
@[simp] theorem State.emit_due : (s.emit m).due = s.due := rfl
@[simp] theorem State.emit_iss : (s.emit m).iss = s.iss := rfl
@[simp] theorem State.emit_free : (s.emit m).free = s.free := rfl
@[simp] theorem State.emit_nextId : (s.emit m).nextId = s.nextId := rfl
@[simp] theorem State.emit_ctxs : (s.emit m).ctxs = s.ctxs := rfl
@[simp] theorem State.emit_cores : (s.emit m).cores = s.cores := rfl
@[simp] theorem State.emit_clusters : (s.emit m).clusters = s.clusters := rfl
@[simp] theorem State.emit_dies : (s.emit m).dies = s.dies := rfl
@[simp] theorem State.emit_sys : (s.emit m).sys = s.sys := rfl
@[simp] theorem State.emit_depots : (s.emit m).depots = s.depots := rfl
@[simp] theorem State.emit_guest : (s.emit m).guest = s.guest := rfl
@[simp] theorem State.emit_mem : (s.emit m).mem = s.mem := rfl
@[simp] theorem State.emit_memPrev : (s.emit m).memPrev = s.memPrev := rfl
@[simp] theorem State.emit_memCyc : (s.emit m).memCyc = s.memCyc := rfl
@[simp] theorem State.emit_opened : (s.emit m).opened = s.opened := rfl
@[simp] theorem State.emit_pubs : (s.emit m).pubs = s.pubs := rfl
@[simp] theorem State.emit_banked : (s.emit m).banked = s.banked := rfl
@[simp] theorem State.emit_farSums : (s.emit m).farSums = s.farSums := rfl
@[simp] theorem State.emit_l2q : (s.emit m).l2q = s.l2q := rfl
@[simp] theorem State.emit_fixed : (s.emit m).fixed = s.fixed := rfl
@[simp] theorem State.emit_claims : (s.emit m).claims = s.claims := rfl
@[simp] theorem State.emit_tags : (s.emit m).tags = s.tags := rfl
@[simp] theorem State.emit_tlb : (s.emit m).tlb = s.tlb := rfl
@[simp] theorem State.emit_access : (s.emit m).access = s.access := rfl
@[simp] theorem State.emit_parts : (s.emit m).parts = s.parts := rfl
@[simp] theorem State.emit_bounds : (s.emit m).bounds = s.bounds := rfl
@[simp] theorem State.emit_pop : (s.emit m).pop = s.pop := rfl
@[simp] theorem State.emit_retired : (s.emit m).retired = s.retired := rfl
@[simp] theorem State.emit_regions : (s.emit m).regions = s.regions := rfl
@[simp] theorem State.emit_poison : (s.emit m).poison = s.poison := rfl
@[simp] theorem State.emit_corr : (s.emit m).corr = s.corr := rfl
@[simp] theorem State.emit_corrCnt : (s.emit m).corrCnt = s.corrCnt := rfl
@[simp] theorem State.emit_cmds : (s.emit m).cmds = s.cmds := rfl
@[simp] theorem State.emit_jobs : (s.emit m).jobs = s.jobs := rfl
@[simp] theorem State.emit_upds : (s.emit m).upds = s.upds := rfl
@[simp] theorem State.emit_msgs : (s.emit m).msgs = s.msgs := rfl
@[simp] theorem State.emit_unexpPrev : (s.emit m).unexpPrev = s.unexpPrev := rfl
@[simp] theorem State.emit_migs : (s.emit m).migs = s.migs := rfl
@[simp] theorem State.emit_invals : (s.emit m).invals = s.invals := rfl
@[simp] theorem State.emit_hot : (s.emit m).hot = s.hot := rfl
@[simp] theorem State.emit_sketches : (s.emit m).sketches = s.sketches := rfl
@[simp] theorem State.emit_launches : (s.emit m).launches = s.launches := rfl
@[simp] theorem State.emit_queues : (s.emit m).queues = s.queues := rfl
@[simp] theorem State.emit_lastQ : (s.emit m).lastQ = s.lastQ := rfl
@[simp] theorem State.emit_gangsOut : (s.emit m).gangsOut = s.gangsOut := rfl
@[simp] theorem State.emit_consists : (s.emit m).consists = s.consists := rfl
@[simp] theorem State.emit_luvex : (s.emit m).luvex = s.luvex := rfl
@[simp] theorem State.emit_guestq : (s.emit m).guestq = s.guestq := rfl
@[simp] theorem State.emit_fatal : (s.emit m).fatal = s.fatal := rfl
end

/-! ### State.blocked -/

section
variable (s : State) (r : Block) (a b c d : List Nat)
@[simp] theorem State.blocked_now : (s.blocked r a b c d).now = s.now := rfl
@[simp] theorem State.blocked_agenda : (s.blocked r a b c d).agenda = s.agenda := rfl
@[simp] theorem State.blocked_turns : (s.blocked r a b c d).turns = s.turns := rfl
@[simp] theorem State.blocked_due : (s.blocked r a b c d).due = s.due := rfl
@[simp] theorem State.blocked_free : (s.blocked r a b c d).free = s.free := rfl
@[simp] theorem State.blocked_nextId : (s.blocked r a b c d).nextId = s.nextId := rfl
@[simp] theorem State.blocked_ctxs : (s.blocked r a b c d).ctxs = s.ctxs := rfl
@[simp] theorem State.blocked_cores : (s.blocked r a b c d).cores = s.cores := rfl
@[simp] theorem State.blocked_clusters : (s.blocked r a b c d).clusters = s.clusters := rfl
@[simp] theorem State.blocked_dies : (s.blocked r a b c d).dies = s.dies := rfl
@[simp] theorem State.blocked_sys : (s.blocked r a b c d).sys = s.sys := rfl
@[simp] theorem State.blocked_depots : (s.blocked r a b c d).depots = s.depots := rfl
@[simp] theorem State.blocked_guest : (s.blocked r a b c d).guest = s.guest := rfl
@[simp] theorem State.blocked_mem : (s.blocked r a b c d).mem = s.mem := rfl
@[simp] theorem State.blocked_memPrev : (s.blocked r a b c d).memPrev = s.memPrev := rfl
@[simp] theorem State.blocked_memCyc : (s.blocked r a b c d).memCyc = s.memCyc := rfl
@[simp] theorem State.blocked_opened : (s.blocked r a b c d).opened = s.opened := rfl
@[simp] theorem State.blocked_pubs : (s.blocked r a b c d).pubs = s.pubs := rfl
@[simp] theorem State.blocked_banked : (s.blocked r a b c d).banked = s.banked := rfl
@[simp] theorem State.blocked_farSums : (s.blocked r a b c d).farSums = s.farSums := rfl
@[simp] theorem State.blocked_l2q : (s.blocked r a b c d).l2q = s.l2q := rfl
@[simp] theorem State.blocked_fixed : (s.blocked r a b c d).fixed = s.fixed := rfl
@[simp] theorem State.blocked_claims : (s.blocked r a b c d).claims = s.claims := rfl
@[simp] theorem State.blocked_tags : (s.blocked r a b c d).tags = s.tags := rfl
@[simp] theorem State.blocked_tlb : (s.blocked r a b c d).tlb = s.tlb := rfl
@[simp] theorem State.blocked_access : (s.blocked r a b c d).access = s.access := rfl
@[simp] theorem State.blocked_parts : (s.blocked r a b c d).parts = s.parts := rfl
@[simp] theorem State.blocked_bounds : (s.blocked r a b c d).bounds = s.bounds := rfl
@[simp] theorem State.blocked_pop : (s.blocked r a b c d).pop = s.pop := rfl
@[simp] theorem State.blocked_retired : (s.blocked r a b c d).retired = s.retired := rfl
@[simp] theorem State.blocked_regions : (s.blocked r a b c d).regions = s.regions := rfl
@[simp] theorem State.blocked_poison : (s.blocked r a b c d).poison = s.poison := rfl
@[simp] theorem State.blocked_corr : (s.blocked r a b c d).corr = s.corr := rfl
@[simp] theorem State.blocked_corrCnt : (s.blocked r a b c d).corrCnt = s.corrCnt := rfl
@[simp] theorem State.blocked_cmds : (s.blocked r a b c d).cmds = s.cmds := rfl
@[simp] theorem State.blocked_jobs : (s.blocked r a b c d).jobs = s.jobs := rfl
@[simp] theorem State.blocked_upds : (s.blocked r a b c d).upds = s.upds := rfl
@[simp] theorem State.blocked_msgs : (s.blocked r a b c d).msgs = s.msgs := rfl
@[simp] theorem State.blocked_unexpPrev : (s.blocked r a b c d).unexpPrev = s.unexpPrev := rfl
@[simp] theorem State.blocked_migs : (s.blocked r a b c d).migs = s.migs := rfl
@[simp] theorem State.blocked_invals : (s.blocked r a b c d).invals = s.invals := rfl
@[simp] theorem State.blocked_hot : (s.blocked r a b c d).hot = s.hot := rfl
@[simp] theorem State.blocked_sketches : (s.blocked r a b c d).sketches = s.sketches := rfl
@[simp] theorem State.blocked_launches : (s.blocked r a b c d).launches = s.launches := rfl
@[simp] theorem State.blocked_queues : (s.blocked r a b c d).queues = s.queues := rfl
@[simp] theorem State.blocked_lastQ : (s.blocked r a b c d).lastQ = s.lastQ := rfl
@[simp] theorem State.blocked_gangsOut : (s.blocked r a b c d).gangsOut = s.gangsOut := rfl
@[simp] theorem State.blocked_consists : (s.blocked r a b c d).consists = s.consists := rfl
@[simp] theorem State.blocked_luvex : (s.blocked r a b c d).luvex = s.luvex := rfl
@[simp] theorem State.blocked_guestq : (s.blocked r a b c d).guestq = s.guestq := rfl
@[simp] theorem State.blocked_fatal : (s.blocked r a b c d).fatal = s.fatal := rfl
@[simp] theorem State.blocked_out : (s.blocked r a b c d).out = s.out := rfl
end

/-! ### State.transfer -/

section
variable (s : State) (a : Word) (p : Bool)
@[simp] theorem State.transfer_now : (s.transfer a p).now = s.now := rfl
@[simp] theorem State.transfer_agenda : (s.transfer a p).agenda = s.agenda := rfl
@[simp] theorem State.transfer_turns : (s.transfer a p).turns = s.turns := rfl
@[simp] theorem State.transfer_due : (s.transfer a p).due = s.due := rfl
@[simp] theorem State.transfer_free : (s.transfer a p).free = s.free := rfl
@[simp] theorem State.transfer_nextId : (s.transfer a p).nextId = s.nextId := rfl
@[simp] theorem State.transfer_ctxs : (s.transfer a p).ctxs = s.ctxs := rfl
@[simp] theorem State.transfer_cores : (s.transfer a p).cores = s.cores := rfl
@[simp] theorem State.transfer_clusters : (s.transfer a p).clusters = s.clusters := rfl
@[simp] theorem State.transfer_dies : (s.transfer a p).dies = s.dies := rfl
@[simp] theorem State.transfer_sys : (s.transfer a p).sys = s.sys := rfl
@[simp] theorem State.transfer_depots : (s.transfer a p).depots = s.depots := rfl
@[simp] theorem State.transfer_guest : (s.transfer a p).guest = s.guest := rfl
@[simp] theorem State.transfer_mem : (s.transfer a p).mem = s.mem := rfl
@[simp] theorem State.transfer_memPrev : (s.transfer a p).memPrev = s.memPrev := rfl
@[simp] theorem State.transfer_memCyc : (s.transfer a p).memCyc = s.memCyc := rfl
@[simp] theorem State.transfer_opened : (s.transfer a p).opened = s.opened := rfl
@[simp] theorem State.transfer_pubs : (s.transfer a p).pubs = s.pubs := rfl
@[simp] theorem State.transfer_banked : (s.transfer a p).banked = s.banked := rfl
@[simp] theorem State.transfer_farSums : (s.transfer a p).farSums = s.farSums := rfl
@[simp] theorem State.transfer_l2q : (s.transfer a p).l2q = s.l2q := rfl
@[simp] theorem State.transfer_fixed : (s.transfer a p).fixed = s.fixed := rfl
@[simp] theorem State.transfer_claims : (s.transfer a p).claims = s.claims := rfl
@[simp] theorem State.transfer_tags : (s.transfer a p).tags = s.tags := rfl
@[simp] theorem State.transfer_tlb : (s.transfer a p).tlb = s.tlb := rfl
@[simp] theorem State.transfer_access : (s.transfer a p).access = s.access := rfl
@[simp] theorem State.transfer_parts : (s.transfer a p).parts = s.parts := rfl
@[simp] theorem State.transfer_bounds : (s.transfer a p).bounds = s.bounds := rfl
@[simp] theorem State.transfer_pop : (s.transfer a p).pop = s.pop := rfl
@[simp] theorem State.transfer_retired : (s.transfer a p).retired = s.retired := rfl
@[simp] theorem State.transfer_regions : (s.transfer a p).regions = s.regions := rfl
@[simp] theorem State.transfer_poison : (s.transfer a p).poison = s.poison := rfl
@[simp] theorem State.transfer_corr : (s.transfer a p).corr = s.corr := rfl
@[simp] theorem State.transfer_corrCnt : (s.transfer a p).corrCnt = s.corrCnt := rfl
@[simp] theorem State.transfer_cmds : (s.transfer a p).cmds = s.cmds := rfl
@[simp] theorem State.transfer_jobs : (s.transfer a p).jobs = s.jobs := rfl
@[simp] theorem State.transfer_upds : (s.transfer a p).upds = s.upds := rfl
@[simp] theorem State.transfer_msgs : (s.transfer a p).msgs = s.msgs := rfl
@[simp] theorem State.transfer_unexpPrev : (s.transfer a p).unexpPrev = s.unexpPrev := rfl
@[simp] theorem State.transfer_migs : (s.transfer a p).migs = s.migs := rfl
@[simp] theorem State.transfer_invals : (s.transfer a p).invals = s.invals := rfl
@[simp] theorem State.transfer_hot : (s.transfer a p).hot = s.hot := rfl
@[simp] theorem State.transfer_sketches : (s.transfer a p).sketches = s.sketches := rfl
@[simp] theorem State.transfer_launches : (s.transfer a p).launches = s.launches := rfl
@[simp] theorem State.transfer_queues : (s.transfer a p).queues = s.queues := rfl
@[simp] theorem State.transfer_lastQ : (s.transfer a p).lastQ = s.lastQ := rfl
@[simp] theorem State.transfer_gangsOut : (s.transfer a p).gangsOut = s.gangsOut := rfl
@[simp] theorem State.transfer_consists : (s.transfer a p).consists = s.consists := rfl
@[simp] theorem State.transfer_luvex : (s.transfer a p).luvex = s.luvex := rfl
@[simp] theorem State.transfer_guestq : (s.transfer a p).guestq = s.guestq := rfl
@[simp] theorem State.transfer_fatal : (s.transfer a p).fatal = s.fatal := rfl
@[simp] theorem State.transfer_out : (s.transfer a p).out = s.out := rfl
end

/-! ### Reads after writes -/

section
variable (s : State)
@[simp] theorem State.ctx_setCtx (c : Nat) (x : Ctx) : (s.setCtx c x).ctx c = x := aget_aset_self _ _ _ _
theorem State.ctx_setCtx_ne {c j : Nat} (x : Ctx) (h : j ≠ c) : (s.setCtx c x).ctx j = s.ctx j := aget_aset_ne _ _ _ h
@[simp] theorem State.ctx_modCtx (c : Nat) (f : Ctx → Ctx) : (s.modCtx c f).ctx c = f (s.ctx c) := aget_aset_self _ _ _ _
theorem State.ctx_modCtx_ne {c j : Nat} (f : Ctx → Ctx) (h : j ≠ c) : (s.modCtx c f).ctx j = s.ctx j :=
  aget_aset_ne _ _ _ h
@[simp] theorem State.core_setCore (q : Nat) (x : Core) : (s.setCore q x).core q = x := aget_aset_self _ _ _ _
theorem State.core_setCore_ne {q j : Nat} (x : Core) (h : j ≠ q) : (s.setCore q x).core j = s.core j :=
  aget_aset_ne _ _ _ h
@[simp] theorem State.core_modCore (q : Nat) (f : Core → Core) : (s.modCore q f).core q = f (s.core q) :=
  aget_aset_self _ _ _ _
@[simp] theorem State.cluster_modCluster (k : Nat) (f : Cluster → Cluster) :
    (s.modCluster k f).cluster k = f (s.cluster k) := aget_aset_self _ _ _ _
@[simp] theorem State.ctx_setCore (q : Nat) (x : Core) (c : Nat) : (s.setCore q x).ctx c = s.ctx c := rfl
@[simp] theorem State.ctx_modCore (q : Nat) (f : Core → Core) (c : Nat) : (s.modCore q f).ctx c = s.ctx c := rfl
@[simp] theorem State.ctx_modCluster (k : Nat) (f : Cluster → Cluster) (c : Nat) :
    (s.modCluster k f).ctx c = s.ctx c := rfl
@[simp] theorem State.ctx_put (bs : List (Nat × Byte)) (c : Nat) : (s.put bs).ctx c = s.ctx c := rfl
@[simp] theorem State.ctx_transfer (a : Word) (p : Bool) (c : Nat) : (s.transfer a p).ctx c = s.ctx c := rfl
@[simp] theorem State.ctx_blocked (r : Block) (a b c d : List Nat) (x : Nat) :
    (s.blocked r a b c d).ctx x = s.ctx x := rfl
@[simp] theorem State.core_setCtx (c : Nat) (x : Ctx) (q : Nat) : (s.setCtx c x).core q = s.core q := rfl
@[simp] theorem State.cluster_setCtx (c : Nat) (x : Ctx) (k : Nat) : (s.setCtx c x).cluster k = s.cluster k := rfl
end

end Sys2Proof.Machine
end

