-- ==== Sys2Proof/Laws/Lanes.lean ====
section
/-! SUPPORT. Sys2Proof/Laws/Lanes.lean: bits of lanes and of packed lanes; what a masked write of lanes leaves. -/

namespace Sys2Proof.Machine

/-- Bit j of n bits taken from bit lo. -/
theorem testBit_bits (x lo n j : Nat) : (bits x lo n).testBit j = (decide (j < n) && x.testBit (lo + j)) := by
  simp [bits, Nat.testBit_mod_two_pow, Nat.testBit_shiftRight]

theorem bits_lt (x lo n : Nat) : bits x lo n < 2 ^ n := Nat.mod_lt _ (by positivity)

/-- Bit k of values of w bits put side by side. -/
theorem testBit_packNat {w : Nat} (hw : 0 < w) (xs : List Nat) (k : Nat) :
    (packNat w xs).testBit k = (xs.getD (k / w) 0).testBit (k % w) := by
  induction xs generalizing k with
  | nil => simp [packNat]
  | cons x r ih =>
    have e : packNat w (x :: r) = x % 2 ^ w ||| packNat w r <<< w := by
      show x % 2 ^ w + packNat w r <<< w = _
      rw [Nat.add_comm, Nat.or_comm, Nat.shiftLeft_add_eq_or_of_lt (Nat.mod_lt _ (by positivity))]
    rw [e, Nat.testBit_or, Nat.testBit_mod_two_pow, Nat.testBit_shiftLeft]
    by_cases h : k < w
    · simp [h, Nat.div_eq_of_lt h, Nat.mod_eq_of_lt h, Nat.not_le.2 h]
    · have h' : w ≤ k := Nat.not_lt.1 h
      have h1 : k / w = (k - w) / w + 1 := by rw [← Nat.div_eq_sub_div hw h']
      have h2 : k % w = (k - w) % w := Nat.mod_eq_sub_mod h'
      simp [h, h', ih, h1, h2]

/-- Bit j of lane i. -/
theorem testBit_laneN (w : Nat) (v : VReg) (i j : Nat) :
    (laneN w v i).testBit j = (decide (j < w) && v.getLsbD (i * w + j)) := by
  rw [laneN, testBit_bits]; rfl

theorem laneN_lt (w : Nat) (v : VReg) (i : Nat) : laneN w v i < 2 ^ w := bits_lt _ _ _

/-- Bit k of a vector put together from lanes. -/
theorem getLsbD_ofLanes {w : Nat} (hw : 0 < w) (xs : List Nat) (k : Nat) :
    (ofLanes w xs).getLsbD k = (decide (k < 2048) && (xs.getD (k / w) 0).testBit (k % w)) := by
  rw [ofLanes, BitVec.getLsbD_ofNat, testBit_packNat hw]

/-- Lane i of a vector put together from lanes. -/
theorem laneN_ofLanes {w : Nat} (xs : List Nat) {i : Nat} (hi : i * w + w ≤ 2048) :
    laneN w (ofLanes w xs) i = xs.getD i 0 % 2 ^ w := by
  refine Nat.eq_of_testBit_eq fun j => ?_
  rw [testBit_laneN, Nat.testBit_mod_two_pow]
  by_cases hj : j < w
  · have hw : 0 < w := by omega
    have h1 : (i * w + j) / w = i := by
      rw [Nat.mul_comm, Nat.mul_add_div hw, Nat.div_eq_of_lt hj, Nat.add_zero]
    have h2 : (i * w + j) % w = j := by rw [Nat.mul_comm, Nat.mul_add_mod, Nat.mod_eq_of_lt hj]
    have h3 : i * w + j < 2048 := by omega
    rw [getLsbD_ofLanes hw, h1, h2]
    simp [hj, h3]
  · simp [hj]

theorem getD_map_range {n i : Nat} (f : Nat → Nat) (hi : i < n) : ((List.range n).map f).getD i 0 = f i := by
  simp [List.getD_eq_getElem?_getD, List.getElem?_map, List.getElem?_range hi]

/-- A lane that exists lies wholly in the register. -/
theorem lane_fits {w i : Nat} (hi : i < 2048 / w) : i * w + w ≤ 2048 := by
  have := Nat.mul_le_mul_right w (Nat.succ_le_of_lt hi)
  have h2 := Nat.div_mul_le_self 2048 w
  rw [Nat.succ_mul] at this; omega

/-- Lane i of the vector whose lanes are f. -/
theorem laneN_mkLanes {w : Nat} (f : Nat → Nat) {i : Nat} (hi : i < 2048 / w) :
    laneN w (mkLanes w f) i = f i % 2 ^ w := by
  rw [mkLanes, laneN_ofLanes _ (lane_fits hi), getD_map_range f hi]

/-- Lane i of a vector of which the bits of a mask are replaced, where lane i of the mask is full. -/
theorem laneN_merge_of_full {w : Nat} {v x m : VReg} {i : Nat} (h : laneN w m i = 2 ^ w - 1) :
    laneN w ((v &&& ~~~m) ||| (x &&& m)) i = laneN w x i := by
  refine Nat.eq_of_testBit_eq fun j => ?_
  have hm := congrArg (·.testBit j) h
  simp only [testBit_laneN, Nat.testBit_two_pow_sub_one] at hm ⊢
  by_cases hj : j < w
  · simp only [hj, decide_true, Bool.true_and] at hm ⊢
    simp [BitVec.getLsbD_or, BitVec.getLsbD_and, hm]
  · simp [hj]

/-- The same where lane i of the mask is zero: the lane is kept. -/
theorem laneN_merge_of_zero {w : Nat} {v x m : VReg} {i : Nat} (hi : i * w + w ≤ 2048) (h : laneN w m i = 0) :
    laneN w ((v &&& ~~~m) ||| (x &&& m)) i = laneN w v i := by
  refine Nat.eq_of_testBit_eq fun j => ?_
  have hm := congrArg (·.testBit j) h
  simp only [testBit_laneN, Nat.zero_testBit] at hm ⊢
  by_cases hj : j < w
  · simp only [hj, decide_true, Bool.true_and] at hm ⊢
    have : i * w + j < 2048 := by omega
    rw [BitVec.getLsbD_or, BitVec.getLsbD_and, BitVec.getLsbD_and, BitVec.getLsbD_not, hm]
    simp [this]
  · simp [hj]

/-- Lane i of the mask of a predicate. -/
theorem laneN_laneMask {w : Nat} (p : PReg) {i : Nat} (hi : i < 2048 / w) :
    laneN w (laneMask w p) i = if active w p i then 2 ^ w - 1 else 0 := by
  rw [laneMask, laneN_mkLanes _ hi]
  split
  · exact Nat.mod_eq_of_lt (by have := Nat.two_pow_pos w; omega)
  · simp

/-- Every lane of the full mask is full. -/
theorem laneN_allOnes {w i : Nat} (hi : i < 2048 / w) : laneN w (BitVec.allOnes 2048) i = 2 ^ w - 1 := by
  have hle := lane_fits hi
  refine Nat.eq_of_testBit_eq fun j => ?_
  rw [testBit_laneN, Nat.testBit_two_pow_sub_one, BitVec.getLsbD_allOnes]
  by_cases hj : j < w
  · have : i * w + j < 2048 := by omega
    simp only [hj, this, decide_true, Bool.and_self]
  · simp only [hj, decide_false, Bool.false_and]

theorem Ty.width_pos (t : Ty) : 0 < t.width := by cases t <;> decide

/-- The place of a vector register of a slot's group lies in the file of 48. -/
theorem State.vix_lt (s : State) (r : BitVec 4) : s.vix r < 48 := by
  have : slotGrp s.iss.slot ≤ 2 := by unfold slotGrp; split <;> [skip; split] <;> omega
  have := r.isLt
  unfold State.vix; omega

/-- The register that a masked vector result leaves. -/
theorem Vis.v_apply_vec (v : Vis) {r : Nat} (x m : VReg) (hr : r < 48) :
    (v.apply (.vec r x m)).v r = (v.v r &&& ~~~m) ||| (x &&& m) := by
  simp [Vis.apply, Vis.v, Vector.getD, hr]

/-- The other vector registers are kept. -/
theorem Vis.v_apply_vec_ne (v : Vis) {r q : Nat} (x m : VReg) (h : q ≠ r) : (v.apply (.vec r x m)).v q = v.v q := by
  simp [Vis.apply, Vis.v, Vector.getD, Ne.symm h]

end Sys2Proof.Machine
end

