-- ==== Sys2Proof/Laws/Memory.lean ====
section
/-! SUPPORT. Sys2Proof/Laws/Memory.lean: a read after a write, and that every memory operation keeps the canonical form. -/

namespace Sys2Proof.Machine

theorem Memory.wf_cons {c : Host.Cell} {r : List Host.Cell} :
    Memory.wf (c :: r) = true ↔ c.2 ≠ 0 ∧ (∀ d ∈ r.head?, c.1 < d.1) ∧ Memory.wf r = true := by
  obtain ⟨a, b⟩ := c
  cases r with
  | nil => simp [Memory.wf]
  | cons d r => obtain ⟨a', b'⟩ := d; simp [Memory.wf, and_assoc]

/-- In canonical form every key of the tail lies above the head's. -/
theorem Memory.head_lt {c : Host.Cell} {r : List Host.Cell} (h : Memory.wf (c :: r) = true) : ∀ d ∈ r, c.1 < d.1 := by
  induction r generalizing c with
  | nil => simp
  | cons e r ih =>
    obtain ⟨-, hlt, hr⟩ := Memory.wf_cons.1 h
    have he : c.1 < e.1 := hlt e rfl
    intro d hd
    rcases List.mem_cons.1 hd with rfl | hd
    · exact he
    · exact he.trans (ih hr d hd)

/-- A key below every key of the list reads as an unlisted byte. -/
theorem memRead_below {m : List Host.Cell} {a : Nat} (h : ∀ d ∈ m, a < d.1) : memRead m a = 0 := by
  induction m with
  | nil => rfl
  | cons c r ih =>
    obtain ⟨a', b⟩ := c
    have : a' ≠ a := by have := h _ List.mem_cons_self; simp only at this; omega
    rw [memRead, if_neg this]
    exact ih fun d hd => h d (List.mem_cons_of_mem _ hd)

/-- The first key after a write is the key written or the first key before. -/
theorem memWrite_head {m : List Host.Cell} {a : Nat} {b : Byte} {d : Host.Cell} (hm : Memory.wf m = true)
    (h : d ∈ (memWrite m a b).head?) : d.1 = a ∨ ∃ c ∈ m, c.1 = d.1 := by
  cases m with
  | nil =>
    unfold memWrite at h
    split at h <;> simp_all
    rw [← h]
  | cons c r =>
    obtain ⟨a', b'⟩ := c
    unfold memWrite at h
    repeat' split at h
    all_goals try (simp only [List.head?_cons, Option.mem_def, Option.some.injEq] at h; subst h)
    · exact .inr ⟨_, List.mem_cons_self, rfl⟩
    · exact .inl rfl
    · exact .inr ⟨d, List.mem_cons_of_mem _ (List.mem_of_mem_head? h), rfl⟩
    · exact .inl rfl
    · exact .inr ⟨_, List.mem_cons_self, rfl⟩

/-- Writing a byte keeps the canonical form. -/
theorem memWrite_wf {m : List Host.Cell} (a : Nat) (b : Byte) (h : Memory.wf m = true) : Memory.wf (memWrite m a b) = true := by
  induction m with
  | nil => unfold memWrite; split <;> simp_all [Memory.wf]
  | cons c r ih =>
    obtain ⟨a', b'⟩ := c
    obtain ⟨h1, h2, h3⟩ := Memory.wf_cons.1 h
    unfold memWrite
    split
    · next hlt =>
      split
      · exact h
      · next hb => exact Memory.wf_cons.2 ⟨hb, by simpa using hlt, h⟩
    · split
      · next hnl he =>
        split
        · exact h3
        · next hb => exact Memory.wf_cons.2 ⟨hb, by rw [he]; exact h2, h3⟩
      · next hnl hne =>
        refine Memory.wf_cons.2 ⟨h1, fun d hd => ?_, ih h3⟩
        rcases memWrite_head h3 hd with e | ⟨c, hc, e⟩
        · simp only [e]; omega
        · exact e ▸ Memory.head_lt h c hc

/-- Writing bytes keeps the canonical form. -/
theorem memPut_wf {m : List Host.Cell} (bs : List (Nat × Byte)) (h : Memory.wf m = true) : Memory.wf (memPut m bs) = true := by
  induction bs generalizing m with
  | nil => exact h
  | cons p r ih => exact ih (memWrite_wf p.1 p.2 h)

/-- Leaving out cells keeps the canonical form. -/
theorem Memory.filter_wf {m : List Host.Cell} (p : Host.Cell → Bool) (h : Memory.wf m = true) :
    Memory.wf (m.filter p) = true := by
  induction m with
  | nil => rfl
  | cons c r ih =>
    obtain ⟨h1, -, h3⟩ := Memory.wf_cons.1 h
    rw [List.filter_cons]
    split
    · exact Memory.wf_cons.2
        ⟨h1, fun d hd => Memory.head_lt h d (List.mem_filter.1 (List.mem_of_mem_head? hd)).1, ih h3⟩
    · exact ih h3

/-- Zeroing a range keeps the canonical form. -/
theorem memZero_wf {m : List Host.Cell} (lo hi : Nat) (h : Memory.wf m = true) : Memory.wf (memZero m lo hi) = true :=
  Memory.filter_wf _ h

/-- The state's writes keep the canonical form. -/
theorem State.put_wf {s : State} (bs : List (Nat × Byte)) (h : Memory.wf s.mem = true) : Memory.wf (s.put bs).mem = true :=
  memPut_wf bs h

theorem State.putNat_wf {s : State} (a n x : Nat) (h : Memory.wf s.mem = true) : Memory.wf (s.putNat a n x).mem = true :=
  memPut_wf _ h

/-- A read after a write of one byte, in canonical form. -/
theorem memRead_memWrite {m : List Host.Cell} (a : Nat) (b : Byte) (h : Memory.wf m = true) (x : Nat) :
    memRead (memWrite m a b) x = if x = a then b else memRead m x := by
  induction m with
  | nil =>
    unfold memWrite
    split
    · next hz => simp [memRead, hz]
    · by_cases hx : x = a
      · simp [memRead, hx]
      · simp [memRead, hx, Ne.symm hx]
  | cons c r ih =>
    obtain ⟨a', b'⟩ := c
    obtain ⟨-, -, h3⟩ := Memory.wf_cons.1 h
    have hb := Memory.head_lt h
    unfold memWrite
    split
    · next hlt =>
      split
      · next hz =>
        by_cases hx : x = a
        · rw [if_pos hx, hx, hz]
          exact memRead_below fun d hd => by
            rcases List.mem_cons.1 hd with rfl | hd
            · exact hlt
            · exact hlt.trans (hb d hd)
        · rw [if_neg hx]
      · next hz =>
        by_cases hx : x = a
        · rw [if_pos hx, memRead, if_pos hx.symm]
        · rw [if_neg hx, memRead, if_neg (Ne.symm hx)]
    · split
      · next he =>
        subst he
        by_cases hx : x = a
        · subst hx
          rw [if_pos rfl]
          split
          · next hz => rw [hz]; exact memRead_below hb
          · rw [memRead, if_pos rfl]
        · rw [if_neg hx, memRead, if_neg (Ne.symm hx)]
          split
          · rfl
          · rw [memRead, if_neg (Ne.symm hx)]
      · next hn hne =>
        simp only [memRead, ih h3]
        by_cases hx : x = a
        · subst hx; rw [if_neg (Ne.symm hne), if_pos rfl]; simp
        · simp [hx]

/-- A byte that no write names reads as before. -/
theorem memRead_memPut_ne {m : List Host.Cell} {bs : List (Nat × Byte)} {x : Nat} (h : Memory.wf m = true)
    (hx : ∀ p ∈ bs, p.1 ≠ x) : memRead (memPut m bs) x = memRead m x := by
  induction bs generalizing m with
  | nil => rfl
  | cons p r ih =>
    show memRead (memPut (memWrite m p.1 p.2) r) x = _
    rw [ih (memWrite_wf _ _ h) fun q hq => hx q (List.mem_cons_of_mem _ hq), memRead_memWrite _ _ h,
      if_neg (Ne.symm (hx p List.mem_cons_self))]

end Sys2Proof.Machine
end

