-- ==== Sys2Proof/Laws/PerInstr.lean ====
section
/-! SUPPORT. Sys2Proof/Laws/PerInstr.lean: statements made of each instruction as syntax, one lemma for each constructor. -/

namespace Sys2Proof.Laws

/-- An instruction of the slot words has a word, an event has none. -/
def Encodable.Statement (i : Instr) : Prop := (encode i).isSome = i.isWord

theorem Encodable.nop : Encodable.Statement .nop := rfl
theorem Encodable.literal : ∀ x1, Encodable.Statement (.literal x1) := by intros; rfl
theorem Encodable.add : ∀ x1 x2 x3 x4, Encodable.Statement (.add x1 x2 x3 x4) := by intros; rfl
theorem Encodable.sub : ∀ x1 x2 x3 x4, Encodable.Statement (.sub x1 x2 x3 x4) := by intros; rfl
theorem Encodable.min : ∀ x1 x2 x3 x4, Encodable.Statement (.min x1 x2 x3 x4) := by intros; rfl
theorem Encodable.max : ∀ x1 x2 x3 x4, Encodable.Statement (.max x1 x2 x3 x4) := by intros; rfl
theorem Encodable.minn : ∀ x1 x2 x3 x4, Encodable.Statement (.minn x1 x2 x3 x4) := by intros; rfl
theorem Encodable.maxn : ∀ x1 x2 x3 x4, Encodable.Statement (.maxn x1 x2 x3 x4) := by intros; rfl
theorem Encodable.and : ∀ x1 x2 x3 x4, Encodable.Statement (.and x1 x2 x3 x4) := by intros; rfl
theorem Encodable.or : ∀ x1 x2 x3 x4, Encodable.Statement (.or x1 x2 x3 x4) := by intros; rfl
theorem Encodable.xor : ∀ x1 x2 x3 x4, Encodable.Statement (.xor x1 x2 x3 x4) := by intros; rfl
theorem Encodable.andn : ∀ x1 x2 x3 x4, Encodable.Statement (.andn x1 x2 x3 x4) := by intros; rfl
theorem Encodable.shl : ∀ x1 x2 x3 x4, Encodable.Statement (.shl x1 x2 x3 x4) := by intros; rfl
theorem Encodable.shr : ∀ x1 x2 x3 x4, Encodable.Statement (.shr x1 x2 x3 x4) := by intros; rfl
theorem Encodable.sra : ∀ x1 x2 x3 x4, Encodable.Statement (.sra x1 x2 x3 x4) := by intros; rfl
theorem Encodable.rot : ∀ x1 x2 x3 x4, Encodable.Statement (.rot x1 x2 x3 x4) := by intros; rfl
theorem Encodable.mov : ∀ x1 x2, Encodable.Statement (.mov x1 x2) := by intros; rfl
theorem Encodable.clz : ∀ x1 x2, Encodable.Statement (.clz x1 x2) := by intros; rfl
theorem Encodable.ctz : ∀ x1 x2, Encodable.Statement (.ctz x1 x2) := by intros; rfl
theorem Encodable.popc : ∀ x1 x2, Encodable.Statement (.popc x1 x2) := by intros; rfl
theorem Encodable.bswap16 : ∀ x1 x2, Encodable.Statement (.bswap16 x1 x2) := by intros; rfl
theorem Encodable.bswap32 : ∀ x1 x2, Encodable.Statement (.bswap32 x1 x2) := by intros; rfl
theorem Encodable.bswap64 : ∀ x1 x2, Encodable.Statement (.bswap64 x1 x2) := by intros; rfl
theorem Encodable.sext8 : ∀ x1 x2, Encodable.Statement (.sext8 x1 x2) := by intros; rfl
theorem Encodable.sext16 : ∀ x1 x2, Encodable.Statement (.sext16 x1 x2) := by intros; rfl
theorem Encodable.sext32 : ∀ x1 x2, Encodable.Statement (.sext32 x1 x2) := by intros; rfl
theorem Encodable.zext8 : ∀ x1 x2, Encodable.Statement (.zext8 x1 x2) := by intros; rfl
theorem Encodable.zext16 : ∀ x1 x2, Encodable.Statement (.zext16 x1 x2) := by intros; rfl
theorem Encodable.zext32 : ∀ x1 x2, Encodable.Statement (.zext32 x1 x2) := by intros; rfl
theorem Encodable.mul : ∀ x1 x2 x3 x4, Encodable.Statement (.mul x1 x2 x3 x4) := by intros; rfl
theorem Encodable.mulh : ∀ x1 x2 x3 x4, Encodable.Statement (.mulh x1 x2 x3 x4) := by intros; rfl
theorem Encodable.mulhn : ∀ x1 x2 x3 x4, Encodable.Statement (.mulhn x1 x2 x3 x4) := by intros; rfl
theorem Encodable.div : ∀ x1 x2 x3 x4, Encodable.Statement (.div x1 x2 x3 x4) := by intros; rfl
theorem Encodable.divn : ∀ x1 x2 x3 x4, Encodable.Statement (.divn x1 x2 x3 x4) := by intros; rfl
theorem Encodable.rem : ∀ x1 x2 x3 x4, Encodable.Statement (.rem x1 x2 x3 x4) := by intros; rfl
theorem Encodable.remn : ∀ x1 x2 x3 x4, Encodable.Statement (.remn x1 x2 x3 x4) := by intros; rfl
theorem Encodable.scmp : ∀ x1 x2 x3 x4 x5, Encodable.Statement (.scmp x1 x2 x3 x4 x5) := by intros; rfl
theorem Encodable.sel : ∀ x1 x2 x3 x4 x5, Encodable.Statement (.sel x1 x2 x3 x4 x5) := by intros; rfl
theorem Encodable.addi : ∀ x1 x2 x3, Encodable.Statement (.addi x1 x2 x3) := by intros; rfl
theorem Encodable.andi : ∀ x1 x2 x3, Encodable.Statement (.andi x1 x2 x3) := by intros; rfl
theorem Encodable.ori : ∀ x1 x2 x3, Encodable.Statement (.ori x1 x2 x3) := by intros; rfl
theorem Encodable.xori : ∀ x1 x2 x3, Encodable.Statement (.xori x1 x2 x3) := by intros; rfl
theorem Encodable.shli : ∀ x1 x2 x3, Encodable.Statement (.shli x1 x2 x3) := by intros; rfl
theorem Encodable.shri : ∀ x1 x2 x3, Encodable.Statement (.shri x1 x2 x3) := by intros; rfl
theorem Encodable.srai : ∀ x1 x2 x3, Encodable.Statement (.srai x1 x2 x3) := by intros; rfl
theorem Encodable.movl : ∀ x1 x2, Encodable.Statement (.movl x1 x2) := by intros; rfl
theorem Encodable.br : ∀ x1, Encodable.Statement (.br x1) := by intros; rfl
theorem Encodable.bcc : ∀ x1 x2 x3, Encodable.Statement (.bcc x1 x2 x3) := by intros; rfl
theorem Encodable.jmp : ∀ x1, Encodable.Statement (.jmp x1) := by intros; rfl
theorem Encodable.call : ∀ x1, Encodable.Statement (.call x1) := by intros; rfl
theorem Encodable.jr : ∀ x1 x2, Encodable.Statement (.jr x1 x2) := by intros; rfl
theorem Encodable.ret : ∀ x1, Encodable.Statement (.ret x1) := by intros; rfl
theorem Encodable.loop : ∀ x1 x2, Encodable.Statement (.loop x1 x2) := by intros; rfl
theorem Encodable.lstep : ∀ x1 x2 x3, Encodable.Statement (.lstep x1 x2 x3) := by intros; rfl
theorem Encodable.yield : Encodable.Statement .yield := rfl
theorem Encodable.halt : Encodable.Statement .halt := rfl
theorem Encodable.ckpt : Encodable.Statement .ckpt := rfl
theorem Encodable.safe : Encodable.Statement .safe := rfl
theorem Encodable.trap : ∀ x1 x2, Encodable.Statement (.trap x1 x2) := by intros; rfl
theorem Encodable.cnext : ∀ x1, Encodable.Statement (.cnext x1) := by intros; rfl
theorem Encodable.csrr : ∀ x1 x2, Encodable.Statement (.csrr x1 x2) := by intros; rfl
theorem Encodable.csrw : ∀ x1 x2 x3, Encodable.Statement (.csrw x1 x2 x3) := by intros; rfl
theorem Encodable.ewr : ∀ x1 x2, Encodable.Statement (.ewr x1 x2) := by intros; rfl
theorem Encodable.erd : ∀ x1 x2, Encodable.Statement (.erd x1 x2) := by intros; rfl
theorem Encodable.mxgo : ∀ x1 x2, Encodable.Statement (.mxgo x1 x2) := by intros; rfl
theorem Encodable.mxsgo : ∀ x1 x2, Encodable.Statement (.mxsgo x1 x2) := by intros; rfl
theorem Encodable.epgo : ∀ x1, Encodable.Statement (.epgo x1) := by intros; rfl
theorem Encodable.pwait : ∀ x1 x2 x3, Encodable.Statement (.pwait x1 x2 x3) := by intros; rfl
theorem Encodable.prel : ∀ x1, Encodable.Statement (.prel x1) := by intros; rfl
theorem Encodable.pstat : ∀ x1 x2, Encodable.Statement (.pstat x1 x2) := by intros; rfl
theorem Encodable.rte : Encodable.Statement .rte := rfl
theorem Encodable.sysr : ∀ x1 x2, Encodable.Statement (.sysr x1 x2) := by intros; rfl
theorem Encodable.sysw : ∀ x1 x2 x3, Encodable.Statement (.sysw x1 x2 x3) := by intros; rfl
theorem Encodable.registerWrite : Encodable.Statement .registerWrite := rfl
theorem Encodable.tlbir : ∀ x1 x2 x3, Encodable.Statement (.tlbir x1 x2 x3) := by intros; rfl
theorem Encodable.ctxsave : ∀ x1 x2 x3, Encodable.Statement (.ctxsave x1 x2 x3) := by intros; rfl
theorem Encodable.ctxres : ∀ x1 x2, Encodable.Statement (.ctxres x1 x2) := by intros; rfl
theorem Encodable.ctxresImg : ∀ x1 x2 x3, Encodable.Statement (.ctxresImg x1 x2 x3) := by intros; rfl
theorem Encodable.ctxresLd : ∀ x1 x2 x3, Encodable.Statement (.ctxresLd x1 x2 x3) := by intros; rfl
theorem Encodable.ctxkill : ∀ x1 x2, Encodable.Statement (.ctxkill x1 x2) := by intros; rfl
theorem Encodable.vaddI : ∀ x1 x2 x3 x4 x5, Encodable.Statement (.vaddI x1 x2 x3 x4 x5) := by intros; rfl
theorem Encodable.vsubI : ∀ x1 x2 x3 x4 x5, Encodable.Statement (.vsubI x1 x2 x3 x4 x5) := by intros; rfl
theorem Encodable.vmulI : ∀ x1 x2 x3 x4 x5, Encodable.Statement (.vmulI x1 x2 x3 x4 x5) := by intros; rfl
theorem Encodable.vmulh : ∀ x1 x2 x3 x4 x5, Encodable.Statement (.vmulh x1 x2 x3 x4 x5) := by intros; rfl
theorem Encodable.vmulhn : ∀ x1 x2 x3 x4 x5, Encodable.Statement (.vmulhn x1 x2 x3 x4 x5) := by intros; rfl
theorem Encodable.vminI : ∀ x1 x2 x3 x4 x5, Encodable.Statement (.vminI x1 x2 x3 x4 x5) := by intros; rfl
theorem Encodable.vmaxI : ∀ x1 x2 x3 x4 x5, Encodable.Statement (.vmaxI x1 x2 x3 x4 x5) := by intros; rfl
theorem Encodable.vminn : ∀ x1 x2 x3 x4 x5, Encodable.Statement (.vminn x1 x2 x3 x4 x5) := by intros; rfl
theorem Encodable.vmaxn : ∀ x1 x2 x3 x4 x5, Encodable.Statement (.vmaxn x1 x2 x3 x4 x5) := by intros; rfl
theorem Encodable.vadds : ∀ x1 x2 x3 x4 x5, Encodable.Statement (.vadds x1 x2 x3 x4 x5) := by intros; rfl
theorem Encodable.vaddsn : ∀ x1 x2 x3 x4 x5, Encodable.Statement (.vaddsn x1 x2 x3 x4 x5) := by intros; rfl
theorem Encodable.vsubs : ∀ x1 x2 x3 x4 x5, Encodable.Statement (.vsubs x1 x2 x3 x4 x5) := by intros; rfl
theorem Encodable.vsubsn : ∀ x1 x2 x3 x4 x5, Encodable.Statement (.vsubsn x1 x2 x3 x4 x5) := by intros; rfl
theorem Encodable.vabsI : ∀ x1 x2 x3 x4, Encodable.Statement (.vabsI x1 x2 x3 x4) := by intros; rfl
theorem Encodable.vnegI : ∀ x1 x2 x3 x4, Encodable.Statement (.vnegI x1 x2 x3 x4) := by intros; rfl
theorem Encodable.vidx : ∀ x1 x2 x3, Encodable.Statement (.vidx x1 x2 x3) := by intros; rfl
theorem Encodable.vaddF : ∀ x1 x2 x3 x4 x5, Encodable.Statement (.vaddF x1 x2 x3 x4 x5) := by intros; rfl
theorem Encodable.vsubF : ∀ x1 x2 x3 x4 x5, Encodable.Statement (.vsubF x1 x2 x3 x4 x5) := by intros; rfl
theorem Encodable.vmulF : ∀ x1 x2 x3 x4 x5, Encodable.Statement (.vmulF x1 x2 x3 x4 x5) := by intros; rfl
theorem Encodable.vminF : ∀ x1 x2 x3 x4 x5, Encodable.Statement (.vminF x1 x2 x3 x4 x5) := by intros; rfl
theorem Encodable.vmaxF : ∀ x1 x2 x3 x4 x5, Encodable.Statement (.vmaxF x1 x2 x3 x4 x5) := by intros; rfl
theorem Encodable.vabsF : ∀ x1 x2 x3 x4, Encodable.Statement (.vabsF x1 x2 x3 x4) := by intros; rfl
theorem Encodable.vnegF : ∀ x1 x2 x3 x4, Encodable.Statement (.vnegF x1 x2 x3 x4) := by intros; rfl
theorem Encodable.vfma : ∀ x1 x2 x3 x4 x5 x6 x7, Encodable.Statement (.vfma x1 x2 x3 x4 x5 x6 x7) := by intros; rfl
theorem Encodable.vfms : ∀ x1 x2 x3 x4 x5 x6 x7, Encodable.Statement (.vfms x1 x2 x3 x4 x5 x6 x7) := by intros; rfl
theorem Encodable.vfnma : ∀ x1 x2 x3 x4 x5 x6 x7, Encodable.Statement (.vfnma x1 x2 x3 x4 x5 x6 x7) := by intros; rfl
theorem Encodable.vand : ∀ x1 x2 x3 x4 x5, Encodable.Statement (.vand x1 x2 x3 x4 x5) := by intros; rfl
theorem Encodable.vor : ∀ x1 x2 x3 x4 x5, Encodable.Statement (.vor x1 x2 x3 x4 x5) := by intros; rfl
theorem Encodable.vxor : ∀ x1 x2 x3 x4 x5, Encodable.Statement (.vxor x1 x2 x3 x4 x5) := by intros; rfl
theorem Encodable.vandn : ∀ x1 x2 x3 x4 x5, Encodable.Statement (.vandn x1 x2 x3 x4 x5) := by intros; rfl
theorem Encodable.vnot : ∀ x1 x2 x3 x4, Encodable.Statement (.vnot x1 x2 x3 x4) := by intros; rfl
theorem Encodable.vshl : ∀ x1 x2 x3 x4 x5, Encodable.Statement (.vshl x1 x2 x3 x4 x5) := by intros; rfl
theorem Encodable.vshr : ∀ x1 x2 x3 x4 x5, Encodable.Statement (.vshr x1 x2 x3 x4 x5) := by intros; rfl
theorem Encodable.vsra : ∀ x1 x2 x3 x4 x5, Encodable.Statement (.vsra x1 x2 x3 x4 x5) := by intros; rfl
theorem Encodable.vsel : ∀ x1 x2 x3 x4 x5, Encodable.Statement (.vsel x1 x2 x3 x4 x5) := by intros; rfl
theorem Encodable.vcmp : ∀ x1 x2 x3 x4 x5 x6, Encodable.Statement (.vcmp x1 x2 x3 x4 x5 x6) := by intros; rfl
theorem Encodable.vcmpn : ∀ x1 x2 x3 x4 x5 x6, Encodable.Statement (.vcmpn x1 x2 x3 x4 x5 x6) := by intros; rfl
theorem Encodable.vfcmp : ∀ x1 x2 x3 x4 x5 x6, Encodable.Statement (.vfcmp x1 x2 x3 x4 x5 x6) := by intros; rfl
theorem Encodable.vfcmpSig : ∀ x1 x2 x3 x4 x5 x6, Encodable.Statement (.vfcmpSig x1 x2 x3 x4 x5 x6) := by intros; rfl
theorem Encodable.vclass : ∀ x1 x2 x3 x4 x5 x6 x7, Encodable.Statement (.vclass x1 x2 x3 x4 x5 x6 x7) := by intros; rfl
theorem Encodable.pand : ∀ x1 x2 x3, Encodable.Statement (.pand x1 x2 x3) := by intros; rfl
theorem Encodable.por : ∀ x1 x2 x3, Encodable.Statement (.por x1 x2 x3) := by intros; rfl
theorem Encodable.pxor : ∀ x1 x2 x3, Encodable.Statement (.pxor x1 x2 x3) := by intros; rfl
theorem Encodable.pandn : ∀ x1 x2 x3, Encodable.Statement (.pandn x1 x2 x3) := by intros; rfl
theorem Encodable.pnot : ∀ x1 x2, Encodable.Statement (.pnot x1 x2) := by intros; rfl
theorem Encodable.psel : ∀ x1 x2 x3 x4, Encodable.Statement (.psel x1 x2 x3 x4) := by intros; rfl
theorem Encodable.pfirst : ∀ x1 x2, Encodable.Statement (.pfirst x1 x2) := by intros; rfl
theorem Encodable.vbcst : ∀ x1 x2 x3 x4, Encodable.Statement (.vbcst x1 x2 x3 x4) := by intros; rfl
theorem Encodable.vins : ∀ x1 x2 x3 x4 x5, Encodable.Statement (.vins x1 x2 x3 x4 x5) := by intros; rfl
theorem Encodable.vext : ∀ x1 x2 x3 x4 x5, Encodable.Statement (.vext x1 x2 x3 x4 x5) := by intros; rfl
theorem Encodable.vextn : ∀ x1 x2 x3 x4 x5, Encodable.Statement (.vextn x1 x2 x3 x4 x5) := by intros; rfl
theorem Encodable.vxc : ∀ x1 x2 x3 x4 x5, Encodable.Statement (.vxc x1 x2 x3 x4 x5) := by intros; rfl
theorem Encodable.vaddVsI : ∀ x1 x2 x3 x4 x5, Encodable.Statement (.vaddVsI x1 x2 x3 x4 x5) := by intros; rfl
theorem Encodable.vsubVsI : ∀ x1 x2 x3 x4 x5, Encodable.Statement (.vsubVsI x1 x2 x3 x4 x5) := by intros; rfl
theorem Encodable.vrsubVsI : ∀ x1 x2 x3 x4 x5, Encodable.Statement (.vrsubVsI x1 x2 x3 x4 x5) := by intros; rfl
theorem Encodable.vmulVsI : ∀ x1 x2 x3 x4 x5, Encodable.Statement (.vmulVsI x1 x2 x3 x4 x5) := by intros; rfl
theorem Encodable.vminVsI : ∀ x1 x2 x3 x4 x5, Encodable.Statement (.vminVsI x1 x2 x3 x4 x5) := by intros; rfl
theorem Encodable.vmaxVsI : ∀ x1 x2 x3 x4 x5, Encodable.Statement (.vmaxVsI x1 x2 x3 x4 x5) := by intros; rfl
theorem Encodable.vminnVs : ∀ x1 x2 x3 x4 x5, Encodable.Statement (.vminnVs x1 x2 x3 x4 x5) := by intros; rfl
theorem Encodable.vmaxnVs : ∀ x1 x2 x3 x4 x5, Encodable.Statement (.vmaxnVs x1 x2 x3 x4 x5) := by intros; rfl
theorem Encodable.vandVs : ∀ x1 x2 x3 x4 x5, Encodable.Statement (.vandVs x1 x2 x3 x4 x5) := by intros; rfl
theorem Encodable.vorVs : ∀ x1 x2 x3 x4 x5, Encodable.Statement (.vorVs x1 x2 x3 x4 x5) := by intros; rfl
theorem Encodable.vxorVs : ∀ x1 x2 x3 x4 x5, Encodable.Statement (.vxorVs x1 x2 x3 x4 x5) := by intros; rfl
theorem Encodable.vshlVs : ∀ x1 x2 x3 x4 x5, Encodable.Statement (.vshlVs x1 x2 x3 x4 x5) := by intros; rfl
theorem Encodable.vshrVs : ∀ x1 x2 x3 x4 x5, Encodable.Statement (.vshrVs x1 x2 x3 x4 x5) := by intros; rfl
theorem Encodable.vsraVs : ∀ x1 x2 x3 x4 x5, Encodable.Statement (.vsraVs x1 x2 x3 x4 x5) := by intros; rfl
theorem Encodable.vaddVsF : ∀ x1 x2 x3 x4 x5, Encodable.Statement (.vaddVsF x1 x2 x3 x4 x5) := by intros; rfl
theorem Encodable.vsubVsF : ∀ x1 x2 x3 x4 x5, Encodable.Statement (.vsubVsF x1 x2 x3 x4 x5) := by intros; rfl
theorem Encodable.vrsubVsF : ∀ x1 x2 x3 x4 x5, Encodable.Statement (.vrsubVsF x1 x2 x3 x4 x5) := by intros; rfl
theorem Encodable.vmulVsF : ∀ x1 x2 x3 x4 x5, Encodable.Statement (.vmulVsF x1 x2 x3 x4 x5) := by intros; rfl
theorem Encodable.vminVsF : ∀ x1 x2 x3 x4 x5, Encodable.Statement (.vminVsF x1 x2 x3 x4 x5) := by intros; rfl
theorem Encodable.vmaxVsF : ∀ x1 x2 x3 x4 x5, Encodable.Statement (.vmaxVsF x1 x2 x3 x4 x5) := by intros; rfl
theorem Encodable.vperm : ∀ x1 x2 x3 x4 x5, Encodable.Statement (.vperm x1 x2 x3 x4 x5) := by intros; rfl
theorem Encodable.vrot : ∀ x1 x2 x3 x4 x5, Encodable.Statement (.vrot x1 x2 x3 x4 x5) := by intros; rfl
theorem Encodable.vzipLo : ∀ x1 x2 x3 x4 x5, Encodable.Statement (.vzipLo x1 x2 x3 x4 x5) := by intros; rfl
theorem Encodable.vzipHi : ∀ x1 x2 x3 x4 x5, Encodable.Statement (.vzipHi x1 x2 x3 x4 x5) := by intros; rfl
theorem Encodable.vunzipEv : ∀ x1 x2 x3 x4 x5, Encodable.Statement (.vunzipEv x1 x2 x3 x4 x5) := by intros; rfl
theorem Encodable.vunzipOd : ∀ x1 x2 x3 x4 x5, Encodable.Statement (.vunzipOd x1 x2 x3 x4 x5) := by intros; rfl
theorem Encodable.vslideDn : ∀ x1 x2 x3 x4 x5, Encodable.Statement (.vslideDn x1 x2 x3 x4 x5) := by intros; rfl
theorem Encodable.vslideUp : ∀ x1 x2 x3 x4 x5, Encodable.Statement (.vslideUp x1 x2 x3 x4 x5) := by intros; rfl
theorem Encodable.vcmpr : ∀ x1 x2 x3 x4, Encodable.Statement (.vcmpr x1 x2 x3 x4) := by intros; rfl
theorem Encodable.vexpd : ∀ x1 x2 x3 x4, Encodable.Statement (.vexpd x1 x2 x3 x4) := by intros; rfl
theorem Encodable.vredAddI : ∀ x1 x2 x3 x4 x5, Encodable.Statement (.vredAddI x1 x2 x3 x4 x5) := by intros; rfl
theorem Encodable.vredMin : ∀ x1 x2 x3 x4 x5, Encodable.Statement (.vredMin x1 x2 x3 x4 x5) := by intros; rfl
theorem Encodable.vredMax : ∀ x1 x2 x3 x4 x5, Encodable.Statement (.vredMax x1 x2 x3 x4 x5) := by intros; rfl
theorem Encodable.vredMinn : ∀ x1 x2 x3 x4 x5, Encodable.Statement (.vredMinn x1 x2 x3 x4 x5) := by intros; rfl
theorem Encodable.vredMaxn : ∀ x1 x2 x3 x4 x5, Encodable.Statement (.vredMaxn x1 x2 x3 x4 x5) := by intros; rfl
theorem Encodable.vredAnd : ∀ x1 x2 x3 x4 x5, Encodable.Statement (.vredAnd x1 x2 x3 x4 x5) := by intros; rfl
theorem Encodable.vredOr : ∀ x1 x2 x3 x4 x5, Encodable.Statement (.vredOr x1 x2 x3 x4 x5) := by intros; rfl
theorem Encodable.vredXor : ∀ x1 x2 x3 x4 x5, Encodable.Statement (.vredXor x1 x2 x3 x4 x5) := by intros; rfl
theorem Encodable.vredAddF : ∀ x1 x2 x3 x4 x5, Encodable.Statement (.vredAddF x1 x2 x3 x4 x5) := by intros; rfl
theorem Encodable.vredMinF : ∀ x1 x2 x3 x4 x5, Encodable.Statement (.vredMinF x1 x2 x3 x4 x5) := by intros; rfl
theorem Encodable.vredMaxF : ∀ x1 x2 x3 x4 x5, Encodable.Statement (.vredMaxF x1 x2 x3 x4 x5) := by intros; rfl
theorem Encodable.vredCnt : ∀ x1 x2 x3, Encodable.Statement (.vredCnt x1 x2 x3) := by intros; rfl
theorem Encodable.vscanAddI : ∀ x1 x2 x3 x4 x5, Encodable.Statement (.vscanAddI x1 x2 x3 x4 x5) := by intros; rfl
theorem Encodable.vscanMin : ∀ x1 x2 x3 x4 x5, Encodable.Statement (.vscanMin x1 x2 x3 x4 x5) := by intros; rfl
theorem Encodable.vscanMax : ∀ x1 x2 x3 x4 x5, Encodable.Statement (.vscanMax x1 x2 x3 x4 x5) := by intros; rfl
theorem Encodable.vscanMinn : ∀ x1 x2 x3 x4 x5, Encodable.Statement (.vscanMinn x1 x2 x3 x4 x5) := by intros; rfl
theorem Encodable.vscanMaxn : ∀ x1 x2 x3 x4 x5, Encodable.Statement (.vscanMaxn x1 x2 x3 x4 x5) := by intros; rfl
theorem Encodable.vscanAddF : ∀ x1 x2 x3 x4 x5, Encodable.Statement (.vscanAddF x1 x2 x3 x4 x5) := by intros; rfl
theorem Encodable.vscanMinF : ∀ x1 x2 x3 x4 x5, Encodable.Statement (.vscanMinF x1 x2 x3 x4 x5) := by intros; rfl
theorem Encodable.vscanMaxF : ∀ x1 x2 x3 x4 x5, Encodable.Statement (.vscanMaxF x1 x2 x3 x4 x5) := by intros; rfl
theorem Encodable.vcvt : ∀ x1 x2 x3 x4 x5 x6, Encodable.Statement (.vcvt x1 x2 x3 x4 x5 x6) := by intros; rfl
theorem Encodable.vnarrow : ∀ x1 x2 x3 x4 x5 x6 x7, Encodable.Statement (.vnarrow x1 x2 x3 x4 x5 x6 x7) := by intros; rfl
theorem Encodable.vwiden : ∀ x1 x2 x3 x4 x5, Encodable.Statement (.vwiden x1 x2 x3 x4 x5) := by intros; rfl
theorem Encodable.fexp2 : ∀ x1 x2 x3 x4, Encodable.Statement (.fexp2 x1 x2 x3 x4) := by intros; rfl
theorem Encodable.flog2 : ∀ x1 x2 x3 x4, Encodable.Statement (.flog2 x1 x2 x3 x4) := by intros; rfl
theorem Encodable.fexp : ∀ x1 x2 x3 x4, Encodable.Statement (.fexp x1 x2 x3 x4) := by intros; rfl
theorem Encodable.flog : ∀ x1 x2 x3 x4, Encodable.Statement (.flog x1 x2 x3 x4) := by intros; rfl
theorem Encodable.frcp : ∀ x1 x2 x3 x4, Encodable.Statement (.frcp x1 x2 x3 x4) := by intros; rfl
theorem Encodable.frsqrt : ∀ x1 x2 x3 x4, Encodable.Statement (.frsqrt x1 x2 x3 x4) := by intros; rfl
theorem Encodable.fsqrt : ∀ x1 x2 x3 x4, Encodable.Statement (.fsqrt x1 x2 x3 x4) := by intros; rfl
theorem Encodable.ftanh : ∀ x1 x2 x3 x4, Encodable.Statement (.ftanh x1 x2 x3 x4) := by intros; rfl
theorem Encodable.fsig : ∀ x1 x2 x3 x4, Encodable.Statement (.fsig x1 x2 x3 x4) := by intros; rfl
theorem Encodable.fdiv : ∀ x1 x2 x3 x4 x5, Encodable.Statement (.fdiv x1 x2 x3 x4 x5) := by intros; rfl
theorem Encodable.qrgen : ∀ x1 x2 x3 x4 x5 x6, Encodable.Statement (.qrgen x1 x2 x3 x4 x5 x6) := by intros; rfl
theorem Encodable.qrload : ∀ x1 x2 x3, Encodable.Statement (.qrload x1 x2 x3) := by intros; rfl
theorem Encodable.qrsave : ∀ x1 x2 x3, Encodable.Statement (.qrsave x1 x2 x3) := by intros; rfl
theorem Encodable.qrscr : ∀ x1 x2 x3, Encodable.Statement (.qrscr x1 x2 x3) := by intros; rfl
theorem Encodable.qrscrId : ∀ x1 x2, Encodable.Statement (.qrscrId x1 x2) := by intros; rfl
theorem Encodable.hist : ∀ x1 x2 x3, Encodable.Statement (.hist x1 x2 x3) := by intros; rfl
theorem Encodable.histRd : ∀ x1, Encodable.Statement (.histRd x1) := by intros; rfl
theorem Encodable.histRdx : ∀ x1, Encodable.Statement (.histRdx x1) := by intros; rfl
theorem Encodable.hclr : ∀ x1, Encodable.Statement (.hclr x1) := by intros; rfl
theorem Encodable.qscale : ∀ x1 x2 x3, Encodable.Statement (.qscale x1 x2 x3) := by intros; rfl
theorem Encodable.qpack : ∀ x1 x2 x3 x4 x5 x6, Encodable.Statement (.qpack x1 x2 x3 x4 x5 x6) := by intros; rfl
theorem Encodable.ldI64 : ∀ x1 x2 x3, Encodable.Statement (.ldI64 x1 x2 x3) := by intros; rfl
theorem Encodable.ldI32 : ∀ x1 x2 x3, Encodable.Statement (.ldI32 x1 x2 x3) := by intros; rfl
theorem Encodable.ldN32 : ∀ x1 x2 x3, Encodable.Statement (.ldN32 x1 x2 x3) := by intros; rfl
theorem Encodable.ldI16 : ∀ x1 x2 x3, Encodable.Statement (.ldI16 x1 x2 x3) := by intros; rfl
theorem Encodable.ldN16 : ∀ x1 x2 x3, Encodable.Statement (.ldN16 x1 x2 x3) := by intros; rfl
theorem Encodable.ldI8 : ∀ x1 x2 x3, Encodable.Statement (.ldI8 x1 x2 x3) := by intros; rfl
theorem Encodable.ldN8 : ∀ x1 x2 x3, Encodable.Statement (.ldN8 x1 x2 x3) := by intros; rfl
theorem Encodable.st64 : ∀ x1 x2 x3, Encodable.Statement (.st64 x1 x2 x3) := by intros; rfl
theorem Encodable.st32 : ∀ x1 x2 x3, Encodable.Statement (.st32 x1 x2 x3) := by intros; rfl
theorem Encodable.st16 : ∀ x1 x2 x3, Encodable.Statement (.st16 x1 x2 x3) := by intros; rfl
theorem Encodable.st8 : ∀ x1 x2 x3, Encodable.Statement (.st8 x1 x2 x3) := by intros; rfl
theorem Encodable.copyStart : Encodable.Statement .copyStart := rfl
theorem Encodable.vld : ∀ x1 x2 x3 x4, Encodable.Statement (.vld x1 x2 x3 x4) := by intros; rfl
theorem Encodable.vst : ∀ x1 x2 x3 x4, Encodable.Statement (.vst x1 x2 x3 x4) := by intros; rfl
theorem Encodable.vlds : ∀ x1 x2 x3 x4 x5, Encodable.Statement (.vlds x1 x2 x3 x4 x5) := by intros; rfl
theorem Encodable.vgath : ∀ x1 x2 x3 x4 x5 x6 x7, Encodable.Statement (.vgath x1 x2 x3 x4 x5 x6 x7) := by intros; rfl
theorem Encodable.vscat : ∀ x1 x2 x3 x4 x5 x6 x7, Encodable.Statement (.vscat x1 x2 x3 x4 x5 x6 x7) := by intros; rfl
theorem Encodable.vlddLo : ∀ x1 x2 x3 x4, Encodable.Statement (.vlddLo x1 x2 x3 x4) := by intros; rfl
theorem Encodable.vlddHi : ∀ x1 x2 x3 x4, Encodable.Statement (.vlddHi x1 x2 x3 x4) := by intros; rfl
theorem Encodable.vstd : ∀ x1 x2 x3 x4 x5, Encodable.Statement (.vstd x1 x2 x3 x4 x5) := by intros; rfl
theorem Encodable.ldblk : ∀ x1 x2 x3 x4, Encodable.Statement (.ldblk x1 x2 x3 x4) := by intros; rfl
theorem Encodable.ldblkQ : ∀ x1 x2, Encodable.Statement (.ldblkQ x1 x2) := by intros; rfl
theorem Encodable.ldblkRel : ∀ x1, Encodable.Statement (.ldblkRel x1) := by intros; rfl
theorem Encodable.lock : ∀ x1 x2, Encodable.Statement (.lock x1 x2) := by intros; rfl
theorem Encodable.unlock : ∀ x1, Encodable.Statement (.unlock x1) := by intros; rfl
theorem Encodable.amo : ∀ x1 x2 x3 x4 x5 x6 x7, Encodable.Statement (.amo x1 x2 x3 x4 x5 x6 x7) := by intros; rfl
theorem Encodable.cas : ∀ x1 x2 x3 x4 x5 x6 x7, Encodable.Statement (.cas x1 x2 x3 x4 x5 x6 x7) := by intros; rfl
theorem Encodable.famo : ∀ x1 x2 x3 x4, Encodable.Statement (.famo x1 x2 x3 x4) := by intros; rfl
theorem Encodable.vamo : ∀ x1 x2 x3 x4 x5 x6 x7, Encodable.Statement (.vamo x1 x2 x3 x4 x5 x6 x7) := by intros; rfl
theorem Encodable.fence : ∀ x1 x2, Encodable.Statement (.fence x1 x2) := by intros; rfl
theorem Encodable.barArr : ∀ x1 x2, Encodable.Statement (.barArr x1 x2) := by intros; rfl
theorem Encodable.barWait : ∀ x1 x2 x3, Encodable.Statement (.barWait x1 x2 x3) := by intros; rfl
theorem Encodable.barExp : ∀ x1 x2, Encodable.Statement (.barExp x1 x2) := by intros; rfl
theorem Encodable.barTry : ∀ x1 x2, Encodable.Statement (.barTry x1 x2) := by intros; rfl
theorem Encodable.evpop : ∀ x1, Encodable.Statement (.evpop x1) := by intros; rfl
theorem Encodable.evpeek : ∀ x1, Encodable.Statement (.evpeek x1) := by intros; rfl
theorem Encodable.bclose : ∀ x1, Encodable.Statement (.bclose x1) := by intros; rfl
theorem Encodable.bwait : ∀ x1 x2, Encodable.Statement (.bwait x1 x2) := by intros; rfl
theorem Encodable.pool : ∀ x1 x2 x3 x4 x5 x6 x7, Encodable.Statement (.pool x1 x2 x3 x4 x5 x6 x7) := by intros; rfl
theorem Encodable.upd : ∀ x1 x2 x3 x4 x5, Encodable.Statement (.upd x1 x2 x3 x4 x5) := by intros; rfl
theorem Encodable.msend : ∀ x1 x2 x3, Encodable.Statement (.msend x1 x2 x3) := by intros; rfl
theorem Encodable.rpost : ∀ x1 x2 x3 x4, Encodable.Statement (.rpost x1 x2 x3 x4) := by intros; rfl
theorem Encodable.rprobe : ∀ x1 x2, Encodable.Statement (.rprobe x1 x2) := by intros; rfl
theorem Encodable.rcancel : ∀ x1 x2, Encodable.Statement (.rcancel x1 x2) := by intros; rfl
theorem Encodable.a2a : ∀ x1 x2 x3 x4 x5 x6 x7, Encodable.Statement (.a2a x1 x2 x3 x4 x5 x6 x7) := by intros; rfl
theorem Encodable.gsub : ∀ x1 x2 x3, Encodable.Statement (.gsub x1 x2 x3) := by intros; rfl
theorem Encodable.resultArrival : Encodable.Statement .resultArrival := rfl
theorem Encodable.lineArrival : Encodable.Statement .lineArrival := rfl
theorem Encodable.remoteGranuleArrival : Encodable.Statement .remoteGranuleArrival := rfl
theorem Encodable.raceCheckAnswer : Encodable.Statement .raceCheckAnswer := rfl
theorem Encodable.cardPrefetch : Encodable.Statement .cardPrefetch := rfl
theorem Encodable.watchdogExpiry : Encodable.Statement .watchdogExpiry := rfl
theorem Encodable.waitBoundExpiry : Encodable.Statement .waitBoundExpiry := rfl
theorem Encodable.deferredTrap : Encodable.Statement .deferredTrap := rfl
theorem Encodable.contextDone : Encodable.Statement .contextDone := rfl
theorem Encodable.dieCompletion : Encodable.Statement .dieCompletion := rfl
theorem Encodable.windowWriteAccept : Encodable.Statement .windowWriteAccept := rfl
theorem Encodable.windowWriteLand : Encodable.Statement .windowWriteLand := rfl
theorem Encodable.batchSummary : Encodable.Statement .batchSummary := rfl
theorem Encodable.barrierUnitApply : Encodable.Statement .barrierUnitApply := rfl
theorem Encodable.famoArrival : Encodable.Statement .famoArrival := rfl
theorem Encodable.fillComplete : Encodable.Statement .fillComplete := rfl
theorem Encodable.fillFail : Encodable.Statement .fillFail := rfl
theorem Encodable.prelHoldApply : Encodable.Statement .prelHoldApply := rfl
theorem Encodable.eventRecordArrival : Encodable.Statement .eventRecordArrival := rfl
theorem Encodable.matrixOperationStart : Encodable.Statement .matrixOperationStart := rfl
theorem Encodable.matrixFeedEnd : Encodable.Statement .matrixFeedEnd := rfl
theorem Encodable.matrixResult : Encodable.Statement .matrixResult := rfl
theorem Encodable.matrixStreamFault : Encodable.Statement .matrixStreamFault := rfl
theorem Encodable.lookupDispatch : Encodable.Statement .lookupDispatch := rfl
theorem Encodable.depotGather : Encodable.Statement .depotGather := rfl
theorem Encodable.heatSketchDecay : Encodable.Statement .heatSketchDecay := rfl
theorem Encodable.sidingPartial : Encodable.Statement .sidingPartial := rfl
theorem Encodable.mergePartialArrival : Encodable.Statement .mergePartialArrival := rfl
theorem Encodable.promotionEviction : Encodable.Statement .promotionEviction := rfl
theorem Encodable.promotionPublish : Encodable.Statement .promotionPublish := rfl
theorem Encodable.updateDispatch : Encodable.Statement .updateDispatch := rfl
theorem Encodable.turntableRowUpdate : Encodable.Statement .turntableRowUpdate := rfl
theorem Encodable.messageHeaderArrival : Encodable.Statement .messageHeaderArrival := rfl
theorem Encodable.postArrival : Encodable.Statement .postArrival := rfl
theorem Encodable.cancelArrival : Encodable.Statement .cancelArrival := rfl
theorem Encodable.postTimeout : Encodable.Statement .postTimeout := rfl
theorem Encodable.headerLifetimeExpiry : Encodable.Statement .headerLifetimeExpiry := rfl
theorem Encodable.pullComplete : Encodable.Statement .pullComplete := rfl
theorem Encodable.marshalDispatch : Encodable.Statement .marshalDispatch := rfl
theorem Encodable.ownerPartialArrival : Encodable.Statement .ownerPartialArrival := rfl
theorem Encodable.roundDeadline : Encodable.Statement .roundDeadline := rfl
theorem Encodable.uncorrectableLinkError : Encodable.Statement .uncorrectableLinkError := rfl
theorem Encodable.uecTransportFailure : Encodable.Statement .uecTransportFailure := rfl
theorem Encodable.invalidationDrainComplete : Encodable.Statement .invalidationDrainComplete := rfl
theorem Encodable.migrationSubmit : Encodable.Statement .migrationSubmit := rfl
theorem Encodable.migrationGranuleCopy : Encodable.Statement .migrationGranuleCopy := rfl
theorem Encodable.migrationSwitch : Encodable.Statement .migrationSwitch := rfl
theorem Encodable.preemptRequest : Encodable.Statement .preemptRequest := rfl
theorem Encodable.trapOverflowClear : Encodable.Statement .trapOverflowClear := rfl
theorem Encodable.queueDoorbell : Encodable.Statement .queueDoorbell := rfl
theorem Encodable.schedulingStep : Encodable.Statement .schedulingStep := rfl
theorem Encodable.clusterSave : Encodable.Statement .clusterSave := rfl
theorem Encodable.gangReady : Encodable.Statement .gangReady := rfl
theorem Encodable.gangLimitExpiry : Encodable.Statement .gangLimitExpiry := rfl
theorem Encodable.gangGo : Encodable.Statement .gangGo := rfl
theorem Encodable.gangStart : Encodable.Statement .gangStart := rfl
theorem Encodable.gangAbandon : Encodable.Statement .gangAbandon := rfl
theorem Encodable.repairDrain : Encodable.Statement .repairDrain := rfl
theorem Encodable.repairReload : Encodable.Statement .repairReload := rfl
theorem Encodable.repairRetire : Encodable.Statement .repairRetire := rfl
theorem Encodable.repairReturn : Encodable.Statement .repairReturn := rfl
theorem Encodable.unitOffline : Encodable.Statement .unitOffline := rfl
theorem Encodable.guestCompletion : Encodable.Statement .guestCompletion := rfl
theorem Encodable.guestCompletionTimeout : Encodable.Statement .guestCompletionTimeout := rfl
theorem Encodable.atsTranslationRequest : Encodable.Statement .atsTranslationRequest := rfl
theorem Encodable.guestCacheRequest : Encodable.Statement .guestCacheRequest := rfl
theorem Encodable.guestInvalidationCompletion : Encodable.Statement .guestInvalidationCompletion := rfl
theorem Encodable.guestInvalidationTimeout : Encodable.Statement .guestInvalidationTimeout := rfl
theorem Encodable.guestQuiesceTimeout : Encodable.Statement .guestQuiesceTimeout := rfl
theorem Encodable.hostAccess : Encodable.Statement .hostAccess := rfl
theorem Encodable.coldReset : Encodable.Statement .coldReset := rfl
theorem Encodable.warmReset : Encodable.Statement .warmReset := rfl
theorem Encodable.attestationRequest : Encodable.Statement .attestationRequest := rfl
theorem Encodable.powerCapSet : Encodable.Statement .powerCapSet := rfl
theorem Encodable.luvexWatchdogExpiry : Encodable.Statement .luvexWatchdogExpiry := rfl
theorem Encodable.thermalTrip : Encodable.Statement .thermalTrip := rfl
theorem Encodable.translationWalkComplete : Encodable.Statement .translationWalkComplete := rfl
theorem Encodable.batchSummaryBoundExpiry : Encodable.Statement .batchSummaryBoundExpiry := rfl
theorem Encodable.linkRetry : Encodable.Statement .linkRetry := rfl

end Sys2Proof.Laws
end

