-- ==== Sys2Proof/Laws/Results.lean ====
section
/-! SUPPORT. Sys2Proof/Laws/Results.lean: what the shared forms of the scalar and vector instructions post. -/

namespace Sys2Proof.Machine

theorem State.posted_append (s : State) (xs ys : List (Nat × Eff)) : s.posted (xs ++ ys) = (s.posted xs).posted ys :=
  List.foldl_append

/-- Posting leaves the bundle's own record alone. -/
@[simp] theorem State.posted_iss (s : State) (xs : List (Nat × Eff)) : (s.posted xs).iss = s.iss := by
  induction xs generalizing s with
  | nil => rfl
  | cons x r ih => exact ih (s.push x.1 x.2)

/-- A write of a scalar register posts its result, none for s0. -/
theorem State.ws_posted (s : State) (d : BitVec 5) (lat : Nat) (x : Word) :
    s.ws d lat x = s.posted (regResult d lat x) := by
  unfold State.ws regResult; split <;> rfl

/-- Sticky flags post their result, none when there are none. -/
theorem State.wf_posted (s : State) (lat f : Nat) : s.wf lat (BitVec.ofNat 6 f) = s.posted (flagResult lat f) := by
  unfold State.wf flagResult; split <;> rfl

/-- The two-source scalar form. -/
theorem State.sr2_posted (s : State) (d a b : BitVec 5) (l : Bool) (lat : Nat) (f : Word → Word → Word) :
    s.sr2 d a b l lat f = .next (s.posted (regResult d lat (f (s.rs a) (s.opB b l)))) := by
  rw [State.sr2, State.ws_posted]

/-- The one-source scalar form. -/
theorem State.sr1_posted (s : State) (d a : BitVec 5) (f : Word → Word) :
    s.sr1 d a f = .next (s.posted (regResult d 1 (f (s.rs a)))) := by rw [State.sr1, State.ws_posted]

/-- The flags of a list in which inactive lanes raise none. -/
theorem orFlags_active {n w : Nat} (hn : n = 2048 / w) (p : PReg) (f : Nat → Nat × Nat) :
    orFlags ((List.range n).map fun i => (if active w p i then f i else (0, 0)).2) = laneFlags w p f := by
  subst hn
  unfold laneFlags activeLanes orFlags
  rw [List.foldl_map, List.foldl_map, List.foldl_filter]
  congr 1
  funext acc i
  split <;> simp

/-- The lane-by-lane form posts what `LanesPosted` says. -/
theorem State.vmap_lanes (s : State) (d : BitVec 4) (p : BitVec 5) (w lat : Nat) (zero : Bool) (f : Nat → Nat × Nat) :
    LanesPosted s (s.vmap d p w lat zero f) d (s.rp p) w lat zero f := by
  let xs := (List.range (2048 / w)).map fun i => if active w (s.rp p) i then f i else (0, 0)
  refine ⟨ofLanes w (xs.map (·.1)), if zero then BitVec.allOnes 2048 else laneMask w (s.rp p), ?_, ?_⟩
  · have hf : orFlags (xs.map (·.2)) = laneFlags w (s.rp p) f := by rw [List.map_map, ← orFlags_active rfl]; rfl
    show (s.wv d lat _ _).wf lat (BitVec.ofNat 6 (orFlags (xs.map (·.2)))) = s.posted ([_] ++ _)
    rw [State.wf_posted, State.posted_append, hf]
    rfl
  · intro v i hi
    have hle := lane_fits hi
    have hx : laneN w (ofLanes w (xs.map (·.1))) i = (if active w (s.rp p) i then f i else (0, 0)).1 % 2 ^ w := by
      rw [laneN_ofLanes _ hle, List.map_map, getD_map_range _ hi]; rfl
    rw [Vis.v_apply_vec _ _ _ (s.vix_lt d)]
    cases zero
    · have hm := laneN_laneMask (w := w) (s.rp p) hi
      simp only [Bool.false_eq_true, if_false]
      by_cases ha : active w (s.rp p) i
      · rw [if_pos ha] at hm; rw [laneN_merge_of_full hm, hx, if_pos ha, if_pos ha]
      · rw [if_neg ha] at hm; rw [laneN_merge_of_zero hle hm, if_neg ha]
    · simp only [if_true]
      rw [laneN_merge_of_full (laneN_allOnes hi), hx]
      split <;> simp

/-- The form that writes every lane. -/
theorem State.vall_lanes (s : State) (d : BitVec 4) (w lat : Nat) (f : Nat → Nat) :
    AllLanesPosted s (s.vall d w lat f) (s.vix d) w lat 0 f := by
  refine ⟨_, _, rfl, fun v i hi => ?_⟩
  rw [Vis.v_apply_vec _ _ _ (s.vix_lt d), laneN_merge_of_full (laneN_allOnes hi), laneN_mkLanes _ hi]

end Sys2Proof.Machine
end

