-- ==== Sys2Proof/Machine/Assembler.lean ====
section
/-! DEFINITION. Sys2Proof/Machine/Assembler.lean: what the Fyofort assembler makes of a source line whose text has been
read: encodings of immediates (R109), placement of instructions and literals in slots (R95), and the bytes of the data
directives `.scratch`, `.align`, `.card` and `.block` (R96). No step of the machine uses it. -/

namespace Sys2Proof.Machine

/-- An instruction of a source line: the slot it is prefixed with, the group of the vector registers it names (of its source,
for `vxc`), and the value written as its last operand, where that is no register (R94, R95). -/
structure Source where
  i    : Instr
  slot : Option Nat := none
  grp  : Option Grp := none
  imm  : Option Int := none
  deriving DecidableEq, Repr

/-- An instruction with its literal in slot k: L = 1 and k in sb 13:11 (R76, R108). -/
def withLiteral (k : Nat) (i : Instr) : Instr :=
  let b := BitVec.ofNat 5 k
  match i with
  | .add d a _ _ => .add d a b true
  | .sub d a _ _ => .sub d a b true
  | .min d a _ _ => .min d a b true
  | .max d a _ _ => .max d a b true
  | .minn d a _ _ => .minn d a b true
  | .maxn d a _ _ => .maxn d a b true
  | .and d a _ _ => .and d a b true
  | .or d a _ _ => .or d a b true
  | .xor d a _ _ => .xor d a b true
  | .andn d a _ _ => .andn d a b true
  | .shl d a _ _ => .shl d a b true
  | .shr d a _ _ => .shr d a b true
  | .sra d a _ _ => .sra d a b true
  | .rot d a _ _ => .rot d a b true
  | .mul d a _ _ => .mul d a b true
  | .mulh d a _ _ => .mulh d a b true
  | .mulhn d a _ _ => .mulhn d a b true
  | .div d a _ _ => .div d a b true
  | .divn d a _ _ => .divn d a b true
  | .rem d a _ _ => .rem d a b true
  | .remn d a _ _ => .remn d a b true
  | .scmp d a _ _ c => .scmp d a b true c
  | .sel d a _ _ c => .sel d a b true c
  | .lstep d _ _ => .lstep d b true
  | .movl d _ => .movl d (BitVec.ofNat 3 k)
  | j => j

/-- Whether a value lies in the n-bit signed range. -/
def fitsSigned (n : Nat) (v : Int) : Bool := decide (-2 ^ (n - 1) ≤ v) && decide (v < 2 ^ (n - 1))

/-- Whether a value is a shift or rotate amount. -/
def shiftAmount (v : Int) : Bool := decide (0 ≤ v) && decide (v ≤ 63)

/-- The form with a literal, where the 58 bits of a pair can hold the value (R76). -/
def literalForm (v : Int) (i : Instr) : Option (Instr × Option Int) :=
  if fitsSigned 58 v then some (withLiteral 0 i, some v) else none

/-- An SI form where its 16 bits hold the value, otherwise the SR form with a literal. -/
def immediateForm (v : Int) (si : BitVec 16 → Instr) (sr : Instr) : Option (Instr × Option Int) :=
  if fitsSigned 16 v then some (si (BitVec.ofInt 16 v), none) else literalForm v sr

/-- A shift by an amount; amounts outside 0 to 63 are rejected (R109). -/
def shiftForm (v : Int) (si : BitVec 6 → Instr) : Option (Instr × Option Int) :=
  if shiftAmount v then some (si (BitVec.ofInt 6 v), none) else none

/-- The encoding of an instruction whose last operand is the value v, with the value that a literal still has to hold; none
where the assembler rejects it (R95 point 2, R109). -/
def withValue (v : Int) (i : Instr) : Option (Instr × Option Int) :=
  match i with
  | .add d a _ _ => immediateForm v (.addi d a) i
  | .and d a _ _ => immediateForm v (.andi d a) i
  | .or d a _ _ => immediateForm v (.ori d a) i
  | .xor d a _ _ => immediateForm v (.xori d a) i
  | .addi d a _ => immediateForm v (.addi d a) (.add d a 0 true)
  | .andi d a _ => immediateForm v (.andi d a) (.and d a 0 true)
  | .ori d a _ => immediateForm v (.ori d a) (.or d a 0 true)
  | .xori d a _ => immediateForm v (.xori d a) (.xor d a 0 true)
  | .mov d _ => immediateForm v (.addi d 0) (.movl d 0)
  | .shl d a _ _ => shiftForm v (.shli d a)
  | .shr d a _ _ => shiftForm v (.shri d a)
  | .sra d a _ _ => shiftForm v (.srai d a)
  | .shli d a _ => shiftForm v (.shli d a)
  | .shri d a _ => shiftForm v (.shri d a)
  | .srai d a _ => shiftForm v (.srai d a)
  | .rot _ _ _ _ => if shiftAmount v then literalForm v i else none
  | j => if (withLiteral 0 j).literalSlot.isSome then literalForm v j else none

/-- A source instruction with its immediate encoded, and the value of the literal it needs. -/
def Source.encodeImm (x : Source) : Option (Source × Option Int) :=
  match x.imm with
  | none => some (x, none)
  | some v => (withValue v x.i).map fun r => ({ x with i := r.1 }, r.2)

/-- Whether an instruction may stand in slot k: its class, its slots within the class, the group of its vector registers (R72,
R83, R95 point 1). -/
def Source.fits (x : Source) (k : Nat) : Bool :=
  x.i.cls.all (· = slotClass k) && x.i.slotOk k && x.grp.all fun g => 2 ≤ k && g.code = slotGrp k

/-- The slot of an instruction among those taken: the one it is prefixed with, otherwise the lowest that is free and legal. -/
def Source.place (taken : List Nat) (x : Source) : Option Nat :=
  ((x.slot.map ([·])).getD (List.range 8)).find? fun k => k < 8 && !taken.contains k && x.fits k

/-- The slots of a line's instructions: the prefixed ones first, then the rest in source order (R95 point 1). -/
def placeSources (xs : List (Source × Option Int)) : Option (List (Nat × Source × Option Int)) :=
  (xs.filter (·.1.slot.isSome) ++ xs.filter (·.1.slot.isNone)).foldlM (fun got x =>
    (x.1.place (got.map (·.1))).map fun k => got ++ [(k, x.1, x.2)]) []

/-- The word of literal bits 28:0 of a value. -/
def literalWord (v : Int) : BitVec 32 := (7#3 ++ BitVec.ofInt 29 v : BitVec 32)

/-- The slots with a value's literal: a value that fits 29 bits takes the highest free slot k for which k = 7 or slot k + 1
holds no literal word, another the highest k with k and k + 1 free, its low half in k (R76, R95 point 3). -/
def placeLiteral (ws : List (Option (BitVec 32))) (v : Int) : Option (Nat × List (Option (BitVec 32))) :=
  let free := fun (k : Nat) => ws.getD k (some 0) = none
  let down := [7, 6, 5, 4, 3, 2, 1, 0]
  if fitsSigned 29 v then
    (down.find? fun k => free k && (k = 7 || !((ws.getD (k + 1) none).any isLiteral))).map fun k =>
      (k, ws.set k (some (literalWord v)))
  else
    (down.find? fun k => free k && free (k + 1)).map fun k =>
      (k, (ws.set k (some (literalWord v))).set (k + 1) (some (literalWord (v / 2 ^ 29))))

/-- The literals of placed instructions, one after another: each instruction names its own. -/
def placeLiterals (ws : List (Option (BitVec 32))) (xs : List (Nat × Source × Option Int)) : Option (List (Option (BitVec 32))) :=
  xs.foldlM (fun ws x =>
    match x.2.2 with
    | none => some ws
    | some v => (placeLiteral ws v).bind fun r => (encode (withLiteral r.1 x.2.1.i)).map fun w => r.2.set x.1 (some w)) ws

/-- THE EIGHT WORDS OF A SOURCE LINE'S BUNDLE, or none where the assembler rejects it: instructions placed, immediates encoded,
pairs and then single literals placed, the free slots filled with no-operations, and the cases of R84 refused (R95; log 42). -/
def assembleBundle (xs : List Source) : Option (List (BitVec 32)) := do
  let placed ← placeSources (← xs.mapM Source.encodeImm)
  let words ← placed.foldlM (fun (ws : List (Option (BitVec 32))) x => (encode x.2.1.i).map fun w => ws.set x.1 (some w))
    (List.replicate 8 none)
  let pairs := placed.filter fun x => x.2.2.any fun v => !fitsSigned 29 v
  let singles := placed.filter fun x => x.2.2.any (fitsSigned 29)
  let words ← placeLiterals words (pairs ++ singles)
  let ws := words.map (·.getD 0)
  match decodeBundle ws with
  | .ok _ => some ws
  | .error _ => none

/-! ### Data directives (R96) -/

/-- A `.scratch` region: bank group, offset, bytes. -/
structure Scratch where
  group : Nat
  off   : Nat
  bytes : Nat
  deriving DecidableEq, Repr

/-- The local address that the region's name stands for. -/
def Scratch.addr (r : Scratch) : Nat := 0x0100000000000000 + r.group * 2 ^ 21 + r.off

/-- Whether a region lies within one bank group. -/
def Scratch.inGroup (r : Scratch) : Bool := decide (r.group < 4) && decide (r.off + r.bytes ≤ 2 ^ 21)

/-- Whether two regions overlap, which is an error. -/
def Scratch.overlaps (r x : Scratch) : Bool := decide (r.addr < x.addr + x.bytes) && decide (x.addr < r.addr + r.bytes)

/-- Whether `.align n` is accepted, in code or in data. -/
def alignOk (code : Bool) (n : Nat) : Bool := decide (n ≠ 0) && n == 2 ^ n.log2 && decide (n ≤ 4096) && (!code || decide (32 ≤ n))

/-- The bytes that `.align n` adds at offset a: no-operation bundles and zero bytes are both zeros (R75). -/
def alignPad (a n : Nat) : List Byte := List.replicate ((n - a % n) % n) 0

/-- The 64 bytes of a `.card`; missing words are zero. -/
def cardBytes (ws : List Word) : List Byte := (List.range 8).flatMap fun k => leBytes 8 (ws.getD k 0).toNat

/-- The 64 bytes of a `.block` of a format, a scale exponent and values, in rows of 62 bytes; missing values are zero. -/
def blockBytes (fmt : Nat) (e : Int) (vs : List Int) : List Byte :=
  leBytes 64 (encodeBlock fmt (e + 127).toNat (blkElems fmt) [fun i => intVal (vs.getD i 0)]).blk

end Sys2Proof.Machine
end

