-- ==== Sys2Proof/Tests/Slice0.lean ====
section
/-! SUPPORT. Sys2Proof/Tests/Slice0.lean: the model's own tests. -/

/- The tests are many short kernel evaluations: one after another they need few threads. -/
set_option Elab.async false

open Sys2Proof

namespace Sys2Proof.Machine

/-! ### Small states -/

/-- A visible state with scalar registers set. -/
def visWith (rs : List (Nat × Word)) : Vis :=
  { Vis.launch with sreg := rs.foldl (fun v r => v.setIfInBounds r.1 r.2) Vis.launch.sreg }

/-- A machine in which context 0 issues a bundle from a slot in cycle 0, with some scalar registers set. -/
def issuing (slot : Nat) (rs : List (Nat × Word)) : State :=
  { State.reset with
    agenda := []
    ctxs := [(0, { Ctx.idle with status := .current, vis := visWith rs, chk := visWith rs })]
    iss := { Issue.none with slot := slot } }

/-- The results that a meaning posted: their cycles and effects; none when it did not answer a next state. -/
def postedBy (r : Res) : List (Nat × Eff) :=
  match r with
  | .next t => t.cur.pend.map fun p => (p.at_, p.eff)
  | _ => []

theorem test_reset_canonical : MemoryCanonical State.reset := ⟨by decide, by decide, by decide⟩


/-! ### Well-formedness: one ill-formed term for each check, and a well-formed one at its boundary -/

theorem test_wf_literal_source : (Instr.add 1 2 8 true).wf = false ∧ (Instr.add 1 2 7 true).wf = true ∧ (Instr.add 1 2 31 false).wf = true := by
  decide
theorem test_wf_loop_offset : (Instr.loop 1 0).wf = false ∧ (Instr.loop 1 0x20000).wf = false ∧ (Instr.loop 1 0x1FFFF).wf = true := by decide
theorem test_wf_card_destination : (Instr.cnext 24).wf = false ∧ (Instr.cnext 23).wf = true := by decide
theorem test_wf_register_numbers :
    (Instr.csrr 1 9).wf = false ∧ (Instr.csrw 1 2 0x13).wf = false ∧ (Instr.csrr 1 0x12).wf = true ∧
    (Instr.sysr 1 0x106).wf = false ∧ (Instr.sysw 1 2 0x177).wf = false ∧ (Instr.sysr 1 0x176).wf = true ∧
    (Instr.erd 1 5).wf = false ∧ (Instr.ewr 1 0x2004).wf = false ∧ (Instr.erd 1 0x2010).wf = true := by decide
theorem test_wf_predicates_and_types :
    (Instr.vaddI 1 2 3 24 .i32).wf = false ∧ (Instr.vaddI 1 2 3 0 .f32).wf = false ∧ (Instr.vaddI 1 2 3 23 .i64).wf = true ∧
    (Instr.vaddF 1 2 3 0 .i32).wf = false ∧ (Instr.vaddF 1 2 3 0 .bf16).wf = true ∧
    (Instr.pand 0 1 2).wf = false ∧ (Instr.pand 24 1 2).wf = false ∧ (Instr.pand 23 24 2).wf = false ∧ (Instr.pand 23 0 2).wf = true := by
  decide
theorem test_wf_compare_conditions :
    (Instr.vcmpn 1 2 3 0 .i32 .eq).wf = false ∧ (Instr.vcmpn 1 2 3 0 .i32 .lt).wf = true ∧
    (Instr.vfcmpSig 1 2 3 0 .f32 .un).wf = false ∧ (Instr.vfcmpSig 1 2 3 0 .f32 .ge).wf = true := by decide
theorem test_wf_element_index :
    (Instr.vins 1 4 2 .i32 0).wf = false ∧ (Instr.vins 1 3 2 .i32 15).wf = true ∧ (Instr.vext 15 2 1 .i8 15).wf = true ∧
    (Instr.vext 0 2 1 .f32 0).wf = false := by decide
theorem test_wf_conversions :
    (Instr.vcvt 1 2 0 0 .rne 0x1C).wf = false ∧ (Instr.vcvt 1 2 3 0 .rne 0).wf = false ∧ (Instr.vcvt 1 2 3 0 .sr 0).wf = true ∧
    (Instr.vcvt 1 2 0 0 .rz 8).wf = false ∧ (Instr.vcvt 1 2 0 0 .rne 0x1B).wf = true ∧
    (Instr.vnarrow 1 2 0 0 .rne 2 0).wf = false ∧ (Instr.vnarrow 1 2 0 0 .rne 3 2).wf = true ∧ (Instr.vwiden 1 2 0 2 0).wf = false := by
  decide
theorem test_wf_quasi_random : (Instr.qrgen 1 2 0 .f32 false .raw).wf = false ∧ (Instr.qrgen 1 2 0 .f32 false .co).wf = true ∧
    (Instr.qrscr 1 31 1).wf = false ∧ (Instr.qrscr 1 31 0).wf = true := by decide
theorem test_wf_memory :
    (Instr.vstd 1 2 0 1 0).wf = false ∧ (Instr.vstd 1 2 0 7 0).wf = true ∧ (Instr.amo 1 2 3 .relaxed .cl true .add).wf = false ∧
    (Instr.amo 1 2 3 .acq .cl true .add).wf = true ∧ (Instr.vamo 1 2 3 0 .b16 true .add).wf = false ∧
    (Instr.vamo 1 2 3 0 .b64 true .add).wf = true ∧ (Instr.barArr 1 0).wf = false ∧ (Instr.evpop 0).wf = false ∧
    (Instr.evpop 6).wf = false ∧ (Instr.rprobe 1 28).wf = true := by decide

/-! ### Decoding: words written out field by field from the formats of R76 to R78 and the maps of R79 to R82 -/

set_option maxRecDepth 100000 in
/-- R79: major, sd, sa, sb, L, fn; a branch's offset; an immediate. -/
theorem test_decode_scalar :
    decode .scalar (0b000001#6 ++ 5#5 ++ 1#5 ++ 2#5 ++ 0#1 ++ 0#10) = .ok (.add 5 1 2 false) ∧
    decode .scalar (0b000011#6 ++ 4#5 ++ 9#5 ++ 1#16) = .ok (.clz 4 9) ∧
    decode .scalar (0b000101#6 ++ 4#5 ++ 9#5 ++ 3#5 ++ 1#1 ++ 0#10) = .ok (.div 4 9 3 true) ∧
    decode .scalar (0b001110#6 ++ 1#5 ++ 2#5 ++ 0#10 ++ 63#6) = .ok (.srai 1 2 63) ∧
    decode .scalar (0b001111#6 ++ 7#5 ++ 0#7 ++ 5#3 ++ 0b10000000000#11) = .ok (.movl 7 5) ∧
    decode .scalar (0b010000#6 ++ 0x3FFFFFF#26) = .ok (.br 0x3FFFFFF) ∧
    decode .scalar (0b010100#6 ++ 1#5 ++ 30#5 ++ 0#16) = .ok (.jr 1 30) ∧
    decode .scalar (0b011011#6 ++ 1#5 ++ 2#5 ++ 0x012#16) = .ok (.csrw 1 2 0x12) ∧
    decode .scalar (0b110010#6 ++ 1#5 ++ 2#5 ++ 0x173#16) = .ok (.sysw 1 2 0x173) ∧
    decode .scalar (0b110100#6 ++ 1#5 ++ 2#5 ++ 0#11 ++ 3#5) = .ok (.ctxsave 1 2 3) ∧
    (decode .scalar (0b000001#6 ++ 5#5 ++ 1#5 ++ 2#5 ++ 0#1 ++ 6#10)).isOk = false := by decide

set_option maxRecDepth 100000 in
/-- R80: major, vd, va, vb, pg, ty, fn. -/
theorem test_decode_vector :
    decode .vector (0b000001#6 ++ 1#4 ++ 2#4 ++ 3#4 ++ 4#5 ++ 2#3 ++ 0#6) = .ok (.vaddI 1 2 3 4 .i32) ∧
    decode .vector (0b000010#6 ++ 1#4 ++ 2#4 ++ 3#4 ++ 4#5 ++ 5#3 ++ 4#6) = .ok (.vmaxF 1 2 3 4 .f16) ∧
    decode .vector (0b000011#6 ++ 1#4 ++ 2#4 ++ 3#4 ++ 4#4 ++ 5#5 ++ 6#3 ++ 1#1 ++ 0#1) = .ok (.vfma 1 2 3 4 5 .f32 true) ∧
    decode .vector (0b001001#6 ++ 7#5 ++ 2#4 ++ 3#4 ++ 4#5 ++ 4#3 ++ 0#3 ++ 0#2) = .ok (.vfcmp 7 2 3 4 .bf16 .eq) ∧
    decode .vector (0b001011#6 ++ 7#5 ++ 2#5 ++ 3#5 ++ 4#5 ++ 5#6) = .ok (.psel 7 2 3 4) ∧
    decode .vector (0b001100#6 ++ 1#4 ++ 3#4 ++ 9#5 ++ 0#5 ++ 2#3 ++ 15#4 ++ 1#1) = .ok (.vins 1 3 9 .i32 15) ∧
    decode .vector (0b001111#6 ++ 1#4 ++ 2#4 ++ 9#5 ++ 4#5 ++ 6#3 ++ 16#5) = .ok (.vaddVsF 1 2 9 4 .f32) ∧
    decode .vector (0b011000#6 ++ 1#4 ++ 0#8 ++ 4#5 ++ 0#3 ++ 11#6) = .ok (.vredCnt 1 4 .i8) ∧
    decode .vector (0b011001#6 ++ 1#4 ++ 2#4 ++ 3#4 ++ 4#5 ++ 3#3 ++ 2#6) = .ok (.vscanMax 1 2 3 4 .i64) ∧
    decode .vector (0b011101#6 ++ 1#4 ++ 2#4 ++ 0#4 ++ 4#5 ++ 0#3 ++ 1#2 ++ 0#4) = .ok (.vnarrow 1 2 0 4 .rne 1 0) ∧
    (decode .vector (0b000001#6 ++ 1#4 ++ 2#4 ++ 3#4 ++ 24#5 ++ 2#3 ++ 0#6)).isOk = false := by decide

set_option maxRecDepth 100000 in
/-- R81: the X slot. -/
theorem test_decode_special :
    decode .xclass (0b000010#6 ++ 1#4 ++ 2#4 ++ 3#4 ++ 4#5 ++ 6#3 ++ 0#6) = .ok (.fdiv 1 2 3 4 .f32) ∧
    decode .xclass (0b001000#6 ++ 1#4 ++ 0#4 ++ 9#5 ++ 4#5 ++ 6#3 ++ 0#2 ++ 1#1 ++ 1#2) = .ok (.qrgen 1 9 4 .f32 true .co) ∧
    decode .xclass (0b001010#6 ++ 9#5 ++ 0#11 ++ 1#5 ++ 30#5) = .ok (.qrsave 9 1 30) ∧
    decode .xclass (0b010000#6 ++ 0#4 ++ 2#4 ++ 0#4 ++ 4#5 ++ 4#3 ++ 0#6) = .ok (.hist 2 4 .bf16) ∧
    (decode .xclass (0b010000#6 ++ 1#4 ++ 2#4 ++ 0#4 ++ 4#5 ++ 4#3 ++ 0#6)).isOk = false := by decide

set_option maxRecDepth 100000 in
/-- R82: loads, stores, atomics, barriers and commands. -/
theorem test_decode_memory :
    decode .memory (0b000111#6 ++ 1#5 ++ 2#5 ++ 0xFFFF#16) = .ok (.ldN8 1 2 0xFFFF) ∧
    decode .memory (0b001000#6 ++ 1#5 ++ 2#5 ++ 3#16) = .ok (.st64 1 2 3) ∧
    decode .memory (0b010001#6 ++ 1#4 ++ 2#5 ++ 3#5 ++ 0x800#12) = .ok (.vst 1 2 3 0x800) ∧
    decode .memory (0b010010#6 ++ 1#4 ++ 2#5 ++ 3#5 ++ 4#5 ++ 2#3 ++ 0#4) = .ok (.vlds 1 2 3 4 .b32) ∧
    decode .memory (0b010111#6 ++ 1#4 ++ 2#5 ++ 3#5 ++ 0#1 ++ 2#3 ++ 127#8) = .ok (.vstd 1 2 3 2 127) ∧
    decode .memory (0b011000#6 ++ 1#5 ++ 2#5 ++ 0#6 ++ 15#4 ++ 63#6) = .ok (.ldblk 1 2 15 63) ∧
    decode .memory (0b011101#6 ++ 1#5 ++ 2#5 ++ 3#5 ++ 4#5 ++ 2#3 ++ 3#2 ++ 1#1) = .ok (.cas 1 2 3 4 .cl .ar true) ∧
    decode .memory (0b011111#6 ++ 1#4 ++ 2#5 ++ 3#4 ++ 4#5 ++ 2#3 ++ 1#1 ++ 0#4) = .ok (.vamo 1 2 3 4 .b32 true .add) ∧
    decode .memory (0b100011#6 ++ 1#5 ++ 2#5 ++ 0#16) = .ok (.barExp 1 2) ∧
    decode .memory (0b110110#6 ++ 1#5 ++ 2#5 ++ 0#5 ++ 1#1 ++ 0#1 ++ 1#1 ++ 3#2 ++ 63#6) = .ok (.a2a 1 2 true false true 3 63) ∧
    decode .memory (0b110111#6 ++ 1#5 ++ 2#5 ++ 0#14 ++ 3#2) = .ok (.gsub 1 2 3) ∧
    (decode .memory (0b010111#6 ++ 1#4 ++ 2#5 ++ 3#5 ++ 0#1 ++ 1#3 ++ 127#8)).isOk = false := by decide

/-! ### One step of an instruction: values from the rules, worked by hand -/

/-- R100: sums are taken modulo 2^64; s0 discards (R74). -/
theorem test_add : postedBy (exec (.add 3 1 2 false) (issuing 0 [(1, 0xFFFFFFFFFFFFFFFF), (2, 2)])) = [(1, .sreg 3 1)] ∧
    postedBy (exec (.add 0 1 2 false) (issuing 0 [(1, 5), (2, 2)])) = [] := by decide +kernel
/-- R101: a rotation to the left by B modulo 64. -/
theorem test_rot : postedBy (exec (.rot 3 1 2 false) (issuing 0 [(1, 0x8000000000000001), (2, 65)])) = [(1, .sreg 3 3)] := by
  decide +kernel
/-- R102: no leading one. -/
theorem test_clz : postedBy (exec (.clz 3 1) (issuing 0 [])) = [(1, .sreg 3 64)] := by decide +kernel
/-- R103: the high half of the product of -1 and -1 is 0, of 2^64 - 1 by itself 2^64 - 2. -/
theorem test_mulh : postedBy (exec (.mulh 3 1 1 false) (issuing 0 [(1, 0xFFFFFFFFFFFFFFFF)])) = [(3, .sreg 3 0)] ∧
    postedBy (exec (.mulhn 3 1 1 false) (issuing 0 [(1, 0xFFFFFFFFFFFFFFFF)])) = [(3, .sreg 3 0xFFFFFFFFFFFFFFFE)] := by
  decide +kernel
/-- R104: truncation toward zero; the least integer by -1; division by zero. -/
theorem test_div :
    postedBy (exec (.div 3 1 2 false) (issuing 0 [(1, 0xFFFFFFFFFFFFFFF9), (2, 2)])) = [(20, .sreg 3 0xFFFFFFFFFFFFFFFD)] ∧
    postedBy (exec (.div 3 1 2 false) (issuing 0 [(1, 0x8000000000000000), (2, 0xFFFFFFFFFFFFFFFF)])) =
      [(20, .sreg 3 0x8000000000000000)] ∧
    postedBy (exec (.divn 3 1 2 false) (issuing 0 [(1, 7)])) = [(20, .sreg 3 0xFFFFFFFFFFFFFFFF)] := by decide +kernel
theorem test_rem : postedBy (exec (.rem 3 1 2 false) (issuing 0 [(1, 0xFFFFFFFFFFFFFFF9), (2, 2)])) = [(20, .sreg 3 0xFFFFFFFFFFFFFFFF)] ∧
    postedBy (exec (.remn 3 1 2 false) (issuing 0 [(1, 7)])) = [(20, .sreg 3 7)] := by decide +kernel
/-- R105: natural and signed order differ on the sign bit. -/
theorem test_scmp : postedBy (exec (.scmp 3 1 2 false .ltn) (issuing 0 [(1, 0xFFFFFFFFFFFFFFFF), (2, 1)])) = [(1, .sreg 3 0)] ∧
    postedBy (exec (.scmp 3 1 2 false .lt) (issuing 0 [(1, 0xFFFFFFFFFFFFFFFF), (2, 1)])) = [(1, .sreg 3 1)] := by decide +kernel
/-- R107: the immediate is sign-extended. -/
theorem test_addi : postedBy (exec (.addi 3 1 0xFFFF) (issuing 0 [(1, 5)])) = [(1, .sreg 3 4)] := by decide +kernel

/-- Lane i of width w of the vector result that a meaning posted first. -/
def lanePosted (w : Nat) (r : Res) (i : Nat) : Nat :=
  match postedBy r with
  | (_, .vec _ x _) :: _ => laneN w x i
  | _ => 0

/-- A machine that issues from slot V0 with group A vector registers set. -/
def vissuing (vs : List (Nat × VReg)) (rs : List (Nat × Word)) : State :=
  { State.reset with
    ctxs := [(0, { Ctx.idle with
      status := .current
      vis := { visWith rs with vec := vs.foldl (fun v r => v.setIfInBounds r.1 r.2) Vis.launch.vec } })]
    iss := { Issue.none with slot := 2 } }

/-- R140: the lane's low half, and the clamp with its flag. -/
theorem test_vadd : lanePosted 8 (exec (.vaddI 3 1 2 0 .i8) (vissuing [(1, 0xFFFF), (2, 0x0202)] [])) 1 = 1 ∧
    lanePosted 8 (exec (.vadds 3 1 2 0 .i8) (vissuing [(1, 0x7F), (2, 2)] [])) 0 = 0x7F ∧
    (postedBy (exec (.vadds 3 1 2 0 .i8) (vissuing [(1, 0x7F), (2, 2)] []))).drop 1 = [(2, .flags 32)] := by decide +kernel
/-- R142: 1.5 + 2.25 = 3.75 in f32, exactly; 1 + 2^-24 is a tie, rounded to 1, inexact. -/
theorem test_vadd_float : lanePosted 32 (exec (.vaddF 3 1 2 0 .f32) (vissuing [(1, 0x3FC00000), (2, 0x40100000)] [])) 0 = 0x40700000 ∧
    lanePosted 32 (exec (.vaddF 3 1 2 0 .f32) (vissuing [(1, 0x3F800000), (2, 0x33800000)] [])) 0 = 0x3F800000 ∧
    (postedBy (exec (.vaddF 3 1 2 0 .f32) (vissuing [(1, 0x3F800000), (2, 0x33800000)] []))).drop 1 = [(4, .flags 16)] := by
  decide +kernel
/-- R155: lane 0 of a rotation by 65 of 64 lanes is lane 1. -/
theorem test_vrot : lanePosted 32 (exec (.vrot 3 1 2 0 .i32) (vissuing [(1, 0x700000005)] [(2, 65)])) 0 = 7 := by decide +kernel
/-- R163: f32 -2.5 to i32 in RNE is -2, inexact. -/
theorem test_vcvt : lanePosted 32 (exec (.vcvt 3 1 0 0 .rne 0x10) (vissuing [(1, 0xC0200000)] [])) 0 = 0xFFFFFFFE ∧
    (postedBy (exec (.vcvt 3 1 0 0 .rne 0x10) (vissuing [(1, 0xC0200000)] []))).drop 1 = [(4, .flags 16)] := by decide +kernel

/-- R170 and R171: the reciprocal of 2 is 0.5 exactly; of 0 it is an infinity with DZ. -/
theorem test_frcp :
    lanePosted 32 (exec (.frcp 3 1 0 .f32) { vissuing [(33, 0x40000000)] [] with iss := { Issue.none with slot := 5 } }) 0 = 0x3F000000 ∧
    lanePosted 32 (exec (.frcp 3 1 0 .f32) { vissuing [] [] with iss := { Issue.none with slot := 5 } }) 0 = 0x7F800000 := by
  decide +kernel

/-- R115: a return to an address that is not 32-byte aligned raises kind 0x03. -/
theorem test_ret : (match exec (.ret 1) (issuing 0 [(1, 33)]) with
    | .next t => decide (t.iss.sig = .trap { kind := 0x03, pc := 0, faddr := 33, slot := 0 })
    | _ => false) = true := by decide +kernel
/-- R108 and R75: a literal of 29 bits is sign-extended. -/
theorem test_movl : postedBy (exec (.movl 3 0) { issuing 0 [] with iss := { Issue.none with words := [0xFFFFFFFE] } }) =
    [(1, .sreg 3 0xFFFFFFFFFFFFFFFE)] := by decide +kernel

/-! ### Witnesses: for each statement with hypotheses, states and operands that meet them together -/

/-- A row of a table of forms meets the statement's membership hypothesis: the first row does, whatever the operands are. -/
theorem witness_table_row {α : Type} (x : α) (rows : List α) : x ∈ x :: rows := List.Mem.head _

theorem witness_ScalarArithmeticAndLogicResults :
    srcOk 31 false = true ∧ srcOk 7 true = true ∧ slotClass 1 = .scalar ∧
    (0x04000006#32).extractLsb' 26 6 = 1 ∧ 5 < ((0x04000006#32).extractLsb' 0 10).toNat ∧
    (0x08000008#32).extractLsb' 26 6 = 2 ∧ 7 < ((0x08000008#32).extractLsb' 0 10).toNat := by decide

theorem witness_ScalarCompareAndSelect :
    (SCc.eq, decide ((5 : Word) = 5)) ∈ [(SCc.eq, decide ((5 : Word) = 5)), (.ne, decide ((5 : Word) ≠ 5))] ∧
    srcOk 31 false = true ∧ srcOk 7 true = true ∧
    (0x1800000A#32).extractLsb' 26 6 = 6 ∧ 9 < ((0x1800000A#32).extractLsb' 0 10).toNat ∧
    (0x1C000020#32).extractLsb' 26 6 = 7 ∧ (0x1C000020#32).extractLsb' 5 5 ≠ 0 := by decide

/-- Operands for each column of the division table, and the two forms of `movl`. -/
theorem witness_ScalarUnaryMultiplyDivideAndImmediateResults :
    (let s := issuing 0 [(1, 0x8000000000000000), (2, 0xFFFFFFFFFFFFFFFF), (3, 7)]
     s.opB 0 false = 0 ∧ s.opB 3 false ≠ 0 ∧ 0 ≤ (s.rs 3).toInt ∧ (s.rs 1).toInt < 0 ∧ s.rs 1 = BitVec.intMin 64 ∧ s.opB 2 false = -1) ∧
    (let s := { issuing 0 [] with iss := { Issue.none with words := [0xE0000001, 0xFFFFFFFF, 0, 0, 0, 0, 0, 0xE0000007] } }
     s.iss.words.getD 0 0 = 7#3 ++ 1#29 ∧ s.iss.words.getD 1 0 = 7#3 ++ 0x1FFFFFFF#29 ∧
     (s.iss.words.getD 2 0).extractLsb' 29 3 ≠ 7#3 ∧ s.iss.words.getD 7 0 = 7#3 ++ 7#29) := by decide +kernel

/-- For the statements over tables of vector forms (VectorIntegerLaneResults to VectorReductionAndScanResults): operands at an
active lane, with the sign bit set, with a shift of the full width, and an element index on the bound. -/
theorem witness_VectorForms :
    (let s := vissuing [(1, 0x80), (2, 0xFF)] [(4, 8)]
     active 8 (s.rp 0) 255 = true ∧ laneI 8 (s.rv 1) 0 = -128 ∧ laneN 8 (s.rv 2) 0 = 255 ∧ (s.rs 4).toNat = 8 ∧
     (3 * 16 + 15 < 2048 / 32) ∧ ¬(4 * 16 + 0 < 2048 / 32)) := by decide +kernel

/-- A part of `vnarrow` at the top of the register: ratio 2, the second half. -/
theorem witness_ConversionResults :
    (let c := narrowPair 0
     (1 + 1) * (2048 / c.1.width) * c.2.width ≤ 2048) ∧ 1 < pairRatio 0 := by decide +kernel

/-- A member, not the lead, of a consist whose lead has taken a transfer. -/
def following : State :=
  { State.reset with
    ctxs := [(0, { Ctx.idle with status := .current, cons := some 7 }), (1, { Ctx.idle with status := .current, cons := some 7, cpos := 1 })]
    consists := [{ id := 7, launch := 0, members := [0, 1], skew := 0, beats := 0, hold := none, log := [1] }]
    iss := { Issue.none with ctx := 1 } }

theorem witness_ControlTransfers :
    (let s := issuing 0 [(1, 0x20), (2, 0x21), (3, 0x100000000000000), (4, 0xFFFFFFFFFFFFE0)]
     s.cur.cons = none ∧
     ((s.rs 1).toNat / 2 ^ 56 = 0 ∧ (s.rs 1).toNat % 32 = 0) ∧ ((s.rs 4).toNat / 2 ^ 56 = 0 ∧ (s.rs 4).toNat % 32 = 0) ∧
     ¬((s.rs 2).toNat / 2 ^ 56 = 0 ∧ (s.rs 2).toNat % 32 = 0) ∧ ¬((s.rs 3).toNat / 2 ^ 56 = 0 ∧ (s.rs 3).toNat % 32 = 0)) ∧
    following.cur.cons = some 7 ∧ following.cur.cpos ≠ 0 ∧ (following.consists.find? (·.id = 7)).isSome = true ∧
    (∃ x, following.consists.find? (·.id = 7) = some x ∧ x.log[following.cur.cfCount]? = some (1 : Word)) ∧
    (if bccHolds .ne (following.rs 0) then 1 else 0 : Word) ≠ 1 ∧ following.rs 0 ≠ 1 :=
  ⟨by decide +kernel, by decide, by decide, by decide, ⟨_, rfl, rfl⟩, by decide +kernel, by decide +kernel⟩

/-- A machine whose bundle stands at pc with these loop entries. -/
def looping (pc : Word) (ls : List LoopEntry) (steps : List (BitVec 5 × Word)) (rs : List (Nat × Word)) : State :=
  let s := { issuing 0 rs with iss := { Issue.none with pc := pc } }
  s.modCur fun c => { c with vis := { c.vis with loops := ls, steps := steps } }

/-- Inside a body, at its end with one pass and with none left, and a transfer that leaves it. -/
theorem witness_LoopBackRule :
    (let e : LoopEntry := ⟨0x40, 0x80, 2, [(3, 5)]⟩
     (looping 0x60 [e] [] []).iss.xfer = none ∧ e.fin ≠ 0x60 ∧ (looping 0x80 [e] [] []).cur.vis.loops = [e] ∧ e.fin = 0x80 ∧
     1 < e.remaining.toNat ∧ ({ e with remaining := 1 } : LoopEntry).remaining.toNat ≤ 1 ∧
     e.holds 0x80 = true ∧ e.holds 0xA0 = false ∧
     ({ looping 0x80 [e] [] [] with iss := { (looping 0x80 [e] [] []).iss with xfer := some ⟨0xA0, true⟩ } } : State).iss.xfer = some ⟨0xA0, true⟩) := by
  decide +kernel

/-- The limits of four steps and four entries, a body beyond the enclosing one; a card kept, kept with a fault, not yet
there; the last card taken, alone and beside a member that has more. -/
theorem witness_LoopYieldTrapAndCardInstructions :
    (let e : LoopEntry := ⟨0x40, 0x80, 2, []⟩
     let st : List (BitVec 5 × Word) := [(1, 1), (2, 2), (3, 3)]
     (looping 0 [] st []).cur.cons = none ∧ st.length < 4 ∧ 4 ≤ ((4, 4) :: st).length ∧
     (e.start.toNat ≤ 0x60 ∧ 0x60 ≤ e.fin.toNat ∧ e.fin.toNat < 0x60 + 32 * 2) ∧
     ¬(e.fin.toNat < 0x60 + 32 * 1) ∧ (looping 0x60 [e] [] []).rs 1 = 0 ∧ (looping 0x60 [e] [] [(1, 3)]).rs 1 ≠ 0 ∧
     4 ≤ [e, e, e, e].length ∧ [e, e, e].length < 4) ∧
    (let card : Card := { pos := 0, gidx := 5, words := [1, 2, 3, 4, 5, 6, 7, 8], bad := none }
     let s := fun (owned : Nat) (cards : List Card) => (issuing 0 []).modCur fun c => { c with owned := owned, cards := cards }
     (s 1 [card]).cur.vis.taken < (s 1 [card]).cur.owned ∧ (s 1 [card]).cur.cards.find? (·.pos = 0) = some card ∧
     (s 1 [{ card with bad := some { kind := 5, pc := 0 } }]).cur.cards.find? (·.pos = 0) ≠ none ∧
     (s 1 []).cur.cards.find? (·.pos = 0) = none ∧ (s 0 []).cur.owned ≤ (s 0 []).cur.vis.taken ∧
     (∀ p ∈ (s 0 []).peers 0, ((s 0 []).ctx p).owned ≤ 0)) ∧
    (let s := following.modCtx 0 fun c => { c with owned := 1 }
     s.cur.owned ≤ s.cur.vis.taken ∧ ∃ p ∈ s.peers s.iss.ctx, s.cur.vis.taken < (s.ctx p).owned) := by decide +kernel

theorem witness_StatusRegisters :
    (let s := issuing 0 []
     let t := s.modCur fun c => { c with startCycle := some 0 }
     s.detOf s.iss.ctx = false ∧ t.detOf t.iss.ctx = false ∧ t.cur.startCycle = some 0 ∧
     s.iss.ctx < 8192 ∧ s.cur.l < 16 ∧ s.cur.g < 384 ∧ s.luvex.pos < 4096 ∧
     (8 < (9#16).toNat ∧ (15#16).toNat < 16 ∧ 18 < (19#16).toNat) ∧ (4#64).toNat % 8 ≤ 4 ∧ 4 < (5#64).toNat % 8 ∧
     (5 : BitVec 16) ∉ [(0x000 : BitVec 16), 0x001, 0x002, 0x003, 0x004, 0x007, 0x008]) := by decide +kernel

/-- A context of a launch in deterministic mode. -/
def detLaunch : Launch :=
  { id := 0, qid := 0, idx := 0, pri := 0, part := 0, exec := false, lseq := 0, save := 0,
    pkt := { kimg := 0, cbase := 0, n := 1, asid := 0, pol := false, det := true, movl := false, fuse := false, skew := 0, cw := 0, cword := 0x1000,
             regbase := 0, regcnt := 0, skimg := 0, wtab := 0, tagbase := 0, rdlo := 0, rdhi := 0, wdog := 0, gid := 0, gn := 0, glim := 0,
             gtab := 0, pmask := 0 },
    c := 1, m := 1, entry := 0, clus := [0], registry := [], st := .running, start := 0, contrib := [], ready := [], gate := none, tgo := none,
    gmem := [], kept := [], keptCl := [] }

def deterministic : State :=
  { issuing 6 [] with
    launches := [detLaunch]
    ctxs := [(0, { Ctx.idle with status := .current, launch := some 0, startCycle := some 0 })]
    clusters := [(0, { Cluster.reset with launch := some 0 })] }

theorem witness_deterministic : deterministic.detOf deterministic.iss.ctx = true := by decide +kernel

/-- A withheld store: to a page that is not translated while the buffer waits, and to the scratchpad. -/
def storing (ea : Nat) (held : Bool) : State :=
  let s := { issuing 0 [] with iss := { Issue.none with held := held } }
  s.modCur fun c => { c with wb := [{ pc := 0, slot := 6, k := .store [(ea, 7)] 0 0, ord := 0 }] }

theorem witness_CheckpointsReleasesAndHalt :
    (issuing 0 []).cur.wb = [] ∧
    (let s := storing 0x1000 false
     s.iss.held = false ∧ s.walksNeeded s.cur.wb ≠ []) ∧
    (let s := storing 0x1000 true
     s.iss.held = true ∧ (s.releaseFault s.cur.wb).isSome = true) ∧
    (let s := storing 0x100000000000040 false
     s.walksNeeded s.cur.wb = [] ∧ s.releaseFault s.cur.wb = none) := by decide +kernel

/-- Page tables of address space 0 with one small page at 0x4000, of the given leaf. -/
def tables (leaf : Nat) : List Host.Cell :=
  let w := fun a x m => memPut m (runAt a (leBytes 8 x))
  w 0x100000 0x200001 <| w 0x200000 0x201001 <| w 0x201000 0x202001 <| w 0x202000 0x203001 <| w 0x203020 leaf []

/-- A page at virtual and module address 0x4000, readable, writable and SYNC or not, that context 0 may access; its first line
is in L1. -/
def mapped (sync : Bool) (slot : Nat) (rs : List (Nat × Word)) : State :=
  { issuing slot rs with
    tlb := [{ asid := 0, va := 0x4000, size := 4096, frame := 0x4000, leaf := if sync then 0x404D else 0x400D }]
    mem := tables (if sync then 0x404D else 0x400D)
    sys := { Sys.reset with asidEn := true, asidBase := 0x100000 }
    access := [(0, [{ r := true, w := true, exo := false, master := 0, base := 0, limit := 0x1000 }])]
    pop := [0x1000000]
    cores := [(0, { Core.reset with lines := [0x100] })] }

/-- A context with window 0 open to its own cluster and these granules in its remote buffer; s1 names byte 0x40 behind it. -/
def windowed (remote : List Nat) : State :=
  (issuing 6 [(1, 0x2000000000000040)]).modCur fun c => { c with win := c.win.set 0 (BitVec.ofNat 64 (1 + 2 ^ 33)), remote := remote }

/-- The top of the scratchpad, a misaligned address, a granule behind a window, there and not, a SYNC line in L1, an RD byte whose tag is READN, and the two homes of
a byte. -/
theorem witness_ScalarLoads :
    (let s := issuing 6 [(1, 0x1000000007FFFF8)]
     s.loadsLocal 8 (s.rs 1 + BitVec.ofInt 64 ((0 : BitVec 16).toInt * 8)) 0x7FFFF8) ∧
    (let s := issuing 6 [(1, 0x100000000000001)]
     (s.rs 1 + BitVec.ofInt 64 ((0 : BitVec 16).toInt * 8)).toNat % 8 ≠ 0) ∧
    (let s := mapped true 6 [(1, 0x4038)]
     s.loadsGlobal 8 (s.rs 1) 0x4038 { asid := 0, va := 0x4000, size := 4096, frame := 0x4000, leaf := 0x404D }) ∧
    (let s := { mapped false 6 [(1, 0x4000)] with
       tags := [((1, 0x100), { st := .readN, id := none, ph := 0 })]
       launches := [{ detLaunch with pkt := { detLaunch.pkt with det := false, rdlo := 0x4000, rdhi := 0x5000 } }]
       ctxs := [(0, { Ctx.idle with status := .current, launch := some 0, vis := visWith [(1, 0x4000)] })] }
     s.loadsGlobal 8 (s.rs 1) 0x4000 { asid := 0, va := 0x4000, size := 4096, frame := 0x4000, leaf := 0x400D }) ∧
    (let s := mapped true 6 []
     s.keyAt 0 0x4008 = some 0x4008 ∧ s.keyAt 0 0x0100000000000008 = some (spKey 0 8) ∧
     spaceOf 0x0100000000000008 = .localSp 8 ∧ spaceOf 0x4008 = .global 0x4008 ∧
     ([(spKey 0 8, 1), (spKey 0 8, 2)] : List (Nat × Byte)) = [(spKey 0 8, 1)] ++ (spKey 0 8, 2) :: [] ∧
     (∀ t, targetOf 0x4008 = some t → t < 26)) ∧
    (let s := windowed []
     spaceOf (s.rs 1) = .window 0 0x40 ∧ (s.rs 1).toNat % 8 = 0 ∧ (s.win s.iss.ctx 0).valid = true ∧ s.iss.held = false ∧ 1 ∉ s.cur.remote) ∧
    (windowed [1]).loadsWindow 8 ((windowed [1]).rs 1 + BitVec.ofInt 64 ((0 : BitVec 16).toInt * 8)) 0 0x40 := by
  and_intros <;> decide +kernel

/-- A machine whose p1 is empty and whose p2 holds lane 0 alone, with s1 and s2 scratchpad addresses. -/
def predicatedOn (s : State) : State := s.modCur fun c => { c with vis := { c.vis with pred := (c.vis.pred.set 1 0).set 2 1 } }

def predicated : State := predicatedOn (issuing 6 [(1, 0x100000000000100), (2, 0x100000000000040)])

theorem witness_VectorAndDescribedLoads :
    activeLanes 8 (predicated.rp 1) = [] ∧
    predicated.nameable {} 64 (predicated.rs 1 + BitVec.ofInt 64 ((0 : BitVec 12).toInt * 256)) = true ∧
    (∀ k ∈ activeLanes 8 (predicated.rp 2), ∃ a, predicated.loadsLocal 1 (predicated.rs 1 + BitVec.ofNat 64 k) a) ∧
    predicated.loadsLocal 64 (predicated.rs 2 + BitVec.ofInt 64 ((0 : BitVec 12).toInt * 64)) 64 ∧
    (let s := predicatedOn (mapped true 6 [(1, 0x4000)])
     let e : Tlb := { asid := 0, va := 0x4000, size := 4096, frame := 0x4000, leaf := 0x404D }
     activeLanes 8 (s.rp 2) = [0] ∧ s.nameable {} 64 (s.rs 1 + BitVec.ofInt 64 ((0 : BitVec 12).toInt * 256)) = true ∧
     s.loadsGlobal 1 (s.rs 1 + BitVec.ofInt 64 ((0 : BitVec 12).toInt * 256) + BitVec.ofNat 64 0) 0x4000 e ∧
     s.loadsGlobal 64 (s.rs 1 + BitVec.ofInt 64 ((0 : BitVec 12).toInt * 64)) 0x4000 e) := by
  refine ⟨by decide +kernel, by decide +kernel, ?_, ?_, ?_⟩
  · have e : activeLanes 8 (predicated.rp 2) = [0] := by decide +kernel
    rw [e]
    intro k hk
    rw [List.mem_singleton.mp hk]
    refine ⟨0x100, ?_⟩
    decide +kernel
  · decide +kernel
  · decide +kernel

/-- A store at the top of the scratchpad, one to an untranslated global address, and a described store. -/
theorem witness_StoresAreWithheldUntilRelease :
    (let s := issuing 6 [(1, 0x1000000007FFFF8), (2, 0x4000)]
     s.storable {} 8 8 (s.rs 1) ∧ s.storable {} 8 8 (s.rs 2) ∧ s.storable { win := false } 64 64 (s.rs 2) ∧
     s.nameable {} 64 (s.rs 2) = true ∧ s.iss.sig = .ok) := by
  decide +kernel

/-- A declared platform 0 of 64-byte halves at the foot of cluster 0's scratchpad, free. -/
def platformed (p : Platform) (s : State) : State :=
  { s with clusters := [(0, { Cluster.reset with
      regions := [{ kind := .plat 0, base := 0, size := 128 }]
      plats := Cluster.reset.plats.set 0 p
      prev := Cluster.reset.prev.set 0 p })] }

def declared : Platform := { Platform.none with decl := true, half := 64 }

theorem witness_AccessesThatTrapOrWait :
    (let s := issuing 6 [(1, 0x4000)]
     (s.rs 1).toNat % 8 = 0 ∧ s.accumulates 0 (s.rs 1) 8 = false ∧ s.loadFenced 0 = false ∧ spaceOf (s.rs 1) = .global (s.rs 1).toNat ∧
     s.translate (s.who 0) 0x4000 .r = .fault 6 3) ∧
    (let s := { mapped true 6 [(1, 0x4000)] with access := [], tlb := [] }
     s.translate (s.who 0) 0x4000 .r = .denied) ∧
    (let s := mapped true 6 [(1, 0x4040)]
     s.translate (s.who 0) 0x4040 .r = .ok 0x4040 { asid := 0, va := 0x4000, size := 4096, frame := 0x4000, leaf := 0x404D } ∧
     s.iss.held = false ∧ s.inL1 0 (0x4040 / 64) = false) ∧
    (let s := platformed declared (issuing 6 [(1, 0x100000000000000)])
     spaceOf (s.rs 1) = .localSp 0 ∧ s.iss.stall = false ∧ s.poisoned (spKey 0 0) 64 = none ∧ s.platAt 0 0 = some 0 ∧
     (s.platNow 0 0).published 0 = false ∧ s.loadFenced 0 = false ∧ s.windowFull (s.rs 1) = false ∧ s.nameable {} 4 (s.rs 1) = true ∧
     (∀ i, i < 4 → s.guarded 0 (s.rs 1 + BitVec.ofNat 64 i) = false)) ∧
    (let s := { issuing 6 [(1, 0x100000000000000)] with tags := [((0, spKey 0 0 / 64), { st := .written, id := some (.ctx 0 1), ph := 0 })] }
     s.platAt 0 0 = none ∧ s.syncAt 0 0 = false ∧ (s.conflict (s.party 0) .load [s.spGran 0 0]).isSome = true) ∧
    (let s := (issuing 6 [(1, 0x2000000000000000), (2, 0x100000000000002)]).modCur fun c => { c with
       win := c.win.set 0 (BitVec.ofNat 64 (1 + 2 ^ 33))
       winq := [{ win := 0, bytes := [], tag := 0, pc := 0, slot := 6, st := 0, batch := 0, ord := 0, dead := [] }] }
     s.windowFull (s.rs 1) = true ∧ s.windowFull (s.rs 2) = false ∧ s.nameable {} 4 (s.rs 2) = false) ∧
    (let o : MxOp := { id := 0, ctx := 0, seq := 0, sparse := false, z := true, acc := 0, abase := 0, bbase := 0x1000, astr := 64, bstr := 64, k := 64,
                       desc := false, aty := 0, bty := 0, rho := 64, plats := (0, 0, 0), pc := 0, slot := 0, ord := 0, release := some 0,
                       start := some 0, fed := false, result := none, flags := 0, fault := none }
     let s := { issuing 6 [(1, 0x100000000000000)] with cores := [(0, { Core.reset with mx := [o] })] }
     s.guarded 0 (s.rs 1 + BitVec.ofNat 64 3) = true) := by
  and_intros <;> decide +kernel

/-- A relaxed 64-bit atomic at the top of the scratchpad, and a vector atomic with lane 0 active; no fence before it waits. -/
theorem witness_AtomicsEnterTheReleaseOfTheirBundle :
    (let s := issuing 6 [(1, 0x1000000007FFFF8), (2, 0x100000000000010)]
     s.detOf s.iss.ctx = false ∧ s.atomFenced s.iss.ctx true = false ∧ s.atomFenced s.iss.ctx false = false ∧ s.corr = [] ∧ predicated.corr = [] ∧
     predicated.atomFenced predicated.iss.ctx false = false ∧ spaceOf (s.rs 1) = .localSp 0x7FFFF8 ∧ (s.rs 1).toNat % 8 = 0 ∧ s.storeTrap 2 8 (s.rs 1) = none ∧
     s.poisoned (spKey (clOf s.iss.ctx) (0x7FFFF8 / 64 * 64)) 64 = none ∧ spaceOf (s.rs 2) = .localSp 16 ∧ (s.rs 2).toNat % 16 = 0) ∧
    (∀ k ∈ activeLanes 32 (predicated.rp 2), spaceOf (predicated.rs 1 + BitVec.ofInt 64 ((laneN 32 (predicated.rv 3) k : Int) * 4)) = .localSp 0x100 ∧
      (predicated.rs 1 + BitVec.ofInt 64 ((laneN 32 (predicated.rv 3) k : Int) * 4)).toNat % 4 = 0 ∧
      predicated.storeTrap 2 4 (predicated.rs 1 + BitVec.ofInt 64 ((laneN 32 (predicated.rv 3) k : Int) * 4)) = none ∧
      predicated.poisoned (spKey 0 0x100) 64 = none) := by decide +kernel

/-- A block's tag free, filling and complete; a line locked, the quota used up, an absent line, a line in L1. -/
theorem witness_LoadBlocksAndLocks :
    (let s := issuing 6 [(1, 0x100000000000000), (2, 0x4000)]
     let t := s.modCur fun c => { c with blocks := [{ tag := 3, want := [0x4000], lines := [], bad := [], decl := 0 }] }
     s.detOf s.iss.ctx = false ∧ s.nameable { loc := false, win := false } 64 (s.rs 1) = false ∧
     s.nameable { loc := false, win := false } 64 (s.rs 2) = true ∧ (∃ b ∈ t.cur.blocks, b.tag = (3 : BitVec 4).toNat) ∧
     (∀ b ∈ s.cur.blocks, ¬b.tag = (3 : BitVec 4).toNat) ∧ (t.cur.blocks.find? (·.tag = (3 : BitVec 4).toNat)).isSome = true) ∧
    (let s := mapped true 6 [(1, 0x4000), (2, 0x4040)]
     let e : Tlb := { asid := 0, va := 0x4000, size := 4096, frame := 0x4000, leaf := 0x404D }
     let lk := fun (n : Nat) => s.modVis fun v => { v with locks := List.replicate n 0x100 }
     spaceOf (s.rs 1) = .global (s.rs 1).toNat ∧ (s.rs 1).toNat % 64 = 0 ∧ s.translate (s.who 0) (s.rs 1).toNat .r = .ok 0x4000 e ∧
     s.translate (s.who 0) (s.rs 2).toNat .r = .ok 0x4040 e ∧ 0x4000 / 64 ∈ (lk 1).cur.vis.locks ∧
     0x4040 / 64 ∉ (lk 64).cur.vis.locks ∧ (s.cluster 0).lockq ≤ (lk 64).cur.vis.locks.length ∧
     s.cur.vis.locks.length < (s.cluster 0).lockq ∧ s.iss.held = false ∧ s.inL1 0 (0x4040 / 64) = false ∧ s.inL1 0 (0x4000 / 64) = true) := by
  decide +kernel

/-- An aligned local object in the phase waited for and past it, a bound that is reached, another address; the barrier unit
with room for an arrival, at the last one, and beyond. -/
theorem witness_BarrierInstructionsAndUnit :
    (let s := issuing 6 [(1, 0x100000000000010), (2, 5), (3, 0x100000000000008)]
     s.detOf s.iss.ctx = false ∧ ((s.rs 1).toNat % 16 = 0 ∧ spaceOf (s.rs 1) = .localSp 16) ∧
     memNat s.memPrev (spKey 0 16) 8 / 2 ^ 48 % 16 = (0 : BitVec 4).toNat ∧ memNat s.memPrev (spKey 0 16) 8 / 2 ^ 48 % 16 ≠ (1 : BitVec 4).toNat ∧
     ¬(s.rs 2).toNat ≤ s.now - s.cur.wait.getD s.now ∧ (s.rs 4).toNat ≤ s.now - s.cur.wait.getD s.now ∧ s.iss.held = false ∧
     ¬(s.rs 3).toNat % 16 = 0) ∧
    (let s := { issuing 6 [] with mem := memPut [] (runAt (spKey 0 16) (leBytes 8 (2 * 2 ^ 16 + 1))) }
     let w := memNat s.mem (spKey 0 16) 8
     let r : BarReq := { at_ := 0, addr := 16, op := .arrive 2, ctx := 0, l := 0, pc := 0, slot := 6 }
     Memory.wf s.mem = true ∧ (∀ g ∈ (s.cluster 0).famo, barObj g.bar ≠ 16) ∧ r.op = .arrive 2 ∧
     w / 2 ^ 16 % 2 ^ 16 < 3 ∧ 1 < w / 2 ^ 16 % 2 ^ 16 ∧ 2 = w / 2 ^ 16 % 2 ^ 16 ∧ w / 2 ^ 32 % 2 ^ 16 = 0 ∧
     w / 2 ^ 32 % 2 ^ 16 + 65535 ≤ 65535 ∧ 65535 < w / 2 ^ 32 % 2 ^ 16 + 65536) ∧
    (let w := 2 ^ 32
     0 < w / 2 ^ 32 % 2 ^ 16 ∧ ¬(1 < w / 2 ^ 32 % 2 ^ 16) ∧ 1 < (w + 2 ^ 32) / 2 ^ 32 % 2 ^ 16) ∧
    (∀ bs, BarOp.arrive 2 ≠ .store bs) := by
  refine ⟨by decide +kernel, by decide +kernel, by decide, by intro bs; nofun⟩

/-- A command of context 0, released, whose work has not ended. -/
def command (k : CmdK) (kind : BitVec 8) : Cmd :=
  { id := 5, ctx := 0, k := k, seq := 0, cls := 0, pn := some 0, bar := none, asid := 0, part := 0, exec := false, pc := 0, slot := 6,
    release := some 0, deadline := 2000, ended := false, record := { seq := 0, kind := kind }, out := [], past := [], snap := none }

theorem witness_EventQueueAndEngineRegisters :
    (let s := issuing 6 []
     let t := s.modCur fun c => { c with evq := [{ seq := 1, kind := 3 }] }
     s.detOf s.iss.ctx = false ∧ s.cur.evq = [] ∧ t.detOf t.iss.ctx = false ∧ t.cur.evq = { seq := 1, kind := 3 } :: []) ∧
    (let r : Record := { seq := 1, kind := 3, key := 4 }
     let late : Record := { seq := 2, kind := 3, key := 5 }
     let s := fun (cs : List Cmd) (q : List Record) => { deterministic with cmds := cs }.modCur fun c => { c with evq := q }
     (s [] []).detOf (s [] []).iss.ctx = true ∧ (s [] []).cur.evq = [] ∧ (s [] []).awaited 0 = [] ∧ (s [] []).iss.held = false ∧
     5 ∈ (s [command (.rcancel 0) 6] []).awaited 0 ∧ (∀ k ∈ (s [command (.rcancel 0) 6] [r]).awaited 0, r.key < k) ∧
     5 ∈ (s [command (.rcancel 0) 6] [late]).awaited 0 ∧ (∀ q ∈ [late], 5 ≤ q.key) ∧
     (∀ q ∈ (s [] [late, r]).cur.evq, q = r ∨ r.key < q.key) ∧ r ∈ (s [] [late, r]).cur.evq ∧ (∀ k ∈ (s [] [late, r]).awaited 0, r.key < k) ∧
     r.status ∉ [0x22, 0x23, 0x26, 0x29] ∧ { r with status := 0x29 }.status ∈ [(0x22 : BitVec 8), 0x23, 0x26, 0x29]) ∧
    (0x1010 : BitVec 16) ∉ [(0x0000 : BitVec 16), 0x1000, 0x1001, 0x1002, 0x1003, 0x1004, 0x2000, 0x2001, 0x2002, 0x2003] := by decide +kernel

/-- A full and an empty record queue, a closed batch, an undeclared platform and one in each state. -/
theorem witness_BatchesAndPlatforms :
    (let s := issuing 6 [(1, 5)]
     let t := s.modCur fun c => { c with
       evq := List.replicate 64 { seq := 0, kind := 1 }
       batches := [{ id := 0, tag := 2, closed := true, touched := [], waiting := [0], errs := 0, key := 0 }] }
     s.iss.held = false ∧ t.freeSlots 0 = 0 ∧ s.freeSlots 0 ≠ 0 ∧ s.closesHere 2 = false ∧ s.cur.batches = [] ∧ s.closingNow 0 2 = false ∧
     ({ s with l2q := [{ ctx := 0, at_ := 0, entry := { pc := 0, slot := 6, k := .bclose 2 0, ord := 0 } }] } : State).closingNow 0 2 = true ∧
     (∃ x ∈ t.cur.batches, x.tag = 2 ∧ x.closed = true) ∧ t.boundReached (t.rs 1) = false ∧ s.boundReached (s.rs 0) = true ∧
     ((s.cluster 0).prev.getD 0 Platform.none).decl = false ∧ (s.plat 0 0).decl = false ∧ s.detOf 0 = false ∧
     deterministic.detOf 0 = true ∧ deterministic.iss.held = false) ∧
    (let s := fun (x : PlatSt) => platformed { declared with st := x } (issuing 6 [(1, 5)])
     let was := fun x => ((s x).cluster 0).prev.getD 0 Platform.none
     (was .full).decl = true ∧ ((was .full).st = .full) ∧ ((was .free).st = .free ∧ (was .free).resv = none) ∧
     ¬((was .filling).st = .full ∨ (was .filling).st = .draining) ∧ (s .filling).boundReached ((s .filling).rs 1) = false ∧
     ((s .filling).plat 0 0).st = .filling ∧ ((s .full).plat 0 0).st ≠ .filling ∧ ((s .full).plat 0 0).holds = []) ∧
    (let p := fun x h => ({ declared with st := x, held := h } : Platform)
     (p .full false).st ≠ .draining ∧ (p .draining true).st = .draining ∧ (p .draining true).held = true ∧ (p .draining false).held = false ∧
     (p .free false).st = .free) := by decide +kernel

/-- A leaf that stands at an address, with a value and a page size. -/
def leafIs (r : Except (BitVec 8) (Nat × Nat × Nat)) (at_ leaf n : Nat) : Bool :=
  match r with
  | .ok x => decide (x = (at_, leaf, n))
  | .error _ => false

theorem leafIs_ok {r : Except (BitVec 8) (Nat × Nat × Nat)} {at_ leaf n : Nat} (h : leafIs r at_ leaf n = true) : r = .ok (at_, leaf, n) := by
  cases r with
  | ok x => exact congrArg Except.ok (of_decide_eq_true h)
  | error _ => cases h

/-- A template of one row of 64 bytes from scratchpad byte 0x1000 to platform 0; a page's leaf below four tables. -/
theorem witness_CopyInvalidationAndMigrationCommands :
    (let t0 : BitVec 256 := BitVec.ofNat 256 (0x100000000001000 + 2 ^ 96 + 64 * 2 ^ 128)
     let s0 := platformed declared (issuing 6 [(1, 0x4000000000000000)])
     let s := { s0 with clusters := s0.clusters.map fun (p : Nat × Cluster) => (p.1, { p.2 with tmpl := p.2.tmpl.set 0 t0 }) }
     let raw := (s.cluster 0).tmpl.getD 0 0
     let t := tmplOf raw
     let a0 := t.sbase + ((0 : Word).extractLsb' 16 48).signExtend 64
     spaceOf (s.rs 1 + BitVec.ofInt 64 ((0 : BitVec 16).toInt * 8)) = .aperture 0 ∧ (s.plat 0 t.pn).busy = false ∧ s.freeSlots 0 ≠ 0 ∧
     (s.rs 1).toNat % 64 = 0 ∧ (s.rs 1).toNat / 2 ^ 10 % 2 ^ 46 = 0 ∧ s.cmds = [] ∧ copyRefusal t (s.plat 0 t.pn) 0 a0 = none ∧
     copyRefusal t Platform.none 0 a0 = some 4) ∧
    (let s := issuing 0 [(1, 0x100000000000000), (2, 0xFFFFFFFFFFFFFF)]
     let t := s.modCur fun c => { c with evq := List.replicate 64 { seq := 0, kind := 1 } }
     t.iss.held = false ∧ t.freeSlots t.iss.ctx = 0 ∧ s.freeSlots s.iss.ctx ≠ 0 ∧ s.invals.length < 8 ∧
     2 ^ 56 ≤ (s.rs 1).toNat ∧ (s.rs 2).toNat < 2 ^ 56) ∧
    (let w := fun a x m => memPut m (runAt a (leBytes 8 x))
     let m := w (spKey 0 0x1000) 0x4000 <| w (spKey 0 0x1010) 0x5000 <| w 0x100000 0x200001 <| w 0x200000 0x201001 <| w 0x201000 0x202001 <|
       w 0x202000 0x203001 <| w 0x203020 0x400D []
     let s := { issuing 0 [(1, 0x100000000001000)] with
       mem := m, memCyc := m, sys := { Sys.reset with asidEn := true, asidBase := 0x100000 }, pop := [0x1000000]
       access := [(0, [{ r := true, w := true, exo := false, master := 0x0A, base := 0, limit := 0x1000 }])] }
     let r := migReq ((List.range 4).map fun (k : Nat) => BitVec.ofNat 64 (s.loadNat (s.own 0) (s.rs 1 + BitVec.ofNat 64 (8 * k)) 8))
     let u := s.readAll [s.rs 1]
     r.clean = true ∧ u.cmds = [] ∧ u.freeSlots 0 ≠ 0 ∧ leafIs (u.leafAt r.asid r.va) 0x203020 0x400D (migSize r.sz) = true ∧
     0x400D / 2 ^ 9 % 2 = 0 ∧ u.frameOk r.dst (migSize r.sz) = true ∧ r.dst ≠ 0x400D / 2 ^ 12 % 2 ^ 40 * 4096) ∧
    (migReq [0, 0, 0, 1]).clean = false ∧
    (issuing 0 [(1, 0x100000000001000)]).loadsLocal 32 ((issuing 0 [(1, 0x100000000001000)]).rs 1) 0x1000 := by
  and_intros <;> decide +kernel

/-- A command block at scratchpad byte 0x1000. -/
def holding (ws : List Word) (s : State) : State :=
  let m := memPut [] (runAt (spKey 0 0x1000) (ws.flatMap fun w => leBytes 8 w.toNat))
  { s with mem := m, memCyc := m }

/-- A launch with one table of 100 rows of 16 weights on Depot 0, with an optimiser, sharded by rows over one owner; a
declared platform of 64-byte halves; s1 names the command block. -/
def tabled (ws : List Word) : State :=
  let s := platformed declared (issuing 6 [(1, 0x100000000001000)])
  holding ws { s with
    launches := [{ detLaunch with
      pkt := { detLaunch.pkt with det := false }
      registry := [BitVec.ofNat 512 (0x40000 + 2 ^ 64 * (100 + 16 * 2 ^ 40 + 2 ^ 56) + 2 ^ 128 * (2 ^ 18 + 2 ^ 24 + 2 ^ 40) + 2 ^ 192 * (2 ^ 16 + 2 ^ 48))] }]
    ctxs := s.ctxs.map fun p => (p.1, { p.2 with launch := some 0 })
    parts := [{ cmask := 0, dmask := 1, guest := false, privq := 0 }] }

def poolWords : List Word := [0x10000, 1, 0x100000000002000, 0x100000000003000, 64, 0x3000, 1000, 0]
def updWords : List Word := [0x10000, 0, 0x100000000002000, 0x100000000003000, 64]

theorem witness_LookupAndUpdateCommands :
    (tabled []).loadsLocal 64 ((tabled []).rs 1) 0x1000 ∧
    (let s := tabled []
     let u := s.readAll [s.rs 1]
     s.poolCount < 16 ∧ (s.plat 0 0).busy = false ∧ poolMalformed (poolBlk (s.blockAt (s.rs 1))) false false 64 = true ∧
     u.updElsewhere 0 = false ∧ (updBlk (s.blockAt (s.rs 1))).npair = 0 ∧ s.msgCount < 16) ∧
    (let s := tabled (poolWords.take 5)
     let u := s.readAll [s.rs 1]
     let b := poolBlk (s.blockAt (s.rs 1))
     let pr := ((u.table? 0 b.tid).map (·.w)).getD 0 * 4
     let pe := u.boundEntry 2 0 (poolBound 0)
     ¬poolMalformed b false false pr = true ∧ (s.plat 0 0).decl = true ∧ (u.nameable? b.tid).isSome = true ∧
     ((u.nameable? b.tid).map u.depotDown) = some false ∧ b.nidx ≤ pe.limit ∧ b.doff + (b.nbags - 1) * b.dstr + pr ≤ (s.plat 0 0).half ∧
     u.freeSlots 0 ≠ 0 ∧ ((u.nameable? b.tid).map fun t => u.admits t 0 b.nidx (pe.base + pe.unit * b.nidx)) = some true) ∧
    (let s := tabled updWords
     let u := s.readAll [s.rs 1]
     let b := updBlk (s.blockAt (s.rs 1))
     let ue := u.boundEntry 3 0 (updBound 0)
     b.clean = true ∧ b.npair = 1 ∧ b.gstr % 4 = 0 ∧ ((u.table? 0 b.tid).map (·.w)).getD 0 * 4 ≤ b.gstr ∧ arrayOk b.ibase = true ∧
     arrayOk b.gbase = true ∧ b.baren = false ∧ ((u.nameable? b.tid).map fun t => (t.ro, t.opt)) = some (false, 1) ∧ b.npair ≤ ue.limit ∧
     ((u.nameable? b.tid).map fun t => u.admits t 0 b.npair (ue.base + ue.unit * b.npair)) = some true) ∧
    (let s := tabled poolWords
     let u := s.readAll [s.rs 1]
     let eas := (List.range 1).map fun (k : Nat) => localEa 0x3000 + BitVec.ofNat 64 (4 * k)
     ((u.nameable? 0).map fun t => (t.shf, t.shcnt)) = some (1, 1) ∧ poolMalformed (poolBlk (s.blockAt (s.rs 1))) false false 64 = false ∧
     fld ((s.blockAt (s.rs 1)).getD 6 0) 0 32 = 1000 ∧ eas.map (fun q => u.loadNat (u.own 0) q 4) = [0] ∧ u.rankOk 0 = true ∧ u.cmds = []) ∧
    ((tabled poolWords).readAll [(tabled poolWords).rs 1]).loadsLocal 4 (localEa 0x3000) 0x3000 := by
  and_intros <;> decide +kernel

/-- An eager send, on a die with few messaging commands and with sixteen; a post with a deadline; a full queue; a packet for a
guest that serves, alone and behind another, and for none. -/
theorem witness_MessageCommands :
    (tabled []).loadsLocal 64 ((tabled []).rs 1) 0x1000 ∧ (tabled []).detOf (tabled []).iss.ctx = false ∧
    (let s := tabled [0, 64 * 2 ^ 16, 0x100000000002000]
     let u := s.readAll [s.rs 1]
     let b := sendBlk (s.blockAt (s.rs 1))
     s.msgCount < 16 ∧ b.clean = true ∧ arrayOk b.sbase = true ∧ b.baren = false ∧ u.rankOk b.dst = true ∧ b.len ≤ 2 ^ 26 ∧
     let load := fun (cs : List Cmd) => cs.countP fun (y : Cmd) => dieOf y.ctx = 0 && (match y.k with
       | .msend _ => true
       | _ => false)
     u.freeSlots 0 ≠ 0 ∧ u.cmds = [] ∧ load s.cmds < 16 ∧
     (let many := List.replicate 16 { command (.msend []) 5 with ctx := 1 }
      16 ≤ load many ∧ ({ s with cmds := many } : State).msgCount < 16)) ∧
    (let s := tabled [0, 0, 0, 64 + 2 ^ 32]
     let u := s.readAll [s.rs 1]
     let b := postBlk (s.blockAt (s.rs 1))
     (s.plat 0 0).busy = false ∧ b.clean = true ∧ b.conv ≤ 6 ∧ b.doff % 4 = 0 ∧ b.timeout ≠ 0 ∧ b.timeout ≤ (u.msgEntry 4 0).limit ∧
     b.baren = false ∧ (s.plat 0 0).decl = true ∧ b.doff + b.maxlen ≤ (s.plat 0 0).half ∧ u.postsOf 0 < 4096) ∧
    (let s := tabled []
     let t := s.modCur fun c => { c with evq := List.replicate 64 { seq := 0, kind := 1 } }
     s.freeSlots 0 ≠ 0 ∧ t.freeSlots 0 = 0 ∧ s.guest.fitted = false) ∧
    (let s := { tabled [1] with
       guest := { Guest.none with fitted := true, st := .serving, qdepth := 1 }
       parts := [{ cmask := 0, dmask := 1, guest := true, privq := 0 }] }
     let u := s.readAll [s.rs 1]
     u.guest.fitted = true ∧ u.guest.st = .serving ∧ (∃ q ∈ u.parts, q.guest = true) ∧ u.partOf 0 = 0 ∧
     packetOk (s.blockAt (s.rs 1)) = true ∧ u.packets.length < u.guest.qdepth ∧ u.freeSlots 0 ≠ 0 ∧ u.packets = [] ∧
     ({ u with cmds := [{ command (.gsub []) 8 with ctx := 1 }] } : State).packets.length < 2) ∧
    (let s := { tabled [] with cmds := [command (.rcancel 0) 6] }
     (s.readAll [s.rs 1]).cmds ≠ []) := by
  and_intros <;> decide +kernel

/-- Operands of 64 bf16 elements in two banks, and platforms of their size: a matrix operation that breaks no rule, one without
a depth, a sparse one with and without its platforms, an accumulator of another context, an epilogue. -/
def matrixed (shape : Word) (p0 p1 p2 : Platform) : State :=
  let s := issuing 0 []
  { s with
    ctxs := s.ctxs.map fun (p : Nat × Ctx) => (p.1, { p.2 with vis := { p.2.vis with shadow := { p.2.vis.shadow with
      emxBbase := 0x200000, emxStride := 0x20002, emxShape := shape, emxSparse := 0x20100, eepDst := BitVec.ofNat 64 (256 * 2 ^ 31), eepOut := 0 } } })
    clusters := [(0, { Cluster.reset with plats := ((Cluster.reset.plats.set 0 p0).set 1 p1).set 2 p2 })] }

theorem witness_MatrixCommands :
    (let s := matrixed 64 Platform.none Platform.none Platform.none
     s.iss.held = false ∧ s.mxBlocked = false ∧ s.owns 0 = true ∧ (s.mxOp true false 0 0).badDense = false ∧
     (s.badSparse (s.mxOp true true 0 0)).isSome = true ∧
     (∀ p ∈ [(s.mxOp true true 0 0).plats.1, (s.mxOp true true 0 0).plats.2.1, (s.mxOp true true 0 0).plats.2.2], (s.plat 0 p).st ≠ .filling) ∧
     (s.epRefusal s.cur.vis.shadow.eepDst s.cur.vis.shadow.eepVec s.cur.vis.shadow.eepAct s.cur.vis.shadow.eepOut).isSome = true ∧
     s.detOf 0 = false ∧ s.cmds = [] ∧ (s.core 0).mx = []) ∧
    ((matrixed 0 Platform.none Platform.none Platform.none).mxOp true false 0 0).badDense = true ∧
    (let p : Platform := { declared with st := .full, half := 8192 }
     let s := matrixed 64 p { p with base := 0x200000 } { p with base := 0x400000 }
     s.badSparse (s.mxOp true true 0 0) = none ∧ (s.plat 0 0).busy = false ∧
     s.epRefusal s.cur.vis.shadow.eepDst s.cur.vis.shadow.eepVec s.cur.vis.shadow.eepAct s.cur.vis.shadow.eepOut = none) ∧
    (let s := { matrixed 64 Platform.none Platform.none Platform.none with
       launches := [{ detLaunch with c := 2 }], ctxs := [(0, { Ctx.idle with status := .current, launch := some 0 })] }
     s.owns 1 = false) ∧
    (let o := (matrixed 64 Platform.none Platform.none Platform.none).mxOp true false 0 0
     ∃ p ∈ [o], p.acc = (0 : BitVec 2).toNat) := by decide +kernel

/-- A state whose event concerns d. -/
def State.about (s : State) (d : Due) : State := { s with due := d }

/-- Room in a core's L1 beside the lines of the blocks that fill. -/
def State.roomyL1 (s : State) (q : Nat) : Prop :=
  (s.core q).lines.length + ((s.fillingLines q).filter fun l => !(s.core q).lines.contains l).length < 4096

theorem witness_ArrivalsFromMemory :
    (let s := (mapped true 6 []).about { arg := 0x101 }
     s.due.id = 0 ∧ s.due.arg ∉ (s.core (s.l1Of 0 s.due.arg)).lines ∧ s.roomyL1 (s.l1Of 0 s.due.arg)) ∧
    (let s := ((mapped true 6 []).modCur fun c => { c with blocks := [{ tag := 3, want := [0x4000], lines := [], bad := [], decl := 0 }] }).about { id := 1, arg := 0x4000 }
     s.due.id ≠ 0 ∧ ((s.ctx 0).blocks.find? (fun b => b.decl + 1 = s.due.id)).isSome = true ∧ (BitVec.ofNat 64 s.due.arg).toNat / 2 ^ 56 = 0 ∧
     s.translate (s.who 0) s.due.arg .r = .ok 0x4000 { asid := 0, va := 0x4000, size := 4096, frame := 0x4000, leaf := 0x404D } ∧
     s.translate (s.who 0) 0x8000 .r = .fault 1 0 ∧ (BitVec.ofNat 64 (2 ^ 56)).toNat / 2 ^ 56 ≠ 0 ∧
     s.roomyL1 (s.l1Of 0 (0x4000 / 64))) ∧
    (let s := ((mapped true 6 []).modCur fun c => { c with remAsk := [5], raceAsk := [[5]], walkAsk := [5, 9], win := c.win.set 1 (BitVec.ofNat 64 (2 ^ 10)) }).about
       { arg := 5, bytes := [7], nats := [5] }
     s.due.arg ∈ (s.ctx 0).remAsk ∧ Memory.wf s.mem = true ∧ s.due.wr = false ∧ (s.about { wr := true }).due.wr = true ∧
     (s.win 0 0).mod = s.modNo ∧ (s.win 0 1).mod ≠ s.modNo ∧ s.due.nats ∈ (s.ctx 0).raceAsk ∧ s.corr = [] ∧
     s.unpublished (s.win 0 0).peer (5 % 2 ^ 23 * 64) = false ∧ (platformed declared s).unpublished ((platformed declared s).win 0 0).peer 0 = true ∧
     (∀ l ∈ s.due.nats, s.conflict (s.party 0) .load [s.gGran 0 (64 * l)] = none) ∧ s.due.arg ∈ (s.ctx 0).walkAsk ∧
     s.walk (s.who 0) (4096 * s.due.arg) = .bad 1 0) ∧
    (let s := { (mapped true 6 []).about { nats := [0x99, 0x100] } with tags := [((1, 0x100), { st := .written, id := some .host, ph := 0 })] }
     s.due.nats = [0x99] ++ 0x100 :: [] ∧ (∀ k ∈ [0x99], s.conflict (s.party 0) .load [s.gGran 0 (64 * k)] = none) ∧
     (s.conflict (s.party 0) .load [s.gGran 0 (64 * 0x100)]).isSome = true) ∧
    (∃ e, (mapped false 6 []).walk ((mapped false 6 []).who 0) (4096 * 4) = .ok e) ∧
    (let s := { mapped true 6 [] with
       launches := [{ detLaunch with pkt := { detLaunch.pkt with cbase := 0x4000 } }]
       ctxs := [(0, { Ctx.idle with status := .current, launch := some 0, owned := 1 })] }
     s.launchOf 0 = some { detLaunch with pkt := { detLaunch.pkt with cbase := 0x4000 } } ∧ s.due.arg < (s.ctx 0).owned ∧
     (∀ k ∈ (s.ctx 0).cards, k.pos ≠ s.due.arg) ∧ s.poisoned 0x4000 64 = none ∧
     s.translate (s.who 0) (BitVec.ofNat 64 (0x4000 + 64 * s.cardIndex 0 s.due.arg)).toNat .r =
       .ok 0x4000 { asid := 0, va := 0x4000, size := 4096, frame := 0x4000, leaf := 0x404D }) := by
  unfold State.roomyL1
  and_intros
  any_goals decide +kernel
  exact ⟨{ asid := 0, va := 0x4000, size := 4096, frame := 0x4000, leaf := 0x400D }, by decide +kernel⟩

/-- A context halting with and without a result in flight; a die whose one context is done, whose cards end the launch or not. -/
theorem witness_ContextsExpireAndEnd :
    (let s := (issuing 0 []).modCur fun c => { c with status := .halting }
     let t := s.modCur fun c => { c with pend := [{ at_ := 9, inChk := false, eff := .freeSlot }] }
     (s.ctx 0).status = .halting ∧ (s.ctx 0).deferred = [] ∧ (t.ctx 0).pend ≠ [] ∧ (s.ctx 0).pend = [] ∧ (s.ctx 0).winq = [] ∧
     (∀ r ∈ (s.cluster 0).barq, r.ctx ≠ 0) ∧ s.agenda = []) ∧
    (let s := (issuing 0 []).modCur fun c => { c with status := .blocked .barrier, deferred := [{ kind := 7, pc := 0 }] }
     (s.ctx 0).status = .blocked .barrier ∧ (s.ctx 0).deferred = { kind := 7, pc := 0 } :: []) ∧
    (let l := { detLaunch with pkt := { detLaunch.pkt with cword := 0x4000 } }
     let s := fun (m : List Host.Cell) => { mapped true 0 [] with
       mem := m ++ tables 0x404D, launches := [l], ctxs := [(0, { Ctx.idle with status := .done, launch := some 0 })]
       access := [(0, [{ r := true, w := true, exo := false, master := 11, base := 0, limit := 0x1000 }])] }
     let total := (l.clus.zipIdx.map fun kg => if kg.1 / 6 = 0 then ownedCount l.pkt.pol l.pkt.n l.clus.length kg.2 else 0).sum
     (s []).launch? 0 = some l ∧ l.st = .running ∧ 0 ∉ l.contrib ∧
     (∀ u ∈ l.ctxids, dieOf u = 0 → ((s []).ctx u).status = .done ∧ ((s []).ctx u).winq = []) ∧ (s []).cwordAt l = some 0x4000 ∧ total = 1 ∧
     (((s []).modLaunch 0 fun y => { y with contrib := 0 :: y.contrib }).putNat 0x4000 8 1).gnat 0x4000 8 = 1 ∧
     (s [(0x4000, 5)]).gnat 0x4000 8 = 5) := by decide +kernel

/-- A window write in the queue, accepted to a peer here and elsewhere, and gone to another module; one that lands on a granule
of another writer, from here and from another module; a batch that waits for one summary; a released `famo`; one barrier
operation that has arrived; no hold. -/
theorem witness_WritesSummariesAndBarriersArrive :
    (let e : WinWrite := { win := 0, bytes := [(0x40, 7)], tag := 1, pc := 0, slot := 6, st := 0, batch := 4, ord := 0, dead := [] }
     let b : Batch := { id := 4, tag := 1, closed := true, touched := [0], waiting := [0], errs := 0, key := 0 }
     let s := (issuing 6 []).modCur fun c => { c with
       status := .ready, winq := [e, { e with st := 2 }, { e with win := 1, st := 2 }, { e with win := 1, st := 3 }]
       win := c.win.set 1 (BitVec.ofNat 64 (2 ^ 10)), batches := [b] }
     let other := { s with tags := [((0, spKey 0 0x40 / 64), { st := .readN, id := none, ph := 0 })] }
     let far := Party.far 512 3
     (s.ctx 0).winq.find? (fun e => decide (e.win = s.due.arg) && decide (e.st < 2)) = some e ∧ s.due.arg2 = 0 ∧
     (s.ctx 0).winq.find? (fun e => decide (e.win = s.due.arg) && decide (e.st = 2)) = some { e with st := 2 } ∧
     (s.ctx 0).winq.find? (fun e => decide (e.win = 1) && decide (e.st = 2)) = some { e with win := 1, st := 2 } ∧
     (s.ctx 0).winq.find? (fun e => decide (e.win = 1) && decide (e.st = 3)) = some { e with win := 1, st := 3 } ∧
     (s.win 0 0).mod = s.modNo ∧ (s.win 0 1).mod ≠ s.modNo ∧ s.landCheck (s.party 0) (s.win 0 0).peer e.bytes = none ∧
     Memory.wf s.mem = true ∧ s.migs = [] ∧ (∀ p ∈ e.bytes, p.1 < 2 ^ 23 ∧ s.isBarrier (s.win 0 0).peer p.1 = false) ∧
     (∀ id ∈ ((windowed [1]).ctx 0).remote, id % 2 ^ 23 < 2 ^ 17) ∧ (windowed [1]).windowKey 0 (1 / 2 ^ 23) (1 % 2 ^ 23 * 64 + 0) = spKey 0 0x40 ∧
     (s.about { arg2 := 1, nats := [512, 3, 1] }).due.nats.getD 2 0 = 1 ∧ s.syncAt 0 0x40 = false ∧
     ({ s with clusters := [(0, { Cluster.reset with regions := [{ kind := .sync, base := 0x40, size := 64 }] })] } : State).syncAt 0 0x40 = true ∧
     ({ s with clusters := [(0, { Cluster.reset with regions := [{ kind := .sync, base := 0x40, size := 64 }] })] } : State).landCheck far 0 (runAt 0x40 [7]) = none ∧
     (other.landCheck (s.party 0) (s.win 0 0).peer e.bytes).isSome = true ∧
     (s.about { arg2 := 1 }).due.arg2 = 1 ∧ s.landCheck far 0 (runAt 0x40 [7]) = none ∧ (other.landCheck far 0 (runAt 0x40 [7])).isSome = true ∧
     (s.about { arg2 := 2, wr := true }).due.wr = true ∧ (s.about { arg2 := 2 }).due.wr = false ∧
     (s.ctx 0).batches = [b] ∧ b.closed = true ∧ b.waiting = [s.due.arg] ∧ (s.ctx 0).status = .ready ∧
     (s.ctx 0).batches.find? (·.id = 4) = some b) ∧
    (let s := (issuing 6 []).about { arg := 0x100000000000040, word := 0x100000000000080, nats := [0, 6, 0, spKey 0 0x40] }
     let eas := eaRun (BitVec.ofNat 64 s.due.arg) 4
     tlbOfNats (s.due.nats.drop 4) = [] ∧ tlbOfNats [0, 0x4000, 4096, 0x4000, 0x404D] ≠ [] ∧ (s.ctx 0).remote = [] ∧
     spaceOf (BitVec.ofNat 64 s.due.arg) = .localSp 0x40 ∧ 0x404D / 2 ^ 10 % 2 = 0 ∧
     s.homeCheck 0 .atomic 0 6 eas = none ∧ s.detOf 0 = false ∧ s.due.nats[3]? = some (spKey 0 0x40) ∧
     (({ s with tags := [((0, spKey 0 0x40 / 64), { st := .readN, id := none, ph := 0 })] } : State).homeCheck 0 .atomic 0 6 eas).isSome = true ∧
     deterministic.homeCheck 0 .atomic 0 6 eas = none ∧ deterministic.detOf 0 = true) ∧
    (let r : BarReq := { at_ := 0, addr := 16, op := .arrive 1, ctx := 0, l := 0, pc := 0, slot := 6 }
     let s := ({ issuing 6 [] with clusters := [(0, { Cluster.reset with barq := [r, { r with addr := 32 }] })] } : State).about { arg := 16 }
     (s.cluster s.due.id).barq.filter (·.addr = s.due.arg) = [r] ∧ r.at_ ≤ s.now ∧ (s.plat 0 16).holds = []) := by
  and_intros <;> decide +kernel

/-- A lookup's fill with its job and without one; the two rows of a copy that can be read, and one that cannot; a dense matrix
operation, with a fault found. -/
theorem witness_FillsAndMatrixOperationsEnd :
    (let x := { command (.pool (poolWords.take 5) false false false) 3 with pn := some 0 }
     let j : Job := { id := 5, cmd := 5, shard := none, routed := [], served := [], await := [], inbox := [], bags := [], owners := [], late := 0, lots := [] }
     let s := fun (js : List Job) => ({ tabled [] with cmds := [x], jobs := js } : State).about { id := 5 }
     (s [j]).cmd? 5 = some x ∧ x.ended = false ∧ (match x.k with
       | .copy _ _ _ _ => false
       | _ => true) = true ∧
     ((s [j]).fillWork x).1.status = 0 ∧ (∀ p ∈ ((s [j]).fillWork x).1.bytes, ((s [j]).fillWork x).2.consumed 0 p.1 0 = false) ∧
     ((s [j]).fillWork x).2.msgs = [] ∧ ((s [j]).fillWork x).2.cmd? 5 = some x ∧
     ((s []).fillWork x).1.status ≠ 0 ∧ ((s []).fillWork x).2.cmd? 5 = some x) ∧
    (let t0 : BitVec 256 := BitVec.ofNat 256 (0x100000000001000 + 64 * 2 ^ 64 + 2 * 2 ^ 96 + 64 * 2 ^ 128)
     let x := fun (a0 : Word) => command (.copy 0 0 t0 a0) 1
     let s := fun (a0 : Word) (r : Nat) => ({ platformed declared (issuing 6 []) with cmds := [x a0] } : State).about { id := 5, arg := r }
     let near : Word := 0x100000000001000
     let read := fun (r : Nat) => match (s near r).copyRow (x near) (tmplOf t0) near r with
       | .row bs _ v => decide (v.cmd? 5 = some (x near)) && v.msgs.isEmpty && bs.all fun p => !v.consumed 0 p.1 v.now
       | .bad _ _ _ => false
     (s near 0).cmd? 5 = some (x near) ∧ (x near).ended = false ∧ (s near 0).due.arg = 0 ∧ 0 + 1 < (tmplOf t0).rows ∧ read 0 = true ∧
     1 + 1 = (tmplOf t0).rows ∧ read 1 = true ∧
     (match (s 0x8000 0).copyRow (x 0x8000) (tmplOf t0) 0x8000 0 with
      | .row _ _ _ => false
      | .bad st _ v => decide (st ≠ 0) && decide (v.cmd? 5 = some (x 0x8000)) && v.msgs.isEmpty) = true) ∧
    (let s0 := matrixed 64 Platform.none Platform.none Platform.none
     let o := { s0.mxOp true false 0 5 with fault := some { kind := 7, pc := 0 } }
     let s := ({ s0 with cores := [(0, { Core.reset with mx := [o] })], ctxs := s0.ctxs.map fun (p : Nat × Ctx) => (p.1, { p.2 with status := .ready }) } : State).about { id := 5 }
     (s.core s.due.arg).mx.find? (·.id = s.due.id) = some o ∧ (s.core 0).mx.takeWhile (·.id ≠ o.id) = [] ∧ o.fault.isSome = true ∧
     (s.ctx o.ctx).status = .ready ∧ o.acc < 4 ∧ o.sparse = false ∧
     (match State.mxRows o o.aty o.abase o.astr s 32 with
      | .ok _ _ u => (match State.mxRows o o.bty o.bbase o.bstr u 64 with
        | .ok _ _ _ => true
        | _ => false)
      | _ => false) = true) := by
  and_intros <;> decide +kernel

/-- A released lookup of one row, its job with the row awaited and then served, in a bag with a fault and in one without; a cached
row; an update of one pair and its row. -/
theorem witness_LookupsAndUpdatesProceed :
    (let blk := (poolWords.take 5) ++ [0, 0, 0]
     let x := command (.pool blk false false false) 3
     let r : Routed := { bag := 0, pos := 0, row := 0, depot := 0, hot := none }
     let j : Job := { id := 5, cmd := 5, shard := none, routed := [r], served := [], await := [0], inbox := [(0, [])], bags := [], owners := [], late := 0, lots := [] }
     let s := (({ tabled [] with cmds := [x], jobs := [j] } : State)).about { id := 5 }
     s.cmd? 5 = some x ∧ ((s.table? 0 (poolBlk blk).tid).map (·.w)) = some 16 ∧ (s.readArrays x (poolBlk blk) false).1.1.isSome = true ∧
     s.jobs.find? (·.id = s.due.id) = some j ∧ s.cmd? j.cmd = some x ∧ x.charge = some (0, 1) ∧
     j.await.erase s.due.arg = [] ∧ (([0, 1] : List Nat).erase s.due.arg ≠ []) ∧ j.shard = none ∧ s.table? 0 0 ≠ none ∧
     (∀ q ∈ j.served, ∃ g ∈ j.bags, g.part.bag = q.bag ∧ g.part.fault.isSome) ∧ ({ j with served := [r] } : Job).served = [r] ∧
     (¬∃ g ∈ j.bags, g.part.bag = r.bag ∧ g.part.fault.isSome) ∧ (s.sketch r.depot 0).total + 1 < 2 ^ 20) ∧
    (let w : HotRow := { tid := 0, row := 0, asid := 0, part := 0, exec := false, va := 0x4000, nblk := 1 }
     let h : HotEntry := { stack := 0, set := 0, way := 0, what := w, pub := none, next := [] }
     let s := { mapped true 6 [] with hot := [h] }
     let t := { mapped true 6 [] with hot := [{ h with pub := some 1, next := [w] }] }
     s.hot.find? (fun h => h.isAt s.due.arg s.due.arg2 s.due.id) = some h ∧ h.pub = none ∧ s.jobs = [] ∧ h.what.nblk = 1 ∧
     (s.rowBlk 0 { asid := 0, part := 0, exec := false } h.what.va).1.isSome = true ∧
     (({ s with access := [], tlb := [] } : State).rowBlk 0 { asid := 0, part := 0, exec := false } h.what.va).1 = none ∧
     t.hot.find? (fun h => h.isAt t.due.arg t.due.arg2 t.due.id) = some { h with pub := some 1, next := w :: [] }) ∧
    (let blk := updWords ++ [0, 0, 0]
     let x := command (.upd blk false false) 4
     let u : Upd := { id := 5, nrow := 0, ndrop := 0, fdrop := 0, nskip := 0, fail := 0, flags := 0, rows := [(0, []), (1, [])] }
     let s := (({ tabled [] with cmds := [x], upds := [u] } : State)).about { id := 5 }
     s.cmd? 5 = some x ∧ (s.table? 0 (updBlk blk).tid).isSome = true ∧ s.table? 0 1 = none ∧ (updBlk blk).npair = 1 ∧
     (match s.engRead 0 x.who (updBlk blk).ibase 4 with
      | .ok b v => decide (leNat b < 100) && (match v.engRead 0 x.who (updBlk blk).gbase 64 with
        | .ok _ _ => true
        | .fail _ _ _ _ => false)
      | .fail _ _ _ _ => false) = true ∧
     s.upds.find? (·.id = s.due.id) = some u ∧ s.updBefore x 0 0 = false ∧ s.updBefore { x with id := 6 } 0 0 = true ∧
     u.rows.find? (·.1 = s.due.arg) = some (0, []) ∧ u.rows.filter (·.1 ≠ s.due.arg) ≠ []) := by
  and_intros <;> decide +kernel

/-- A message that flies to this module's cluster 0; a post that takes it, none; a cancelled, an undecided and a settled post; an
expired header; an exchange with an owner; traffic that a link error ends. -/
theorem witness_MessagesAndExchangesProceed :
    (let m : Msg := { id := 9, src := 8, dst := 0, tag := 0, comm := 0, len := 0, cmd := none, pulled := false, data := [], st := .flying, post := some 5,
                      viaUnexp := false }
     let x := command (.rpost []) 6
     let s := fun (posts : List Nat) (unexp : List Nat) => ({ issuing 0 [] with
       msgs := [m], cmds := [x], clusters := [(0, { Cluster.reset with launch := some 0 })], dies := [(0, { Die.reset with posts := posts, unexp := unexp })] }
       : State).about { id := 9 }
     let v := fun (posts : List Nat) (unexp : List Nat) => ((s posts unexp).payload m).2.modMsg 9 fun _ => { m with data := [] }
     (s [] []).due.msg = none ∧ (s [] []).junctionFirst .messageHeaderArrival = none ∧ (s [] []).msgs.find? (·.id = 9) = some m ∧
     (s [] []).earlierFar m = false ∧ (s [] []).earlier m = [] ∧ m.pulled = false ∧ { m with pulled := true }.pulled = true ∧
     ((s [] []).payload m).1 = .inr [] ∧ (v [] []).clusterOf m.dst = some 0 ∧
     (((v [] []).cluster 0).launch ≠ none ∧ ((v [] []).die 0).st = .serving) ∧ (v [5] []).postFor 0 m = some x ∧ (v [] []).postFor 0 m = none ∧
     (v [] []).roomFor 0 m = true ∧ (v [] (List.replicate 2048 1)).roomFor 0 m = false ∧ (issuing 0 []).clusterOf 0 = some 0 ∧
     ((issuing 0 []).cluster 0).launch = none ∧ (s [] []).junctionFirst .headerLifetimeExpiry = none ∧ m.id ∈ ((s [] [9]).die 0).unexp ∧
     m.id ∉ ((s [] []).die 0).unexp ∧ m.post = some 5 ∧ m.cmd = none ∧ (s [] []).clusterOf 512 = none) ∧
    (let x := command (.rpost []) 6
     let m : Msg := { id := 9, src := 8, dst := 0, tag := 0, comm := 0, len := 0, cmd := none, pulled := false, data := [], st := .unexpected, post := none,
                      viaUnexp := true }
     let s := fun (unexp : List Nat) => ({ issuing 0 [] with msgs := [m], cmds := [x], dies := [(0, { Die.reset with posts := [5], unexp := unexp })] }
       : State).about { id := 5 }
     let took := fun u => (((s u).die 0).unexp.filterMap fun i => (s u).msgs.find? (·.id = i)).find? fun m =>
       decide ((s u).clusterOf m.dst = some 0) && (postBlk []).matches m
     (s []).junctionFirst .postArrival = none ∧ (s []).cmd? 5 = some x ∧ took [] = none ∧ took [9] = some m ∧
     (s []).junctionFirst .postTimeout = none ∧ x.id ∈ ((s []).die 0).posts ∧ 6 ∉ ((s []).die 0).posts) ∧
    (let x := command (.rcancel 3) 6
     let y := { command (.rpost []) 6 with id := 2 }
     let s := fun (ps : List (BitVec 16 × Nat × Nat)) => (({ issuing 0 [] with cmds := [x, y], dies := [(0, { Die.reset with posts := [2] })] } : State).modCur fun c =>
       { c with posts := ps }).about { id := 5 }
     let last := fun ps => ((s ps).ctx x.ctx).posts.reverse.find? (·.1 = (3 : BitVec 16))
     (s []).junctionFirst .cancelArrival = none ∧ (s []).cmd? 5 = some x ∧ last [] = none ∧ last [(3, 2, 0)] = some (3, 2, 0) ∧
     (s []).cmd? 2 = some y ∧ 2 ∈ ((s []).die 0).posts ∧ last [(3, 1, 1)] = some (3, 1, 1) ∧ (s []).cmd? 1 = none) ∧
    (let blk := poolWords
     let x := command (.a2a blk false false false [0]) 3
     let j : Job := { id := 5, cmd := 5, shard := none, routed := [], served := [], await := [], inbox := [], bags := [], owners := [(0, 0)], late := 0, lots := [] }
     let s := ({ tabled [] with cmds := [x], jobs := [j] } : State).about { id := 5 }
     s.cmd? 5 = some x ∧ (s.table? 0 (poolBlk blk).tid).isSome = true ∧ (s.readArrays x (poolBlk blk) false).1.1.isSome = true ∧
     s.jobs.find? (·.id = 5) = some j ∧ s.due.arg ∈ j.owners.map (·.1) ∧ j.owners ≠ [] ∧ (j.miss [0]).owners = [] ∧ s.agenda = []) ∧
    (let x := command (.copy 0 0 0 0) 1
     let e : WinWrite := { win := 0, bytes := [(0x40, 7)], tag := 1, pc := 0, slot := 6, st := 1, batch := 4, ord := 0, dead := [] }
     let s := (({ issuing 0 [] with cmds := [x] } : State).modCur fun c => { c with winq := [e] }).about { id := 5, nats := [5] }
     let t := s.about { wr := true }
     s.cmd? 5 = some x ∧ x.ended = false ∧ x.release ≠ none ∧ x.pn ≠ none ∧ s.due.wr = false ∧ s.due.nats = [s.due.id] ∧
     t.due.wr = true ∧ t.due.nats = [] ∧ (t.ctx t.due.ctx).winq.find? (·.win = t.due.arg2) = some e) ∧
    (let x := { command (.msend [0, 64 * 2 ^ 16, 0x8000]) 5 with id := 4 }
     let m : Msg := { id := 9, src := 0, dst := 0, tag := 0, comm := 0, len := 64, cmd := some 4, pulled := true, data := [], st := .pulling, post := some 5,
                      viaUnexp := true }
     (match (({ issuing 0 [] with cmds := [x] } : State).payload m).1 with
      | .inl _ => true
      | .inr _ => false) = true ∧
     (let near := { x with k := .msend [0, 64 * 2 ^ 16, 0x100000000002000] }
      (match (({ issuing 0 [] with cmds := [near] } : State).payload m).1 with
       | .inl _ => false
       | .inr _ => true) = true) ∧ m.cmd ≠ none ∧ m.post = some 5 ∧ ({ m with post := none } : Msg).post = none) ∧
    ∀ blk, (command (.copy 0 0 0 0) 1).k ≠ .msend blk := by
  refine ⟨?_, ?_, ?_, ?_, ?_, ?_, fun blk => by nofun⟩ <;> and_intros <;> decide +kernel

/-- A running launch whose RD range holds the page at 0x4000, its first granule WRITTEN by context 0. -/
def tagged : State :=
  { mapped false 6 [] with
    tags := [((1, 0x100), { st := .written, id := some (.ctx 0 0), ph := 0 })]
    launches := [{ detLaunch with pkt := { detLaunch.pkt with rdlo := 0x4000, rdhi := 0x5000 } }] }

/-- One invalidation in each of its states; a migration of one page with its leaf; a packet and its completion; a translation
and a coherent access of the guest. -/
theorem witness_GuestAndMigrationEvents :
    (let x := command (.tlbir 0 4096 0) 10
     let v : Inval := { id := 5, drained := false, guestAck := true }
     let s := fun (v : Inval) => ({ issuing 0 [] with cmds := [x], invals := [v], guest := { Guest.none with st := .serving } } : State).about { id := 5 }
     (s v).cmd? 5 = some x ∧ (s v).invals = [v] ∧ v.id = (s v).due.id ∧ (s v).migs = [] ∧ v.guestAck = true ∧ v.drained = false ∧
     ({ v with guestAck := false, drained := true } : Inval).guestAck = false ∧ (s v).agenda = [] ∧ (s v).guest.st = .serving ∧
     (s v).asking 0 = false ∧ ((s v).modCtx 0 fun c => { c with raceAsk := [[5]] }).asking 0 = true) ∧
    (let x := command (.mig 0x4000 4096 0 0x6000) 11
     let g : Mig := { id := 5, p0 := 0x400D, leafAt := 0x5000, old := 0x4000, dst := 0x6000, size := 4096, copied := [] }
     let s := ({ mapped true 0 [] with cmds := [x], migs := [g], mem := memPut (tables 0x404D) (runAt 0x5000 (leBytes 8 0x400D))
                                       access := [(0, [{ r := true, w := true, exo := false, master := 0x0A, base := 0, limit := 0x1000 }])] } : State).about { id := 5, arg := 63 }
     s.migs.find? (·.id = s.due.id) = some g ∧ s.cmd? s.due.id = some x ∧ Memory.wf s.mem = true ∧
     s.allowed (g.old + 64 * s.due.arg) 0x0A false .r = true ∧ s.allowed (g.dst + 64 * s.due.arg) 0x0A false .w = true ∧
     (∀ i, i < 64 → ∀ t, targetOf (g.dst + 64 * s.due.arg + i) = some t → t < 26) ∧
     (∀ y ∈ s.migs, g.dst + 64 * s.due.arg + 64 ≤ y.old ∨ y.old + y.size ≤ g.dst + 64 * s.due.arg) ∧
     (∀ i, i < 8 → ∀ t, targetOf (g.leafAt + i) = some t → t < 26) ∧ (∀ y ∈ s.migs, g.leafAt + 8 ≤ y.old ∨ y.old + y.size ≤ g.leafAt) ∧
     s.allowed g.leafAt 0x0A false .rw = true ∧ ({ s with access := [] } : State).allowed g.leafAt 0x0A false .rw = false ∧
     s.poisoned (g.old + 64 * s.due.arg) 64 = none ∧ s.corr = [] ∧ ({ s with access := [] } : State).allowed (g.old + 64 * s.due.arg) 0x0A false .r = false ∧
     s.gnat g.leafAt 8 = g.p0.toNat ∧ ({ s with mem := [] } : State).gnat g.leafAt 8 ≠ g.p0.toNat) ∧
    (let x := command (.gsub [1 + 3 * 2 ^ 32, 0]) 8
     let s := ({ issuing 0 [] with cmds := [x], guestq := [5] } : State).about { arg := 0x200FFFFFF000, bytes := leBytes 16 (3 + 0x10 * 2 ^ 32), nats := [5] }
     let w := leNat s.due.bytes
     s.due.bytes.length = 16 ∧
     s.packets.find? (fun c => s.guestq.contains c.id && decide (c.packet?.map packetKey = some (w / 2 ^ 16 % 2 ^ 16, w % 2 ^ 16))) = some x ∧
     w / 2 ^ 32 % 2 ^ 8 ∈ [0, 0x10, 0x11, 0x12] ++ (List.range 16).map (0x20 + ·) ∧ s.agenda = [] ∧
     (s.about {}).due.arg ≠ 0x200FFFFFF000 ∧ (s.about { id := 5 }).outPacket? 5 = some x ∧
     (s.packets.filter fun x => s.guestq.contains x.id && decide (x.packet?.map packetAsid = some 0) && decide (x.release.getD 0 ≤ s.due.arg2)) = [x] ∧
     (∃ c ∈ s.packets, c.id ∈ s.guestq ∧ c.packet?.map packetKey = some (0, 3)) ∧
     0x13 ∉ [0, 0x10, 0x11, 0x12] ++ (List.range 16).map (0x20 + ·) ∧
     (∀ c ∈ s.packets, ¬(c.id ∈ s.guestq ∧ c.packet?.map packetKey = some (0, 4))) ∧ (0, 4) ∉ s.guest.late ∧
     (0, 4) ∈ { Guest.none with late := [(0, 4)] }.late) ∧
    (let x := command (.gsub [1, 0]) 8
     let s := ({ mapped true 0 [] with cmds := [x], guestq := [5], access := [(0, [{ r := true, w := true, exo := false, master := 9, base := 0, limit := 0x1000 },
         { r := true, w := true, exo := false, master := 0, base := 0, limit := 0x1000 }])] } : State).about { word := 0x4000 }
     (∃ x ∈ s.packets, x.id ∈ s.guestq ∧ x.packet?.map packetAsid = some s.due.arg) ∧ s.due.arg2 = 0 ∧ s.due.word.toNat / 2 ^ 56 = 0 ∧
     (∃ e ∈ s.tlb, s.page? { asid := s.due.arg, part := ((s.asidEntry s.due.arg).map (·.2)).getD 0, exec := false } s.due.word.toNat = some e ∧
       e.permits .r = true ∧ e.permits .w = true) ∧
     s.page? { asid := 0, part := 0, exec := false } 0x8000 = none ∧ (s.about { arg2 := 1 }).due.arg2 ≠ 0 ∧
     inPort 0x8000 = false ∧ (∀ e ∈ s.tlb, 0x8000 < e.frame ∨ e.frame + e.size ≤ 0x8000) ∧ s.allowedRun 0x8000 64 9 false .r = true ∧ s.corr = [] ∧
     ({ s with access := [] } : State).allowedRun 0x8000 64 9 false .r = false ∧ s.conflict .guest .load (s.outerGrans 0x8000) = none ∧
     (∀ i, i < 64 → s.accGlobal (0x8000 + i) 1 = false) ∧
     s.poisoned 0x8000 64 = none) ∧
    (∃ s : State, s.due.wr = false ∧ s.conflict .guest .load (s.outerGrans 0x4000) ≠ none) := by
  refine ⟨?_, ?_, ?_, ?_, tagged, ?_⟩ <;> and_intros <;> decide +kernel

/-- A pre-empted launch whose one cluster can be saved at 0x10000000: the command processor may access its slots, and its
queue table, whose queue 0 is enabled. -/
def saving (st : Status) : State :=
  { issuing 0 [] with
    launches := [{ detLaunch with st := .preempting, save := 0x10000000 }]
    ctxs := [(0, { Ctx.idle with status := st, launch := some 0 })]
    mem := memPut [] (runAt 0 (leBytes 8 (2 ^ 63) ++ leBytes 8 4))
    access := [(0, [{ r := true, w := true, exo := false, master := 0x0B, base := 0, limit := 0x11000 }])]
    pop := [0x40000000]
    luvex := { Luvex.reset with boot := .ready } }

theorem saving_may (i : Nat) (h : i < 0xA00000) :
    (saving (.parked .preempted)).cpMay (slotAt 0x10000000 0 + i) .w = true ∧ ∀ u, targetOf (slotAt 0x10000000 0 + i) = some u → u < 26 := by
  have ht : targetOf (slotAt 0x10000000 0 + i) = some 0 := by
    unfold targetOf slotAt
    rw [if_pos (by omega)]
    exact congrArg some (by omega)
  have hr : (saving (.parked .preempted)).retired = [] := rfl
  have hp : (saving (.parked .preempted)).pop = [0x40000000] := rfl
  have ha : aget [] (saving (.parked .preempted)).access 0 =
      [{ r := true, w := true, exo := false, master := 0x0B, base := 0, limit := 0x11000 }] := rfl
  have hl : (slotAt 0x10000000 0 + i) / 4096 < 0x11000 := by unfold slotAt; omega
  refine ⟨?_, by simp [ht]⟩
  have hn : ¬(0x200FFFFFF000 ≤ slotAt 0x10000000 0 + i ∧ slotAt 0x10000000 0 + i < 0x201000000000) := by unfold slotAt; omega
  have hq : (saving (.parked .preempted)).populated (slotAt 0x10000000 0 + i) = true := by
    unfold State.populated
    rw [ht, hp]
    simp [targetBase]
    unfold slotAt
    omega
  simp [State.cpMay, State.allowed, ht, hr, hq, ha, hl, hn, Need.met]

/-- Records that wait for the ring, of a context and of a pre-empted one; an enabled queue with one waiting launch; a launch that
can be saved, one whose context's state cannot be corrected, and one that cannot; a gang with and without the last READY. -/
theorem witness_SchedulerEvents :
    (let r : TrapRec := { info := { kind := 1, pc := 0 }, src := 0, ctxid := 0, lid := 0, asid := 0, lseq := 0, qid := 0, resume := 0, cons := false, time := 0 }
     let s := (issuing 0 []).modCur fun c => { c with status := .parked .trapPending, pendRec := [r] }
     let t := { s with sys := { Sys.reset with trapEn := true } }
     let l := { detLaunch with kept := [(0, { Ctx.idle with pendRec := [r] })] }
     let u := { issuing 0 [] with launches := [l], sys := { Sys.reset with trapEn := true } }
     (issuing 0 []).ctxs.flatMap (fun p => p.2.pendRec) = [] ∧ (issuing 0 []).launches = [] ∧ (issuing 0 []).guest.pend = [] ∧
     t.ctxs.flatMap (fun p => p.2.pendRec.map fun r => (p.1, r)) = [(0, r)] ∧ t.launches = [] ∧
     (t.ctx 0).pendRec = [r] ∧ (t.ctx 0).status = .parked .trapPending ∧ t.guest.pend = [] ∧ t.sys.ringOpen = true ∧ t.ringBad = false ∧
     u.ctxs.flatMap (fun p => p.2.pendRec) = [] ∧ u.launches = [l] ∧ u.guest.pend = [] ∧ u.sys.ringOpen = true ∧ u.ringBad = false) ∧
    (let x : Queue := { q := 0, wr := 0, next := 0, lseq := some 0, off := false, holdTo := 0, doneIx := [] }
     let l := { detLaunch with st := .waiting }
     let s := { saving .idle with launches := [l], queues := [x] }
     (issuing 0 []).luvex.boot ≠ .ready ∧ s.luvex.boot = .ready ∧ l.qid = x.q ∧ x.off = false ∧ x.holdTo ≤ s.now ∧ (s.qdesc x.q).en = true ∧
     x.lseq ≠ none ∧ (∀ k ∈ l.clus, (s.cluster k).freeAt ≤ s.now) ∧
     (x.wr.toNat + 2 ^ 32 - (s.qdesc x.q).rd) % 2 ^ 32 ≤ 2 ^ (s.qdesc x.q).log2n ∧ s.dieDown l.pkt = false ∧ s.queue? 1 = none ∧
     s.cpBytes? (s.qAddr 0) 64 ≠ none ∧ s.corr = [] ∧ ({ s with access := [] } : State).cpBytes? (s.qAddr 0) 64 = none) ∧
    (let l := { detLaunch with st := .preempting, save := 0x10000000 }
     let s := saving (.parked .preempted)
     s.launch? s.due.id = some l ∧ s.saveReady l = true ∧ l.clus = [0] ∧ Memory.wf s.mem = true ∧ s.migs = [] ∧ (s.cluster 0).famo.length ≤ 476 ∧
     slotAt l.save 0 + 0xA00000 ≤ 2 ^ 52 ∧ (∀ c ∈ l.ctxids, chkKey c ∉ s.poison) ∧
     l.ctxids.find? (fun c => ({ s with poison := [chkKey 0] } : State).poison.contains (chkKey c)) = some 0 ∧
     ({ s with poison := [chkKey 0] } : State).saveReady l = true ∧ (saving .ready).saveReady l = false) ∧
    (∀ i, i < 0xA00000 → (saving (.parked .preempted)).cpMay (slotAt 0x10000000 0 + i) .w = true ∧
       ∀ u, targetOf (slotAt 0x10000000 0 + i) = some u → u < 26) ∧
    (let l := { detLaunch with st := .gang, gate := some 9, gmem := [0, 1], ready := [0], pkt := { detLaunch.pkt with gn := 2, gid := 7 } }
     let s := fun (l : Launch) => ({ issuing 0 [] with launches := [l] } : State).about { arg := 7, arg2 := 1 }
     (s l).gang? 7 = some l ∧ (s l).gang? 8 = none ∧ l.st = .gang ∧ l.gate ≠ none ∧ l.tgo = none ∧ (s l).due.arg2 ∉ l.ready ∧
     (∀ m ∈ l.gmem, m = (s l).due.arg2 ∨ m ∈ l.ready) ∧ (∃ m ∈ (0 :: [2]), m ≠ (s l).due.arg2 ∧ m ∉ l.ready) ∧ (s l).launch? 0 = some l ∧
     (s l).agenda = [] ∧ ({ l with tgo := some 5 } : Launch).tgo ≠ none ∧ ¬(s l).now < aget 0 (s l).gangsOut 7 ∧
     ({ s l with gangsOut := [(7, 1)] } : State).now < aget 0 ({ s l with gangsOut := [(7, 1)] } : State).gangsOut 7) := by
  refine ⟨?_, ?_, ?_, saving_may, ?_⟩ <;> and_intros <;> decide +kernel

/-- The host before and after READY, at a doorbell, at a page it may and may not read; an image whose signature the opaque
verifier settles one way or the other; no reload pending. -/
theorem witness_BoardEvents :
    (let s := { issuing 0 [] with luvex := { Luvex.reset with boot := .ready }, pop := [0x1000000]
                                  access := [(0, [{ r := true, w := true, exo := false, master := 8, base := 0, limit := 0x1000 }])] }
     let d := s.about { id := 1, wr := true, bytes := [0, 0, 0, 0], arg := 0x1FFF }
     let h := s.about { arg2 := 64 }
     (issuing 0 []).luvex.boot ≠ .ready ∧ d.luvex.boot = .ready ∧ d.due.id = 1 ∧ d.due.wr = true ∧ d.due.bytes.length = 4 ∧ 0x1000 ≤ d.due.arg ∧ d.due.arg < 0x2000 ∧
     (s.about { id := 1, arg := 0x2000 }).due.wr = false ∧ (s.about { id := 1, arg := 0xFFF, arg2 := 4 }).due.arg < 0x1000 ∧ h.due.id = 0 ∧ h.due.wr = false ∧ h.due.arg2 = 64 ∧ h.due.arg % 64 = 0 ∧
     h.allowedRun 0 64 8 false .r = true ∧ h.corr = [] ∧ ({ h with access := [] } : State).allowedRun 0 64 8 false .r = false ∧ h.conflict .host .load (h.outerGrans 0) = none ∧
     (∀ i, i < 64 → h.accGlobal (0 + i) 1 = false) ∧
     h.poisoned 0 64 = none ∧ h.agenda = [] ∧ Memory.wf h.mem = true) ∧
    (∃ s : State, s.conflict .host .load (s.outerGrans 0x4000) ≠ none) := by
  refine ⟨?_, tagged, ?_⟩ <;> and_intros <;> decide +kernel

theorem witness_SystemRegisters :
    (0x101 : BitVec 16) ≠ 0x162 ∧ (0x101 : BitVec 16) ≠ 0x173 ∧ (5 : Nat) < 6 ∧ ((issuing 0 []).about { arg := 0x176 }).due.arg = 0x176 ∧
    ((issuing 0 []).about { arg := 0x111, word := 0x60 }).due.arg = 0x111 ∧ (15 : Nat) < 16 ∧
    (0x1000 : Word).toNat % 64 = 0 ∧ ((issuing 0 []).ctx ((issuing 0 []).die 0).wselCtx.toNat).status = .current ∧
    (((issuing 0 []).modCur fun c => { c with status := .parked .trap }).ctx 0).status = .parked .trap := by decide +kernel

/-- A unit's numbers at the bound, a unit in each state, a copy that holds back a bound table, a context number at each bound, targets in each state. -/
theorem witness_RepairActionsAndContextControl :
    (let s := fun (x : UnitSt) (u : Nat) => ({ issuing 0 [] with depots := Vector.replicate 16 x, guest := { Guest.none with st := x } } : State).about { id := u, arg := 0x173, arg2 := 1, word := BitVec.ofNat 64 (u + 2 * 2 ^ 8) }
     (s .serving 80).due.arg = 0x173 ∧ (s .serving 80).due.arg2 ≠ 0 ∧ (s .serving 80).due.word.toNat % 2 ^ 7 ≤ 80 ∧
     80 < (s .serving 81).due.word.toNat % 2 ^ 7 ∧ (s .serving 80).due.id ≤ 80 ∧ (s .serving 80).unitSt 80 = .serving ∧
     (s .draining 79).unitSt 79 = .draining ∧ (s .draining 79).unitIdle 79 = true ∧ (s .offline 64).unitSt 64 = .offline) ∧
    (let s := fun (x : Status) (t : Nat) => { issuing 0 [(1, BitVec.ofNat 64 t)] with
       ctxs := (issuing 0 [(1, BitVec.ofNat 64 t)]).ctxs ++ [(t, { Ctx.idle with status := x })] }
     ¬(2 ^ 13 < 2 ^ 13) ∧ ¬(0x60 / 16 % 8 < 6) ∧ 0x1FDF < 2 ^ 13 ∧ 0x1FDF / 16 % 8 < 6 ∧
     ((s .ready 0x1FDF).ctx ((s .ready 0x1FDF).rs 1).toNat).status = .ready ∧
     ((s (.parked .trap) 0x1FDF).ctx 0x1FDF).status = .parked .trap ∧ ((s (.parked .preempted) 5).ctx 5).status = .parked .preempted ∧
     ((s (.parked .trap) 5).ctx 5).cons = none ∧ 5 ≠ (s (.parked .trap) 5).iss.ctx ∧ chkKey 5 ∉ (s (.parked .trap) 5).poison ∧
     chkKey 5 ∈ ({ s (.parked .trap) 5 with poison := [chkKey 5] } : State).poison) ∧
    (∃ x ∈ ({ issuing 0 [] with cmds := [command (.copy 0 0 0 0) 1] } : State).cmds, x.ofEngine (1 - 1) = true) := by
  refine ⟨?_, ?_, _, List.Mem.head _, ?_⟩ <;> decide +kernel

/-- Two members of a consist, the first one behind a checkpoint of the second, and a third that is DONE. -/
def trio (exec : Bool) : State :=
  let x := fun (n : Nat) => { Ctx.idle with status := .current, cons := some 7, cpos := n, exec := exec, evec := 0x40 }
  { State.reset with
    ctxs := [(0, x 0), (1, { x 1 with chkNo := 1, olds := [{ no := 0, vis := Vis.launch, pc := 0x20, cf := 0, until_ := 0 }] }),
             (2, { x 2 with status := .done })]
    consists := [{ id := 7, launch := 0, members := [0, 1, 2], skew := 0, beats := 0, hold := none, log := [] }]
    sys := { Sys.reset with trapEn := exec } }

/-- A consist with a member to be recalled, one that is DONE; the same with every live member at one checkpoint. -/
theorem witness_consist (exec : Bool) :
    ((trio exec).ctx 1).exec = exec ∧ ((trio exec).ctx 1).cons = some 7 ∧ ((trio exec).consists.find? (·.id = 7)).isSome = true ∧
    [0, 1, 2].Nodup ∧ 1 ∈ [0, 1, 2] ∧ ((trio exec).ctx 2).status = .done ∧ ((trio exec).ctx 0).status ≠ .done ∧ (trio exec).poison = [] ∧
    (trio exec).consistChk 1 = 0 ∧ ((trio exec).ctx 1).chkNo = 1 ∧
    (((trio exec).ctx 1).olds.find? fun o => o.no = 0 && decide (0 < 1)).isSome = true ∧ (trio exec).sys.ringOpen = exec ∧ (trio exec).ringBad = false ∧
    (let s := (trio exec).modCtx 1 fun c => { c with chkNo := 0 }
     (s.ctx 0).evec ≠ 0 ∧ (s.ctx 1).evec ≠ 0 ∧ (s.ctx 1).inh = false ∧ (s.ctx 0).chkNo = s.consistChk 1 ∧ (s.ctx 1).chkNo = s.consistChk 1) := by
  revert exec; decide +kernel

/-- A kernel context, an executive one; the ring open, full and disabled. -/
theorem witness_TrapOnAKernelContext :
    (let s := { issuing 0 [] with sys := { Sys.reset with trapEn := true } }
     Memory.wf s.mem = true ∧ (s.ctx 0).exec = false ∧ (s.ctx 0).cons = none ∧ (0x05 : BitVec 8) ≠ 0x10 ∧ s.sys.ringOpen = true ∧ s.ringBad = false ∧
     chkKey 0 ∉ s.poison ∧ s.migs = [] ∧ (∀ i, i < 64 → ∀ u, targetOf (s.sys.trapBase.toNat + 64 * (s.sys.trapWr.toNat % 2 ^ s.sys.trapLog2n) + i) = some u → u < 26)) ∧
    (issuing 0 []).sys.ringOpen = false ∧
    ({ Sys.reset with trapEn := true, trapWr := 0x4000 } : Sys).ringOpen = false := by decide +kernel

theorem witness_TrapOnAnExecutiveContext :
    (let s := fun (inh : Bool) (epc : Word) => (issuing 0 []).modCur fun c => { c with exec := true, inh := inh, evec := 0x40, epc := epc }
     ((s true 0).ctx 0).exec = true ∧ ((s true 0).ctx 0).cons = none ∧ ((s true 0).ctx 0).inh = true ∧ ((s false 0).ctx 0).inh = false ∧
     ((s false 0).ctx 0).evec ≠ 0 ∧ chkKey 0 ∉ (s false 0).poison ∧ chkKey 0 ∈ ({ s false 0 with poison := [chkKey 0] } : State).poison ∧
     ({ kind := 3, pc := 0 } : TrapInfo).key ≠ chkKey 0 ∧ (0x03 : BitVec 8) ≠ 0x10 ∧ ((s true 0x20).cur.epc.toNat / 2 ^ 56 = 0 ∧ (s true 0x20).cur.epc.toNat % 32 = 0) ∧
     ¬((s true 0x21).cur.epc.toNat / 2 ^ 56 = 0 ∧ (s true 0x21).cur.epc.toNat % 32 = 0)) := by decide +kernel

/-- A store and an atomic at the top of the scratchpad. -/
theorem witness_ReleasedStoresAndAtomics :
    (let s := issuing 6 []
     let ea : Word := 0x1000000007FFFF8
     let bs : List (Nat × Byte) := [(ea.toNat, 7), (ea.toNat, 8)]
     Memory.wf s.mem = true ∧ bs ≠ [] ∧ (∀ p ∈ bs, p.1 < 2 ^ 64 ∧ spaceOf (BitVec.ofNat 64 p.1) = .localSp 0x7FFFF8) ∧
     s.isBarrier 0 0x7FFFF8 = false ∧ s.syncAt 0 0x7FFFF8 = false ∧ s.migs = [] ∧ s.homeCheck 0 .store 0 6 (bs.map fun p => BitVec.ofNat 64 p.1) = none ∧
     s.cur.winq = [] ∧ s.agenda = [] ∧ s.cmds = [] ∧ s.l2q = [] ∧ s.iss.ctx < 2 ^ 13 ∧ s.cur.remote = [] ∧ (windowed [1]).cur.remote = [1] ∧
     0x7FFFF8 + 8 ≤ 2 ^ 23 ∧ s.homeCheck 0 .atomic 0 6 (eaRun ea 8) = none) := by decide +kernel

/-- A tag in each state, its party the accessing one and another; a granule that admits a load and one that does not. -/
theorem witness_RaceTagTable :
    (let t := fun st => ({ st := st, id := some (.ctx 0 1), ph := 0 } : Tag)
     (t .written).id = some (.ctx 0 1) ∧ (t .written).id ≠ some (.ctx 0 2) ∧ (t .written).st = .written ∧ (t .read1).st = .read1 ∧
     (t .readN).st = .readN ∧ (t .atomic).st = .atomic ∧ (t .none).st = .none ∧
     (∀ g ∈ ([{ space := 0, n := 1, ph := 0 }] : List Gran), (g.space, g.n) ≠ (0, 2)) ∧
     (issuing 6 []).conflict (.ctx 0 1) .load [{ space := 0, n := 1, ph := 0 }] = none ∧
     (({ issuing 6 [] with tags := [((0, 1), t .atomic)] } : State).conflict (.ctx 0 2) .load [{ space := 0, n := 1, ph := 0 }]).isSome = true) := by decide +kernel

/-- The least subnormal, 1.0 and the greatest number of f32; of bf16 and f16 the greatest. -/
theorem witness_RepresentableValuesRoundToThemselves :
    decodeF fmtF32 1 = .fin false 1 (-149) ∧ decodeF fmtF32 0x3F800000 = .fin false 0x800000 (-23) ∧ decodeF fmtF32 0xFF7FFFFF = .fin true 0xFFFFFF 104 ∧
    decodeF fmtBf16 0x7F7F = .fin false 255 120 ∧ decodeF fmtF16 0x7BFF = .fin false 2047 5 ∧ 0xFF7FFFFF < 2 ^ (1 + fmtF32.eb + fmtF32.mb) := by decide +kernel

theorem witness_SpecialFunctionResults :
    decodeF fmtF32 0x40000000 = .fin false 0x800000 (-22) ∧ decodeF fmtF32 0x80000000 = .fin true 0 (-149) ∧ decodeF fmtF32 0xFF800000 = .inf true ∧
    decodeF fmtF32 0xC3150000 = .fin true 0x950000 (-16) ∧ -(0x950000 : Int) = -149 * 2 ^ 16 ∧ decodeF fmtF32 0x42FE0000 = .fin false 0xFE0000 (-17) ∧
    (0xFE0000 : Int) = 127 * 2 ^ 17 ∧ decodeF fmtF32 0x4F000000 = .fin false 0x800000 8 ∧
    (0x7F800000 < 2 ^ (fmtF32.eb + fmtF32.mb) ∧ (decodeF fmtF32 0x7F800000).isNan = false) := by decide +kernel

/-- The 65 words of a table at the foot of the scratchpad. -/
theorem witness_SkinkPointsScramblesAndTables :
    ∀ i, i < 65 * ((0 : BitVec 5).toNat + 1) →
      ∃ x, (issuing 5 [(1, 0x100000000000000)]).loadsLocal 4 ((issuing 5 [(1, 0x100000000000000)]).rs 1 + BitVec.ofNat 64 (4 * i)) x := by
  intro i h
  refine ⟨4 * i, ?_⟩
  unfold State.loadsLocal
  revert i
  decide +kernel

/-- No clear in flight, and one that stands last. -/
theorem witness_HistogramResults :
    (∀ q ∈ (issuing 5 []).cur.pend, ¬∃ b', q.eff = .histClear b') ∧
    (let q : Pending := { at_ := 2, inChk := false, eff := .histClear 5 }
     ((issuing 5 []).modCur fun c => { c with pend := [q] }).cur.pend = [] ++ q :: [] ∧ q.eff = .histClear 5) ∧ (63 : Nat) < 64 := by
  refine ⟨?_, by decide +kernel, by decide⟩
  have e : (issuing 5 []).cur.pend = [] := by decide +kernel
  rw [e]
  intro q h
  cases h

/-- A count that is enough below the base, in the first bin, in none; a block of the layout that fits. -/
theorem witness_ScaleChoiceAndPackedBlock :
    (let enough := fun (n total rs : Nat) => min rs 256 * total ≤ 256 * n
     enough 0 0 256 ∧ ¬enough 0 1 1 ∧ enough 1 1 256 ∧ ¬enough 1 3 256) ∧
    (encodeBlock 1 127 124 [fun _ => .fin false 0 0]).blk < 2 ^ 512 := by decide +kernel

/-- `add s5, s1, s2` alone in the bundle that context 0, CURRENT on core 0, issues next. -/
def running (w : Nat) : State :=
  let s := State.reset.withFetchWord 32 w
  { s.modCtx 0 (fun c => { c with status := .current, vis := visWith [(1, 3), (2, 4)], chk := visWith [(1, 3), (2, 4)] }) with
    cores := [(0, { Core.reset with cur := some 0 })] }

theorem witness_ResultsPostedAndArriving : (23#5).toNat < 24 ∧ (47 : Nat) < 48 ∧ (1 : Nat) ≠ (issuing 0 []).iss.ctx := by decide

theorem witness_StepOrder :
    (let s := running 0x04A11000
     let p : Pending := { at_ := 0, inChk := false, eff := .sreg 1 5 }
     let none_ := { s with turns := [] }
     let r : HomeReq := { ctx := 0, at_ := 0, entry := { pc := 0, slot := 6, k := .store [(0x4000, 7)] 0 0, ord := 0 } }
     let a : Agendum := { at_ := 0, ev := .famoArrival, due := {} }
     s.fatal = none ∧ s.arriving = none ∧ s.dueEvent = none ∧ s.turns = 0 :: [] ∧ (s.modCtx 0 fun c => { c with pend := [p] }).arriving = some 0 ∧
     (State.reset.arriving = none ∧ State.reset.dueEvent = some ({ at_ := 0, ev := .coldReset, due := {} }, [])) ∧
     none_.turns = [] ∧ none_.homeNext = none ∧ (∀ g ∈ none_.tags, g.1.1 = 0) ∧
     (none_.claims.map fun r => r.1.ctxid.toNat).Pairwise (· ≤ ·) ∧ ({ none_ with l2q := [r] } : State).mayLeave r = true ∧
     (({ none_ with l2q := [r] } : State).homeNext = some (.entry r) ∧ ({ none_ with l2q := [r] } : State).dueEvent = none) ∧
     (({ none_ with agenda := [a] } : State).homeNext = some (.event a) ∧ ({ none_ with agenda := [a] } : State).dueEvent = none) ∧
     ({ s with fatal := some 1 } : State).comingReset = none) := by
  and_intros <;> decide +kernel

theorem witness_StepRunsTheDecodedBundle :
    (let s := running 0x04A11000
     let s0 := { (if s.opened then s else { s with opened := true, memCyc := s.mem, pubs := s.cyclePubs }) with turns := [] }
     let s1 := s0.modCtx 0 fun x => { x with wdog := x.wdog + 1 }
     s.fatal = none ∧ s.arriving = none ∧ s.dueEvent = none ∧ s.turns = 0 :: [] ∧ (s.ctx 0).cons = none ∧ (s.core 0).hold = none ∧
     (s.core 0).cur = some 0 ∧ (∀ i, i < 4 → (s.ctx i).isBlocked = false) ∧ (s1.ctx 0).candidate s.now = true ∧ regKey 0 ∉ s.poison ∧
     (s1.ctx 0).deferred = [] ∧
     (match s1.fetch 0 with
      | .trap _ => false
      | .ok ws e =>
        match decodeBundle ws with
        | .error _ => false
        | .ok is =>
          let m := e.addr (s1.ctx 0).pc.toNat
          let s2 := ((((s1.learn e).heat m e.leaf).corrected 0 (m / 64 * 64) 64).corrected 0 (regKey 0) 1).modCtx 0 fun x => { x with wait := some (x.wait.getD s1.now) }
          let runs := fun (l : List (Nat × Instr)) => l.foldl (fun (r : State × Bool) ki =>
            match exec ki.2 { r.1 with iss := { r.1.iss with slot := ki.1, sig := .ok } } with
            | .next t => (t, r.2 && decide (t.iss.sig = .ok))
            | _ => (r.1, false)) (s2.beginBundle 0 ws is false false, true)
          is.length = 8 && is.all (fun i => !i.privileged) &&
          bankStall ((s2.beginBundle 0 ws is false true).bundleAddrs is) +
            s2.groupWait (clOf 0) ((s2.beginBundle 0 ws is false true).bundleAddrs is) s2.now == 0 &&
          (runs (earlySlots is ++ lateSlots is)).2 && decide ((s2.ctx 0).wdog ≠ s2.wdogOf 0) && !((runs (earlySlots is)).1.ctx 0).overfull) = true) := by
  and_intros <;> decide +kernel

/-- R76, R87, R98 and R100: a step at that state posts 3 + 4 for s5 and passes control to the next bundle. -/
theorem test_step_runs_add :
    (match step (running 0x04A11000) with
     | .next t => (t.ctx 0).pend.map (·.eff) == [.sreg 5 7] && decide ((t.ctx 0).pc = ((running 0x04A11000).ctx 0).pc + 32)
     | _ => false) = true := by decide +kernel

/-- The host's entry: the word runs as the first instruction after reset. -/
theorem test_fetch_word : decodeTableWord 32 0x04A11000 = some (.add 5 1 2 false) ∧
    (match step (State.reset.withFetchWord 32 0x04A11000) with
     | .next t => (t.ctx 0).pend.map (·.eff) == [.sreg 5 0]
     | _ => false) = true := by decide +kernel

/-- A word that no rule assigns, and a privileged word in a kernel context. -/
theorem witness_IllegalAndPrivilegedBundlesTrap :
    regKey 0 ∉ (running 0x03FF8000).poison ∧
    (match (running 0x03FF8000).fetch 0 with
     | .ok ws _ => decide (decodeBundle ws = .error 0)
     | .trap _ => false) = true ∧
    (match ((running 0xC0000000).modCtx 0 fun c => { c with exec := false }).fetch 0 with
     | .ok ws _ => (match decodeBundle ws with
       | .ok is => decide ((is.getD 0 .nop).privileged = true)
       | .error _ => false)
     | .trap _ => false) = true ∧ (((running 0xC0000000).modCtx 0 fun c => { c with exec := false }).ctx 0).exec = false := by decide +kernel

theorem witness_EveryStepKeepsMemoryCanonical :
    MemoryCanonical (running 0x04A11000) ∧ (match step (running 0x04A11000) with
      | .next _ => true
      | _ => false) = true := by
  refine ⟨⟨by decide +kernel, by decide +kernel, by decide +kernel⟩, by decide +kernel⟩

set_option maxRecDepth 100000 in
theorem witness_EncodedWords :
    ((Instr.add 31 31 7 true).wf = true ∧ (Instr.add 31 31 7 true).cls = some .scalar ∧ (encode (.add 31 31 7 true)).isSome = true) ∧
    ((Instr.vfma 15 15 15 15 23 .f32 true).wf = true ∧ (Instr.vfma 15 15 15 15 23 .f32 true).cls = some .vector ∧
      (encode (.vfma 15 15 15 15 23 .f32 true)).isSome = true) ∧
    ((Instr.qpack 15 15 15 23 .bf16 3).wf = true ∧ (Instr.qpack 15 15 15 23 .bf16 3).cls = some .xclass ∧
      (encode (.qpack 15 15 15 23 .bf16 3)).isSome = true) ∧
    ((Instr.amo 31 31 31 .ar .sys true .xchg).wf = true ∧ (Instr.amo 31 31 31 .ar .sys true .xchg).cls = some .memory ∧
      (encode (.amo 31 31 31 .ar .sys true .xchg)).isSome = true) ∧
    decode .scalar 0x04A11000 = .ok (.add 5 1 2 false) := by decide

/-- A parked target beside the issuing context, and room for its image at scratchpad byte 0; the transfer has ended. -/
def imaging : State :=
  let s := issuing 6 [(1, 5), (2, 0x100000000000000)]
  { s with ctxs := s.ctxs ++ [(5, { Ctx.idle with status := .parked .trap })], iss := { s.iss with held := true } }

theorem imaging_guarded (ea : Word) : imaging.guarded 0 ea = false := by
  have hc : imaging.cmds = [] := rfl
  have hk : ∀ q, imaging.core q = Core.reset := fun _ => rfl
  have hm : Core.reset.mx = [] := rfl
  unfold State.guarded
  split <;> simp [State.consumed, State.arrayLocal, State.accumulates, State.arrayGlobal, hc, hk, hm]

theorem imaging_page (w : Who) (va : Nat) : imaging.page? w va = none := rfl

theorem imaging_tag (g : Gran) : (imaging.tag g).st = .none := by
  have h : imaging.tags = [] := rfl
  simp only [State.tag, h]
  split <;> rfl

theorem imaging_gran (ea : Word) (va : Nat) (h : spaceOf ea = .global va) : imaging.granAt 0 ea = none := by
  simp [State.granAt, h, imaging_page]

theorem imaging_home : imaging.homeCheck 0 .store 0 6 (eaRun 0x100000000000000 57856) = none := by
  unfold State.homeCheck
  simp only [Option.or_eq_none_iff, Option.map_eq_none_iff, List.find?_eq_none, List.findSome?_eq_none_iff, imaging_guarded]
  refine ⟨by simp, fun ea _ => ?_⟩
  split
  · rename_i va h
    simp [imaging_gran _ _ h]
  · cases hg : imaging.granAt 0 ea with
    | none => rfl
    | some g => simp [Tag.step, imaging_tag]

theorem imaging_trap : imaging.imageTrap 0x100000000000000 = none := by
  unfold State.imageTrap
  simp only [List.findSome?_eq_none_iff, imageAddrs, List.mem_map]
  rintro _ ⟨i, hi, rfl⟩
  have hs : ∀ i ∈ List.range 904, spaceOf (0x100000000000000 + BitVec.ofNat 64 (64 * i)) = .localSp (64 * i) := by decide +kernel
  have hp : ∀ a, imaging.platAt (clOf imaging.iss.ctx) a = none := fun _ => rfl
  have hd : imaging.detOf imaging.iss.ctx = false := by decide +kernel
  have hg : ∀ ea, imaging.guarded imaging.iss.ctx ea = false := imaging_guarded
  have e := hs i hi
  generalize (0x100000000000000 : Word) + BitVec.ofNat 64 (64 * i) = a at e ⊢
  simp [e, State.storeTrap, State.storeWindow, State.storeLocal, hg, hp, hd]

theorem imaging_length : ((imaging.modCtx 5 Ctx.settled).image 5).length = 57856 := by
  have hb : ∀ n x, (leBytes n x).length = n := by
    intro n
    induction n with
    | zero => intro x; rfl
    | succ n ih => intro x; simp only [leBytes, List.length_cons, ih]
  have h : ((imaging.modCtx 5 Ctx.settled).ctx 5).chk = Vis.launch := rfl
  have hq : ((imaging.modCtx 5 Ctx.settled).ctx 5).evq = [] := rfl
  have hl : Vis.launch.loops = [] := rfl
  have hs : Vis.launch.steps = [] := rfl
  unfold State.image
  simp only [h, hq, hl, hs, LoopEntry.bytes, SkinkDim.bytes, List.length_append, List.length_flatMap, hb, List.map_const', List.sum_replicate,
    List.length_replicate, Vector.length_toList]
  rfl

theorem imaging_granule (i : Nat) (h : i < 904) : ∃ y, imaging.loadsLocal 64 (0x100000000000000 + BitVec.ofNat 64 (64 * i)) y := by
  have e : ∀ i, i < 904 → spaceOf (0x100000000000000 + BitVec.ofNat 64 (64 * i)) = .localSp (64 * i) ∧
      ((0x100000000000000 + BitVec.ofNat 64 (64 * i) : Word).toNat) % 64 = 0 := by decide +kernel
  have hp : ∀ a, imaging.platAt (clOf imaging.iss.ctx) a = none := fun _ => rfl
  refine ⟨64 * i, (e i h).1, (e i h).2, ⟨?_, rfl, rfl⟩, ⟨rfl, fun _ h => (by cases h)⟩, false, fun _ _ => rfl, ?_⟩
  · simp [State.accumulates, show imaging.cmds = [] from rfl]
  · simp [hp, State.conflict, imaging_tag, Tag.step]

theorem witness_ContextImages :
    (imaging.rs 1).toNat < 2 ^ 13 ∧ (imaging.rs 1).toNat / 16 % 8 < 6 ∧ (imaging.ctx 5).saveable = true ∧ imaging.busyTarget 5 = false ∧
    5 ≠ imaging.iss.ctx ∧ imaging.rs 2 = 0x100000000000000 ∧ spaceOf 0x100000000000000 = .localSp 0 ∧ 0 + 57856 ≤ 2 ^ 23 ∧
    Memory.wf imaging.mem = true ∧ imaging.migs = [] ∧ (imaging.ctx 5).cons = none ∧ (imaging.ctx 5).resumable = true ∧
    imaging.transferring = false ∧ chkKey 5 ∉ imaging.poison ∧ chkKey 5 ∈ ({ imaging with poison := [chkKey 5] } : State).poison ∧
    imaging.cur.winq = [] ∧ imaging.iss.ctx < 2 ^ 13 ∧ imaging.cur.remote = [] ∧ (∀ i, i < 57856 → imaging.isBarrier 0 (0 + i) = false) ∧
    ∀ i, i < 904 → ∃ y, imaging.loadsLocal 64 (0x100000000000000 + BitVec.ofNat 64 (64 * i)) y := by
  and_intros
  all_goals first | exact imaging_granule | exact fun _ _ => rfl | decide +kernel

/-! ### The assembler (R95, R96, R109) -/

/-- The source line `addi s3, s1, -2 | movl s4, 200000000` of the assembly chapter, with its eight words. -/
theorem test_assemble_literal :
    assembleBundle [{ i := .addi 3 1 0, imm := some (-2) }, { i := .movl 4 0, imm := some 200000000 }] =
      some [0x2061FFFE, 0x3C803C00, 0, 0, 0, 0, 0, 0xEBEBC200] := by decide +kernel

/-- A value of more than 29 bits takes slots 6 and 7; a value of more than 58 bits is rejected; a shift amount of 64 is
rejected. -/
theorem test_assemble_pair_and_rejections :
    ((assembleBundle [{ i := .movl 4 0, imm := some (2 ^ 29 + 5) }]).map fun ws => (ws.getD 0 0, ws.drop 6)) =
      some (0x3C803400, [0xE0000005, 0xE0000001]) ∧
    assembleBundle [{ i := .movl 4 0, imm := some (2 ^ 57) }] = none ∧
    assembleBundle [{ i := .shl 4 1 0 false, imm := some 64 }] = none := by decide +kernel

/-! ### Witnesses of further clauses -/

/-- Patterns of f32 below 2^32: two NaNs, an infinity, zeros and numbers, in either order of a compare and in each class; the values
that a conversion meets; an integer out of another type's range. -/
theorem witness_FloatCases :
    (Ty.f32.isFloat = true ∧ 0x7F800001 < 2 ^ Ty.f32.width) ∧ (decodeF fmtF32 0x7F800001).isNan = true ∧ (decodeF fmtF32 0x7F800001).isSnan = true ∧
    (∃ m, decodeF fmtF32 0xFFC00001 = .nan true m) ∧ decodeF fmtF32 0xFF800000 = .inf true ∧ decodeF fmtF32 0x80000000 = .fin true 0 (-149) ∧
    (decodeF fmtF32 0x3F800000).below (decodeF fmtF32 0x7F800000) = true ∧ (decodeF fmtF32 0x80000000).below (decodeF fmtF32 0) = false ∧
    (decodeF fmtF32 0xBF800000).below (decodeF fmtF32 0x80000000) = true ∧ (decodeF fmtF32 0x7F800001).below (decodeF fmtF32 0) = false ∧
    decodeF fmtF32 0x3F800000 = .fin false 0x800000 (-23) ∧ (0x800000 : Nat) ≠ 0 ∧ toSigned 8 0x80 = -128 := by
  and_intros
  any_goals decide +kernel
  exact ⟨_, rfl⟩

/-- A lead, and a member that agrees with its lead's outcome, of `br` and of a `loop` with the same count; a body that ends beyond
the enclosing one is none of theirs. -/
theorem witness_ConsistOutcomes :
    (let s := { following with iss := { Issue.none with ctx := 0 } }
     s.cur.cons = some 7 ∧ s.cur.cpos = 0 ∧ (s.consists.find? (·.id = 7)).isSome = true) ∧
    (let s := following.modCur fun c => { c with vis := visWith [(1, 1)] }
     s.cur.cons = some 7 ∧ s.cur.cpos ≠ 0 ∧ (∃ x, s.consists.find? (·.id = 7) = some x ∧ x.log[s.cur.cfCount]? = some (s.rs 1)) ∧ s.rs 1 = 1 ∧
     s.rs 2 ≠ 1 ∧ s.rs 1 ≠ 0 ∧ s.cur.vis.loops.length < 4 ∧ ¬(∃ e r, s.cur.vis.loops = e :: r)) := by
  refine ⟨by decide +kernel, by decide +kernel, by decide +kernel, ⟨_, rfl, by decide +kernel⟩, ?_⟩
  and_intros
  any_goals decide +kernel
  rintro ⟨e, r, h⟩
  cases h

/-- A release that its home's check rejects: the store's page is translated and the access table refuses it. -/
theorem witness_ReleaseRejected :
    (let s := { mapped true 0 [] with access := [], tlb := [] }.modCur fun c => { c with walked := [4], wb := [{ pc := 0, slot := 6, k := .store [(0x4000, 7)] 0 0, ord := 0 }] }
     s.iss.held = false ∧ s.walksNeeded s.cur.wb = [] ∧ (s.releaseFault s.cur.wb).isSome = true) := by decide +kernel

/-- A byte of a platform's published front, a SYNC byte of the scratchpad, and a load that its bundle takes later. -/
theorem witness_LoadsOfPlatformsAndSync :
    (let p : Platform := { declared with st := .full }
     let s := platformed p (issuing 6 [(1, 0x100000000000000)])
     s.loadsLocal 8 (s.rs 1) 0 ∧ s.platAt 0 0 = some 0 ∧ ¬(platformed declared (issuing 6 [(1, 0x100000000000000)])).loadsLocal 8 0x100000000000000 0) ∧
    (let s := { issuing 6 [(1, 0x100000000000040)] with clusters := [(0, { Cluster.reset with regions := [{ kind := .sync, base := 0x40, size := 64 }] })] }
     s.loadsLocal 8 (s.rs 1) 0x40 ∧ s.syncAt 0 0x40 = true) ∧
    (let s := windowed [1]
     (∀ k ∈ activeLanes 8 (1 : PReg), ∃ v a, s.loadsWindow 1 (s.rs 1 + BitVec.ofNat 64 k) v a) ∧ activeLanes 8 (1 : PReg) ≠ []) ∧
    (let s := issuing 6 [(1, 0x1000000007FFFF8)]
     let t := { s with iss := { s.iss with stall := true } }
     let u := { s with iss := { s.iss with late := true } }
     t.loadsLocal 8 (t.rs 1) 0x7FFFF8 ∧ t.iss.stall = true ∧ u.loadsLocal 8 (u.rs 1) 0x7FFFF8 ∧ u.iss.late = true ∧ s.iss.stall = false ∧ s.iss.late = false) ∧
    (let s := { windowed [1] with iss := { (windowed [1]).iss with acq := true, view := [(spKey 0 0x40, 7)] } }
     s.keyAt s.iss.ctx (s.rs 1) = some (spKey 0 0x40) ∧ s.iss.acq = true ∧ s.iss.paid = none ∧ (s.win s.iss.ctx 0).mod = s.modNo ∧
     s.platAt (s.win s.iss.ctx 0).peer 0x40 = none ∧ s.iss.view = [] ++ (spKey 0 0x40, 7) :: []) ∧
    (let s := (mapped true 6 [(1, 0x4008)]).modCur fun c => { c with checked := [(0x100, [1, 2])] }
     s.keyAt s.iss.ctx (s.rs 1) = some 0x4008 ∧ s.cur.checked.find? (fun x => x.1 = lineOf 0x4008 && decide (x.2 ≠ [])) = some (0x100, [1, 2]) ∧
     s.iss.view = [] ∧ s.iss.paid = none) := by
  and_intros
  any_goals decide +kernel
  have e : activeLanes 8 (1 : PReg) = [0] := by decide +kernel
  rw [e]
  intro k hk
  rw [List.mem_singleton.mp hk]
  exact ⟨0, 0x40, by decide +kernel⟩

/-- A context in deterministic mode: an atomic on its own scratchpad and on a SYNC page, and a gather that is full. -/
theorem witness_DeterministicAtomics :
    (let s := deterministic
     s.detOf s.iss.ctx = true ∧ spaceOf 0x100000000000040 = .localSp 0x40 ∧ s.storeTrap 2 8 0x100000000000040 = none ∧
     s.gathering < 476 ∧ s.sound (spKey 0 0x40)) ∧
    (let f : Gathered := { loc := 0, bar := 0, ty := .f32, l := 0, x := 0, ord := 0, ctx := 0 }
     let s := { deterministic with clusters := [(0, { Cluster.reset with launch := some 0, famo := List.replicate 476 f })] }
     s.detOf s.iss.ctx = true ∧ 476 ≤ s.gathering) ∧
    (let s := { mapped true 6 [(1, 0x4000)] with launches := [detLaunch], clusters := [(0, { Cluster.reset with launch := some 0 })]
                                                 ctxs := [(0, { Ctx.idle with status := .current, launch := some 0, startCycle := some 0, vis := visWith [(1, 0x4000)] })] }
     let e : Tlb := { asid := 0, va := 0x4000, size := 4096, frame := 0x4000, leaf := 0x404D }
     s.detOf s.iss.ctx = true ∧ s.nameable { win := false } 8 (s.rs 1) = true ∧ s.translate (s.who s.iss.ctx) 0x4000 .rw = .ok 0x4000 e ∧
     e.sync = true ∧ s.storeWindow 8 (s.rs 1) 2 = none ∧ s.inL1 s.iss.ctx 0x100 = true ∧ s.poisoned 0x4000 64 = none) := by
  and_intros <;> decide +kernel

/-- A phase whose last count is a delivery; an atomic behind a fence that its context's earlier atomics are past. -/
theorem witness_DeliveryCompletesPhase :
    (let w := 2 ^ 32
     w / 2 ^ 32 % 2 ^ 16 = 1 ∧ w / 2 ^ 16 % 2 ^ 16 = 0) ∧
    (let s := issuing 6 []
     s.iss.held = false ∧ s.atomFenced s.iss.ctx true = false) ∧
    ((3 : Nat) < 4 ∧ ((issuing 6 []).core 0).mx.countP (fun o => !o.fed) < 3) := by decide +kernel

/-- Templates that each group of the checks of R232 refuses, and one that none does. -/
theorem witness_CopyChecks :
    (let raw := fun (x : Nat) => tmplOf (BitVec.ofNat 256 (0x100000000001000 + x))
     let ok := raw (2 ^ 96 + 64 * 2 ^ 128)
     (¬(ok.rows = 0 ∨ ok.rbytes = 0 ∨ 2 ^ 21 < ok.rbytes ∨ ok.clean = false) ∧ ok.conv ≤ 6 ∧ ok.rbytes % 1 = 0 ∧ ¬(1 < ok.rows) ∧
      (ok.baren = true → ok.baddr % 16 = 0) ∧ ok.doff + (ok.rows - 1) * ok.dstride + ok.rbytes ≤ declared.half) ∧
     (raw (64 * 2 ^ 128)).rows = 0 ∧ (raw (2 ^ 96)).rbytes = 0 ∧ declared.half < (raw (2 ^ 96 + 128 * 2 ^ 128)).rbytes ∧
     1 < (raw (2 * 2 ^ 96 + 64 * 2 ^ 128)).rows ∧ (raw (2 * 2 ^ 96 + 64 * 2 ^ 128)).dstride < 64 ∧
     Platform.none.decl = false ∧ declared.decl = true) := by decide +kernel

/-- Operands for each way in which the checks of R264 and R257 refuse a sparse operation and an epilogue. -/
theorem witness_MatrixChecks :
    (let f : Platform := { declared with st := .full, half := 8192 }
     let s := matrixed 64 f f { f with base := 0x400000 }
     let t := matrixed 64 Platform.none Platform.none Platform.none
     let h := t.cur.vis.shadow
     t.owns 0 = true ∧ (matrixed 0 f f f).cur.vis.shadow.emxShape.toNat % 2 ^ 16 = 0 ∧ h.emxShape.toNat % 2 ^ 16 = 64 ∧ (t.plat 0 0).decl = false ∧
     (s.plat 0 0).decl = true ∧ (s.plat 0 0).frontAt / 2 ^ 21 = (s.plat 0 1).frontAt / 2 ^ 21 ∧
     ((s.plat 0 0).busy = false ∧ (∀ o ∈ (s.core 0).mx, o.acc ≠ 0) ∧ s.cmds = []) ∧
     h.eepAct.toNat % 16 ≤ 5 ∧ ({ h with eepAct := 6 } : Shadow).eepAct.toNat % 16 = 6 ∧ declared.half < 0 + 31 * 256 + 256 ∧ ¬(f.half < 0 + 31 * 256 + 256) ∧
     s.freeSlots 0 ≠ 0 ∧ (s.modCur fun c => { c with evq := List.replicate 64 { seq := 0, kind := 1 } }).freeSlots 0 = 0) := by decide +kernel

/-- The lines of an access that touches scratchpads too; a card in RD memory with a tag that admits the read and one that forbids
it, and one in memory of neither kind. -/
theorem witness_JointChecksAndCards :
    (let ls := [0x100, 0x101]
     let s := ((mapped false 6 []).modCur fun c => { c with raceAsk := [ls.map (· + jointCheck)] }).about { nats := ls.map (· + jointCheck) }
     s.due.wr = false ∧ ls ≠ [] ∧ (∀ l ∈ ls, l < jointCheck) ∧ s.due.nats ∈ (s.ctx 0).raceAsk ∧
     ∀ l ∈ ls, s.conflict (s.party 0) .load [s.gGran 0 (64 * l)] = none) ∧
    (let l := { detLaunch with pkt := { detLaunch.pkt with cbase := 0x4000, det := false } }
     let e : Tlb := { asid := 0, va := 0x4000, size := 4096, frame := 0x4000, leaf := 0x400D }
     let s := fun (l : Launch) (ts : List ((Nat × Nat) × Tag)) =>
       { mapped false 6 [] with launches := [l], ctxs := [(0, { Ctx.idle with status := .current, launch := some 0, owned := 1 })], tags := ts }
     let rd := { l with pkt := { l.pkt with rdlo := 0x4000, rdhi := 0x5000 } }
     let bad : List ((Nat × Nat) × Tag) := [((1, 0x100), { st := .written, id := some .host, ph := 0 })]
     (s l []).launchOf 0 = some l ∧ (s l []).translate ((s l []).who 0) 0x4000 .r = .ok 0x4000 e ∧ e.sync = false ∧ (s l []).inRd 0 0x4000 = false ∧
     (s rd []).translate ((s rd []).who 0) 0x4000 .r = .ok 0x4000 e ∧ (s rd []).inRd 0 0x4000 = true ∧ (s rd []).poisoned 0x4000 64 = none ∧
     (s rd []).conflict ((s rd []).party 0) .load [(s rd []).gGran 0 0x4000] = none ∧ (s rd bad).inRd 0 0x4000 = true ∧
     ((s rd bad).conflict ((s rd bad).party 0) .load [(s rd bad).gGran 0 0x4000]).isSome = true) := by
  and_intros <;> decide +kernel

/-- A completion word that reads sound and one that cannot be corrected. -/
theorem witness_CompletionWordErrors :
    (let s := mapped true 0 []
     s.sound (0x4000 / 64 * 64) ∧ ({ s with poison := [0x4008] } : State).poisoned (0x4000 / 64 * 64) 64 = some 0x4008) := by decide +kernel

/-- Another module's context asks for a batch's summary before its writes have landed and after; a bound that ends the wait for the
peers of windows 0 and 1. -/
theorem witness_FarSummaries :
    (let y : FarSum := { rank := 512, l := 3, batch := 4, landed := 1, failed := true, asked := none }
     let s := fun (n : Nat) => ({ issuing 6 [] with farSums := [y] } : State).about { arg2 := 1, nats := [512, 3, 4, n] }
     let isOf := fun (z : FarSum) => z.rank = (s 1).due.nats.getD 0 0 && z.l = (s 1).due.nats.getD 1 0 && z.batch = (s 1).due.nats.getD 2 0
     (s 1).due.arg2 = 1 ∧ (s 1).farSums.find? isOf = some y ∧ (s 1).due.nats.getD 3 0 ≤ y.landed ∧ ¬((s 2).due.nats.getD 3 0 ≤ y.landed) ∧
     (∀ z ∈ (s 1).farSums, z.asked = none) ∧ isOf { y with batch := 5 } = false) ∧
    (let b : Batch := { id := 4, tag := 1, closed := true, touched := [0, 1], waiting := [0], errs := 0, key := 0 }
     let s := (issuing 6 []).modCur fun c => { c with status := .ready, batches := [b] }
     (s.ctx 0).batches = [b] ∧ b.closed = true ∧ (s.ctx 0).status = .ready ∧ (s.ctx 0).batches.find? (·.id = 4) = some b ∧
     (b.touched.filter fun w => b.waiting.any (s.samePeer 0 w)) ≠ []) := by decide +kernel

/-- An update whose indices and whose one gradient are read, one after the other; the last row of an update; a row behind an earlier
update of its table; a published entry with no row that waits. -/
theorem witness_UpdateSequences :
    (let blk := updWords ++ [0, 0, 0]
     let x := command (.upd blk false false) 4
     let b := updBlk blk
     let s := (({ tabled [] with cmds := [x] } : State)).about { id := 5 }
     s.cmd? s.due.id = some x ∧ ((s.table? 0 b.tid).map (·.w)) = some 16 ∧ b.npair = 1 ∧
     (match s.cmdRead x b.ibase (idxSize false * b.npair) with
      | .ok ib u => decide (leNat ib < 100) && (match u.cmdRead x (b.gbase + BitVec.ofNat 64 (0 * b.gstr)) (16 * gradSize false) with
        | .ok g v => decide (g.length = 64) && decide (v.cmd? 5 = some x)
        | .fail _ _ _ _ => false)
      | .fail _ _ _ _ => false) = true) ∧
    (let blk := updWords ++ [0, 0, 0]
     let x := command (.upd blk false false) 4
     let u : Upd := { id := 5, nrow := 0, ndrop := 0, fdrop := 0, nskip := 0, fail := 0, flags := 0, rows := [(0, [])] }
     let s := (({ tabled [] with cmds := [x], upds := [u] } : State)).about { id := 5 }
     s.updBefore x (updBlk blk).tid s.due.arg = false ∧ u.rows.find? (·.1 = s.due.arg) = some (s.due.arg, []) ∧ u.rows.filter (·.1 ≠ s.due.arg) = []) ∧
    (let w : HotRow := { tid := 0, row := 0, asid := 0, part := 0, exec := false, va := 0x4000, nblk := 1 }
     let h : HotEntry := { stack := 0, set := 0, way := 0, what := w, pub := none, next := [] }
     let s := { mapped true 6 [] with hot := [h] }
     s.hot.find? (fun h => h.isAt s.due.arg s.due.arg2 s.due.id) = some h ∧ h.next = [] ∧ ({ h with next := [w] } : HotEntry).next = w :: [] ∧
     ((s.rowBlk 0 { asid := 0, part := 0, exec := false } h.what.va).2.page? { asid := 0, part := 0, exec := false } h.what.va).isSome = true) := by
  and_intros <;> decide +kernel

/-- A cancel of a post that has matched, its payload not landed, and of one whose command has ended. -/
theorem witness_CancelOfMatchedPost :
    (let x := command (.rcancel 3) 6
     let y := { command (.rpost []) 6 with id := 2 }
     let s := fun (n : Nat) => (({ issuing 0 [] with cmds := [x, y] } : State).modCur fun c => { c with posts := [(3, 2, n)] }).about { id := 5 }
     (s 1).junctionFirst .cancelArrival = none ∧ (s 1).cmd? 5 = some x ∧ ((s 1).ctx x.ctx).posts.reverse.find? (·.1 = (3 : BitVec 16)) = some (3, 2, 1) ∧
     (s 1).cmd? 2 = some y ∧ y.id ∉ ((s 1).die (dieOf y.ctx)).posts ∧ ((s 2).ctx x.ctx).posts.reverse.find? (·.1 = (3 : BitVec 16)) = some (3, 2, 2) ∧
     (∀ z, (s 2).cmd? 7 = some z → z.id ∉ ((s 2).die (dieOf z.ctx)).posts)) := by
  and_intros <;> decide +kernel

/-- A packet of a launch that a quiesce names, released after the message. -/
theorem witness_QuiescedPackets :
    (let x := { command (.gsub [1, 0]) 8 with release := some 9 }
     let s := fun (id : Nat) => (({ deterministic with cmds := [x], guestq := [5] } : State)).about { id := id, arg2 := 3 }
     let hit := fun (s : State) => s.packets.filter fun x => s.guestq.contains x.id && decide (x.packet?.map packetAsid = some s.due.arg) &&
       ((s.launchOf x.ctx).any (fun l => decide (l.id + 1 = s.due.id)) || decide (x.release.getD 0 ≤ s.due.arg2))
     hit (s 1) = [x] ∧ hit (s 2) = [] ∧ (s 1).agenda = []) := by decide +kernel

/-- A launch that has waited since an earlier step keeps its cluster from one of its PRI. -/
theorem witness_WaitingLaunchKeepsItsClusters :
    (let w := { detLaunch with id := 1, st := .waiting, waits := some 3 }
     let l := { detLaunch with st := .waiting }
     let s := { saving .idle with launches := [w, l], queues := [{ q := 0, wr := 0, next := 0, lseq := some 0, off := false, holdTo := 0, doneIx := [] }] }
     l.waits = none ∧ w ∈ s.launches ∧ w.waits = some 3 ∧ s.considered w = true ∧ w.id ≠ l.id ∧ l.pri ≤ w.pri ∧ (∃ k ∈ l.clus, k ∈ w.clus)) := by
  and_intros <;> decide +kernel

/-- A boot that failed, with the host at the mailbox and elsewhere. -/
theorem witness_RecoveryMode :
    (let s := { issuing 0 [] with luvex := { Luvex.reset with boot := .failed 3 } }.about { id := 1, arg := 0xFFC, arg2 := 4 }
     s.luvex.boot ≠ .ready ∧ s.luvex.boot ≠ .reset ∧ s.due.id = 1 ∧ s.due.wr = false ∧ s.due.arg < 0x1000 ∧ 0x1000 ≤ (s.about { arg := 0x1000 }).due.arg ∧
     (s.about {}).due.id ≠ 1) := by decide +kernel

/-- An executive context without a handler, and one with INH; nothing of a checkpoint to correct; a handler of a member. -/
theorem witness_TrapsWithoutHandler :
    (let s := fun (inh : Bool) (evec : Word) => (issuing 0 []).modCur fun c => { c with exec := true, inh := inh, evec := evec }
     ((s false 0).ctx 0).inh = false ∧ ((s false 0).ctx 0).evec = 0 ∧ ((s false 0).ctx 0).cons = none ∧ chkKey 0 ∉ (s false 0).corr ∧
     ((s false 0x40).ctx 0).evec ≠ 0 ∧ chkKey 0 ∉ (s false 0x40).corr) ∧
    (trio true).corr = [] ∧ (trio false).corr = [] := by decide +kernel

/-- An atomic with nothing of its context at the barrier unit, and its result in no list. -/
theorem witness_AtomicAlone :
    (let s := issuing 6 []
     (∀ k ∈ s.clusters, ∀ r ∈ k.2.barq, r.ctx ≠ s.iss.ctx) ∧ s.cur.pend = [] ∧ (∀ r ∈ s.l2q, r.ctx ≠ s.iss.ctx)) := by decide +kernel

end Sys2Proof.Machine
end

section
/-! What the operations that write memory, log errors and end a cycle leave of the state; what the L2 homes take next; the order of
one step (O51). -/

namespace Sys2Proof.Machine

/-- What each step of a fold keeps, the fold keeps. -/
theorem foldl_keeps {σ α β : Type} (g : σ → β) {f : σ → α → σ} (h : ∀ s a, g (f s a) = g s) (l : List α) (s : σ) :
    g (l.foldl f s) = g s := by
  induction l generalizing s with
  | nil => rfl
  | cons a r ih => exact (ih (f s a)).trans (h s a)

/-! ### Writes to memory -/

section
variable (s : State) (bs : List (Nat × Byte))

/-- A write changes memory and what leaves the module, nothing else. -/
theorem State.write_eq : ∃ m o, s.write bs = { s with mem := m, out := o } := by
  unfold State.write
  dsimp only
  split
  · exact ⟨_, _, rfl⟩
  · exact ⟨_, _, rfl⟩

@[simp] theorem State.write_iss : (s.write bs).iss = s.iss := by obtain ⟨_, _, e⟩ := s.write_eq bs; rw [e]
@[simp] theorem State.write_now : (s.write bs).now = s.now := by obtain ⟨_, _, e⟩ := s.write_eq bs; rw [e]
@[simp] theorem State.write_agenda : (s.write bs).agenda = s.agenda := by obtain ⟨_, _, e⟩ := s.write_eq bs; rw [e]
@[simp] theorem State.write_poison : (s.write bs).poison = s.poison := by obtain ⟨_, _, e⟩ := s.write_eq bs; rw [e]

end

/-! ### The end of a cycle -/

section
variable (s : State)

@[simp] theorem State.nowClaimed_now (r : TrapRec) : (s.nowClaimed r).now = s.now := by unfold State.nowClaimed; split <;> rfl
@[simp] theorem State.nowClaimed_agenda (r : TrapRec) : (s.nowClaimed r).agenda = s.agenda := by unfold State.nowClaimed; split <;> rfl
@[simp] theorem State.unclaim_now (r : TrapRec) : (s.unclaim r).now = s.now := by unfold State.unclaim; split <;> rfl
@[simp] theorem State.unclaim_agenda (r : TrapRec) : (s.unclaim r).agenda = s.agenda := by unfold State.unclaim; split <;> rfl

/-- What writes, claims and their withdrawal keep, the ordering of the cycle's claims keeps. -/
theorem State.orderClaims_keeps {β : Type} (g : State → β) (hw : ∀ s bs, g (State.write s bs) = g s)
    (hn : ∀ s r, g (State.nowClaimed s r) = g s) (hu : ∀ s r, g (State.unclaim s r) = g s)
    (hc : g { s with claims := [] } = g s) : g s.orderClaims = g s := by
  unfold State.orderClaims
  dsimp only
  split
  · exact hc
  · rw [foldl_keeps g hu, foldl_keeps g hn, foldl_keeps g fun t p => hw t _]
    exact hc

@[simp] theorem State.orderClaims_now : s.orderClaims.now = s.now :=
  s.orderClaims_keeps State.now State.write_now State.nowClaimed_now State.unclaim_now rfl
@[simp] theorem State.orderClaims_agenda : s.orderClaims.agenda = s.agenda :=
  s.orderClaims_keeps State.agenda State.write_agenda State.nowClaimed_agenda State.unclaim_agenda rfl

/-- Claims raised in ascending CTXID stand as they are. -/
theorem State.orderClaims_of_sorted (h : (s.claims.map fun r => r.1.ctxid.toNat).Pairwise (· ≤ ·)) :
    s.orderClaims = { s with claims := [] } := by
  have hp : (s.claims.map (·.1)).Pairwise fun a b => a.ctxid.toNat ≤ b.ctxid.toNat := by
    rw [List.pairwise_map] at h ⊢
    exact h
  unfold State.orderClaims
  exact if_pos (by simp [hp.insertionSort_eq])

/-- What free choices and writes keep, the eviction of tags keeps. -/
theorem State.spill_keeps {β : Type} (g : State → β) (hw : ∀ s bs, g (State.write s bs) = g s)
    (hf : ∀ s, g (State.choose s).2 = g s) : g s.spill = g s := by
  refine foldl_keeps g (fun s t => ?_) _ _
  split
  · rfl
  · dsimp only
    split
    · exact (hw _ _).trans (hf s)
    · exact hf s

@[simp] theorem State.spill_now : s.spill.now = s.now := s.spill_keeps State.now State.write_now fun _ => rfl
@[simp] theorem State.spill_agenda : s.spill.agenda = s.agenda := s.spill_keeps State.agenda State.write_agenda fun _ => rfl

/-- Without tags of global granules no home evicts one. -/
theorem State.spill_of_local (h : ∀ g ∈ s.tags, g.1.1 = 0) : s.spill = s := by
  unfold State.spill
  generalize s.tags = l at h
  induction l with
  | nil => rfl
  | cons t r ih =>
    rw [List.foldl_cons, if_pos (h t List.mem_cons_self)]
    exact ih fun g hg => h g (List.mem_cons_of_mem _ hg)

/-- A cycle's end passes on to the next cycle. -/
@[simp] theorem State.endCycle_now : s.endCycle.now = s.now + 1 := by
  show s.orderClaims.settle.spill.now + 1 = _
  rw [State.spill_now]
  exact congrArg (· + 1) s.orderClaims_now

@[simp] theorem State.endCycle_agenda : s.endCycle.agenda = s.agenda := by
  show s.orderClaims.settle.spill.agenda = _
  rw [State.spill_agenda]
  exact s.orderClaims_agenda

theorem State.endCycle_memPrev : s.endCycle.memPrev = s.endCycle.mem := rfl

/-- With the claims in order and no tag of a global granule, memory stays as it is over a cycle's end. -/
theorem State.endCycle_mem (ht : ∀ g ∈ s.tags, g.1.1 = 0)
    (hc : (s.claims.map fun r => r.1.ctxid.toNat).Pairwise (· ≤ ·)) : s.endCycle.mem = s.mem := by
  show s.orderClaims.settle.spill.mem = _
  rw [s.orderClaims_of_sorted hc, State.spill_of_local (State.settle { s with claims := [] }) ht]
  rfl

end

/-! ### What is due -/

/-- An item that is taken passes the test. -/
theorem takeFirst_passes {p : Agendum → Bool} {l rest : List Agendum} {a : Agendum} (h : takeFirst p l = some (a, rest)) :
    p a = true := by
  induction l generalizing rest with
  | nil => cases h
  | cons b r ih =>
    unfold takeFirst at h
    split at h
    · next hb => cases h; exact hb
    · obtain ⟨⟨a', r'⟩, hr, e⟩ := Option.map_eq_some_iff.1 h
      cases e
      exact ih hr

section
variable {s : State}

/-- The moment of an event that happens as due has come. -/
theorem State.dueEvent_at_le {a : Agendum} {rest : List Agendum} (h : s.dueEvent = some (a, rest)) : a.at_ ≤ s.now := by
  rcases Option.or_eq_some_iff.1 h with h | ⟨-, h⟩
  · have := takeFirst_passes h
    simp only [Bool.and_eq_true, decide_eq_true_eq] at this
    exact this.1.1
  · have := takeFirst_passes h
    simp only [Bool.and_eq_true, decide_eq_true_eq] at this
    exact this.1

/-- An event whose moment has come happens at the present cycle. -/
theorem State.happen_of_at_le {a : Agendum} (rest : List Agendum) (h : a.at_ ≤ s.now) :
    s.happen a rest = exec a.ev { s with agenda := rest, due := a.due } := by
  unfold State.happen
  rw [max_eq_left h]

end

/-! ### The access of lowest identity at the L2 homes (R316) -/

/-- A search that changes its candidate for a smaller one alone ends with a least of those that it has seen. -/
theorem foldl_least {α : Type} {f : Option (Nat × α) → Nat × α → Option (Nat × α)} {l : List (Nat × α)} {m r : Nat × α}
    (h : l.foldl f (some m) = some r) (hf : ∀ y x, f (some y) x = if x.1 < y.1 then some x else some y) :
    r ∈ m :: l ∧ ∀ y ∈ m :: l, r.1 ≤ y.1 := by
  induction l generalizing m with
  | nil => cases h; simp
  | cons x l ih =>
    rw [List.foldl_cons, hf] at h
    split at h
    · next hx =>
      obtain ⟨hr, hle⟩ := ih h
      exact ⟨List.mem_cons_of_mem _ hr, List.forall_mem_cons.2 ⟨(hle x List.mem_cons_self).trans hx.le, hle⟩⟩
    · next hx =>
      obtain ⟨hr, hle⟩ := ih h
      obtain ⟨hm, hl⟩ := List.forall_mem_cons.1 hle
      refine ⟨?_, List.forall_mem_cons.2 ⟨hm, List.forall_mem_cons.2 ⟨hm.trans (not_lt.1 hx), hl⟩⟩⟩
      exact List.cons_subset_cons m (List.subset_cons_self x l) hr

section
variable {s : State}

/-- What the L2 homes perform next waits there, and nothing that waits has a lower identity. -/
theorem State.homeNext_least {x : HomeAct} (h : s.homeNext = some x) :
    ∃ k, (k, x) ∈ s.homeActs ∧ ∀ y ∈ s.homeActs, k ≤ y.1 := by
  unfold State.homeNext at h
  obtain ⟨⟨k, x'⟩, hr, rfl⟩ := Option.map_eq_some_iff.1 h
  refine ⟨k, ?_⟩
  generalize s.homeActs = l at hr
  cases l with
  | nil => cases hr
  | cons m l => exact foldl_least (l := l) (m := m) hr fun _ _ => rfl

/-- A released entry that may leave its context waits at its home under that context's identity. -/
theorem State.mem_homeActs_entry {k : Nat} {r : HomeReq} :
    (k, HomeAct.entry r) ∈ s.homeActs ↔ r ∈ s.l2q ∧ s.mayLeave r = true ∧ s.lidOf r.ctx = k := by
  simp [State.homeActs, and_assoc]

/-- An event that waits at a home stands in the agenda, its moment come. -/
theorem State.mem_homeActs_event {k : Nat} {a : Agendum} :
    (k, HomeAct.event a) ∈ s.homeActs ↔ a ∈ s.agenda ∧ a.at_ ≤ s.now ∧ s.homeKey a = some k := by
  simp [State.homeActs, and_assoc]

/-- A released entry that is next may leave its context, and none that may has a lower identity. -/
theorem State.homeNext_entry {r : HomeReq} (h : s.homeNext = some (.entry r)) :
    r ∈ s.l2q ∧ s.mayLeave r = true ∧ ∀ x ∈ s.l2q, s.mayLeave x = true → s.lidOf r.ctx ≤ s.lidOf x.ctx := by
  obtain ⟨k, hk, hle⟩ := s.homeNext_least h
  obtain ⟨hr, hm, rfl⟩ := State.mem_homeActs_entry.1 hk
  exact ⟨hr, hm, fun x hx hxm => hle _ (State.mem_homeActs_entry.2 ⟨hx, hxm, rfl⟩)⟩

/-- An event that is next at the homes is due. -/
theorem State.homeNext_event {a : Agendum} (h : s.homeNext = some (.event a)) : a ∈ s.agenda ∧ a.at_ ≤ s.now := by
  obtain ⟨k, hk, -⟩ := s.homeNext_least h
  obtain ⟨ha, hat, -⟩ := State.mem_homeActs_event.1 hk
  exact ⟨ha, hat⟩

/-! ### One step -/

theorem step_held {n : Nat} (hf : s.fatal = some n) (hr : s.comingReset = none) : step s = .fault .held := by
  simp only [step, hf, hr]

theorem step_arriving {c : Nat} (hf : s.fatal = none) (ha : s.arriving = some c) :
    step s = exec .resultArrival { s with due := { ctx := c } } := by
  simp only [step, hf, ha]

section
variable (hf : s.fatal = none) (ha : s.arriving = none)
include hf ha

theorem step_dueEvent {a : Agendum} {rest : List Agendum} (hd : s.dueEvent = some (a, rest)) : step s = s.happen a rest := by
  simp only [step, hf, ha, hd]

variable (hd : s.dueEvent = none)
include hd

theorem step_turn {q : Nat} {rest : List Nat} (ht : s.turns = q :: rest) : step s = s.openTurn q rest := by
  simp only [step, hf, ha, hd, ht]

variable (ht : s.turns = [])
include ht

theorem step_homeEntry {r : HomeReq} (hn : s.homeNext = some (.entry r)) : step s = .next (s.performHome r) := by
  simp only [step, hf, ha, hd, ht, hn]

theorem step_homeEvent {a : Agendum} (hn : s.homeNext = some (.event a)) : step s = s.happen a (s.agenda.erase a) := by
  simp only [step, hf, ha, hd, ht, hn]

theorem step_endCycle (hn : s.homeNext = none) : step s = .next s.endCycle := by
  simp only [step, hf, ha, hd, ht, hn]

end
end

/-- Settles O51: one lemma for each branch of `step`; the access of lowest identity by `State.homeNext_entry`, the cycle's end by
what `State.endCycle` keeps. -/
theorem stepOrder : Obligations.StepOrder := by
  intro s
  refine ⟨fun hf => ⟨fun c => step_arriving hf, fun ha => ⟨fun a rest hd => ?_, fun hd => ⟨fun q rest => step_turn hf ha hd,
    fun ht => ⟨fun r hn => ?_, fun a hn => ?_, fun hn => ?_⟩⟩⟩⟩, fun n => step_held⟩
  · have hat := State.dueEvent_at_le hd
    exact ⟨hat, (step_dueEvent hf ha hd).trans (State.happen_of_at_le rest hat)⟩
  · obtain ⟨hr, hm, hle⟩ := State.homeNext_entry hn
    exact ⟨hr, hm, hle, step_homeEntry hf ha hd ht hn⟩
  · obtain ⟨hmem, hat⟩ := State.homeNext_event hn
    exact ⟨hmem, hat, (step_homeEvent hf ha hd ht hn).trans (State.happen_of_at_le _ hat)⟩
  · exact ⟨_, step_endCycle hf ha hd ht hn, s.endCycle_now, s.endCycle_memPrev, s.endCycle_agenda, s.endCycle_mem⟩

end Sys2Proof.Machine
end

section
/-! A trap: what of the machine its parts leave; the rollback of a context and of a consist; the entry into a handler and the return
from it (O46). -/

namespace Sys2Proof.Machine

/-! ### The RAS log, memory errors, fatal errors, records -/

section
variable (s : State)

@[simp] theorem State.rasLog_iss (u ty a n : Nat) : (s.rasLog u ty a n).iss = s.iss := by
  unfold State.rasLog; dsimp only; split <;> simp
@[simp] theorem State.rasLog_poison (u ty a n : Nat) : (s.rasLog u ty a n).poison = s.poison := by
  unfold State.rasLog; dsimp only; split <;> simp
@[simp] theorem State.retireFrame_iss (f n : Nat) : (s.retireFrame f n).iss = s.iss := by
  unfold State.retireFrame; split <;> [rfl; (dsimp only; split <;> simp)]
@[simp] theorem State.retireFrame_poison (f n : Nat) : (s.retireFrame f n).poison = s.poison := by
  unfold State.retireFrame; split <;> [rfl; (dsimp only; split <;> simp)]

@[simp] theorem State.memError_iss (d k : Nat) : (s.memError d k).iss = s.iss := by
  unfold State.memError; dsimp only; split <;> simp

/-- What the RAS log and the retirement of frames keep, with the lists of corrected errors, a read keeps. -/
theorem State.corrected_keeps {β : Type} (g : State → β) (hl : ∀ s u ty a n, g (State.rasLog s u ty a n) = g s)
    (hr : ∀ s f n, g (State.retireFrame s f n) = g s) (hc : ∀ (s : State) l m, g { s with corr := l, corrCnt := m } = g s)
    (d k n : Nat) : g (s.corrected d k n) = g s := by
  refine foldl_keeps g (fun s a => ?_) _ _
  dsimp only
  split
  · exact (hr _ _ _).trans ((hl _ _ _ _ _).trans (hc s _ _))
  · exact (hl _ _ _ _ _).trans (hc s _ _)

@[simp] theorem State.corrected_iss (d k n : Nat) : (s.corrected d k n).iss = s.iss :=
  s.corrected_keeps State.iss State.rasLog_iss State.retireFrame_iss (fun _ _ _ => rfl) d k n
@[simp] theorem State.corrected_poison (d k n : Nat) : (s.corrected d k n).poison = s.poison :=
  s.corrected_keeps State.poison State.rasLog_poison State.retireFrame_poison (fun _ _ _ => rfl) d k n

/-- A read of a word without a corrected error leaves the state as it is. -/
theorem State.corrected_of_not_mem {d k : Nat} (h : k ∉ s.corr) : s.corrected d k 1 = s := by
  have e : (s.corr.filter fun a => k ≤ a && a < k + 1) = [] :=
    List.filter_eq_nil_iff.2 fun a ha => by
      have : a ≠ k := fun e => h (e ▸ ha)
      simp only [Bool.and_eq_true, decide_eq_true_eq]
      omega
  unfold State.corrected
  rw [e]
  rfl

@[simp] theorem State.fatalError_fatal (n : Nat) (c : Option Nat) : (s.fatalError n c).fatal = some n := rfl
@[simp] theorem State.fatalError_iss (n : Nat) (c : Option Nat) : (s.fatalError n c).iss = s.iss := by
  unfold State.fatalError; dsimp only; split <;> simp

@[simp] theorem State.claim_iss (r : TrapRec) (b : Bool) : (s.claim r b).iss = s.iss := by
  unfold State.claim; split <;> simp
@[simp] theorem State.record_iss (r : TrapRec) : (s.record r).2.iss = s.iss := by
  unfold State.record; split <;> simp

@[simp] theorem State.dropCurrent_iss (c : Nat) : (s.dropCurrent c).iss = s.iss := rfl

@[simp] theorem State.park_iss (c : Nat) (ts : List TrapInfo) : (s.park c ts).iss = s.iss := by
  refine foldl_keeps (fun a : List TrapRec × State => a.2.iss) (fun a t => ?_) ts ([], s)
  have h := a.2.record_iss (a.2.trapRec c t)
  dsimp only
  split <;> simpa [*] using h

end

/-! ### The rollback of a context (R359) -/

/-- What stands apart from the contexts' progress: memory, the system registers and the bundle's own record. -/
def State.apart (s : State) : List Host.Cell × Sys × Issue := (s.mem, s.sys, s.iss)

/-- A context but for its posted receives. -/
def Ctx.butPosts (x : Ctx) : Ctx := { x with posts := [] }

section
variable (s : State)

/-- `prel`s that are woken are events of the agenda. -/
theorem State.wakePrels_keeps {β : Type} (g : State → β) (h : ∀ s n ev d, g (State.schedule s n ev d) = g s) (k : Nat) :
    g (s.wakePrels k) = g s := by
  refine foldl_keeps g (fun s pn => ?_) _ _
  split
  · rfl
  · exact h _ _ _ _

/-- What the withheld commands of a context hold lies in the lists of commands and migrations, the context's posts, its core, its
cluster and the agenda. -/
theorem State.cancelWithheld_keeps {β : Type} (g : State → β) (hs : ∀ s n ev d, g (State.schedule s n ev d) = g s)
    (hk : ∀ s k f, g (State.modCluster s k f) = g s) (hq : ∀ s q f, g (State.modCore s q f) = g s) (c : Nat)
    (hc : ∀ (s : State) l m f, g (State.modCtx { s with cmds := l, migs := m } c fun x => { x with posts := x.posts.filter f }) = g s) :
    g (s.cancelWithheld c) = g s := by
  unfold State.cancelWithheld
  dsimp only
  split
  · rw [hq]; exact hc s _ _ _
  · rw [State.wakePrels_keeps _ g hs, hk, hq]; exact hc s _ _ _

@[simp] theorem State.cancelWithheld_apart (c : Nat) : (s.cancelWithheld c).apart = s.apart :=
  s.cancelWithheld_keeps State.apart (fun _ _ _ _ => rfl) (fun _ _ _ => rfl) (fun _ _ _ => rfl) c fun _ _ _ _ => rfl

theorem State.ctx_cancelWithheld_ne {c j : Nat} (h : j ≠ c) : (s.cancelWithheld c).ctx j = s.ctx j :=
  s.cancelWithheld_keeps (·.ctx j) (fun _ _ _ _ => rfl) (fun _ _ _ => rfl) (fun _ _ _ => rfl) c
    fun _ _ _ _ => State.ctx_modCtx_ne _ _ h

/-- Of the context itself only its posts change. -/
theorem State.ctx_cancelWithheld (c : Nat) : ((s.cancelWithheld c).ctx c).butPosts = (s.ctx c).butPosts :=
  s.cancelWithheld_keeps (fun s => (s.ctx c).butPosts) (fun _ _ _ _ => rfl) (fun _ _ _ => rfl) (fun _ _ _ => rfl) c
    fun s l m f => by rw [State.ctx_modCtx]; rfl

@[simp] theorem State.rollback_apart (c : Nat) : (s.rollback c).apart = s.apart := s.cancelWithheld_apart c

theorem State.ctx_rollback_ne {c j : Nat} (h : j ≠ c) : (s.rollback c).ctx j = s.ctx j :=
  (State.ctx_modCtx_ne _ _ h).trans (s.ctx_cancelWithheld_ne h)

theorem State.ctx_rollback (c : Nat) : ((s.rollback c).ctx c).butPosts = (s.ctx c).rollback.butPosts := by
  unfold State.rollback
  rw [State.ctx_modCtx]
  exact congrArg Ctx.rollback (s.ctx_cancelWithheld c)

end

/-! ### Contexts changed one after another -/

section
variable {f : State → Nat → State} (hne : ∀ s p j, j ≠ p → (f s p).ctx j = s.ctx j)
include hne

/-- A context that is none of those changed stays as it is. -/
theorem foldl_ctx_of_not_mem {l : List Nat} {j : Nat} (hj : j ∉ l) (s : State) : (l.foldl f s).ctx j = s.ctx j := by
  induction l generalizing s with
  | nil => rfl
  | cons p r ih =>
    obtain ⟨hp, hr⟩ := not_or.1 (List.mem_cons.not.1 hj)
    exact (ih hr (f s p)).trans (hne s p j hp)

/-- Each of different contexts comes to what its own change makes of it. -/
theorem foldl_ctx_of_mem {R : Ctx → Ctx → Prop} (hself : ∀ s p, R (s.ctx p) ((f s p).ctx p)) {l : List Nat} (hl : l.Nodup)
    {p : Nat} (hp : p ∈ l) (s : State) : R (s.ctx p) ((l.foldl f s).ctx p) := by
  induction l generalizing s with
  | nil => cases hp
  | cons q r ih =>
    obtain ⟨hq, hr⟩ := List.nodup_cons.1 hl
    rcases List.mem_cons.1 hp with rfl | hp
    · rw [List.foldl_cons, foldl_ctx_of_not_mem hne hq]
      exact hself s p
    · rw [← hne s q p fun e => hq (e ▸ hp)]
      exact ih hr hp (f s q)

end

/-! ### The rollback of a consist (R43) -/

section
variable (s : State) (c : Nat)

@[simp] theorem State.trimLog_apart : (s.trimLog c).apart = s.apart := by unfold State.trimLog; split <;> rfl
@[simp] theorem State.ctx_trimLog (j : Nat) : (s.trimLog c).ctx j = s.ctx j := by unfold State.trimLog; split <;> rfl
@[simp] theorem State.beatAnew_apart : (s.beatAnew c).apart = s.apart := by unfold State.beatAnew; split <;> rfl
@[simp] theorem State.beatAnew_iss : (s.beatAnew c).iss = s.iss := congrArg (·.2.2) (s.beatAnew_apart c)
@[simp] theorem State.ctx_beatAnew (j : Nat) : (s.beatAnew c).ctx j = s.ctx j := by unfold State.beatAnew; split <;> rfl

/-- The consist that begins anew counts its skew from there. -/
theorem State.beats_beatAnew {i : Nat} (h : (s.ctx c).cons = some i) :
    ∀ y ∈ (s.beatAnew c).consists, y.id = i → y.beats = 0 := by
  unfold State.beatAnew
  rw [h]
  intro y hy hid
  obtain ⟨x, -, rfl⟩ := List.mem_map.1 hy
  by_cases hx : x.id = i
  · rw [if_pos hx]
  · rw [if_neg hx] at hid
    exact absurd hid hx

@[simp] theorem State.rollAll_apart : (s.rollAll c).apart = s.apart :=
  (State.trimLog_apart _ c).trans (foldl_keeps State.apart (fun s p => State.rollback_apart (s.modCtx p _) p) _ s)

@[simp] theorem State.rollAll_iss : (s.rollAll c).iss = s.iss := congrArg (·.2.2) (s.rollAll_apart c)

theorem State.ctx_rollAll_of_not_mem {j : Nat} (hj : j ∉ s.others c) : (s.rollAll c).ctx j = s.ctx j :=
  (State.ctx_trimLog _ c j).trans <|
    foldl_ctx_of_not_mem (fun s _ _ h => (State.ctx_rollback_ne _ h).trans (s.ctx_modCtx_ne _ h)) hj s

/-- Each member that has not ended comes back to the consist's checkpoint. -/
theorem State.ctx_rollAll {p : Nat} (hl : (s.others c).Nodup) (hp : p ∈ s.others c) :
    ((s.rollAll c).ctx p).butPosts = ((s.ctx p).recall (s.consistChk c)).rollback.butPosts := by
  unfold State.rollAll
  rw [State.ctx_trimLog]
  refine foldl_ctx_of_mem (R := fun x y => y.butPosts = (x.recall (s.consistChk c)).rollback.butPosts)
    (fun s _ _ h => (State.ctx_rollback_ne _ h).trans (s.ctx_modCtx_ne _ h)) (fun s p => ?_) hl hp s
  rw [State.ctx_rollback, State.ctx_modCtx]

end

/-- A member whose last checkpoint is that of the consist has none later to give up. -/
theorem Ctx.recall_chkNo (x : Ctx) : x.recall x.chkNo = x := by
  have h : (x.olds.find? fun o => o.no = x.chkNo && decide (x.chkNo < x.chkNo)) = none := by simp
  unfold Ctx.recall
  rw [h]

/-! ### What takes part in a trap (R11, R43) -/

section
variable {s : State} {c : Nat}

theorem State.others_of_alone (h : (s.ctx c).cons = none) : s.others c = [c] := by
  simp [State.others, State.peers, h]

theorem State.consistChk_of_alone (h : (s.ctx c).cons = none) : s.consistChk c = (s.ctx c).chkNo := by
  simp [State.consistChk, State.peers, h]

variable {i : Nat} {x : Consist} (hc : (s.ctx c).cons = some i) (hx : s.consists.find? (·.id = i) = some x)
include hc hx

theorem State.peers_of_consist : s.peers c = x.members := by
  simp [State.peers, hc, hx]

theorem State.others_nodup_of_consist (h : x.members.Nodup) : (s.others c).Nodup :=
  (State.peers_of_consist hc hx ▸ h).filter _

theorem State.mem_others_of_consist {p : Nat} :
    p ∈ s.others c ↔ p ∈ x.members ∧ ¬(p ≠ c ∧ ((s.ctx p).status = .done ∨ (s.ctx p).status = .idle)) := by
  simp only [State.others, State.peers_of_consist hc hx, List.mem_filter, Bool.or_eq_true, Bool.and_eq_true, decide_eq_true_eq]
  tauto

end

/-- The state in which context c takes its traps: memory errors logged, the marks of the faults taken away, register state that is
to be written anew no longer in error (R33, R192, R427; log 15). -/
def State.unmarked (s : State) (c : Nat) (ts : List TrapInfo) : State :=
  let s := ts.foldl (fun s t =>
    (if t.kind = 0x10 then s.memError (dieOf c) t.key else s).modCtx c fun x => x.unmark t) s
  { s with poison := s.poison.filter fun k => !(ts.any fun t => t.key = k && decide (2 ^ 55 ≤ k)) }

@[simp] theorem State.unmarked_iss (s : State) (c : Nat) (ts : List TrapInfo) : (s.unmarked c ts).iss = s.iss :=
  foldl_keeps State.iss (fun s t => by split <;> simp) ts s

section
variable (s : State) (c : Nat) {t : TrapInfo} (hk : t.kind ≠ 0x10)
include hk

/-- A trap without a memory error changes the context's marks and the list of words in error alone. -/
theorem State.unmarked_single :
    s.unmarked c [t] = { s.modCtx c fun x => x.unmark t with poison := (s.unmarked c [t]).poison } := by
  unfold State.unmarked
  simp only [List.foldl_cons, List.foldl_nil, if_neg hk]

theorem State.unmarked_apart : (s.unmarked c [t]).apart = s.apart := by
  rw [s.unmarked_single c hk]
  rfl

theorem State.ctx_unmarked : (s.unmarked c [t]).ctx c = (s.ctx c).unmark t := by
  rw [s.unmarked_single c hk]
  exact s.ctx_modCtx c (·.unmark t)

theorem State.ctx_unmarked_ne {j : Nat} (h : j ≠ c) : (s.unmarked c [t]).ctx j = s.ctx j := by
  rw [s.unmarked_single c hk]
  exact s.ctx_modCtx_ne (·.unmark t) h

theorem State.mem_poison_unmarked {k : Nat} :
    k ∈ (s.unmarked c [t]).poison ↔ k ∈ s.poison ∧ ¬(t.key = k ∧ 2 ^ 55 ≤ k) := by
  simp only [State.unmarked, List.foldl_cons, List.foldl_nil, if_neg hk, List.mem_filter]
  refine and_congr_right fun _ => ?_
  rw [Bool.not_eq_true', ← Bool.not_eq_true]
  simp

/-- What the marks of a fault do not touch is as it was. -/
theorem State.ctx_unmarked_keeps {β : Type} (g : Ctx → β) (h : ∀ x, g (x.unmark t) = g x) (j : Nat) :
    g ((s.unmarked c [t]).ctx j) = g (s.ctx j) := by
  by_cases e : j = c
  · rw [e, s.ctx_unmarked c hk, h]
  · rw [s.ctx_unmarked_ne c hk e]

theorem State.peers_unmarked : (s.unmarked c [t]).peers c = s.peers c := by
  unfold State.peers
  rw [s.ctx_unmarked_keeps c hk Ctx.cons fun _ => rfl, s.unmarked_single c hk]
  rfl

theorem State.others_unmarked : (s.unmarked c [t]).others c = s.others c := by
  unfold State.others
  simp only [s.peers_unmarked c hk, s.ctx_unmarked_keeps c hk Ctx.status fun _ => rfl]

theorem State.consistChk_unmarked : (s.unmarked c [t]).consistChk c = s.consistChk c := by
  unfold State.consistChk
  simp only [s.peers_unmarked c hk, s.ctx_unmarked_keeps c hk Ctx.chkNo fun _ => rfl]

end

/-! ### Taking a trap (R359, R364, R369) -/

/-- That state once the checkpoints that are to be restored have been read (R427). -/
def State.examined (s : State) (c : Nat) (ts : List TrapInfo) : State :=
  ((s.unmarked c ts).others c).foldl (fun s p => s.corrected (dieOf p) (chkKey p) 1) (s.unmarked c ts)

@[simp] theorem State.examined_iss (s : State) (c : Nat) (ts : List TrapInfo) : (s.examined c ts).iss = s.iss :=
  (foldl_keeps State.iss (fun s p => s.corrected_iss (dieOf p) (chkKey p) 1) _ _).trans (s.unmarked_iss c ts)

@[simp] theorem State.examined_poison (s : State) (c : Nat) (ts : List TrapInfo) :
    (s.examined c ts).poison = (s.unmarked c ts).poison :=
  foldl_keeps State.poison (fun s p => s.corrected_poison (dieOf p) (chkKey p) 1) _ _

/-- Context p, rolled back, enters its handler with trap t and stops being CURRENT (R364). -/
def State.enterHandler (t : TrapInfo) (s : State) (p : Nat) : State := (s.modCtx p fun y => y.toHandler t).dropCurrent p

/-- Context p is parked with another member's trap (R43). -/
def State.parkMember (s : State) (p : Nat) : State :=
  (s.modCtx p fun y => { y with status := .parked .trap, wdog := 0 }).dropCurrent p

@[simp] theorem State.parkMember_iss (s : State) (p : Nat) : (s.parkMember p).iss = s.iss := rfl

section
variable (t : TrapInfo) (s : State) (p : Nat)

@[simp] theorem State.enterHandler_apart : (s.enterHandler t p).apart = s.apart := rfl
@[simp] theorem State.enterHandler_iss : (s.enterHandler t p).iss = s.iss := rfl
@[simp] theorem State.enterHandler_consists : (s.enterHandler t p).consists = s.consists := rfl
theorem State.ctx_enterHandler : (s.enterHandler t p).ctx p = (s.ctx p).toHandler t := s.ctx_modCtx p (·.toHandler t)
theorem State.ctx_enterHandler_ne {j : Nat} (h : j ≠ p) : (s.enterHandler t p).ctx j = s.ctx j := s.ctx_modCtx_ne (·.toHandler t) h

end

/-- Whether context p can go into its handler with a trap on context c: its checkpoint is readable without an error, it has a handler,
and no member of its consist has an earlier last checkpoint. -/
structure State.MayEnter (s : State) (c p : Nat) : Prop where
  intact : chkKey p ∉ s.poison
  clean : chkKey p ∉ s.corr
  evec : (s.ctx p).evec ≠ 0
  chkNo : (s.ctx p).chkNo = s.consistChk c

/-- A trap ends in a fatal error of cause 1 or 2, in the handlers, or with the context parked. -/
theorem State.takeTrap_eq (s : State) (c : Nat) (ts : List TrapInfo) :
    s.takeTrap c ts =
      let w := s.examined c ts
      let ps := (s.unmarked c ts).others c
      if (s.ctx c).exec ∧ (s.ctx c).inh then w.fatalError 1 (some c)
      else if ps.any fun p => w.poison.contains (chkKey p) then w.fatalError 2 (ps.find? fun p => w.poison.contains (chkKey p))
      else if (s.ctx c).exec ∧ ps.all fun p => (w.ctx p).evec ≠ 0 then
        ps.foldl (State.enterHandler (ts.headD { kind := 0, pc := 0 })) ((w.rollAll c).beatAnew c)
      else ((ps.filter (· ≠ c)).foldl State.parkMember (w.rollAll c)).park c ts := rfl

section
variable {s : State} {c : Nat} {t : TrapInfo}

/-- A trap inside a handler is fatal. -/
theorem State.takeTrap_in_handler (ts : List TrapInfo) (he : (s.ctx c).exec = true) (hi : (s.ctx c).inh = true) :
    (s.takeTrap c ts).fatal = some 1 := by
  rw [State.takeTrap_eq]
  dsimp only
  rw [if_pos ⟨he, hi⟩, State.fatalError_fatal]

variable (hk : t.kind ≠ 0x10)
include hk

/-- A trap is fatal whose context, or a member with it, has a checkpoint that cannot be corrected. -/
theorem State.takeTrap_poisoned {p : Nat} (hi : (s.ctx c).inh = false) (hp : p ∈ s.others c) (hpois : chkKey p ∈ s.poison)
    (hkey : t.key ≠ chkKey p) : (s.takeTrap c [t]).fatal = some 2 := by
  have hm : chkKey p ∈ (s.unmarked c [t]).poison := (s.mem_poison_unmarked c hk).2 ⟨hpois, fun h => hkey h.1⟩
  have hw : (((s.unmarked c [t]).others c).any fun p => (s.examined c [t]).poison.contains (chkKey p)) = true := by
    rw [s.examined_poison, s.others_unmarked c hk]
    exact List.any_eq_true.2 ⟨p, hp, List.contains_iff_mem.2 hm⟩
  rw [State.takeTrap_eq]
  dsimp only
  rw [if_neg (by simp [hi]), if_pos hw, State.fatalError_fatal]

variable (hps : ∀ p ∈ s.others c, s.MayEnter c p)
include hps

/-- Where no checkpoint has an error to correct, reading them changes nothing. -/
theorem State.examined_of_sound : s.examined c [t] = s.unmarked c [t] := by
  unfold State.examined
  rw [s.others_unmarked c hk]
  refine List.foldlRecOn (motive := fun u => u = s.unmarked c [t]) _ _ rfl fun u hu p hp => ?_
  rw [hu, s.unmarked_single c hk]
  exact State.corrected_of_not_mem _ (hps p hp).clean

/-- With sound checkpoints and handlers for all, every context concerned goes from its checkpoint into its handler. -/
theorem State.takeTrap_to_handlers (he : (s.ctx c).exec = true) (hi : (s.ctx c).inh = false) :
    s.takeTrap c [t] = (s.others c).foldl (State.enterHandler t) (((s.unmarked c [t]).rollAll c).beatAnew c) := by
  have hpois : ¬((s.others c).any fun p => (s.unmarked c [t]).poison.contains (chkKey p)) = true := fun h => by
    obtain ⟨p, hp, hc⟩ := List.any_eq_true.1 h
    exact (hps p hp).intact ((s.mem_poison_unmarked c hk).1 (List.contains_iff_mem.1 hc)).1
  have hevec : ((s.others c).all fun p => ((s.unmarked c [t]).ctx p).evec ≠ 0) = true :=
    List.all_eq_true.2 fun p hp => by
      rw [s.ctx_unmarked_keeps c hk Ctx.evec fun _ => rfl]
      exact decide_eq_true (hps p hp).evec
  rw [State.takeTrap_eq]
  dsimp only
  rw [State.examined_of_sound hk hps, s.others_unmarked c hk, if_neg (by simp [hi]), if_neg hpois, if_pos ⟨he, hevec⟩]
  rfl

end

/-! ### In the handler (R364, R42, R43) -/

/-- What a context y has come to that entered its handler with trap t, where it was x: control stands at the handler, and what the
handler finds is the checkpoint and the trap. -/
structure EntersHandler (t : TrapInfo) (x y : Ctx) : Prop where
  wdog : y.wdog = 0
  epc : y.epc = x.chkPc
  ecause : y.ecause = t.kind
  eaddr : y.eaddr = t.faddr
  inh : y.inh = true
  pc : y.pc = x.evec
  status : y.status = .ready
  vis : y.vis = x.chk
  wb : y.wb = []

/-- A context rolled back enters its handler. -/
theorem EntersHandler.of_rollback {t : TrapInfo} {x z : Ctx} (h : z.butPosts = x.rollback.butPosts) :
    EntersHandler t x (z.toHandler t) where
  wdog := rfl
  epc := (congrArg Ctx.chkPc h :)
  ecause := rfl
  eaddr := rfl
  inh := rfl
  pc := (congrArg Ctx.evec h :)
  status := rfl
  vis := (congrArg Ctx.vis h :)
  wb := (congrArg Ctx.wb h :)

/-- The marks of the fault do not count for the handler. -/
theorem EntersHandler.of_unmarked {t : TrapInfo} {s : State} {c p : Nat} {y : Ctx} (hk : t.kind ≠ 0x10)
    (h : EntersHandler t ((s.unmarked c [t]).ctx p) y) : EntersHandler t (s.ctx p) y where
  wdog := h.wdog
  epc := h.epc.trans (s.ctx_unmarked_keeps c hk Ctx.chkPc (fun _ => rfl) p)
  ecause := h.ecause
  eaddr := h.eaddr
  inh := h.inh
  pc := h.pc.trans (s.ctx_unmarked_keeps c hk Ctx.evec (fun _ => rfl) p)
  status := h.status
  vis := h.vis.trans (s.ctx_unmarked_keeps c hk Ctx.chk (fun _ => rfl) p)
  wb := h.wb

section
variable {s : State} {c : Nat} {t : TrapInfo} (hk : t.kind ≠ 0x10) (hi : (s.ctx c).inh = false) (he : (s.ctx c).exec = true)
  (hl : (s.others c).Nodup)
  (hps : ∀ p ∈ s.others c, s.MayEnter c p)

section
include hk hl hps

/-- The members have come to the consist's checkpoint last of all, so that each goes back to its own. -/
theorem State.ctx_rollAll_unmarked {p : Nat} (hp : p ∈ s.others c) :
    (((s.unmarked c [t]).rollAll c).ctx p).butPosts = ((s.unmarked c [t]).ctx p).rollback.butPosts := by
  rw [← s.others_unmarked c hk] at hl
  have hroll := (s.unmarked c [t]).ctx_rollAll c hl (by rwa [s.others_unmarked c hk] : p ∈ _)
  have hchk : ((s.unmarked c [t]).ctx p).chkNo = (s.unmarked c [t]).consistChk c := by
    rw [s.ctx_unmarked_keeps c hk Ctx.chkNo fun _ => rfl, s.consistChk_unmarked c hk]
    exact (hps p hp).chkNo
  rwa [← hchk, Ctx.recall_chkNo] at hroll

include hi he

/-- Every context concerned enters its handler. -/
theorem State.takeTrap_enters {p : Nat} (hp : p ∈ s.others c) : EntersHandler t (s.ctx p) ((s.takeTrap c [t]).ctx p) := by
  have hroll := (State.ctx_beatAnew _ c p).symm ▸ State.ctx_rollAll_unmarked hk hl hps hp
  have hgo := foldl_ctx_of_mem (R := fun x y => y = x.toHandler t) (fun s p _ => s.ctx_enterHandler_ne t p)
    (fun s p => s.ctx_enterHandler t p) hl hp (((s.unmarked c [t]).rollAll c).beatAnew c)
  rw [State.takeTrap_to_handlers hk hps he hi, hgo]
  exact (EntersHandler.of_rollback hroll).of_unmarked hk

/-- The consist's skew counts from the handlers. -/
theorem State.beats_takeTrap {i : Nat} (hc : c ∈ s.others c) (hcons : (s.ctx c).cons = some i) :
    ∀ y ∈ (s.takeTrap c [t]).consists, y.id = i → y.beats = 0 := by
  rw [State.takeTrap_to_handlers hk hps he hi, foldl_keeps State.consists (State.enterHandler_consists t)]
  refine State.beats_beatAnew _ c ?_
  calc (((s.unmarked c [t]).rollAll c).ctx c).cons
      = ((s.unmarked c [t]).ctx c).cons := (congrArg Ctx.cons (State.ctx_rollAll_unmarked hk hl hps hc) :)
    _ = (s.ctx c).cons := s.ctx_unmarked_keeps c hk Ctx.cons (fun _ => rfl) c
    _ = some i := hcons

end

section
include hk hi he hps

/-- Every context that does not take part stays as it is. -/
theorem State.ctx_takeTrap_of_not_mem (hc : c ∈ s.others c) {j : Nat} (hj : j ∉ s.others c) : (s.takeTrap c [t]).ctx j = s.ctx j := by
  have hjc : j ≠ c := fun e => hj (e.symm ▸ hc)
  have hj' : j ∉ (s.unmarked c [t]).others c := by rwa [s.others_unmarked c hk]
  rw [State.takeTrap_to_handlers hk hps he hi, foldl_ctx_of_not_mem (fun s p _ => s.ctx_enterHandler_ne t p) hj,
    State.ctx_beatAnew, State.ctx_rollAll_of_not_mem _ _ hj', s.ctx_unmarked_ne c hk hjc]

/-- Memory and the system registers stay as they are. -/
theorem State.takeTrap_to_handlers_apart : (s.takeTrap c [t]).apart = s.apart := by
  rw [State.takeTrap_to_handlers hk hps he hi, foldl_keeps State.apart (State.enterHandler_apart t), State.beatAnew_apart,
    State.rollAll_apart, s.unmarked_apart c hk]

end
end

/-! ### A trap raised by an instruction; the return (R11, R351, R356) -/

/-- Taking a trap leaves the bundle's own record as it is. -/
@[simp] theorem State.takeTrap_iss (s : State) (c : Nat) (ts : List TrapInfo) : (s.takeTrap c ts).iss = s.iss := by
  rw [State.takeTrap_eq]
  dsimp only
  split_ifs
  · rw [State.fatalError_iss, s.examined_iss]
  · rw [State.fatalError_iss, s.examined_iss]
  · rw [foldl_keeps State.iss (State.enterHandler_iss _), State.beatAnew_iss, State.rollAll_iss, s.examined_iss]
  · rw [State.park_iss, foldl_keeps State.iss State.parkMember_iss, State.rollAll_iss, s.examined_iss]

/-- A state given its own record of the bundle is itself. -/
theorem State.with_iss {s : State} {i : Issue} (h : s.iss = i) : { s with iss := i } = s := by
  subst h
  rfl

/-- An instruction's trap is taken by its context, and its bundle is told of it. -/
theorem State.raise_iss (s : State) (t : TrapInfo) : (s.raise t).iss = { s.iss with sig := .trap t } := by
  unfold State.raise
  dsimp only
  rw [State.takeTrap_iss]

theorem State.raise_eq (s : State) (t : TrapInfo) : { s.raise t with iss := s.iss } = s.takeTrap s.iss.ctx [t] :=
  State.with_iss (s.takeTrap_iss s.iss.ctx [t])

/-- Whether an address may be a target, in numbers (R115). -/
theorem targetOk_iff (a : Word) : targetOk a = true ↔ a.toNat / 2 ^ 56 = 0 ∧ a.toNat % 32 = 0 := by
  have := a.isLt
  simp only [targetOk, fld, bits, Nat.shiftRight_eq_div_pow, Bool.and_eq_true, decide_eq_true_eq]
  omega

/-- `rte` is the return from a trap. -/
theorem exec_rte (s : State) : exec .rte s = .next s.returnFromTrap := rfl

theorem State.returnFromTrap_to_target {s : State} (h : targetOk s.cur.epc = true) :
    s.returnFromTrap = (s.modCur fun c => { c with inh := false }).transfer s.cur.epc false := if_pos h

theorem State.returnFromTrap_no_target {s : State} (h : ¬targetOk s.cur.epc = true) :
    s.returnFromTrap = s.raise (s.issTrap 0x03 s.cur.epc) := if_neg h

/-! ### The obligation -/

/-- A trap on an executive context outside a consist. -/
theorem State.takeTrap_alone {s : State} {c : Nat} {t : TrapInfo} (he : (s.ctx c).exec = true) (hcons : (s.ctx c).cons = none)
    (hk : t.kind ≠ 0x10) (hi : (s.ctx c).inh = false) (hpois : chkKey c ∉ s.poison) (hcorr : chkKey c ∉ s.corr)
    (hevec : (s.ctx c).evec ≠ 0) :
    EntersHandler t (s.ctx c) ((s.takeTrap c [t]).ctx c) ∧ (s.takeTrap c [t]).apart = s.apart ∧
      ∀ j, j ≠ c → (s.takeTrap c [t]).ctx j = s.ctx j := by
  have ho := State.others_of_alone hcons
  have hps : ∀ p ∈ s.others c, s.MayEnter c p := by
    rw [ho, List.forall_mem_singleton]
    exact ⟨hpois, hcorr, hevec, (State.consistChk_of_alone hcons).symm⟩
  have hc : c ∈ s.others c := by rw [ho]; exact List.mem_singleton_self c
  have hl : (s.others c).Nodup := by rw [ho]; exact List.nodup_singleton c
  refine ⟨State.takeTrap_enters hk hi he hl hps hc, State.takeTrap_to_handlers_apart hk hi he hps, fun j hj => ?_⟩
  exact State.ctx_takeTrap_of_not_mem hk hi he hps hc (by rw [ho, List.mem_singleton]; exact hj)

/-- Settles O46: a context alone by `State.takeTrap_alone`, a consist by the same lemmas over its members that have not ended; `rte`
and `State.raise` by what taking a trap leaves of the bundle's record. -/
theorem trapOnAnExecutiveContext : Obligations.TrapOnAnExecutiveContext := by
  refine ⟨⟨fun s c t he hcons hk => ⟨State.takeTrap_in_handler [t] he, fun hi hpois hkey => ?_, fun hi hpois hcorr hevec => ?_⟩,
    fun s c i x t he hi hcons hx hnodup hc hk hsound => ?_, fun s => ⟨fun h => ?_, fun h => ?_⟩⟩,
    fun s t => ⟨s.raise_iss t, s.raise_eq t⟩⟩
  · have hp : c ∈ s.others c := by rw [State.others_of_alone hcons]; exact List.mem_singleton_self c
    exact State.takeTrap_poisoned hk hi hp hpois hkey
  · obtain ⟨hin, hap, hrest⟩ := State.takeTrap_alone he hcons hk hi hpois hcorr hevec
    exact ⟨hin.wdog, hin.epc, hin.ecause, hin.eaddr, hin.inh, hin.pc, hin.status, hin.vis, hin.wb,
      congrArg (·.1) hap, congrArg (·.2.1) hap, hrest⟩
  · have hmem := fun p => State.mem_others_of_consist (p := p) hcons hx
    have hps : ∀ p ∈ s.others c, s.MayEnter c p := fun p hp => by
      obtain ⟨hin, hlive⟩ := (hmem p).1 hp
      obtain ⟨hpois, hcorr, hevec, hchk⟩ := hsound p hin hlive
      exact ⟨hpois, hcorr, hevec, hchk⟩
    have hl := State.others_nodup_of_consist hcons hx hnodup
    have hco : c ∈ s.others c := (hmem c).2 ⟨hc, fun h => h.1 rfl⟩
    have hap := State.takeTrap_to_handlers_apart hk hi he hps
    refine ⟨fun p hp hne => ?_, State.beats_takeTrap hk hi he hl hps hco hcons, fun p hp => ?_, congrArg (·.1) hap, congrArg (·.2.1) hap⟩
    · have hin := State.takeTrap_enters hk hi he hl hps ((hmem p).2 ⟨hp, hne⟩)
      exact ⟨hin.epc, hin.ecause, hin.eaddr, hin.inh, hin.pc, hin.status, hin.vis, hin.wdog⟩
    · refine State.ctx_takeTrap_of_not_mem hk hi he hps hco fun h => ?_
      obtain ⟨hin, hlive⟩ := (hmem p).1 h
      exact hp.elim (· hin) hlive
  · rw [exec_rte, State.returnFromTrap_to_target ((targetOk_iff _).2 h)]
  · rw [exec_rte, State.returnFromTrap_no_target fun ht => h ((targetOk_iff _).1 ht)]

end Sys2Proof.Machine
end

section
/-! A scalar load through a window asks for the granule that it waits for once for each part that is checked, its SYNC bytes apart from
its RD bytes (R196, R315): where a SYNC region begins inside the load's bytes, twice (O20). -/

namespace Sys2Proof.Machine

section
variable {s : State} {ea : Word} {w a : Nat}

/-- A granule behind a window that is not in the remote buffer is to be asked for. -/
theorem State.loadGran_of_not_fetched (hea : spaceOf ea = .window w a) (hheld : s.iss.held = false)
    (hbuf : w * 2 ^ 23 + a / 64 ∉ s.cur.remote) : s.loadGran ea = { gran := some (w * 2 ^ 23 + a / 64), lat := 10 } := by
  have habsent : s.cur.remote.contains (w * 2 ^ 23 + a / 64) = false := by simpa using hbuf
  simp only [State.loadGran, hea, hheld, habsent, Bool.or_self, Bool.not_false, if_true]

/-- A load through a window of bytes in one granule that is not in the remote buffer waits, with one request for each part of the
granule that is checked. -/
theorem State.loadAt_of_not_fetched {n : Nat} (hname : s.nameable {} n ea = true) (hheld : s.iss.held = false)
    (hfence : s.loadFenced s.iss.ctx = false) (hpaid : s.iss.paid = none) (hbuf : w * 2 ^ 23 + a / 64 ∉ s.cur.remote)
    (hne : s.granules s.iss.ctx (eaRun ea n) ≠ [])
    (hgran : ∀ g ∈ s.granules s.iss.ctx (eaRun ea n), ∃ x, spaceOf g = .window w x ∧ x / 64 = a / 64) :
    s.loadAt {} n [ea] = .block [] (List.replicate (s.granules s.iss.ctx (eaRun ea n)).length
      (s.granAsk (eaRun ea n) (w * 2 ^ 23 + a / 64))) [] := by
  have hload : (s.granules s.iss.ctx (eaRun ea n)).map s.loadGran =
      List.replicate (s.granules s.iss.ctx (eaRun ea n)).length { gran := some (w * 2 ^ 23 + a / 64), lat := 10 } := by
    refine List.map_eq_replicate_iff.2 fun g hg => ?_
    obtain ⟨x, hx, hxa⟩ := hgran g hg
    rw [← hxa] at hbuf ⊢
    exact State.loadGran_of_not_fetched hx hheld hbuf
  simp [State.loadAt, hpaid, hname, hfence, hload, hne]

/-- A scalar load that has to wait blocks its bundle. -/
theorem State.ld_of_block {i : Instr} {t b : BitVec 5} {o : BitVec 16} {n : Nat} {sg : Bool} {lines grans checks : List Nat}
    (h : s.loadAt {} n [s.scalarEa b o n] = .block lines grans checks) :
    s.ld i t b o n sg = .next (s.blocked .loadBlock lines grans checks []) := by
  simp only [State.ld, h, State.loadingOf, State.loading]

/-- Bundles that wait for different granules are in different states. -/
theorem State.blocked_grans_inj {r r' : Block} {l g c k l' g' c' k' : List Nat} (h : s.blocked r l g c k = s.blocked r' l' g' c' k') :
    g = g' := by
  have hsig : (s.blocked r l g c k).iss.sig = (s.blocked r' l' g' c' k').iss.sig := congrArg (·.iss.sig) h
  injection hsig

end

/-- Context 0 issues from slot 6, its window 0 open to its own cluster and its remote buffer empty; s1 names byte 0x40 behind that
window, and the cluster's SYNC region begins at byte 0x44. -/
def dividedGranule : State :=
  { State.reset with
    ctxs := [(0, { Ctx.idle with
      vis := { Ctx.idle.vis with sreg := Ctx.idle.vis.sreg.set 1 0x2000000000000040 }
      win := Ctx.idle.win.set 0 (BitVec.ofNat 64 (1 + 2 ^ 33)) })]
    clusters := [(0, { Cluster.reset with regions := [{ kind := .sync, base := 0x44, size := 64 }] })]
    iss := { Issue.none with slot := 6 } }

/-- The eight bytes that s1 names are checked in two parts, the RD bytes and the SYNC bytes. -/
theorem granules_dividedGranule :
    dividedGranule.granules 0 (eaRun 0x2000000000000040 8) = [0x2000000000000040, 0x2000000000000044] := by decide +kernel

/-- The load of them waits for their granule, number 1 behind window 0, and names it twice. -/
theorem exec_ldI64_dividedGranule :
    exec (.ldI64 0 1 0) dividedGranule = .next (dividedGranule.blocked .loadBlock [] [1, 1] [] []) := by
  have hea : dividedGranule.scalarEa 1 0 8 = 0x2000000000000040 := by decide +kernel
  have hask : dividedGranule.granAsk (eaRun 0x2000000000000040 8) 1 = 1 := by decide +kernel
  show dividedGranule.ld (.ldI64 0 1 0) 0 1 0 8 false = _
  refine State.ld_of_block ?_
  rw [hea, State.loadAt_of_not_fetched (w := 0) (a := 0x40) (by decide +kernel) rfl (by decide +kernel) rfl (by decide +kernel)]
  · show LRes.block [] (List.replicate (dividedGranule.granules 0 _).length _) [] = _
    rw [granules_dividedGranule]
    exact congrArg (fun x => LRes.block [] [x, x] []) hask
  · exact granules_dividedGranule ▸ List.cons_ne_nil _ _
  · show ∀ g ∈ dividedGranule.granules 0 _, _
    rw [granules_dividedGranule]
    simp only [List.forall_mem_cons]
    exact ⟨⟨0x40, by decide, rfl⟩, ⟨0x44, by decide, rfl⟩, by simp⟩

/-- Refutes O20, in its clause on a window whose granule is not in the remote buffer: the bundle waits for that granule, but names it
once for each part that is checked, not once. R315 lets a SYNC region begin at any byte; that of `dividedGranule` begins at byte 4 of
the eight that are loaded, and the granule is asked for twice. -/
theorem not_scalarLoads : ¬ Obligations.ScalarLoads := by
  unfold Obligations.ScalarLoads
  rintro ⟨loads, -⟩
  obtain ⟨-, -, -, behindWindow⟩ := loads dividedGranule 0 1 0 (.ldI64 0 1 0) 8 false (by simp)
  have once := (behindWindow 0 0x40).1 (by decide +kernel) (by decide +kernel) (by decide +kernel) rfl (by decide +kernel) rfl
    (by decide +kernel)
  rw [exec_ldI64_dividedGranule] at once
  have lengths := congrArg List.length (State.blocked_grans_inj (Host.Outcome.next.inj once))
  exact absurd lengths (by decide)

end Sys2Proof.Machine
end

section
/-! Control-flow outcomes in a consist, and the transfers of control (O11). -/

namespace Sys2Proof.Machine

/-- The bundle's own record does not count a control-flow outcome. -/
@[simp] theorem State.logged_iss (s : State) (i : Nat) (out : Word) : (s.logged i out).iss = s.iss := by
  unfold State.logged
  split <;> rfl

/-- Outside a consist an outcome is not compared (R43). -/
theorem State.compare_alone {s : State} (h : s.cur.cons = none) (out : Word) (k : State → State) : s.compare out k = k s := by
  simp only [State.compare, h]

section
variable {s : State} {i : Nat} {x : Consist} (hi : s.cur.cons = some i) (hx : s.consists.find? (·.id = i) = some x)
include hi hx

/-- The lead, and a member whose outcome agrees, go on with the outcome noted (R43, R116). -/
theorem State.compare_agrees {out : Word} (h : s.cur.cpos = 0 ∨ x.log[s.cur.cfCount]? = some out) (k : State → State) :
    s.compare out k = k (s.logged i out) := by
  simp only [State.compare, hi, hx, Option.bind_some]
  rw [if_neg (by rintro ⟨hpos, -, hne⟩; exact h.elim hpos hne)]
  unfold State.logged
  split <;> rfl

/-- A member whose outcome differs from its lead's raises the consist-divergence trap (R43, R116). -/
theorem State.compare_differs {out w : Word} (hpos : s.cur.cpos ≠ 0) (hw : x.log[s.cur.cfCount]? = some w) (hne : out ≠ w)
    (k : State → State) : s.compare out k = s.raise (s.issTrap 0x09) := by
  simp only [State.compare, hi, hx, Option.bind_some, hw]
  rw [if_pos ⟨hpos, rfl, fun e => hne (Option.some.inj e).symm⟩]

end

/-- The condition of a conditional branch, in integers (R77). -/
theorem bccHolds_of_mem {c : BCc} {p : Bool} {A : Word}
    (h : (c, p) ∈ [(BCc.eq, decide (A = 0)), (.ne, decide (A ≠ 0)), (.lt, decide (A.toInt < 0)), (.ge, decide (0 ≤ A.toInt)),
      (.le, decide (A.toInt ≤ 0)), (.gt, decide (0 < A.toInt))]) : bccHolds c A = p := by
  simp only [List.mem_cons, List.not_mem_nil, or_false, Prod.mk.injEq] at h
  obtain ⟨rfl, rfl⟩ | ⟨rfl, rfl⟩ | ⟨rfl, rfl⟩ | ⟨rfl, rfl⟩ | ⟨rfl, rfl⟩ | ⟨rfl, rfl⟩ := h <;>
    rw [Bool.eq_iff_iff] <;> simp [bccHolds, BitVec.slt, BitVec.sle]

/-- A jump's target: the upper bits of PC, the offset in bundles below them (R112). -/
theorem jump_target (pc : Word) (o : BitVec 26) :
    (pc &&& 0xFFFFFFFF80000000) + BitVec.ofNat 64 (32 * o.toNat) = (pc.extractLsb' 31 33 ++ o ++ 0#5 : BitVec 64) := by
  have hmask : (0xFFFFFFFF80000000 : Word) = BitVec.allOnes 64 <<< 31 := by decide
  have hhigh : pc &&& (0xFFFFFFFF80000000 : Word) = (pc >>> 31) <<< 31 := by
    rw [hmask]
    ext i hi
    simp only [BitVec.getElem_and, BitVec.getElem_shiftLeft, BitVec.getElem_allOnes]
    by_cases h : i < 31
    · simp [h]
    · simp [h, show 31 + (i - 31) = i by omega, ← BitVec.getLsbD_eq_getElem]
  have happend : (pc.extractLsb' 31 33 ++ o ++ 0#5 : BitVec (33 + 26 + 5)).toNat =
      (pc.toNat / 2 ^ 31 % 2 ^ 33 * 2 ^ 26 + o.toNat) * 2 ^ 5 := by
    have := o.isLt
    rw [BitVec.toNat_append, BitVec.toNat_append, ← Nat.shiftLeft_add_eq_or_of_lt o.isLt, BitVec.extractLsb'_toNat]
    simp [Nat.shiftLeft_eq, Nat.shiftRight_eq_div_pow]
  rw [hhigh]
  refine BitVec.eq_of_toNat_eq (Eq.trans ?_ happend.symm)
  have := o.isLt
  have := pc.isLt
  simp [Nat.shiftLeft_eq, Nat.shiftRight_eq_div_pow]
  omega

/-- The instructions that transfer control, each with its control-flow outcome and what it does once that is noted. -/
def controlMoves (s : State) (o : BitVec 26) (n : BitVec 18) (d a : BitVec 5) (c : BCc) : List (Instr × Word × (State → State)) :=
  [(.br o, 1, fun u => u.transfer (u.pcRel o) true),
   (.jmp o, 1, fun u => u.transfer ((u.iss.pc &&& 0xFFFFFFFF80000000) + BitVec.ofNat 64 (32 * o.toNat)) true),
   (.call o, 1, fun u => (u.ws 23 1 (u.iss.pc + 32)).transfer (u.pcRel o) false),
   (.bcc a c n, ofBool (bccHolds c (s.rs a)), fun u => if bccHolds c (s.rs a) then u.transfer (u.pcRel n) true else u),
   (.jr d a, s.rs a, fun u => if targetOk (s.rs a) then (u.ws d 1 (u.iss.pc + 32)).transfer (s.rs a) (d = 0)
      else u.raise (u.issTrap 0x03 (s.rs a))),
   (.ret a, s.rs a, fun u => if targetOk (s.rs a) then u.transfer (s.rs a) false else u.raise (u.issTrap 0x03 (s.rs a)))]

theorem exec_controlMoves (s : State) (o : BitVec 26) (n : BitVec 18) (d a : BitVec 5) (c : BCc) :
    ∀ m ∈ controlMoves s o n d a c, exec m.1 s = .next (s.compare m.2.1 m.2.2) := by
  simp only [controlMoves, List.forall_mem_cons]
  exact ⟨rfl, rfl, rfl, rfl, rfl, rfl, by simp⟩

/-- Settles O11: each of the instructions compares its outcome and goes on with what `controlMoves` gives it, so that the cases of a
consist are those of `State.compare`. -/
theorem controlTransfers : Obligations.ControlTransfers := by
  intro s o n d a c p pc A near far ok hp moves
  obtain rfl := bccHolds_of_mem hp
  have hmoves : ∀ u : State, u.iss = s.iss → moves u = (controlMoves s o n d a c).map fun m => (m.1, m.2.1, m.2.2 u) := by
    intro u hu
    simp only [moves, controlMoves, List.map_cons, List.map_nil, hu, State.pcRel, jump_target, State.ws_posted, targetOk_iff]
    rfl
  have hexec := exec_controlMoves s o n d a c
  refine ⟨fun hi => ?_, fun i x hi hx => ⟨fun out h => ?_, fun w hpos hw => ?_⟩⟩
  · rw [hmoves s rfl, List.forall_mem_map]
    exact fun m hm => (hexec m hm).trans (congrArg _ (State.compare_alone hi _ _))
  · rw [hmoves _ (s.logged_iss i out), List.forall_mem_map]
    intro m hm (hout : m.2.1 = out)
    subst hout
    exact (hexec m hm).trans (congrArg _ (State.compare_agrees hi hx h _))
  · rw [hmoves s rfl, List.forall_mem_map]
    exact fun m hm hne => (hexec m hm).trans (congrArg _ (State.compare_differs hi hx hpos hw hne _))

end Sys2Proof.Machine
end

section
/-! The hardware loop's entry, and the cards (O13). -/

namespace Sys2Proof.Machine


/-- Counting a control-flow outcome leaves the visible state as it is. -/
theorem State.logged_vis (s : State) (i : Nat) (out : Word) : (s.logged i out).cur.vis = s.cur.vis := by
  have h : ∀ t : State, (t.modCur fun c => { c with cfCount := c.cfCount + 1 }).cur.vis = t.cur.vis := fun t => by
    simp [State.cur, State.modCur]
  refine (h _).trans ?_
  split <;> rfl

/-- What posting results leaves of the issuing context. -/
theorem State.posted_cur (s : State) (rs : List (Nat × Eff)) : (s.posted rs).cur =
    { s.cur with pend := s.cur.pend ++ rs.map fun r => { at_ := s.iss.cyc + r.1, inChk := false, eff := r.2 } } := by
  induction rs generalizing s with
  | nil => simp [State.posted]
  | cons r rs ih =>
    have hcur : (s.push r.1 r.2).cur =
        { s.cur with pend := s.cur.pend ++ [{ at_ := s.iss.cyc + r.1, inChk := false, eff := r.2 }] } :=
      s.ctx_modCtx s.iss.ctx _
    refine (ih (s.push r.1 r.2)).trans ?_
    simp [hcur]

/-- A change of the issuing context depends on the context alone. -/
theorem State.modCur_congr {s : State} {f g : Ctx → Ctx} (h : f s.cur = g s.cur) : s.modCur f = s.modCur g :=
  congrArg (s.setCtx s.iss.ctx) h

/-! ### The hardware loop -/

/-- What `loop` does with a body that ends at fin, once its count is noted (R119). -/
def State.enterLoop (s : State) (count fin : Word) : State :=
  let v := s.cur.vis
  if (v.loops.head?.map fun e => e.holds s.iss.pc && e.fin.ult fin).getD false then s.raise (s.issTrap 0x0B)
  else if count = 0 then (s.setLoops v.loops []).transfer (fin + 32) false
  else if v.loops.length ≥ 4 then s.raise (s.issTrap 0x0B)
  else s.setLoops ({ start := s.iss.pc + 32, fin := fin, remaining := count, steps := v.steps } :: v.loops) []

theorem exec_loop (s : State) (a : BitVec 5) (o : BitVec 18) :
    exec (.loop a o) s =
    .next (s.compare (s.rs a) fun u => u.enterLoop (s.rs a) (s.iss.pc + BitVec.ofNat 64 (32 * o.toNat))) := rfl

/-- Whether a body that ends at fin, begun by a bundle at pc, ends after the body that encloses it (R119). -/
def endsBeyond (ls : List LoopEntry) (pc fin : Word) : Prop :=
  ∃ e r, ls = e :: r ∧ e.start.toNat ≤ pc.toNat ∧ pc.toNat ≤ e.fin.toNat ∧ e.fin.toNat < fin.toNat

theorem endsBeyond_iff (ls : List LoopEntry) (pc fin : Word) :
    (ls.head?.map fun e => e.holds pc && e.fin.ult fin).getD false = true ↔ endsBeyond ls pc fin := by
  cases ls with
  | nil => simp [endsBeyond]
  | cons e r => simp [endsBeyond, LoopEntry.holds, BitVec.ule, BitVec.ult, and_assoc]

section
variable {s : State} {count fin : Word}

theorem State.enterLoop_of_beyond (h : endsBeyond s.cur.vis.loops s.iss.pc fin) :
    s.enterLoop count fin = s.raise (s.issTrap 0x0B) := if_pos ((endsBeyond_iff _ _ _).2 h)

variable (h : ¬endsBeyond s.cur.vis.loops s.iss.pc fin)
include h

theorem State.enterLoop_zero (hz : count = 0) :
    s.enterLoop count fin = (s.setLoops s.cur.vis.loops []).transfer (fin + 32) false :=
  (if_neg (mt (endsBeyond_iff _ _ _).1 h)).trans (if_pos hz)

theorem State.enterLoop_full (hz : count ≠ 0) (hl : 4 ≤ s.cur.vis.loops.length) : s.enterLoop count fin = s.raise (s.issTrap 0x0B) :=
  (if_neg (mt (endsBeyond_iff _ _ _).1 h)).trans ((if_neg hz).trans (if_pos hl))

theorem State.enterLoop_push (hz : count ≠ 0) (hl : s.cur.vis.loops.length < 4) : s.enterLoop count fin =
    s.setLoops ({ start := s.iss.pc + 32, fin := fin, remaining := count,
                  steps := s.cur.vis.steps } :: s.cur.vis.loops) [] :=
  (if_neg (mt (endsBeyond_iff _ _ _).1 h)).trans ((if_neg hz).trans (if_neg (not_le.2 hl)))

end

/-! ### Cards -/

/-- A card is dealt by nine results at 1 cy. -/
theorem State.dealCard_posted (s : State) (d : BitVec 5) (idx : Word) (ws : List Word) : s.dealCard d idx ws =
    s.posted (regResult d 1 idx ++ (List.range 8).map fun w => (1, .sreg (BitVec.ofNat 5 (24 + w)) (ws.getD w 0))) := by
  rw [State.dealCard, State.ws_posted, State.posted_append]
  rfl

section
variable {s : State} (d : BitVec 5)

/-- The next card that the context owns, prefetched without a fault, is delivered (R32). -/
theorem exec_cnext_card {card : Card} (hn : s.cur.vis.taken < s.cur.owned)
    (hcard : s.cur.cards.find? (·.pos = s.cur.vis.taken) = some card) (hbad : card.bad = none) :
    exec (.cnext d) s = .next ((s.dealCard d (BitVec.ofNat 64 card.gidx) card.words).modCur fun c => { c with
      vis := { c.vis with taken := s.cur.vis.taken + 1 }, cards := c.cards.filter (·.pos ≠ s.cur.vis.taken) }) := by
  show execCnext d s = _
  simp only [execCnext, hn, if_true, hcard, hbad]

/-- A card that is kept with a fault raises it (R33). -/
theorem exec_cnext_bad {card : Card} {t : TrapInfo} (hn : s.cur.vis.taken < s.cur.owned)
    (hcard : s.cur.cards.find? (·.pos = s.cur.vis.taken) = some card) (hbad : card.bad = some t) :
    exec (.cnext d) s = .next (s.raise { t with pc := s.iss.pc, slot := BitVec.ofNat 8 s.iss.slot }) := by
  show execCnext d s = _
  simp only [execCnext, hn, if_true, hcard, hbad]

/-- A card that is not prefetched is waited for (R32). -/
theorem exec_cnext_wait (hn : s.cur.vis.taken < s.cur.owned) (hcard : s.cur.cards.find? (·.pos = s.cur.vis.taken) = none) :
    exec (.cnext d) s = .next (s.blocked .cardWait [s.cur.vis.taken] [] [] []) := by
  show execCnext d s = _
  simp only [execCnext, hn, if_true, hcard]

/-- Past the last card of the context, but not of its consist (R44). -/
theorem exec_cnext_peer (hn : s.cur.owned ≤ s.cur.vis.taken) (hp : ∃ p ∈ s.peers s.iss.ctx, s.cur.vis.taken < (s.ctx p).owned) :
    exec (.cnext d) s =
      .next ((s.dealCard d (-2) (List.replicate 8 0)).modVis fun v => { v with taken := s.cur.vis.taken + 1 }) := by
  have hany : ((s.peers s.iss.ctx).any fun p => decide (s.cur.vis.taken < (s.ctx p).owned)) = true := by simpa using hp
  exact congrArg _ ((if_neg (not_lt.2 hn)).trans (if_pos hany))

/-- Past the last card of the context and of its consist (R32, R44). -/
theorem exec_cnext_end (hn : s.cur.owned ≤ s.cur.vis.taken) (hp : ∀ p ∈ s.peers s.iss.ctx, (s.ctx p).owned ≤ s.cur.vis.taken) :
    exec (.cnext d) s = .next (s.posted (regResult d 1 (-1))) := by
  have hany : ¬((s.peers s.iss.ctx).any fun p => decide (s.cur.vis.taken < (s.ctx p).owned)) = true := by simpa using hp
  exact congrArg _ ((if_neg (not_lt.2 hn)).trans ((if_neg hany).trans (s.ws_posted d 1 (-1))))

end

/-- Settles O13: the loop by `State.enterLoop` on each of its paths and `State.compare` around it, the cards by a lemma for each path. -/
theorem loopYieldTrapAndCardInstructions : Obligations.LoopYieldTrapAndCardInstructions := by
  refine ⟨fun s a b d l o => ?_, fun s c a => ⟨rfl, rfl⟩, fun s d => ?_⟩
  · intro v pc fin beyond loops
    have hloops : ∀ u : State, u.iss = s.iss → u.cur.vis = v → loops u (.next (u.enterLoop (s.rs a) fin)) := by
      intro u hu hv
      simp only [loops, beyond, pc, ← hu, ← hv]
      exact ⟨fun h => congrArg _ (State.enterLoop_of_beyond h), fun h hz => congrArg _ (State.enterLoop_zero h hz),
        fun h hz hl => congrArg _ (State.enterLoop_full h hz hl), fun h hz hl => congrArg _ (State.enterLoop_push h hz hl)⟩
    refine ⟨fun h => congrArg _ (if_neg (not_le.2 h)), fun h => congrArg _ (if_pos h), fun hi => ?_,
      fun i x hi hx => ⟨fun h => ?_, fun w hpos hw hne => ?_⟩⟩
    · rw [exec_loop, State.compare_alone hi]
      exact hloops s rfl rfl
    · rw [exec_loop, State.compare_agrees hi hx h]
      exact hloops _ (s.logged_iss i _) (s.logged_vis i _)
    · rw [exec_loop, State.compare_differs hi hx hpos hw hne]
  · intro c n deal
    refine ⟨fun hn => ⟨fun card hcard => ⟨fun hbad => ?_, fun t hbad => exec_cnext_bad d hn hcard hbad⟩, exec_cnext_wait d hn⟩,
      fun hn => ⟨fun hp => ?_, exec_cnext_end d hn⟩⟩
    · rw [exec_cnext_card d hn hcard hbad, State.dealCard_posted]
      exact congrArg _ (State.modCur_congr (by simp only [State.posted_cur]; rfl))
    · rw [exec_cnext_peer d hn hp, State.dealCard_posted]
      rfl

end Sys2Proof.Machine
end

section
/-! Status registers: a read by its number, a write by its fields (O14). -/

namespace Sys2Proof.Machine

/-- `csrr` posts the register as it stands (R128). -/
theorem exec_csrr (s : State) (d : BitVec 5) (n : BitVec 16) :
    exec (.csrr d n) s = .next (s.posted (regResult d 1 (s.readCsr n.toNat))) := congrArg _ (s.ws_posted d 1 _)

/-- `csrw` posts the previous value and its write (R129). -/
theorem exec_csrw (s : State) (d a : BitVec 5) (n : BitVec 16) :
    exec (.csrw d a n) s = .next (s.posted (regResult d 1 (s.readCsr n.toNat) ++ [(1, .csr n (s.rs a))])) := by
  rw [State.posted_append, ← State.ws_posted]
  rfl

/-! ### Reads -/

/-- A number that no rule describes reads as 0 (log 48). -/
theorem State.readCsr_of_unassigned (s : State) {n : Nat} (h : (8 < n ∧ n < 16) ∨ 18 < n) : s.readCsr n = 0 := by
  unfold State.readCsr
  dsimp only
  split
  case h_13 => rfl
  all_goals omega

/-- CYCLE reads as 0 in deterministic mode (R136). -/
theorem State.readCsr_cycle_of_det {s : State} (h : s.detOf s.iss.ctx = true) : s.readCsr 0x006 = 0 := if_pos h

/-- CYCLE counts from the context's start (R136). -/
theorem State.readCsr_cycle {s : State} {t0 : Nat} (h : s.detOf s.iss.ctx = false) (ht : s.cur.startCycle = some t0) :
    s.readCsr 0x006 = BitVec.ofNat 64 (s.now - t0) := by
  show s.cycleReg = _
  simp [State.cycleReg, h, ht]

/-- The fields of a word put together from seven numbers of 2, 2, 4, 3, 6, 9 and 12 bits, the first lowest. -/
theorem fields_of_sum {a b c d e f g : Nat} (ha : a < 4) (hb : b < 4) (hc : c < 16) (hd : d < 8) (he : e < 64) (hf : f < 512)
    (hg : g < 4096) :
    let x : Word := BitVec.ofNat 64 (a + b * 2 ^ 2 + c * 2 ^ 4 + d * 2 ^ 8 + e * 2 ^ 11 + f * 2 ^ 17 + g * 2 ^ 26)
    fld x 0 2 = a ∧ fld x 2 2 = b ∧ fld x 4 4 = c ∧ fld x 8 3 = d ∧ fld x 11 6 = e ∧ fld x 17 9 = f ∧ fld x 26 12 = g ∧
      fld x 38 26 = 0 := by
  have hlt : a + b * 2 ^ 2 + c * 2 ^ 4 + d * 2 ^ 8 + e * 2 ^ 11 + f * 2 ^ 17 + g * 2 ^ 26 < 2 ^ 64 := by omega
  simp only [fld, bits, BitVec.toNat_ofNat, Nat.shiftRight_eq_div_pow, Nat.mod_eq_of_lt hlt, Nat.pow_zero, Nat.div_one]
  omega

/-- The fields of ID.SELF (R27). -/
theorem State.idSelf_fields (s : State) {c : Nat} (hc : c < 8192) (hl : (s.ctx c).l < 16) (hg : (s.ctx c).g < 384)
    (hp : s.luvex.pos < 4096) :
    fld (s.idSelf c) 0 2 = c % 4 ∧ fld (s.idSelf c) 2 2 = c / 4 % 4 ∧ fld (s.idSelf c) 4 4 = (s.ctx c).l ∧
      fld (s.idSelf c) 8 3 = c / 16 % 8 ∧ fld (s.idSelf c) 11 6 = c / 128 ∧ fld (s.idSelf c) 17 9 = (s.ctx c).g ∧
      fld (s.idSelf c) 26 12 = s.luvex.pos ∧ fld (s.idSelf c) 38 26 = 0 := by
  rw [State.idSelf, Nat.mod_eq_of_lt (show s.luvex.pos < 2 ^ 12 from hp)]
  exact fields_of_sum (Nat.mod_lt _ (by decide)) (Nat.mod_lt _ (by decide)) hl (Nat.mod_lt _ (by decide))
    (Nat.div_lt_of_lt_mul hc) (hg.trans (by decide)) hp

/-! ### Writes -/

/-- The low bits of a word, by the two names that the model and its statements use. -/
theorem extractLsb'_low (x : Word) {n : Nat} (h : n ≤ 64) : x.extractLsb' 0 n = x.setWidth n :=
  (BitVec.setWidth_eq_extractLsb' h).symm

/-- A write of FP.MODE: a rounding mode above 4 becomes 0 (R132). -/
theorem Vis.apply_csr_mode (v : Vis) (x : Word) :
    v.apply (.csr 0x001 x) = { v with fpMode := if x.toNat % 8 ≤ 4 then x.extractLsb' 0 3 else 0 } := by
  rw [extractLsb'_low x (by decide), show x.toNat % 8 = fld x 0 3 by simp [fld, bits]]
  rfl

/-- A write to a number that is not a writable register's changes nothing (R129). -/
theorem Vis.csrw_of_readOnly (v : Vis) {n : Nat} (x : Word) (h : n ∉ [0, 1, 2, 3, 4, 7, 8]) : v.csrw n x = v := by
  unfold Vis.csrw
  split
  case h_8 => rfl
  all_goals simp at h

/-- Settles O14: a read is `exec_csrr` with the register's own value, a write `exec_csrw` with what its arrival changes. -/
theorem statusRegisters : Obligations.StatusRegisters := by
  refine ⟨fun s d => ⟨fun n x h => ?_, fun hd => ?_, fun t0 hd ht => ?_, fun hc hl hg hp => ?_, fun n hn => ?_⟩,
    exec_csrw, fun v x => ?_⟩
  · have hread : s.readCsr n.toNat = x := by
      simp only [List.mem_cons, List.not_mem_nil, or_false, Prod.mk.injEq] at h
      obtain ⟨rfl, rfl⟩ | ⟨rfl, rfl⟩ | ⟨rfl, rfl⟩ | ⟨rfl, rfl⟩ | ⟨rfl, rfl⟩ | ⟨rfl, rfl⟩ | ⟨rfl, rfl⟩ | ⟨rfl, rfl⟩ | ⟨rfl, rfl⟩ |
        ⟨rfl, rfl⟩ := h
      case inr.inr.inr.inr.inr.inl => rw [Nat.mul_comm]; rfl
      all_goals rfl
    rw [exec_csrr, hread]
  · exact (exec_csrr s d 0x006).trans (by rw [show (0x006 : BitVec 16).toNat = 0x006 from rfl, State.readCsr_cycle_of_det hd])
  · exact (exec_csrr s d 0x006).trans (by rw [show (0x006 : BitVec 16).toNat = 0x006 from rfl, State.readCsr_cycle hd ht])
  · exact ⟨_, exec_csrr s d 0x010, s.idSelf_fields hc hl hg hp⟩
  · rw [exec_csrr, s.readCsr_of_unassigned hn]
  · simp only [extractLsb'_low x (show 6 ≤ 64 by decide), extractLsb'_low x (show 32 ≤ 64 by decide),
      extractLsb'_low x (show 2 ≤ 64 by decide)]
    refine ⟨rfl, fun h => ?_, fun h => ?_, rfl, rfl, rfl, rfl, rfl, fun n h => ?_⟩
    · rw [Vis.apply_csr_mode, if_pos h]
    · rw [Vis.apply_csr_mode, if_neg (not_le.2 h)]
    · exact v.csrw_of_readOnly x (by simpa [← BitVec.toNat_inj] using h)

end Sys2Proof.Machine
end

section
/-! What memory, the RAS log, the retirement of frames and the held translations are: the books that a fetch, a load or a walk writes
in. Everything else of the state these leave as it is. -/

namespace Sys2Proof.Machine

/-- A state without its books. -/
def State.offBooks (s : State) : State :=
  { s with mem := [], out := [], luvex := Luvex.reset, sys := Sys.reset, retired := [], corr := [], corrCnt := [], tlb := [], free := 0 }

section
variable (s : State)

@[simp] theorem State.write_offBooks (bs : List (Nat × Byte)) : (s.write bs).offBooks = s.offBooks := by
  obtain ⟨m, o, e⟩ := s.write_eq bs
  rw [e]
  rfl

theorem State.luvex_offBooks (l : Luvex) : ({ s with luvex := l } : State).offBooks = s.offBooks := rfl

@[simp] theorem State.rasLog_offBooks (u ty a n : Nat) : (s.rasLog u ty a n).offBooks = s.offBooks := by
  unfold State.rasLog
  refine (State.luvex_offBooks _ _).trans ?_
  show (if (s.region 13).2 = 0 then s else s.write _).offBooks = s.offBooks
  split
  · rfl
  · exact s.write_offBooks _

@[simp] theorem State.retireFrame_offBooks (f n : Nat) : (s.retireFrame f n).offBooks = s.offBooks := by
  unfold State.retireFrame
  split
  · rfl
  · dsimp only
    split
    · rfl
    · exact State.write_offBooks { s with retired := s.retired ++ [f] } _

@[simp] theorem State.memError_offBooks (d k : Nat) : (s.memError d k).offBooks = s.offBooks := by
  unfold State.memError
  dsimp only
  split <;> simp

@[simp] theorem State.corrected_offBooks (d k n : Nat) : (s.corrected d k n).offBooks = s.offBooks :=
  s.corrected_keeps State.offBooks State.rasLog_offBooks State.retireFrame_offBooks (fun _ _ _ => rfl) d k n

@[simp] theorem State.walkCorrected_offBooks (asid va : Nat) : (s.walkCorrected asid va).offBooks = s.offBooks :=
  foldl_keeps State.offBooks (fun s _ => s.corrected_offBooks 0 _ 64) _ _

@[simp] theorem State.learn_offBooks (e : Tlb) : (s.learn e).offBooks = s.offBooks := by
  unfold State.learn
  split
  · rfl
  · exact State.walkCorrected_offBooks { s with tlb := e :: s.tlb } _ _

@[simp] theorem State.heat_offBooks (m : Nat) (leaf : Word) : (s.heat m leaf).offBooks = s.offBooks := by
  unfold State.heat
  split
  · rfl
  · dsimp only
    split
    · rfl
    · exact State.write_offBooks { s with free := s.free + 1 } _

/-- States that differ in their books alone have the same contexts. -/
theorem State.ctx_of_offBooks {s t : State} (h : t.offBooks = s.offBooks) (c : Nat) : t.ctx c = s.ctx c :=
  (congrArg (·.ctx c) h :)

end

end Sys2Proof.Machine
end

section
/-! A turn of a core whose CURRENT context's bundle issues: the bundle's slots, its evaluation, the core's cycle, the step (O52). -/

namespace Sys2Proof.Machine

/-! ### The slots -/

/-- One slot run in a state, and whether every slot so far has acted. -/
def runSlot (r : State × Bool) (ki : Nat × Instr) : State × Bool :=
  match exec ki.2 { r.1 with iss := { r.1.iss with slot := ki.1, sig := .ok } } with
  | .next t => (t, r.2 && decide (t.iss.sig = .ok))
  | _ => (r.1, false)

theorem runSlot_false (t : State) (ki : Nat × Instr) : (runSlot (t, false) ki).2 = false := by
  unfold runSlot
  split <;> rfl

/-- Once a slot has not acted, not every slot has. -/
theorem foldl_runSlot_false (l : List (Nat × Instr)) {r : State × Bool} (h : r.2 = false) : (l.foldl runSlot r).2 = false := by
  induction l generalizing r with
  | nil => exact h
  | cons ki l ih =>
    obtain ⟨t, b⟩ := r
    obtain rfl : b = false := h
    exact ih (runSlot_false t ki)

theorem runSlot_of_next {s t : State} {b : Bool} {ki : Nat × Instr}
    (h : exec ki.2 { s with iss := { s.iss with slot := ki.1, sig := .ok } } = .next t) :
    runSlot (s, b) ki = (t, b && decide (t.iss.sig = .ok)) := by
  unfold runSlot
  rw [h]

theorem runSlot_of_stop {s : State} {b : Bool} {ki : Nat × Instr}
    (h : ∀ t, exec ki.2 { s with iss := { s.iss with slot := ki.1, sig := .ok } } ≠ .next t) : runSlot (s, b) ki = (s, false) := by
  unfold runSlot
  split
  · next t ht => exact absurd ht (h t)
  · rfl

/-- A slot that acts leaves the run what it was, in the state that it leaves. -/
theorem Run.slot_of_acts (r : Run) (ki : Nat × Instr) (h : (runSlot (r.s, true) ki).2 = true) :
    r.slot ki = { r with s := (runSlot (r.s, true) ki).1 } := by
  unfold Run.slot
  split
  · next t ht =>
    rw [runSlot_of_next ht] at h ⊢
    have hsig : t.iss.sig = .ok := by simpa using h
    simp only [hsig]
  · next hne =>
    rw [runSlot_of_stop hne] at h
    exact absurd h Bool.false_ne_true

/-- Slots that all act leave the run what it was, in the state that they leave. -/
theorem Run.slots_of_act (l : List (Nat × Instr)) (r : Run) (h : (l.foldl runSlot (r.s, true)).2 = true) :
    l.foldl Run.slot r = { r with s := (l.foldl runSlot (r.s, true)).1 } := by
  induction l generalizing r with
  | nil => rfl
  | cons ki l ih =>
    have hki : (runSlot (r.s, true) ki).2 = true := by
      by_contra hne
      exact absurd h (Bool.eq_false_iff.1 (foldl_runSlot_false l (Bool.eq_false_iff.2 hne)))
    have hpair : runSlot (r.s, true) ki = ((r.slot ki).s, true) := by rw [Run.slot_of_acts r ki hki]; exact Prod.ext rfl hki
    rw [List.foldl_cons, hpair] at h
    rw [List.foldl_cons, List.foldl_cons, hpair, ih _ h, Run.slot_of_acts r ki hki]

/-! ### The bundle -/

/-- The slots of context c's bundle run from state s: those before its release, then all. -/
def State.earlyRun (s : State) (c : Nat) (words : List (BitVec 32)) (is : List Instr) : State × Bool :=
  (earlySlots is).foldl runSlot (s.beginBundle c words is false false, true)
def State.wholeRun (s : State) (c : Nat) (words : List (BitVec 32)) (is : List Instr) : State × Bool :=
  (earlySlots is ++ lateSlots is).foldl runSlot (s.beginBundle c words is false false, true)

section
variable {s : State} {c : Nat} {words : List (BitVec 32)} {is : List Instr} (h : (s.wholeRun c words is).2 = true)
include h

/-- Where every slot acts, every slot before the release does. -/
theorem State.earlyRun_of_wholeRun : (s.earlyRun c words is).2 = true := by
  unfold State.wholeRun at h
  rw [List.foldl_append] at h
  by_contra hne
  exact absurd h (Bool.eq_false_iff.1 (foldl_runSlot_false _ (Bool.eq_false_iff.2 hne)))

theorem State.runEarly_of_acts : (s.beginBundle c words is false false).runEarly is = { s := (s.earlyRun c words is).1 } :=
  Run.slots_of_act _ _ (State.earlyRun_of_wholeRun h)

theorem State.runSlots_of_acts : (s.beginBundle c words is false false).runSlots is = { s := (s.wholeRun c words is).1 } := by
  refine Eq.trans ?_ (Run.slots_of_act (earlySlots is ++ lateSlots is) { s := s.beginBundle c words is false false } h)
  rw [List.foldl_append]
  rfl

/-- A bundle without a stall issues where every slot acts, the watchdog has not expired and the withholding buffer is not
overfull (R356). -/
theorem State.runBundle_issue (hcons : (s.ctx c).cons = none) (hw : (s.ctx c).wdog ≠ s.wdogOf c ∨ .yield ∈ is)
    (ho : (∃ i ∈ is, i.checkpoints = true) ∨ ((s.earlyRun c words is).1.ctx c).overfull = false) :
    s.runBundle c words is 0 0 = .issue (s.wholeRun c words is).1.completed := by
  have hdog : (decide ((s.ctx c).wdog = s.wdogOf c) && decide ((s.core (coreOf c)).cur = some (c % 4)) && !is.contains .yield) = false := by
    rcases hw with hw | hw
    · simp [hw]
    · simp [hw]
  have hover : (!(is.any (·.checkpoints)) && ((s.earlyRun c words is).1.ctx c).overfull) = false := by
    rcases ho with ho | ho
    · simp [List.any_eq_true.2 ho]
    · simp [ho]
  have hnum : ∀ t : State, t.numbered c (s.ctx c) = t := fun t => if_neg (by simp [hcons])
  have hd : decide (0 < 0 + 0) = false := rfl
  simp only [State.runBundle, hd, State.runEarly_of_acts h, State.runSlots_of_acts h, hdog, hover, hnum]
  simp

end

/-- The evaluation of a bundle that is fetched, legal and permitted, with no deferred trap and without a stall, is that of its slots
(R85, R356). -/
theorem State.evaluate_permitted {s : State} {c : Nat} {words : List (BitVec 32)} {e : Tlb} {is : List Instr}
    (hpois : regKey c ∉ s.poison) (hf : s.fetch c = .ok words e) (hdec : decodeBundle words = .ok is)
    (hpriv : (s.ctx c).exec = true ∨ ∀ i ∈ is, i.privileged = false) (hdef : (s.ctx c).deferred = []) (hlen : is.length = 8)
    (hstall : bankStall (((s.fetched c e).beginBundle c words is false true).bundleAddrs is) +
      (s.fetched c e).groupWait (clOf c) (((s.fetched c e).beginBundle c words is false true).bundleAddrs is) (s.fetched c e).now = 0) :
    s.evaluate c = (s.fetched c e).runBundle c words is 0 0 := by
  obtain ⟨hd, hg⟩ := Nat.add_eq_zero_iff.1 hstall
  have hfind : (if (s.ctx c).exec = true then none else (List.range 8).find? fun k => (is.getD k .nop).privileged) = none := by
    split
    · rfl
    · next hx =>
      refine List.find?_eq_none.2 fun k hk => ?_
      have hk8 : k < is.length := hlen ▸ List.mem_range.1 hk
      have := hpriv.resolve_left hx _ (List.getElem_mem hk8)
      simp [List.getD_eq_getElem?_getD, List.getElem?_eq_getElem hk8, this]
  have hp : s.poison.contains (regKey c) = false := by simpa using hpois
  simp only [State.evaluate, hp, hf, hdec, hfind, hdef, hd, hg]
  simp

/-- What a fetch leaves of a context is its own, but for the cycle in which its bundle was first due. -/
theorem State.ctx_fetched (s : State) (c : Nat) (e : Tlb) : (s.fetched c e).ctx c = (s.ctx c).due s.now := by
  have hb : ∀ m, ((((s.learn e).heat m e.leaf).corrected (dieOf c) (m / 64 * 64) 64).corrected (dieOf c) (regKey c) 1).offBooks = s.offBooks := by
    simp
  unfold State.fetched
  dsimp only
  rw [State.ctx_modCtx, State.ctx_of_offBooks (hb _)]

/-! ### The core's cycle and the step -/

/-- A context that is not BLOCKED is not woken. -/
theorem State.wake_of_not_blocked {s : State} {c : Nat} (h : (s.ctx c).isBlocked = false) : s.wake c = s := by
  unfold State.wake
  unfold Ctx.isBlocked at h
  split at h
  · exact absurd h (by decide)
  · next hne =>
    dsimp only
    split
    · next e => exact absurd e (hne _)
    · next e => exact absurd e (hne _)
    · rfl

/-- The cycle of a core that holds no bundle, none of whose contexts is BLOCKED, is its CURRENT context's turn (R37). -/
theorem State.coreCycle_current {s : State} {q h : Nat} (hb : ∀ i, i < 4 → (s.ctx (4 * q + i)).isBlocked = false)
    (hhold : (s.core q).hold = none) (hcur : (s.core q).cur = some h) (hcand : (s.ctx (4 * q + h)).candidate s.now = true) :
    s.coreCycle q = (s.modCtx (4 * q + h) Ctx.tick).turnRes (4 * q + h) ((s.modCtx (4 * q + h) Ctx.tick).tryContext (4 * q + h)) := by
  have hw : ∀ i, i < 4 → s.wake (4 * q + i) = s := fun i hi => State.wake_of_not_blocked (hb i hi)
  have hwake : ((List.range 4).map (4 * q + ·)).foldl State.wake s = s := by
    show (((s.wake (4 * q + 0)).wake (4 * q + 1)).wake (4 * q + 2)).wake (4 * q + 3) = s
    rw [hw 0 (by decide), hw 1 (by decide), hw 2 (by decide), hw 3 (by decide)]
  simp only [State.coreCycle, hwake, hhold, hcur, hcand, if_true]

/-- A core whose first context is outside a consist has its own cycle as its turn. -/
theorem State.turn_alone {s : State} {q : Nat} (h : (s.ctx (4 * q)).cons = none) : s.turn q = s.coreCycle q := by
  simp only [State.turn, h, Option.bind_none]

/-- Settles O52: the turn is `State.coreCycle_current`, its bundle issues by `State.evaluate_permitted` and `State.runBundle_issue`. -/
theorem stepRunsTheDecodedBundle : Obligations.StepRunsTheDecodedBundle := by
  intro s q h rest words e is c s0 s1 m s2 runs run hfatal harr hdue hturns hlead hhold hcur hcons hb hcand hpois hfetch hdec hpriv
    hdef hlen hstall hrun hdog hover
  have hctx : ∀ j, s0.ctx j = s.ctx j := fun j => by
    simp only [s0]
    split <;> rfl
  have hcore : s0.core q = s.core q := by
    simp only [s0]
    split <;> rfl
  have hnow : s0.now = s.now := by
    simp only [s0]
    split <;> rfl
  have hpoison : s0.poison = s.poison := by
    simp only [s0]
    split <;> rfl
  have htick : (s1.ctx c).candidate s.now = (s0.ctx c).candidate s0.now := by
    rw [hnow, State.ctx_modCtx]
    rfl
  have hcons2 : (s2.ctx c).cons = none := by
    show ((s1.fetched c e).ctx c).cons = none
    rw [State.ctx_fetched, State.ctx_modCtx, hctx]
    exact hcons
  have heval : s1.evaluate c = .issue run.1.completed :=
    (State.evaluate_permitted (hpoison ▸ hpois) hfetch hdec hpriv hdef hlen hstall).trans
      (State.runBundle_issue hrun hcons2 hdog hover)
  rw [step_turn hfatal harr hdue hturns]
  show s0.turn q = _
  rw [State.turn_alone ((congrArg Ctx.cons (hctx _)).trans hlead),
    State.coreCycle_current (fun i hi => (congrArg Ctx.isBlocked (hctx _)).trans (hb i hi)) (hcore ▸ hhold) (hcore ▸ hcur)
      (htick.symm.trans hcand)]
  show s1.turnRes c (s1.tryContext c) = _
  simp only [State.tryContext, heval]
  rfl

end Sys2Proof.Machine
end

section
/-! Runs of bytes in memory, and numbers in them. -/

namespace Sys2Proof.Machine

/-! ### Bytes of a number -/

@[simp] theorem leBytes_length (n x : Nat) : (leBytes n x).length = n := by
  induction n generalizing x with
  | zero => rfl
  | succ n ih => simp [leBytes, ih]

theorem leNat_leBytes (n x : Nat) : leNat (leBytes n x) = x % 256 ^ n := by
  induction n generalizing x with
  | zero => simp [leBytes, leNat, Nat.mod_one]
  | succ n ih =>
    simp only [leBytes, leNat, ih, BitVec.toNat_ofNat, Nat.shiftRight_eq_div_pow]
    rw [show 256 ^ (n + 1) = 2 ^ 8 * 256 ^ n from pow_succ' 256 n, Nat.mod_mul]
    rfl

theorem leNat_lt (bs : List Byte) : leNat bs < 256 ^ bs.length := by
  induction bs with
  | nil => simp [leNat]
  | cons b r ih =>
    have := b.isLt
    simp only [leNat, List.length_cons, pow_succ']
    omega

theorem memNat_lt (m : List Host.Cell) (a n : Nat) : memNat m a n < 256 ^ n := by
  have := leNat_lt (memBytes m a n)
  rwa [memBytes, List.length_map, List.length_range] at this

/-! ### Runs -/

/-- The keys of a run. -/
theorem runAt_keys {a : Nat} {bs : List Byte} {p : Nat × Byte} (h : p ∈ runAt a bs) : a ≤ p.1 ∧ p.1 < a + bs.length := by
  induction bs generalizing a with
  | nil => simp [runAt] at h
  | cons b r ih =>
    rcases List.mem_cons.1 h with rfl | h
    · simp
    · have := ih h
      simp only [List.length_cons]
      omega

section
variable {m : List Host.Cell} (hm : Memory.wf m = true)
include hm

/-- A byte of a run that has been written. -/
theorem memRead_runAt {a : Nat} {bs : List Byte} {i : Nat} (hi : i < bs.length) : memRead (memPut m (runAt a bs)) (a + i) = bs[i] := by
  induction bs generalizing m a i with
  | nil => simp at hi
  | cons b r ih =>
    have hw := memWrite_wf a b hm
    show memRead (memPut (memWrite m a b) (runAt (a + 1) r)) (a + i) = _
    cases i with
    | zero =>
      rw [memRead_memPut_ne hw fun p hp => by have := (runAt_keys hp).1; omega, memRead_memWrite _ _ hm]
      simp
    | succ i => rw [show a + (i + 1) = a + 1 + i by omega, ih hw (Nat.lt_of_succ_lt_succ hi)]; rfl

/-- A byte outside a run that has been written. -/
theorem memRead_runAt_ne {a : Nat} {bs : List Byte} {x : Nat} (hx : x < a ∨ a + bs.length ≤ x) :
    memRead (memPut m (runAt a bs)) x = memRead m x :=
  memRead_memPut_ne hm fun p hp => by have := runAt_keys hp; omega

/-- The bytes of a run that has been written. -/
theorem memBytes_runAt (a : Nat) (bs : List Byte) : memBytes (memPut m (runAt a bs)) a bs.length = bs := by
  refine List.ext_getElem (by simp [memBytes]) fun i hi hi' => ?_
  simp only [memBytes, List.getElem_map, List.getElem_range]
  exact memRead_runAt hm hi'

/-- The number in a run that has been written. -/
theorem memNat_runAt (a n x : Nat) : memNat (memPut m (runAt a (leBytes n x))) a n = x % 256 ^ n := by
  have := memBytes_runAt hm a (leBytes n x)
  rw [leBytes_length] at this
  rw [memNat, this, leNat_leBytes]

end

end Sys2Proof.Machine
end

section
/-! Barrier instructions, and the barrier unit on one object (O26). -/

namespace Sys2Proof.Machine

/-! ### The instructions -/

/-- A state without what naming a barrier object writes in: the banks, the clusters' lists, what is due at the unit. -/
def State.offUnit (s : State) : State := { s with mem := [], clusters := [], banked := [], agenda := [] }

theorem State.barAdd_offUnit (s : State) (k : Nat) (r : BarReq) : (s.barAdd k r).offUnit = s.offUnit := by
  unfold State.barAdd
  dsimp only
  split <;> rfl

theorem State.banked_offUnit (s : State) (l : List (Nat × BarReq × List (Nat × Byte))) :
    ({ s with banked := l } : State).offUnit = s.offUnit := rfl
theorem State.modCluster_offUnit (s : State) (k : Nat) (f : Cluster → Cluster) : (s.modCluster k f).offUnit = s.offUnit := rfl
theorem State.put_offUnit (s : State) (bs : List (Nat × Byte)) : (s.put bs).offUnit = s.offUnit := rfl

theorem State.nameBarrier_offUnit (s : State) (k a : Nat) : (s.nameBarrier k a).offUnit = s.offUnit := by
  unfold State.nameBarrier
  split
  · rfl
  · refine (foldl_keeps State.offUnit (fun s b => s.barAdd_offUnit k _) _ _).trans ?_
    refine (State.banked_offUnit _ _).trans ((State.modCluster_offUnit _ k _).trans ?_)
    exact foldl_keeps State.offUnit (fun s _ => s.put_offUnit _) _ s

section
variable (s : State) (k a : Nat)
@[simp] theorem State.nameBarrier_iss : (s.nameBarrier k a).iss = s.iss := (congrArg State.iss (s.nameBarrier_offUnit k a) :)
@[simp] theorem State.nameBarrier_rs (b : BitVec 5) : (s.nameBarrier k a).rs b = s.rs b :=
  (congrArg (·.rs b) (s.nameBarrier_offUnit k a) :)
@[simp] theorem State.nameBarrier_objPrev (x : Nat) : (s.nameBarrier k a).objPrev x = s.objPrev x :=
  (congrArg (·.objPrev x) (s.nameBarrier_offUnit k a) :)
@[simp] theorem State.nameBarrier_boundReached (b : Word) : (s.nameBarrier k a).boundReached b = s.boundReached b :=
  (congrArg (·.boundReached b) (s.nameBarrier_offUnit k a) :)
end

/-- The addresses that may name a barrier object (R194, R215). -/
theorem State.barOk_iff (s : State) (ea : Word) : s.barOk ea = true ↔ ea.toNat % 16 = 0 ∧ ∃ y, spaceOf ea = .localSp y := by
  simp only [State.barOk, State.nameable, Bool.and_eq_true, decide_eq_true_eq]
  cases spaceOf ea <;> simp

/-- The object that an address names. -/
theorem fld_low (ea : Word) (n : Nat) : fld ea 0 n = ea.toNat % 2 ^ n := by simp [fld, bits]

section
variable {s : State} {ea : Word} {k : Nat → State → State}

theorem State.onBarrier_ok (h : s.barOk ea = true) :
    s.onBarrier ea k = .next (k (ea.toNat % 2 ^ 23) (s.nameBarrier (clOf s.iss.ctx) (ea.toNat % 2 ^ 23))) := by
  rw [State.onBarrier, if_pos h, fld_low]

theorem State.onBarrier_no (h : ¬s.barOk ea = true) : s.onBarrier ea k = .next (s.raise (s.issTrap 0x03 ea)) := by
  rw [State.onBarrier, if_neg h]

end

/-- The bound of a wait, in numbers, outside deterministic mode (R215). -/
theorem State.boundReached_iff {s : State} (h : s.detOf s.iss.ctx = false) (b : Word) :
    s.boundReached b = true ↔ b.toNat ≤ s.now - s.cur.wait.getD s.now := by
  simp [State.boundReached, h]

section
variable (s : State) (a b d : BitVec 5)

theorem exec_barArr (n : BitVec 8) : exec (.barArr a n) s = s.onBarrier (s.rs a) fun x t => t.withheld (.barArr x n.toNat) := rfl

theorem exec_barExp : exec (.barExp a b) s = s.onBarrier (s.rs a) fun x t => t.withheld (.barExp x (t.rs b).toNat) := rfl

theorem exec_barWait (h : BitVec 4) : exec (.barWait a b h) s = s.onBarrier (s.rs a) fun x t =>
    t.waiting .barrier (bits (t.objPrev x) 48 4 ≠ h.toNat) (t.rs b) (State.acquireFence .cl) := rfl

theorem exec_barTry (hdet : s.detOf s.iss.ctx = false) : exec (.barTry a d) s = s.onBarrier (s.rs a) fun x t =>
    (t.posted (regResult d 1 (BitVec.ofNat 64 (t.objPrev x)))).acquireFence .cl := by
  refine (if_neg (by simp [hdet])).trans ?_
  simp only [State.ws_posted]

end

/-! ### The unit -/

theorem bits_eq (x lo n : Nat) : bits x lo n = x / 2 ^ lo % 2 ^ n := by rw [bits, Nat.shiftRight_eq_div_pow]


/-- The word of an object whose phase completes (R214). -/
def phaseWord (w : Nat) : Nat :=
  w - bits w 48 4 * 2 ^ 48 + (bits w 48 4 + 1) % 16 * 2 ^ 48 - bits w 16 16 * 2 ^ 16 + bits w 0 16 * 2 ^ 16

/-- What counts that are allowed leave of the object: their word, or, where both are zero, the next phase's (R214). -/
def settledWord (w : Nat) : Nat := if bits w 16 16 = 0 ∧ bits w 32 16 = 0 then phaseWord w else w

/-- The word that an operation which is no store leaves of an object (R214). -/
def barWord (w : Nat) : BarOp → Nat
  | .arrive n => if bits w 16 16 < n then w ||| 2 ^ 52 else settledWord (w - n * 2 ^ 16)
  | .expect n => if 65535 < bits w 32 16 + n then w ||| 2 ^ 52 else w + n * 2 ^ 32
  | .deliver _ => if bits w 32 16 = 0 then w ||| 2 ^ 52 else settledWord (w - 2 ^ 32)
  | .store _ => w

/-- States with the same memory, agenda and time. -/
def State.sameUnit (s t : State) : Prop := t.mem = s.mem ∧ t.agenda = s.agenda ∧ t.now = s.now

/-- What counts that are allowed, as the word w, leave of the object at a: the word, or the next phase's (R214). -/
def State.settleObj (s : State) (k a w : Nat) : State :=
  if bits w 16 16 = 0 ∧ bits w 32 16 = 0 then s.phaseDone k a w else s.putNat (spKey k a) 8 w

/-- A command's delivery: its record arrives in the next cycle, whatever the object comes to (R234). -/
theorem State.barApply_deliver {s : State} {k a : Nat} {r : BarReq} {id : Nat} (hop : r.op = .deliver id) :
    ∃ t : State, s.barApply k a r = t.schedule (t.now + 1) .eventRecordArrival { id := id, ctx := r.ctx } ∧
      (bits (s.nat (spKey k a) 8) 32 16 = 0 → ∃ f, t = (s.putNat (spKey k a) 8 (s.nat (spKey k a) 8 ||| 2 ^ 52)).modCmd id f) ∧
      (bits (s.nat (spKey k a) 8) 32 16 ≠ 0 → t = s.settleObj k a (s.nat (spKey k a) 8 - 2 ^ 32)) := by
  unfold State.barApply
  rw [hop]
  extract_lets key w pend txn ovr bad done
  generalize w - 2 ^ 32 = v
  by_cases h : txn = 0
  · exact ⟨_, if_pos h, fun _ => ⟨_, rfl⟩, fun hn => absurd h hn⟩
  · exact ⟨_, if_neg h, fun hz => absurd hz h, fun _ => rfl⟩

section
variable {s : State} {k a : Nat} (h : ∀ g ∈ (s.cluster k).famo, barObj g.bar ≠ a)
include h

/-- Completing a phase, with no gathered add for the object, writes the next phase's word (R209, R214). -/
theorem State.phaseDone_writes (w : Nat) : (s.putNat (spKey k a) 8 (phaseWord w)).sameUnit (s.phaseDone k a w) := by
  have hnone : (s.cluster k).famo.filter (fun g => decide (barObj g.bar = a)) = [] :=
    List.filter_eq_nil_iff.2 fun g hg => by simpa using h g hg
  unfold State.phaseDone State.famoFlush
  rw [hnone]
  dsimp only
  split <;> exact ⟨rfl, rfl, rfl⟩

/-- Counts that are allowed leave their settled word, and no more. -/
theorem State.settleObj_writes (w : Nat) : (s.putNat (spKey k a) 8 (settledWord w)).sameUnit (s.settleObj k a w) := by
  unfold State.settleObj settledWord
  split
  · exact State.phaseDone_writes h w
  · exact ⟨rfl, rfl, rfl⟩

/-- What an operation that is no store does to memory is to write the object's word (R214). -/
theorem State.barApply_mem {r : BarReq} (hop : ∀ bs, r.op ≠ .store bs) :
    (s.barApply k a r).mem = (s.putNat (spKey k a) 8 (barWord (s.nat (spKey k a) 8) r.op)).mem := by
  have hbad : ∀ (w : Nat) t, ((s.putNat (spKey k a) 8 w).defer r.ctx t).mem = (s.putNat (spKey k a) 8 w).mem := fun _ _ => rfl
  cases hr : r.op with
  | store bs => exact absurd hr (hop bs)
  | arrive n =>
    simp only [State.barApply, barWord, hr]
    split
    · exact hbad _ _
    · exact (State.settleObj_writes h _).1
  | expect n =>
    simp only [State.barApply, barWord, hr]
    split
    · exact hbad _ _
    · trivial
  | deliver id =>
    obtain ⟨t, ht, hover, hgo⟩ := State.barApply_deliver (s := s) (k := k) (a := a) hr
    rw [ht, State.schedule_mem]
    by_cases hz : bits (s.nat (spKey k a) 8) 32 16 = 0
    · obtain ⟨f, rfl⟩ := hover hz
      rw [barWord, if_pos hz]
      rfl
    · rw [hgo hz, barWord, if_neg hz]
      exact (State.settleObj_writes h _).1

/-- A command's delivery makes its record arrive in the next cycle (R234; log 1). -/
theorem State.barApply_deliver_agenda {r : BarReq} {id : Nat} (hop : r.op = .deliver id) : (s.barApply k a r).agenda =
    s.agenda ++ [{ at_ := s.now + 1, ev := .eventRecordArrival, due := { id := id, ctx := r.ctx } }] := by
  obtain ⟨t, ht, hover, hgo⟩ := State.barApply_deliver (s := s) (k := k) (a := a) hop
  have hu : t.agenda = s.agenda ∧ t.now = s.now := by
    by_cases hz : bits (s.nat (spKey k a) 8) 32 16 = 0
    · obtain ⟨f, rfl⟩ := hover hz
      exact ⟨rfl, rfl⟩
    · rw [hgo hz]
      exact (State.settleObj_writes h _).2
  rw [ht, State.schedule, hu.1, hu.2]

end

/-! ### The word's fields -/

/-- The first word of a barrier object from its fields: the expected count, the pending one, the transactions, the phase and what
stands above it (R213). -/
def objWord (e p t ph r : Nat) : Nat := e + p * 2 ^ 16 + t * 2 ^ 32 + ph * 2 ^ 48 + r * 2 ^ 52

/-- Every number is the word of its fields. -/
theorem objWord_fields (w : Nat) : ∃ e p t ph r, e < 2 ^ 16 ∧ p < 2 ^ 16 ∧ t < 2 ^ 16 ∧ ph < 16 ∧ w = objWord e p t ph r := by
  refine ⟨w % 2 ^ 16, w / 2 ^ 16 % 2 ^ 16, w / 2 ^ 32 % 2 ^ 16, w / 2 ^ 48 % 16, w / 2 ^ 52, Nat.mod_lt _ (by decide),
    Nat.mod_lt _ (by decide), Nat.mod_lt _ (by decide), Nat.mod_lt _ (by decide), ?_⟩
  simp only [objWord, Nat.reducePow]
  omega

/-- The fields of an object's word w once a phase has completed, as the word obj: the phase has advanced modulo 16, the pending count
has taken the expected one, and the rest stays (R214). -/
def Completes (w obj : Nat) : Prop :=
  obj / 2 ^ 16 % 2 ^ 16 = w % 2 ^ 16 ∧ obj / 2 ^ 48 % 16 = (w / 2 ^ 48 % 16 + 1) % 16 ∧ obj % 2 ^ 16 = w % 2 ^ 16 ∧
    obj / 2 ^ 32 % 2 ^ 16 = 0 ∧ obj / 2 ^ 52 = w / 2 ^ 52

/-- A word with its overflow bit set is a word. -/
theorem or_overflow_lt {w : Nat} (hw : w < 2 ^ 64) : w ||| 2 ^ 52 < 2 ^ 64 := Nat.or_lt_two_pow hw (by decide)

section
variable {e p t ph r : Nat} (he : e < 2 ^ 16) (hp : p < 2 ^ 16) (ht : t < 2 ^ 16) (hph : ph < 16)
include he hp ht hph

/-- The fields of a word. -/
theorem fields_objWord : objWord e p t ph r % 2 ^ 16 = e ∧ objWord e p t ph r / 2 ^ 16 % 2 ^ 16 = p ∧
    objWord e p t ph r / 2 ^ 32 % 2 ^ 16 = t ∧ objWord e p t ph r / 2 ^ 48 % 16 = ph ∧ objWord e p t ph r / 2 ^ 52 = r := by
  have h1 : objWord e p t ph r / 2 ^ 16 = p + t * 2 ^ 16 + ph * 2 ^ 32 + r * 2 ^ 36 := by unfold objWord; omega
  have h2 : objWord e p t ph r / 2 ^ 32 = t + ph * 2 ^ 16 + r * 2 ^ 20 := by unfold objWord; omega
  have h3 : objWord e p t ph r / 2 ^ 48 = ph + r * 2 ^ 4 := by unfold objWord; omega
  rw [h1, h2, h3]
  unfold objWord
  omega

/-- Where a count is left, the word stays; where none is, the phase advances and the pending count takes the expected one (R214). -/
theorem settledWord_objWord : settledWord (objWord e p t ph r) =
    if p = 0 ∧ t = 0 then objWord e e 0 ((ph + 1) % 16) r else objWord e p t ph r := by
  obtain ⟨h1, h2, h3, h4, -⟩ := fields_objWord (r := r) he hp ht hph
  simp only [settledWord, phaseWord, bits_eq, Nat.pow_zero, Nat.div_one, h1, h2, h3, show 2 ^ 4 = 16 from rfl, h4]
  split
  · next h =>
    obtain ⟨rfl, rfl⟩ := h
    unfold objWord
    omega
  · rfl

/-- The word that an arrival leaves (R214). -/
theorem barWord_arrive (n : Nat) : barWord (objWord e p t ph r) (.arrive n) =
    if p < n then objWord e p t ph r ||| 2 ^ 52 else settledWord (objWord e (p - n) t ph r) := by
  have hp' := (fields_objWord (r := r) he hp ht hph).2.1
  rw [barWord, bits_eq, hp']
  split
  · rfl
  · next h => rw [show objWord e p t ph r - n * 2 ^ 16 = objWord e (p - n) t ph r by unfold objWord; omega]

/-- The word that an expectation leaves (R214). -/
theorem barWord_expect (n : Nat) : barWord (objWord e p t ph r) (.expect n) =
    if 65535 < t + n then objWord e p t ph r ||| 2 ^ 52 else objWord e p (t + n) ph r := by
  have ht' := (fields_objWord (r := r) he hp ht hph).2.2.1
  rw [barWord, bits_eq, ht']
  refine if_congr Iff.rfl rfl ?_
  unfold objWord
  omega

/-- The word that a delivery leaves (R214). -/
theorem barWord_deliver (id : Nat) : barWord (objWord e p t ph r) (.deliver id) =
    if t = 0 then objWord e p t ph r ||| 2 ^ 52 else settledWord (objWord e p (t - 1) ph r) := by
  have ht' := (fields_objWord (r := r) he hp ht hph).2.2.1
  rw [barWord, bits_eq, ht']
  split
  · rfl
  · next h => rw [show objWord e p t ph r - 2 ^ 32 = objWord e p (t - 1) ph r by unfold objWord; omega]

omit hp ht in
/-- What completing a phase leaves of an object's fields (R214). -/
theorem completes_objWord {w : Nat} (hw : w % 2 ^ 16 = e ∧ w / 2 ^ 48 % 16 = ph ∧ w / 2 ^ 52 = r) :
    Completes w (objWord e e 0 ((ph + 1) % 16) r) := by
  obtain ⟨h1, h2, h3, h4, h5⟩ := fields_objWord (r := r) he he (show 0 < 2 ^ 16 by decide) (Nat.mod_lt (ph + 1) (show 0 < 16 by decide))
  obtain ⟨rfl, rfl, rfl⟩ := hw
  exact ⟨h2, h4, h1, h3, h5⟩

end

/-! ### What each operation leaves, by the fields of the word before -/

section
variable (w n : Nat)

theorem barWord_of_arrive :
    (w / 2 ^ 16 % 2 ^ 16 < n → barWord w (.arrive n) = w ||| 2 ^ 52) ∧
    (n ≤ w / 2 ^ 16 % 2 ^ 16 → n < w / 2 ^ 16 % 2 ^ 16 ∨ w / 2 ^ 32 % 2 ^ 16 ≠ 0 → barWord w (.arrive n) = w - n * 2 ^ 16) ∧
    (n = w / 2 ^ 16 % 2 ^ 16 → w / 2 ^ 32 % 2 ^ 16 = 0 → Completes w (barWord w (.arrive n))) := by
  obtain ⟨e, p, t, ph, r, he, hp, ht, hph, rfl⟩ := objWord_fields w
  obtain ⟨h1, h2, h3, h4, h5⟩ := fields_objWord (r := r) he hp ht hph
  rw [h2, h3, barWord_arrive he hp ht hph, settledWord_objWord he (lt_of_le_of_lt (Nat.sub_le p n) hp) ht hph]
  refine ⟨fun h => if_pos h, fun h hc => ?_, ?_⟩
  · rw [if_neg (not_lt.2 h), if_neg (by omega)]
    unfold objWord
    omega
  · rintro rfl rfl
    rw [if_neg (lt_irrefl _), if_pos ⟨Nat.sub_self _, rfl⟩]
    exact completes_objWord he hph ⟨h1, h4, h5⟩

theorem barWord_of_expect :
    (w / 2 ^ 32 % 2 ^ 16 + n ≤ 65535 → barWord w (.expect n) = w + n * 2 ^ 32) ∧
    (65535 < w / 2 ^ 32 % 2 ^ 16 + n → barWord w (.expect n) = w ||| 2 ^ 52) := by
  rw [barWord, bits_eq]
  exact ⟨fun h => if_neg (not_lt.2 h), fun h => if_pos h⟩

theorem barWord_of_deliver (id : Nat) :
    (w / 2 ^ 32 % 2 ^ 16 = 0 → barWord w (.deliver id) = w ||| 2 ^ 52) ∧
    (0 < w / 2 ^ 32 % 2 ^ 16 → 1 < w / 2 ^ 32 % 2 ^ 16 ∨ w / 2 ^ 16 % 2 ^ 16 ≠ 0 → barWord w (.deliver id) = w - 2 ^ 32) ∧
    (w / 2 ^ 32 % 2 ^ 16 = 1 → w / 2 ^ 16 % 2 ^ 16 = 0 → Completes w (barWord w (.deliver id))) := by
  obtain ⟨e, p, t, ph, r, he, hp, ht, hph, rfl⟩ := objWord_fields w
  obtain ⟨h1, h2, h3, h4, h5⟩ := fields_objWord (r := r) he hp ht hph
  rw [h2, h3, barWord_deliver he hp ht hph, settledWord_objWord he hp (lt_of_le_of_lt (Nat.sub_le t 1) ht) hph]
  refine ⟨fun h => if_pos h, fun h hc => ?_, ?_⟩
  · rw [if_neg h.ne', if_neg (by omega)]
    unfold objWord
    omega
  · rintro rfl rfl
    rw [if_neg one_ne_zero, if_pos ⟨rfl, Nat.sub_self 1⟩]
    exact completes_objWord he hph ⟨h1, h4, h5⟩

end

/-- An operation leaves a word of 64 bits. -/
theorem barWord_lt {w : Nat} (hw : w < 2 ^ 64) (op : BarOp) : barWord w op < 2 ^ 64 := by
  obtain ⟨e, p, t, ph, r, he, hp, ht, hph, rfl⟩ := objWord_fields w
  have hr : r < 2 ^ 12 := by unfold objWord at hw; omega
  have hover := or_overflow_lt hw
  have hset : ∀ p t, p < 2 ^ 16 → t < 2 ^ 16 → settledWord (objWord e p t ph r) < 2 ^ 64 := fun p t hp ht => by
    rw [settledWord_objWord he hp ht hph]
    unfold objWord
    split <;> omega
  cases op with
  | arrive n =>
    rw [barWord_arrive he hp ht hph]
    split
    · exact hover
    · exact hset _ _ (by omega) ht
  | expect n =>
    rw [barWord_expect he hp ht hph]
    split
    · exact hover
    · unfold objWord
      omega
  | deliver id =>
    rw [barWord_deliver he hp ht hph]
    split
    · exact hover
    · exact hset _ _ hp (by omega)
  | store bs => exact hw

/-- The object's word after an operation that is no store. -/
theorem State.barApply_word {s : State} {k a : Nat} {r : BarReq} (hwf : Memory.wf s.mem = true)
    (h : ∀ g ∈ (s.cluster k).famo, barObj g.bar ≠ a) (hop : ∀ bs, r.op ≠ .store bs) :
    memNat (s.barApply k a r).mem (spKey k a) 8 = barWord (memNat s.mem (spKey k a) 8) r.op := by
  rw [State.barApply_mem h hop]
  refine (memNat_runAt hwf (spKey k a) 8 _).trans (Nat.mod_eq_of_lt ?_)
  have hw := memNat_lt s.mem (spKey k a) 8
  have h64 : 256 ^ 8 = 2 ^ 64 := by norm_num
  rw [h64] at hw ⊢
  exact barWord_lt hw r.op

/-- Settles O26: an instruction gates its address and names the object, `State.onBarrier`; the unit writes one word, `barWord`, whose
fields are those that the rule gives. -/
theorem barrierInstructionsAndUnit : Obligations.BarrierInstructionsAndUnit := by
  refine ⟨fun s a b d k h hdet => ?_, fun s k a n r hwf hfamo => ?_⟩
  · intro ea x t obj reached acquired
    refine ⟨fun hea => ?_, fun hea => ?_⟩
    · have hok := (s.barOk_iff ea).2 hea
      have hobj : bits (s.objPrev x) 48 4 = obj / 2 ^ 48 % 16 := bits_eq _ _ _
      have hreach : s.boundReached (s.rs b) = true ↔ reached := State.boundReached_iff hdet (s.rs b)
      rw [exec_barArr, exec_barExp, exec_barWait, exec_barTry _ _ _ hdet, State.onBarrier_ok hok, State.onBarrier_ok hok,
        State.onBarrier_ok hok, State.onBarrier_ok hok]
      rw [show ea.toNat % 2 ^ 23 = x from rfl]
      simp only [State.nameBarrier_rs, State.nameBarrier_objPrev, State.waiting, State.nameBarrier_iss,
        State.nameBarrier_boundReached, hobj]
      refine ⟨rfl, rfl, fun hgo => ?_, fun hph hr hheld => ?_, rfl⟩
      · rw [if_pos (by simpa [hreach, or_left_comm, or_assoc, or_comm] using hgo)]
        rfl
      · rw [if_neg (by simpa [hheld, hph, hreach] using And.intro hph hr)]
    · have hno := mt (s.barOk_iff ea).1 hea
      simp only [List.forall_mem_cons, exec_barArr, exec_barExp, exec_barWait, exec_barTry _ _ _ hdet]
      exact ⟨State.onBarrier_no hno, State.onBarrier_no hno, State.onBarrier_no hno, State.onBarrier_no hno, by simp⟩
  · intro key w pend txn ph t obj completes
    have hobj : ∀ op, r.op = op → (∀ bs, op ≠ .store bs) → obj = barWord w op := by
      rintro op rfl hop
      exact State.barApply_word hwf hfamo hop
    clear_value obj w
    refine ⟨fun hop q hq => ?_, fun hop => ?_, fun hop => ?_, fun hop => ?_⟩
    · rw [State.barApply_mem hfamo hop]
      exact memRead_runAt_ne hwf (by rwa [leBytes_length])
    · obtain rfl := hobj _ hop (by simp)
      exact barWord_of_arrive w n
    · obtain rfl := hobj _ hop (by simp)
      exact barWord_of_expect w n
    · obtain rfl := hobj _ hop (by simp)
      obtain ⟨hover, hcount, hphase⟩ := barWord_of_deliver w n
      exact ⟨hover, hcount, hphase, State.barApply_deliver_agenda hfamo hop⟩

end Sys2Proof.Machine
end

section
/-! The watchdog, deferred traps, wait bounds, and the end of contexts and launches (O34). -/

namespace Sys2Proof.Machine

/-- Where nothing among n bytes has a correctable error, their access corrects nothing. -/
theorem State.corrected_of_clear {s : State} {d k n : Nat} (h : ∀ x ∈ s.corr, x < k ∨ k + n ≤ x) : s.corrected d k n = s := by
  have hnone : s.corr.filter (fun a => k ≤ a && a < k + n) = [] := List.filter_eq_nil_iff.2 fun x hx => by
    have := h x hx
    simp only [Bool.and_eq_true, decide_eq_true_eq]
    omega
  rw [State.corrected, hnone, List.foldl_nil]

/-! ### The end of a context -/

@[simp] theorem State.write_ctxs (s : State) (bs : List (Nat × Byte)) : (s.write bs).ctxs = s.ctxs := by
  obtain ⟨_, _, e⟩ := s.write_eq bs
  rw [e]

theorem State.notePast_ctxs (s : State) (c : Nat) (ks : List Nat) : (s.notePast c ks).ctxs = s.ctxs := by
  unfold State.notePast
  split <;> rfl

/-- Gathered adds that are applied change no context. -/
theorem State.famoFlush_ctxs (s : State) (k : Nat) (sel : Gathered → Bool) : (s.famoFlush k sel).ctxs = s.ctxs := by
  unfold State.famoFlush
  refine (foldl_keeps State.ctxs (fun s g => ?_) _ _).trans rfl
  exact (State.write_ctxs _ _).trans (State.notePast_ctxs _ _ _)

/-- A context that has ended: DONE, nothing withheld, no record kept (R124, R354). -/
def Ctx.over (x : Ctx) : Ctx :=
  { x with
    status := .done, wb := [], deferred := [], pendRec := [], blocks := [], evq := [], freeing := 0, popped := [], cards := []
    vis := { x.vis with locks := [] }, chk := { x.chk with locks := [] } }

/-- The end of a context changes no other. -/
theorem State.ended_ctxs (s : State) (c : Nat) : (s.ended c).ctxs = (s.modCtx c Ctx.over).ctxs := by
  unfold State.ended
  extract_lets u k v
  have hv : v.ctxs = u.ctxs := by
    simp only [v]
    split
    · exact State.famoFlush_ctxs _ _ _
    · rfl
  split <;> exact hv

theorem State.ended_ctx (s : State) (c : Nat) : (s.ended c).ctx c = (s.ctx c).over :=
  (congrArg (aget Ctx.idle · c) (s.ended_ctxs c)).trans (State.ctx_modCtx s c Ctx.over)

theorem State.ended_ctx_ne (s : State) {c c' : Nat} (h : c' ≠ c) : (s.ended c).ctx c' = s.ctx c' :=
  (congrArg (aget Ctx.idle · c') (s.ended_ctxs c)).trans (State.ctx_modCtx_ne s Ctx.over h)

/-- Whether something that a context released has still to be performed at its home. -/
theorem State.underWay_iff (s : State) (c : Nat) : s.underWay c = true ↔
    (s.ctx c).winq ≠ [] ∨ (∃ k ∈ s.clusters, ∃ r ∈ k.2.barq, r.ctx = c) ∨ (∃ r ∈ (s.cluster (clOf c)).prels, r.ctx = c) ∨
      (∃ e ∈ s.l2q, e.ctx = c) ∨ ∃ a ∈ s.agenda, a.ev = .famoArrival ∧ a.due.ctx = c := by
  simp [State.underWay, or_assoc]

/-- A halting context waits for its results and operations, and then ends (R124). -/
theorem exec_contextDone {s : State} (hst : (s.ctx s.due.ctx).status = .halting) (hdef : (s.ctx s.due.ctx).deferred = []) :
    exec .contextDone s = .next (if (s.ctx s.due.ctx).pend ≠ [] ∨ s.underWay s.due.ctx = true then
      s.schedule (s.now + 1) .contextDone s.due else s.ended s.due.ctx) := by
  show execContextDone s = _
  simp only [execContextDone, hst, hdef, ne_eq, not_true, if_false, Bool.or_eq_true, decide_eq_true_eq]

/-! ### The end of a launch -/

/-- The cards that a die's clusters own of a launch (R34). -/
def Launch.owns (l : Launch) (die : Nat) : Nat :=
  (l.clus.zipIdx.map fun kg => if kg.1 / 6 = die then ownedCount l.pkt.pol l.pkt.n l.clus.length kg.2 else 0).sum

/-- What a die whose contexts are done adds to its launch's completion word (R34, R427). -/
theorem exec_dieCompletion {s : State} {l : Launch} {a : Nat} (hl : s.launch? s.due.id = some l)
    (hst : l.st = .running ∨ l.st = .preempting) (hnew : s.due.arg ∉ l.contrib)
    (hdone : ∀ u ∈ l.ctxids, dieOf u = s.due.arg → (s.ctx u).status = .done ∧ (∀ y ∈ s.cmds, y.ctx ≠ u) ∧
      (∀ o ∈ (s.core (coreOf u)).mx, o.ctx ≠ u) ∧ s.underWay u = false)
    (hword : s.cwordAt l = some a) :
    let u := s.modLaunch l.id fun y => { y with contrib := s.due.arg :: y.contrib }
    let sum := (s.gnat a 8 + l.owns s.due.arg) % 2 ^ 64
    let t := ((u.corrected s.due.arg (a / 64 * 64) 64).write (runAt a (leBytes 8 sum))).heatCword l
    exec .dieCompletion s = .next (match s.poisoned (a / 64 * 64) 64 with
      | some k => (u.memError s.due.arg k).heatCword l
      | none => if sum = l.pkt.n then t.retire l else t) := by
  intro u sum t
  have hgo : ¬(l.st ≠ .running && l.st ≠ .preempting || l.contrib.contains s.due.arg ||
      !((l.ctxids.filter fun c => dieOf c = s.due.arg).all fun c => (s.ctx c).status = .done)) = true := by
    rcases hst with hst | hst <;> simp [hst, hnew] <;> exact fun u hu hd => (hdone u hu hd).1
  have hquiet : ¬((l.ctxids.filter fun c => dieOf c = s.due.arg).any fun c =>
      s.cmds.any (·.ctx = c) || (s.core (coreOf c)).mx.any (·.ctx = c) || s.underWay c) = true := by
    simp only [List.any_eq_true, List.mem_filter, decide_eq_true_eq, not_exists, not_and, Bool.not_eq_true, Bool.or_eq_false_iff]
    rintro v ⟨hv, hd⟩
    obtain ⟨-, hcmds, hmx, hunder⟩ := hdone v hv hd
    exact ⟨⟨by simpa using hcmds, by simpa using hmx⟩, hunder⟩
  have hword' : u.cwordAt l = some a := hword
  show execDieCompletion s = _
  rw [execDieCompletion]
  simp only [hl]
  rw [if_neg hgo, if_neg hquiet]
  simp only [show s.modLaunch l.id (fun y => { y with contrib := s.due.arg :: y.contrib }) = u from rfl, hword']
  rfl

/-- A wait at its bound makes its context READY (R35, R215). -/
theorem exec_waitBoundExpiry {s : State}
    (h : (s.ctx s.due.ctx).status = .blocked .barrier ∨ (s.ctx s.due.ctx).status = .blocked .platform) :
    exec .waitBoundExpiry s = .next (s.setCtx s.due.ctx { s.ctx s.due.ctx with status := .ready }) := by
  show execWaitBoundExpiry s = _
  rcases h with h | h
  · simp only [execWaitBoundExpiry, State.modCtx, h]
  · simp only [execWaitBoundExpiry, State.modCtx, h]

/-- Settles O34: the end of a context by `State.ended_ctx` and `State.underWay_iff`, that of a die by `exec_dieCompletion`, whose
completion word is found sound or not. -/
theorem contextsExpireAndEnd : Obligations.ContextsExpireAndEnd := by
  intro s d c x
  refine ⟨rfl, fun t ts hdef => ?_, exec_waitBoundExpiry, fun hst hdef => ?_, fun l a hl hst hnew hdone hword => ?_⟩
  · show Host.Outcome.next (s.raiseDeferred c) = _
    rw [State.raiseDeferred, hdef]
  · intro busy
    have hbusy : ((s.ctx c).pend ≠ [] ∨ s.underWay c = true) ↔ busy := or_congr Iff.rfl (s.underWay_iff c)
    rw [exec_contextDone hst hdef]
    refine ⟨fun h => by rw [if_pos (hbusy.2 h)], fun h => ?_⟩
    rw [if_neg (mt hbusy.1 h)]
    refine ⟨_, rfl, ?_⟩
    rw [s.ended_ctx c]
    exact ⟨rfl, rfl, rfl, rfl, rfl, fun c' hc => s.ended_ctx_ne hc⟩
  · intro total sum u t
    rw [exec_dieCompletion hl hst hnew hdone hword]
    refine ⟨fun ⟨hok, hclear⟩ => ?_, fun k hk => by rw [hk]⟩
    rw [hok]
    have hu : u.corrected d.arg (a / 64 * 64) 64 = u := State.corrected_of_clear hclear
    refine ⟨fun hne => ?_, fun heq => ?_⟩
    · exact (congrArg Host.Outcome.next (if_neg hne)).trans (by rw [hu]; rfl)
    · exact (congrArg Host.Outcome.next (if_pos heq)).trans (by rw [hu]; rfl)

end Sys2Proof.Machine
end

section
/-! What arrives from memory: lines, granules, checks, walks, cards (O33). -/

namespace Sys2Proof.Machine

/-! ### What a held translation and a heat counter leave -/

section
variable (s : State)

@[simp] theorem State.write_tlb (bs : List (Nat × Byte)) : (s.write bs).tlb = s.tlb := by
  obtain ⟨_, _, e⟩ := s.write_eq bs
  rw [e]

@[simp] theorem State.write_sys (bs : List (Nat × Byte)) : (s.write bs).sys = s.sys := by
  obtain ⟨_, _, e⟩ := s.write_eq bs
  rw [e]

theorem State.rasLog_tlb (u ty a n : Nat) : (s.rasLog u ty a n).tlb = s.tlb := by
  show (if (s.region 13).2 = 0 then s else s.write _).tlb = s.tlb
  split
  · rfl
  · exact s.write_tlb _

theorem State.retireFrame_tlb (f n : Nat) : (s.retireFrame f n).tlb = s.tlb := by
  unfold State.retireFrame
  split
  · rfl
  · dsimp only
    split
    · rfl
    · exact State.write_tlb { s with retired := s.retired ++ [f] } _

theorem State.walkCorrected_tlb (asid va : Nat) : (s.walkCorrected asid va).tlb = s.tlb :=
  foldl_keeps State.tlb (fun s _ => s.corrected_keeps State.tlb State.rasLog_tlb State.retireFrame_tlb (fun _ _ _ => rfl) 0 _ 64) _ _

/-- A translation that was used is held, and so are those held before. -/
theorem State.mem_learn_tlb (e : Tlb) : e ∈ (s.learn e).tlb ∧ ∀ y ∈ s.tlb, y ∈ (s.learn e).tlb := by
  unfold State.learn
  split
  · next h => exact ⟨by simpa using h, fun y hy => hy⟩
  · rw [State.walkCorrected_tlb]
    exact ⟨List.mem_cons_self, fun y hy => List.mem_cons_of_mem _ hy⟩

/-- Where no word has a correctable error, to use a translation is to hold it. -/
theorem State.learn_of_clear (h : s.corr = []) (e : Tlb) : ∃ l, s.learn e = { s with tlb := l } := by
  have hwalk : ∀ (l : List Nat) (t : State), t.corr = [] → l.foldl (fun t a => t.corrected 0 (a / 64 * 64) 64) t = t := by
    intro l
    induction l with
    | nil => exact fun t _ => rfl
    | cons a l ih =>
      intro t ht
      rw [List.foldl_cons, State.corrected_of_clear (by simp [ht]), ih t ht]
  unfold State.learn
  split
  · exact ⟨s.tlb, rfl⟩
  · exact ⟨e :: s.tlb, hwalk _ _ h⟩

theorem State.heat_sys (m : Nat) (leaf : Word) : (s.heat m leaf).sys = s.sys := by
  unfold State.heat
  split
  · rfl
  · dsimp only
    split
    · rfl
    · exact State.write_sys { s with free := s.free + 1 } _

end

/-! ### Lines -/

/-- Block b of a context changed. -/
def State.modBlock (s : State) (c : Nat) (b : LoadBlock) (f : LoadBlock → LoadBlock) : State :=
  s.modCtx c fun x => { x with blocks := x.blocks.map fun y => if y.decl = b.decl then f y else y }

/-- The lines of block b put into L1 once none is wanted any more (R191). -/
def State.settleBlock (s : State) (c : Nat) (b : LoadBlock) : State :=
  match (s.ctx c).blocks.find? (·.decl = b.decl) with
  | none => s
  | some y => if y.want = [] then y.lines.foldl (fun s l => s.addLine (s.l1Of c l) l) s else s

/-- A block whose line at va is no longer wanted. -/
def LoadBlock.got (b : LoadBlock) (va : Nat) : LoadBlock := { b with want := b.want.filter (· ≠ va) }

/-- A state without its cores. -/
def State.offCores (s : State) : State := { s with cores := [] }

/-- Lines put into L1 change the cores alone. -/
theorem State.settleBlock_offCores (s : State) (c : Nat) (b : LoadBlock) : (s.settleBlock c b).offCores = s.offCores := by
  unfold State.settleBlock
  split
  · rfl
  · split
    · exact foldl_keeps State.offCores (f := fun s l => s.addLine (s.l1Of c l) l) (fun _ _ => rfl) _ _
    · rfl

section
variable (s : State) (c : Nat) (b : LoadBlock) (f : LoadBlock → LoadBlock)

theorem State.settleBlock_ctx (c' : Nat) : (s.settleBlock c b).ctx c' = s.ctx c' :=
  (congrArg (·.ctx c') (s.settleBlock_offCores c b) :)
theorem State.settleBlock_mem : (s.settleBlock c b).mem = s.mem := (congrArg State.mem (s.settleBlock_offCores c b) :)
theorem State.settleBlock_sys : (s.settleBlock c b).sys = s.sys := (congrArg State.sys (s.settleBlock_offCores c b) :)

theorem State.modBlock_blocks :
    ((s.modBlock c b f).ctx c).blocks = (s.ctx c).blocks.map fun y => if y.decl = b.decl then f y else y :=
  congrArg Ctx.blocks (State.ctx_modCtx s c _)

end

/-- A core's L1 with a free line needs no room made (R190). -/
theorem State.makeRoom_of_roomy {s : State} {q : Nat} (h : s.roomy q = true) : s.makeRoom q = some s := if_pos h

section
variable {s : State}

/-- A demand line arrives (R190). -/
theorem exec_lineArrival_demand (hid : s.due.id = 0) (hnew : s.due.arg ∉ (s.core (s.l1Of s.due.ctx s.due.arg)).lines)
    (hroom : s.roomy (s.l1Of s.due.ctx s.due.arg) = true) :
    exec .lineArrival s = .next (((s.addLine (s.l1Of s.due.ctx s.due.arg) s.due.arg).modCore (s.l1Of s.due.ctx s.due.arg) fun co =>
      { co with asked := co.asked.erase s.due.arg }).heat (64 * s.due.arg) (BitVec.ofNat 64 (s.due.nats.getD 0 0))) := by
  show execLineArrival s = _
  simp only [execLineArrival, if_pos hid, List.contains_iff_mem, if_neg hnew, State.makeRoom_of_roomy hroom]

variable {b : LoadBlock} (hid : s.due.id ≠ 0) (hb : (s.ctx s.due.ctx).blocks.find? (fun b => b.decl + 1 = s.due.id) = some b)
include hid hb

/-- A block's line arrives (R191). -/
theorem exec_lineArrival_block {m : Nat} {e : Tlb} (hea : fld (BitVec.ofNat 64 s.due.arg) 56 8 = 0)
    (htr : s.translate (s.who s.due.ctx) s.due.arg .r = .ok m e) (hroom : (s.learn e).roomy ((s.learn e).l1Of s.due.ctx (m / 64)) = true) :
    exec .lineArrival s = .next ((((s.learn e).modBlock s.due.ctx b fun y =>
      { y.got s.due.arg with lines := y.lines ++ [m / 64] }).settleBlock s.due.ctx b).heat m e.leaf) := by
  show execLineArrival s = _
  simp only [execLineArrival, if_neg hid, hb, hea, ne_eq, not_true, if_false, State.access1, htr, lineOf,
    State.makeRoom_of_roomy hroom]
  rfl

/-- A block's line that cannot name memory is marked faulting (R192). -/
theorem exec_lineArrival_outside (hea : fld (BitVec.ofNat 64 s.due.arg) 56 8 ≠ 0) :
    exec .lineArrival s = .next ((s.modBlock s.due.ctx b fun y =>
      { y.got s.due.arg with bad := y.bad ++ [(s.due.arg, { kind := 0x03, pc := 0 })] }).settleBlock s.due.ctx b) := by
  show execLineArrival s = _
  simp only [execLineArrival, if_neg hid, hb, hea, ne_eq, not_false_eq_true, if_true]
  rfl

/-- A block's line that does not translate is marked faulting (R192). -/
theorem exec_lineArrival_fault {r l : Nat} (hea : fld (BitVec.ofNat 64 s.due.arg) 56 8 = 0)
    (htr : s.translate (s.who s.due.ctx) s.due.arg .r = .fault r l) :
    exec .lineArrival s = .next ((s.modBlock s.due.ctx b fun y => { y.got s.due.arg with bad := y.bad ++
      [(s.due.arg, (XRes.fault r l).trap (BitVec.ofNat 64 s.due.arg))] }).settleBlock s.due.ctx b) := by
  show execLineArrival s = _
  simp only [execLineArrival, if_neg hid, hb, hea, ne_eq, not_true, if_false, State.access1, htr]
  rfl

end

/-! ### Granules, checks and walks -/

/-- The bytes of a granule that arrives in a context's remote buffer, and the rejection that comes with it (R196, R222). -/
def State.granule (s : State) : List Byte × Option TrapInfo :=
  let w := s.win s.due.ctx (s.due.arg / 2 ^ 23)
  let a := s.due.arg % 2 ^ 23 * 64
  if w.mod = s.modNo then
    (memBytes s.bankMem (spKey w.peer a) 64, if s.unpublished w.peer a then some { kind := 0x07, pc := 0, acc := 3 } else none)
  else
    (s.due.bytes.take 64, if s.due.wr then some
      { kind := 0x07, pc := 0, arg := s.due.word, rrank := BitVec.ofNat 32 (s.due.nats.getD 0 0),
        rl := BitVec.ofNat 8 (s.due.nats.getD 1 0), acc := BitVec.ofNat 8 (s.due.nats.getD 2 0) } else none)

theorem State.granule_here {s : State} (h : (s.win s.due.ctx (s.due.arg / 2 ^ 23)).mod = s.modNo) : s.granule =
    (memBytes s.bankMem (spKey (s.win s.due.ctx (s.due.arg / 2 ^ 23)).peer (s.due.arg % 2 ^ 23 * 64)) 64,
      if s.unpublished (s.win s.due.ctx (s.due.arg / 2 ^ 23)).peer (s.due.arg % 2 ^ 23 * 64) then some { kind := 0x07, pc := 0, acc := 3 }
      else none) := if_pos h

theorem State.granule_there {s : State} (h : (s.win s.due.ctx (s.due.arg / 2 ^ 23)).mod ≠ s.modNo) : s.granule =
    (s.due.bytes.take 64, if s.due.wr then some
      { kind := 0x07, pc := 0, arg := s.due.word, rrank := BitVec.ofNat 32 (s.due.nats.getD 0 0),
        rl := BitVec.ofNat 8 (s.due.nats.getD 1 0), acc := BitVec.ofNat 8 (s.due.nats.getD 2 0) } else none) := if_neg h

theorem State.granule_length (s : State) : s.granule.1.length ≤ 64 := by
  unfold State.granule
  dsimp only
  split
  · simp [memBytes]
  · simp

/-- The granule in its context's remote buffer, with its rejection (R196, R222). -/
def State.keepGranule (s : State) : State :=
  (s.put (runAt (bufferKey s.due.ctx (s.due.arg / 2 ^ 23) (s.due.arg % 2 ^ 23 * 64)) s.granule.1)).modCtx s.due.ctx fun x => { x with
    remAsk := x.remAsk.erase s.due.arg, remote := s.due.arg :: x.remote
    raceAns := (s.granule.2.map fun t => (2 ^ 60 + s.due.arg, t)).toList ++ x.raceAns }

/-- A granule that was asked for arrives (R196). -/
theorem exec_remoteGranuleArrival {s : State} (h : s.due.arg ∈ (s.ctx s.due.ctx).remAsk) :
    exec .remoteGranuleArrival s = .next s.keepGranule :=
  congrArg Host.Outcome.next (if_neg (by simpa using h))

theorem State.keepGranule_ctx (s : State) : s.keepGranule.ctx s.due.ctx = { s.ctx s.due.ctx with
    remAsk := (s.ctx s.due.ctx).remAsk.erase s.due.arg, remote := s.due.arg :: (s.ctx s.due.ctx).remote
    raceAns := (s.granule.2.map fun t => (2 ^ 60 + s.due.arg, t)).toList ++ (s.ctx s.due.ctx).raceAns } :=
  State.ctx_modCtx _ _ _

/-- The rejections kept once a granule has come with this one, or with none. -/
theorem State.keepGranule_raceAns {s : State} {no : Option TrapInfo} (h : s.granule.2 = no) : (s.keepGranule.ctx s.due.ctx).raceAns =
    (no.map fun t => (2 ^ 60 + s.due.arg, t)).toList ++ (s.ctx s.due.ctx).raceAns := by
  rw [State.keepGranule_ctx, h]

/-- The tags that an access leaves depend on the tags alone. -/
theorem State.register_tags_congr {s t : State} (h : t.tags = s.tags) (x : Party) (k : AccKind) (gs : List Gran) :
    (t.register x k gs).tags = (s.register x k gs).tags := by
  unfold State.register
  induction gs generalizing s t with
  | nil => exact h
  | cons g gs ih =>
    refine ih ?_
    have htag : t.tag g = s.tag g := by rw [State.tag, State.tag, h]
    dsimp only
    rw [htag]
    split
    · split
      · exact h
      · rw [h]
    · exact h

/-- A state without its tags. -/
def State.offTags (s : State) : State := { s with tags := [] }

/-- An access that is registered changes the tags alone. -/
theorem State.register_offTags (s : State) (x : Party) (k : AccKind) (gs : List Gran) :
    (s.register x k gs).offTags = s.offTags := by
  unfold State.register
  refine foldl_keeps State.offTags (fun s g => ?_) _ _
  split
  · split
    · rfl
    · rfl
  · rfl

section
variable (s : State) (x : Party) (k : AccKind) (gs : List Gran)

theorem State.register_ctx (c : Nat) : (s.register x k gs).ctx c = s.ctx c := (congrArg (·.ctx c) (s.register_offTags x k gs) :)
theorem State.register_mem : (s.register x k gs).mem = s.mem := (congrArg State.mem (s.register_offTags x k gs) :)
theorem State.register_gbytes (a n : Nat) : (s.register x k gs).gbytes a n = s.gbytes a n :=
  (congrArg (·.gbytes a n) (s.register_offTags x k gs) :)

end

/-- The context of a check that the home has answered no longer asks for it. -/
def State.answered (s : State) : State := s.modCtx s.due.ctx fun x => { x with raceAsk := x.raceAsk.erase s.due.nats }

/-- The lines of a check, and whether its access touches scratchpads too. -/
def State.checkLines (s : State) : List Nat := s.due.nats.map (· % jointCheck)
def State.checkJoint (s : State) : Bool := s.due.nats.any fun n => decide (jointCheck ≤ n)

/-- The bytes of lines that a check keeps for its load. -/
def State.checkBytes (s : State) (joint : Bool) (ls : List Nat) : List (Nat × List Byte) :=
  ls.map fun l => (l, if joint then [] else s.gbytes (64 * l) 64)

theorem State.checkLines_of_lt {s : State} (h : ∀ l ∈ s.due.nats, l < jointCheck) :
    s.checkLines = s.due.nats ∧ s.checkJoint = false := by
  constructor
  · exact (List.map_congr_left fun l hl => Nat.mod_eq_of_lt (h l hl)).trans (List.map_id _)
  · simpa [State.checkJoint] using h

theorem State.checkLines_joint {s : State} {ls : List Nat} (hne : ls ≠ []) (h : ∀ l ∈ ls, l < jointCheck)
    (hn : s.due.nats = ls.map (· + jointCheck)) : s.checkLines = ls ∧ s.checkJoint = true := by
  constructor
  · rw [State.checkLines, hn, List.map_map]
    exact (List.map_congr_left fun l hl => (Nat.add_mod_right l jointCheck).trans (Nat.mod_eq_of_lt (h l hl))).trans (List.map_id _)
  · obtain ⟨l, hl⟩ := List.exists_mem_of_ne_nil ls hne
    exact List.any_eq_true.2 ⟨l + jointCheck, hn ▸ List.mem_map_of_mem hl, decide_eq_true (Nat.le_add_left _ _)⟩

theorem State.answered_ctx (s : State) : s.answered.ctx s.due.ctx =
    { s.ctx s.due.ctx with raceAsk := (s.ctx s.due.ctx).raceAsk.erase s.due.nats } := State.ctx_modCtx s _ _
@[simp] theorem State.answered_party (s : State) : s.answered.party s.due.ctx = s.party s.due.ctx := by
  rw [State.party, State.party, State.answered_ctx]
@[simp] theorem State.answered_gGran (s : State) (m : Nat) : s.answered.gGran s.due.ctx m = s.gGran s.due.ctx m := by
  rw [State.gGran, State.gGran, State.answered_ctx]

/-- The exception that a load raises on a granule with this tag, without its place (R319, R363). -/
def Tag.rejection (u : Tag) : TrapInfo := { kind := 0x07, pc := 0, arg := u.arg, rrank := u.far.1, rl := u.far.2 }

/-- A check whose access is not rejected: its reads are registered, and the bytes read are kept (R318, R319; log 74). -/
def State.checkPassed (s : State) : State :=
  let t := if s.checkJoint then s else s.register (s.party s.due.ctx) .load (s.checkLines.map fun l => s.gGran s.due.ctx (64 * l))
  t.modCtx s.due.ctx fun x => { x with checked := t.checkBytes s.checkJoint s.checkLines ++ x.checked }

section
variable (s : State)

theorem State.checkPassed_ctx : s.checkPassed.ctx s.due.ctx =
    { s.ctx s.due.ctx with checked := s.checkBytes s.checkJoint s.checkLines ++ (s.ctx s.due.ctx).checked } := by
  unfold State.checkPassed
  dsimp only
  rw [State.ctx_modCtx]
  split
  · rfl
  · rw [State.register_ctx]
    simp only [State.checkBytes, State.register_gbytes]

theorem State.checkPassed_mem : s.checkPassed.mem = s.mem := by
  unfold State.checkPassed
  dsimp only
  split
  · rfl
  · exact State.register_mem _ _ _ _

theorem State.checkPassed_tags : s.checkPassed.tags = if s.checkJoint then s.tags else
    (s.register (s.party s.due.ctx) .load (s.checkLines.map fun l => s.gGran s.due.ctx (64 * l))).tags := by
  unfold State.checkPassed
  dsimp only
  split
  · rfl
  · rfl

end

section
variable {s : State} (hwr : s.due.wr = false) (hask : s.due.nats ∈ (s.ctx s.due.ctx).raceAsk)
include hwr hask

theorem exec_raceCheckAnswer_asked : exec .raceCheckAnswer s = .next (
    match s.checkLines.find? fun l =>
      (s.answered.conflict (s.answered.party s.due.ctx) .load [s.answered.gGran s.due.ctx (64 * l)]).isSome with
    | none => s.answered.checkPassed
    | some l => s.answered.modCtx s.due.ctx fun x => { x with
        checked := s.answered.checkBytes s.checkJoint (s.checkLines.filter (· ≠ l)) ++ x.checked
        raceAns := (l, (s.answered.tag (s.answered.gGran s.due.ctx (64 * l))).rejection) :: x.raceAns }) := by
  have hgo : ¬s.due.wr = true := by simp [hwr]
  have hc : ¬(!(s.ctx s.due.ctx).raceAsk.contains s.due.nats) = true := by simpa using hask
  refine congrArg Host.Outcome.next ((if_neg hgo).trans ((if_neg hc).trans ?_))
  rfl

/-- The home's check of an access none of whose lines is rejected (R318, R319). -/
theorem exec_raceCheckAnswer_ok
    (hok : ∀ l ∈ s.checkLines, s.conflict (s.party s.due.ctx) .load [s.gGran s.due.ctx (64 * l)] = none) :
    exec .raceCheckAnswer s = .next s.answered.checkPassed := by
  have hnone : s.checkLines.find? (fun l => (s.answered.conflict (s.answered.party s.due.ctx) .load
      [s.answered.gGran s.due.ctx (64 * l)]).isSome) = none := by
    simp only [State.answered_party, State.answered_gGran, List.find?_eq_none]
    intro l hl
    rw [show s.answered.conflict _ _ _ = s.conflict _ _ _ from rfl, hok l hl]
    exact Bool.false_ne_true
  rw [exec_raceCheckAnswer_asked hwr hask, hnone]

/-- The home keeps the first rejection of an access, and the bytes of its other lines (R318, R319). -/
theorem exec_raceCheckAnswer_no {l : Nat}
    (hl : s.checkLines.find? (fun l => (s.conflict (s.party s.due.ctx) .load [s.gGran s.due.ctx (64 * l)]).isSome) = some l) :
    exec .raceCheckAnswer s = .next (s.answered.modCtx s.due.ctx fun x => { x with
      checked := s.checkBytes s.checkJoint (s.checkLines.filter (· ≠ l)) ++ x.checked
      raceAns := (l, (s.tag (s.gGran s.due.ctx (64 * l))).rejection) :: x.raceAns }) := by
  have hsome : s.checkLines.find? (fun l => (s.answered.conflict (s.answered.party s.due.ctx) .load
      [s.answered.gGran s.due.ctx (64 * l)]).isSome) = some l := by
    simp only [State.answered_party, State.answered_gGran]
    exact hl
  rw [exec_raceCheckAnswer_asked hwr hask, hsome]
  dsimp only
  rw [s.answered_gGran]
  rfl

end

theorem State.learn_ctx (s : State) (e : Tlb) (c : Nat) : (s.learn e).ctx c = s.ctx c := State.ctx_of_offBooks (s.learn_offBooks e) c

/-- The leaf that a walk finds is held; nothing else is (R378). -/
def State.holdWalk (s : State) : Walk → State
  | .ok e => s.learn e
  | _ => s

theorem State.holdWalk_ctx (s : State) (w : Walk) (c : Nat) : (s.holdWalk w).ctx c = s.ctx c := by
  cases w with
  | ok e => exact s.learn_ctx e c
  | bad r l => rfl
  | denied => rfl
  | poison k => rfl

theorem State.holdWalk_mem {s : State} (h : s.corr = []) (w : Walk) : (s.holdWalk w).mem = s.mem := by
  cases w with
  | ok e =>
    obtain ⟨l, hl⟩ := s.learn_of_clear h e
    exact (congrArg State.mem hl :)
  | bad r l => rfl
  | denied => rfl
  | poison k => rfl

/-- A page walk that was asked for ends (R374, R378). -/
theorem exec_translationWalkComplete {s : State} (h : s.due.arg ∈ (s.ctx s.due.ctx).walkAsk) :
    exec .translationWalkComplete s = .next ((s.holdWalk (s.walk (s.who s.due.ctx) (4096 * s.due.arg))).modCtx s.due.ctx fun x =>
      { x with walkAsk := x.walkAsk.erase s.due.arg, walked := s.due.arg :: x.walked }) :=
  congrArg Host.Outcome.next ((if_neg (by simpa using h)).trans rfl)

/-! ### Cards -/

/-- What reading a card through a page leaves, and its words or the fault that its `cnext` raises (R32, R33): a word that cannot be
corrected, a SYNC page, plain memory outside the launch's RD range, a granule whose tag does or does not let the load pass. -/
def State.cardThrough (s : State) (c m : Nat) (ea : Word) (e : Tlb) : State × Option TrapInfo :=
  match s.poisoned m 64 with
  | some k => (s, some { kind := 0x10, pc := 0, faddr := ea, key := k })
  | none =>
    let t := s.corrected (dieOf c) m 64
    if e.sync then (t, none)
    else if !t.inRd c ea.toNat then (t, some { kind := 0x07, pc := 0, faddr := ea })
    else
      match t.conflict (t.party c) .load [t.gGran c m] with
      | some (_, u) => (t, some { u.rejection with faddr := ea })
      | none => (t.register (t.party c) .load [t.gGran c m], none)

/-- The card that the prefetcher keeps of a place in a context's sequence, read in state t at module address m. -/
def State.cardKept (s : State) (m : Nat) (t : State × Option TrapInfo) : Card :=
  { pos := s.due.arg, gidx := s.cardIndex s.due.ctx s.due.arg, bad := t.2
    words := if t.2.isSome then [] else (List.range 8).map fun i => BitVec.ofNat 64 (t.1.gnat (m + 8 * i) 8) }

/-- A card kept. -/
def State.keepCard (s : State) (c : Nat) (k : Card) : State := s.modCtx c fun x => { x with cards := x.cards ++ [k] }

section
variable {s : State} {l : Launch} (hl : s.launchOf s.due.ctx = some l) (hpos : s.due.arg < (s.ctx s.due.ctx).owned)
  (hnew : ∀ k ∈ (s.ctx s.due.ctx).cards, k.pos ≠ s.due.arg)
include hl hpos hnew

/-- A card whose address translates is read there (R33). -/
theorem exec_cardPrefetch_ok {m : Nat} {e : Tlb} {ea : Word} (hea : ea = BitVec.ofNat 64 (l.pkt.cbase + 64 * s.cardIndex s.due.ctx s.due.arg))
    (htr : s.translate (s.who s.due.ctx) ea.toNat .r = .ok m e) :
    let t := ((s.learn e).heat m e.leaf).cardThrough s.due.ctx m ea e
    exec .cardPrefetch s = .next (t.1.keepCard s.due.ctx (s.cardKept m t)) := by
  subst hea
  show execCardPrefetch s = _
  have hgo : ¬((s.ctx s.due.ctx).owned ≤ s.due.arg || (s.ctx s.due.ctx).cards.any (·.pos = s.due.arg)) = true := by
    simpa [hpos] using hnew
  unfold execCardPrefetch
  dsimp only
  rw [hl]
  dsimp only
  rw [if_neg hgo, State.access1, htr]
  dsimp only
  generalize (s.learn e).heat m e.leaf = u
  unfold State.cardThrough
  rcases u.poisoned m 64 with _ | k
  · dsimp only
    generalize u.corrected (dieOf s.due.ctx) m 64 = v
    by_cases hsync : e.sync = true
    · rw [if_pos hsync, if_pos hsync]
      rfl
    rw [if_neg hsync, if_neg hsync]
    by_cases hrd : (!v.inRd s.due.ctx (BitVec.ofNat 64 (l.pkt.cbase + 64 * s.cardIndex s.due.ctx s.due.arg)).toNat) = true
    · rw [if_pos hrd, if_pos hrd]
      rfl
    rw [if_neg hrd, if_neg hrd]
    rcases v.conflict (v.party s.due.ctx) .load [v.gGran s.due.ctx m] with _ | ⟨_, t⟩
    · rfl
    · rfl
  · rfl

/-- A card whose address does not translate is kept with its fault (R33). -/
theorem exec_cardPrefetch_no {x : XRes} {ea : Word} (hea : ea = BitVec.ofNat 64 (l.pkt.cbase + 64 * s.cardIndex s.due.ctx s.due.arg))
    (htr : s.translate (s.who s.due.ctx) ea.toNat .r = x) (hx : ∀ m e, x ≠ .ok m e) :
    exec .cardPrefetch s = .next (s.keepCard s.due.ctx (s.cardKept 0 (s, some (x.trap ea)))) := by
  subst hea
  show execCardPrefetch s = _
  have hgo : ¬((s.ctx s.due.ctx).owned ≤ s.due.arg || (s.ctx s.due.ctx).cards.any (·.pos = s.due.arg)) = true := by
    simpa [hpos] using hnew
  unfold execCardPrefetch
  dsimp only
  rw [hl]
  dsimp only
  rw [if_neg hgo, State.access1, htr]
  cases x with
  | ok m e => exact absurd rfl (hx m e)
  | fault r v => rfl
  | denied => rfl
  | poison k => rfl

end

/-- A card kept in a state with the same contexts. -/
theorem State.keepCard_kept {s t : State} (h : ∀ c, t.ctx c = s.ctx c) (c : Nat) (k : Card) :
    ((t.keepCard c k).ctx c).cards = (s.ctx c).cards ++ [k] ∧ ((t.keepCard c k).ctx c).vis = (s.ctx c).vis ∧
      ∀ c', c' ≠ c → (t.keepCard c k).ctx c' = s.ctx c' := by
  have hx := State.ctx_modCtx t c fun x => { x with cards := x.cards ++ [k] }
  rw [h c] at hx
  exact ⟨(congrArg Ctx.cards hx :), (congrArg Ctx.vis hx :), fun c' hc => (State.ctx_modCtx_ne t _ hc).trans (h c')⟩

/-- A state without its books and tags. -/
def State.offReads (s : State) : State := s.offBooks.offTags

/-- A card's read changes the books and the tags alone. -/
theorem State.cardThrough_offReads (s : State) (c m : Nat) (ea : Word) (e : Tlb) :
    (s.cardThrough c m ea e).1.offReads = s.offReads := by
  have hc : (s.corrected (dieOf c) m 64).offReads = s.offReads := congrArg State.offTags (s.corrected_offBooks _ _ _)
  unfold State.cardThrough
  split
  · rfl
  · dsimp only
    split
    · exact hc
    split
    · exact hc
    split
    · exact hc
    · exact (congrArg State.offBooks (State.register_offTags _ _ _ _) :).trans hc

section
variable {s u : State} (hu : u.offBooks = s.offBooks) {c m : Nat} {ea : Word} {e : Tlb} (hp : s.poisoned m 64 = none)
include hu hp

/-- What a card's read through a page finds is what the state without its books says (R33). -/
theorem State.cardThrough_eq : u.cardThrough c m ea e =
    let t := u.corrected (dieOf c) m 64
    if e.sync then (t, none)
    else if s.inRd c ea.toNat = false then (t, some { kind := 0x07, pc := 0, faddr := ea })
    else
      match s.conflict (s.party c) .load [s.gGran c m] with
      | some (_, u) => (t, some { u.rejection with faddr := ea })
      | none => (t.register (s.party c) .load [s.gGran c m], none) := by
  have ht : (u.corrected (dieOf c) m 64).offBooks = s.offBooks := (u.corrected_offBooks _ _ _).trans hu
  rw [State.cardThrough, show u.poisoned m 64 = none from (congrArg (·.poisoned m 64) hu :).trans hp]
  dsimp only
  generalize u.corrected (dieOf c) m 64 = t at ht ⊢
  rw [show t.inRd c ea.toNat = s.inRd c ea.toNat from (congrArg (·.inRd c ea.toNat) ht :),
    show t.party c = s.party c from (congrArg (·.party c) ht :), show t.gGran c m = s.gGran c m from (congrArg (·.gGran c m) ht :),
    show t.conflict (s.party c) .load [s.gGran c m] = s.conflict (s.party c) .load [s.gGran c m] from
      (congrArg (·.conflict (s.party c) .load [s.gGran c m]) ht :)]
  simp only [Bool.not_eq_true']

end

/-- The tag that a rejection on one granule finds is that granule's. -/
theorem State.tag_of_conflict {s : State} {x : Party} {k : AccKind} {g g' : Gran} {u : Tag}
    (h : s.conflict x k [g] = some (g', u)) : s.tag g = u := by
  simp only [State.conflict, List.find?_singleton] at h
  split at h
  · obtain ⟨rfl, rfl⟩ := Prod.mk.inj (Option.some.inj h)
    rfl
  · cases h

/-- The first of a list that meets a condition, after some that do not. -/
theorem find?_after {α : Type} {p : α → Bool} {pre post : List α} {a : α} (hpre : ∀ x ∈ pre, p x = false) (ha : p a = true) :
    (pre ++ a :: post).find? p = some a := by
  rw [List.find?_append, List.find?_eq_none.2 fun x hx => by simp [hpre x hx], List.find?_cons_of_pos ha]
  rfl

/-- What a check that passes leaves of its context. -/
theorem State.passed_ctx (s : State) : s.answered.checkPassed.ctx s.due.ctx = { s.ctx s.due.ctx with
    raceAsk := (s.ctx s.due.ctx).raceAsk.erase s.due.nats
    checked := s.checkBytes s.checkJoint s.checkLines ++ (s.ctx s.due.ctx).checked } := by
  have h := s.answered.checkPassed_ctx
  rw [show s.answered.due = s.due from rfl, State.answered_ctx] at h
  exact h

/-! ### The obligation -/

/-- What an equation of books alone says of the cores. -/
theorem State.core_of_offBooks {s t : State} (h : t.offBooks = s.offBooks) (q : Nat) : t.core q = s.core q :=
  (congrArg (·.core q) h :)

theorem State.core_modCore_ne (s : State) {q q' : Nat} (f : Core → Core) (h : q' ≠ q) : (s.modCore q f).core q' = s.core q' :=
  State.core_setCore_ne s _ h

/-- Room in L1 does not depend on the books. -/
theorem State.roomy_of_offBooks {s t : State} (h : t.offBooks = s.offBooks) (q : Nat) : t.roomy q = s.roomy q :=
  (congrArg (·.roomy q) h :)

theorem State.l1Of_of_offBooks {s t : State} (h : t.offBooks = s.offBooks) (c l : Nat) : t.l1Of c l = s.l1Of c l :=
  (congrArg (·.l1Of c l) h :)

/-- The high byte of an address. -/
theorem fld_high (ea : Word) : fld ea 56 8 = ea.toNat / 2 ^ 56 := by
  rw [fld, bits_eq, Nat.mod_eq_of_lt (by have := ea.isLt; simp only [Nat.reducePow] at this ⊢; omega)]

/-- Settles O33, an arrival at a time: what each leaves is one equation above, and what it keeps is what holding a translation, putting
lines in L1 and registering reads keep. -/
theorem arrivalsFromMemory : Obligations.ArrivalsFromMemory := by
  intro s d c x roomy
  have hroomy : ∀ q, roomy q → s.roomy q = true := fun q h => decide_eq_true h
  refine ⟨fun hid hnew hroom => ?_, fun b hid hb => ?_, fun hask hwf => ?_, fun ls hwr hne hls hn hask hok => ?_,
    fun hwr hlt hask => ?_, fun hask => ?_, fun l hl hpos hnew => ?_⟩
  · refine ⟨_, exec_lineArrival_demand hid hnew (hroomy _ hroom), ?_⟩
    have hbooks := State.heat_offBooks ((s.addLine (s.l1Of c d.arg) d.arg).modCore (s.l1Of c d.arg) fun co =>
      { co with asked := co.asked.erase d.arg }) (64 * d.arg) (BitVec.ofNat 64 (d.nats.getD 0 0))
    refine ⟨?_, (congrArg State.ctxs hbooks :), (congrArg State.tags hbooks :), fun q hq => ?_⟩
    · rw [State.core_of_offBooks hbooks, State.core_modCore, State.addLine, State.core_modCore, List.erase_of_not_mem hnew]
    · rw [State.core_of_offBooks hbooks, State.core_modCore_ne _ _ hq, State.addLine, State.core_modCore_ne _ _ hq]
  · intro ea settled blocks marked
    refine ⟨fun m e hea htr hroom => ?_, fun hea => ?_, fun r l hea htr => ?_⟩
    · rw [← fld_high] at hea
      have hlearn := s.learn_offBooks e
      refine ⟨_, exec_lineArrival_block hid hb hea htr ?_, fun hclear => ?_, ?_⟩
      · rw [State.l1Of_of_offBooks hlearn, State.roomy_of_offBooks hlearn]
        exact hroomy _ hroom
      · obtain ⟨tlb, heq⟩ := s.learn_of_clear hclear e
        rw [State.heat_sys, State.settleBlock_sys]
        exact (congrArg State.sys heq :)
      · rw [State.ctx_of_offBooks (State.heat_offBooks _ _ _), State.settleBlock_ctx, State.modBlock_blocks, State.learn_ctx]
        rfl
    · rw [ne_eq, ← fld_high] at hea
      refine ⟨_, exec_lineArrival_outside hid hb hea, State.settleBlock_mem _ _ _, ?_⟩
      rw [State.settleBlock_ctx, State.modBlock_blocks]
      rfl
    · rw [← fld_high] at hea
      refine ⟨_, exec_lineArrival_fault hid hb hea htr, State.settleBlock_mem _ _ _, ?_⟩
      rw [State.settleBlock_ctx, State.modBlock_blocks]
      rfl
  · intro w key
    refine ⟨_, exec_remoteGranuleArrival hask, (congrArg Ctx.remote s.keepGranule_ctx :), (congrArg Ctx.remAsk s.keepGranule_ctx :),
      (congrArg Ctx.vis s.keepGranule_ctx :), fun c' hc => State.ctx_modCtx_ne _ _ hc, fun q hq => ?_, ?_⟩
    · exact memRead_runAt_ne hwf (hq.imp_right (le_trans (Nat.add_le_add_left s.granule_length key)))
    · intro rejects rr rl
      have hbyte : ∀ i (h : i < s.granule.1.length), memRead s.keepGranule.mem (key + i) = s.granule.1[i] :=
        fun i h => memRead_runAt hwf h
      refine ⟨fun hm => ?_, fun hm => ?_⟩
      · have hg := State.granule_here hm
        refine ⟨fun i hi => ?_, fun hpub => State.keepGranule_raceAns ((congrArg Prod.snd hg).trans (if_neg (ne_true_of_eq_false hpub))),
          fun hpub => State.keepGranule_raceAns ((congrArg Prod.snd hg).trans (if_pos hpub))⟩
        exact (hbyte i (by simpa [hg, memBytes] using hi)).trans
            ((List.getElem_of_eq (congrArg Prod.fst hg) _).trans (by simp only [memBytes, List.getElem_map, List.getElem_range]; rfl))
      · have hg := State.granule_there hm
        refine ⟨fun i hi h => ?_, fun hwr => State.keepGranule_raceAns ((congrArg Prod.snd hg).trans (if_neg (ne_true_of_eq_false hwr))),
          fun hwr => State.keepGranule_raceAns ((congrArg Prod.snd hg).trans (if_pos hwr))⟩
        exact (hbyte i (by simpa [hg, hi] using h)).trans
            ((List.getElem_of_eq (congrArg Prod.fst hg) _).trans List.getElem_take)
  · obtain ⟨hlines, hjoint⟩ := State.checkLines_joint hne hls hn
    refine ⟨_, exec_raceCheckAnswer_ok hwr hask (by rwa [hlines]), State.checkPassed_mem _, ?_, ?_, ?_⟩
    · rw [State.checkPassed_tags]
      exact if_pos hjoint
    · exact (congrArg Ctx.raceAns s.passed_ctx :)
    · exact (congrArg Ctx.checked s.passed_ctx).trans (by rw [hlines, hjoint]; rfl)
  · obtain ⟨hlines, hjoint⟩ := State.checkLines_of_lt hlt
    have hbytes : ∀ ls : List Nat, s.checkBytes s.checkJoint ls = ls.map fun k => (k, s.gbytes (64 * k) 64) := fun ls => by
      rw [hjoint]
      rfl
    rcases hfind : s.checkLines.find? (fun l => (s.conflict (s.party c) .load [s.gGran c (64 * l)]).isSome) with _ | l₀
    · have hok : ∀ l ∈ d.nats, s.conflict (s.party c) .load [s.gGran c (64 * l)] = none := fun l hl => by
        simpa using List.find?_eq_none.1 hfind l (by rwa [hlines])
      refine ⟨_, exec_raceCheckAnswer_ok hwr hask (by rwa [hlines]), State.checkPassed_mem _, (congrArg Ctx.raceAsk s.passed_ctx :),
        (congrArg Ctx.vis s.passed_ctx :), fun _ => ⟨?_, (congrArg Ctx.raceAns s.passed_ctx :), ?_⟩,
        fun pre l post g u hn hpre hl => absurd (hok l (by simp [hn])) (by simp [hl])⟩
      · rw [State.checkPassed_tags, if_neg (show ¬s.answered.checkJoint = true from ne_true_of_eq_false hjoint),
          show s.answered.checkLines = d.nats from hlines]
        simp only [show s.answered.due = s.due from rfl, State.answered_party, State.answered_gGran]
        exact State.register_tags_congr (s := s) (t := s.answered) rfl _ _ _
      · exact (congrArg Ctx.checked s.passed_ctx).trans (by rw [hbytes, hlines])
    · have hx := State.ctx_modCtx s.answered c fun x => { x with
        checked := s.checkBytes s.checkJoint (s.checkLines.filter (· ≠ l₀)) ++ x.checked
        raceAns := (l₀, (s.tag (s.gGran c (64 * l₀))).rejection) :: x.raceAns }
      rw [s.answered_ctx] at hx
      refine ⟨_, exec_raceCheckAnswer_no hwr hask hfind, rfl, (congrArg Ctx.raceAsk hx :), (congrArg Ctx.vis hx :),
        fun hok => ?_, fun pre l post g u hn hpre hl => ?_⟩
      · have hno := hok l₀ (hlines ▸ List.mem_of_find?_eq_some hfind)
        exact absurd (List.find?_some hfind) (by simp [hno])
      · rw [hlines, hn, find?_after (fun k hk => by simp [hpre k hk]) (by simp [hl])] at hfind
        obtain rfl := Option.some.inj hfind
        refine ⟨rfl, (congrArg Ctx.checked hx).trans (by rw [hbytes, hlines]), (congrArg Ctx.raceAns hx).trans ?_⟩
        rw [State.tag_of_conflict hl]
        rfl
  · have hx := State.ctx_modCtx (s.holdWalk (s.walk (s.who c) (4096 * d.arg))) c fun x => { x with
      walkAsk := x.walkAsk.erase d.arg, walked := d.arg :: x.walked }
    rw [State.holdWalk_ctx] at hx
    refine ⟨_, exec_translationWalkComplete hask, fun hclear => State.holdWalk_mem hclear _, (congrArg Ctx.walkAsk hx :),
      (congrArg Ctx.walked hx :), fun e he => ?_, fun r l hw => ?_⟩
    · rw [he]
      exact s.mem_learn_tlb e
    · rw [hw]
      rfl
  · intro ea
    by_cases hok : ∃ m e, s.translate (s.who c) ea.toNat .r = .ok m e
    · obtain ⟨m, e, htr⟩ := hok
      have hu : ((s.learn e).heat m e.leaf).offBooks = s.offBooks := (State.heat_offBooks _ _ _).trans (s.learn_offBooks e)
      have hread := State.cardThrough_offReads ((s.learn e).heat m e.leaf) c m ea e
      have hctx : ∀ c', (((s.learn e).heat m e.leaf).cardThrough c m ea e).1.ctx c' = s.ctx c' := fun c' =>
        (congrArg (·.ctx c') (hread.trans (congrArg State.offTags hu)) :)
      obtain ⟨hcards, hvis, hrest⟩ := State.keepCard_kept hctx c (s.cardKept m (((s.learn e).heat m e.leaf).cardThrough c m ea e))
      have hone : ∀ {m' e'}, s.translate (s.who c) ea.toNat .r = .ok m' e' → m' = m ∧ e' = e := fun h =>
        XRes.ok.inj (h.symm.trans htr)
      refine ⟨_, _, exec_cardPrefetch_ok hl hpos hnew rfl htr, hcards, rfl, rfl, hvis, hrest, fun m' e' htr' hsync hp => ?_,
        fun m' e' htr' hsync hp => ?_, fun r v hf => ?_⟩
      · obtain ⟨rfl, rfl⟩ := hone htr'
        rw [State.cardThrough_eq hu hp, if_pos hsync]
        exact ⟨rfl, rfl⟩
      · obtain ⟨rfl, rfl⟩ := hone htr'
        rw [State.cardThrough_eq hu hp, if_neg (ne_true_of_eq_false hsync)]
        have htags : (((s.learn e').heat m' e'.leaf).corrected (dieOf c) m' 64).tags = s.tags :=
          (congrArg State.tags ((State.corrected_offBooks _ _ _ _).trans hu) :)
        refine ⟨fun hrd => ?_, fun hrd hc => ?_, fun g u hrd hc => ?_⟩
        · rw [if_pos hrd]
          rfl
        · rw [if_neg (ne_false_of_eq_true hrd), hc]
          exact ⟨rfl, rfl, State.register_tags_congr htags _ _ _⟩
        · rw [if_neg (ne_false_of_eq_true hrd), hc]
          exact ⟨rfl, htags⟩
      · cases hf.symm.trans htr
    · obtain ⟨hcards, hvis, hrest⟩ := State.keepCard_kept (fun _ => rfl) c
        (s.cardKept 0 (s, some ((s.translate (s.who c) ea.toNat .r).trap ea)))
      refine ⟨_, _, exec_cardPrefetch_no hl hpos hnew rfl rfl (fun m e h => hok ⟨m, e, h⟩), hcards, rfl, rfl, hvis, hrest,
        fun m e h => absurd ⟨m, e, h⟩ hok, fun m e h => absurd ⟨m, e, h⟩ hok, fun r v hf => ?_⟩
      show some _ = some _
      rw [hf]
      rfl

end Sys2Proof.Machine
end

section
/-! Writes of the command processor, and a cluster's slot. -/

namespace Sys2Proof.Machine

/-! ### Reads of what has been written -/

/-- A cell of memory is what its key reads as. -/
theorem memRead_of_mem {m : List Host.Cell} (hm : Memory.wf m = true) {x : Nat} {b : Byte} (h : (x, b) ∈ m) : memRead m x = b := by
  induction m with
  | nil => cases h
  | cons c r ih =>
    obtain ⟨a, b'⟩ := c
    obtain ⟨-, -, hr⟩ := Memory.wf_cons.1 hm
    rcases List.mem_cons.1 h with heq | h
    · obtain ⟨rfl, rfl⟩ := Prod.mk.inj heq
      exact if_pos rfl
    · have : a < x := Memory.head_lt hm _ h
      rw [memRead, if_neg this.ne]
      exact ih hr h

/-- A key without a cell reads as zero. -/
theorem memRead_of_not_mem {m : List Host.Cell} {x : Nat} (h : ∀ c ∈ m, c.1 ≠ x) : memRead m x = 0 := by
  induction m with
  | nil => rfl
  | cons c r ih =>
    rw [memRead, if_neg (h c List.mem_cons_self)]
    exact ih fun d hd => h d (List.mem_cons_of_mem _ hd)

/-- A byte that writes of one value name reads as that value. -/
theorem memRead_memPut_mem {m : List Host.Cell} {bs : List (Nat × Byte)} {x : Nat} {b : Byte} (hm : Memory.wf m = true)
    (h : (x, b) ∈ bs) (hone : ∀ p ∈ bs, p.1 = x → p.2 = b) : memRead (memPut m bs) x = b := by
  induction bs generalizing m with
  | nil => cases h
  | cons p r ih =>
    have hw := memWrite_wf p.1 p.2 hm
    by_cases hr : (x, b) ∈ r
    · exact ih hw hr fun q hq => hone q (List.mem_cons_of_mem _ hq)
    · obtain rfl : (x, b) = p := (List.mem_cons.1 h).resolve_right hr
      have hnone : ∀ q ∈ r, q.1 ≠ x := fun q hq hx =>
        hr (by have := hone q (List.mem_cons_of_mem _ hq) hx; rwa [show (x, b) = q from Prod.ext hx.symm this.symm])
      exact (memRead_memPut_ne hw hnone).trans (by rw [memRead_memWrite _ _ hm, if_pos rfl])

/-! ### The command processor's writes -/

section
variable {s : State} (hmig : s.migs = []) (bs : List (Nat × Byte))
include hmig

/-- With no migration, a write by the command processor puts the bytes that it may write, and that do not leave the module. -/
theorem State.cpPut_mem : (s.cpPut bs).mem = memPut s.mem ((bs.filter fun p => s.cpMay p.1 .w).filter fun p => !outsideKey p.1) := by
  have hmirror : ∀ bs, s.mirrored bs = [] := fun bs => by rw [State.mirrored, hmig]; rfl
  unfold State.cpPut State.write
  dsimp only
  rw [hmirror, List.append_nil]
  split <;> rfl

variable {bs} (hwf : Memory.wf s.mem = true)
include hwf

theorem State.cpPut_wf : Memory.wf (s.cpPut bs).mem = true := by
  rw [State.cpPut_mem hmig]
  exact memPut_wf _ hwf

variable {x : Nat}

/-- A byte that is not written reads as before. -/
theorem State.cpPut_read_ne (h : ∀ p ∈ bs, p.1 ≠ x) : memRead (s.cpPut bs).mem x = memRead s.mem x := by
  rw [State.cpPut_mem hmig]
  exact memRead_memPut_ne hwf fun p hp => h p (List.mem_of_mem_filter (List.mem_of_mem_filter hp))

variable {b : Byte} (hmay : s.cpMay x .w = true) (hin : outsideKey x = false)
include hmay hin

/-- A byte that is written reads as what is written. -/
theorem State.cpPut_read (h : (x, b) ∈ bs) (hone : ∀ p ∈ bs, p.1 = x → p.2 = b) : memRead (s.cpPut bs).mem x = b := by
  rw [State.cpPut_mem hmig]
  exact memRead_memPut_mem hwf (List.mem_filter.2 ⟨List.mem_filter.2 ⟨h, hmay⟩, by simp [hin]⟩) fun p hp =>
    hone p (List.mem_of_mem_filter (List.mem_of_mem_filter hp))

/-- A byte that has been zeroed reads as zero. -/
theorem State.cpZero_read {lo hi : Nat} (hlo : lo ≤ x) (hhi : x < hi) : memRead (s.cpZero lo hi).mem x = 0 := by
  unfold State.cpZero
  by_cases h : ∃ b, (x, b) ∈ s.mem
  · obtain ⟨b, hb⟩ := h
    refine State.cpPut_read hmig hwf hmay hin (List.mem_map.2 ⟨(x, b), List.mem_filter.2 ⟨hb, by simp [hlo, hhi]⟩, rfl⟩) fun p hp _ => ?_
    obtain ⟨c, -, rfl⟩ := List.mem_map.1 hp
    rfl
  · have hnone : ∀ c ∈ s.mem, c.1 ≠ x := fun c hc hx => h ⟨c.2, hx ▸ hc⟩
    rw [State.cpPut_read_ne hmig hwf, memRead_of_not_mem hnone]
    intro p hp
    obtain ⟨c, hc, rfl⟩ := List.mem_map.1 hp
    exact hnone c (List.mem_of_mem_filter hc)

end

/-- What the command processor may do does not depend on memory. -/
theorem State.cpPut_cpMay (s : State) (bs : List (Nat × Byte)) (m : Nat) (n : Need) : (s.cpPut bs).cpMay m n = s.cpMay m n := by
  obtain ⟨_, _, e⟩ := s.write_eq (bs.filter fun p => s.cpMay p.1 .w)
  rw [State.cpPut, e]
  rfl

theorem State.cpPut_migs (s : State) (bs : List (Nat × Byte)) : (s.cpPut bs).migs = s.migs := by
  obtain ⟨_, _, e⟩ := s.write_eq (bs.filter fun p => s.cpMay p.1 .w)
  rw [State.cpPut, e]

/-! ### A cluster's slot -/

/-- The header and templates of a cluster as its slot holds them (R403). -/
def Cluster.slotHead (cl : Cluster) : List Byte :=
  leBytes 8 cl.epoch ++ leBytes 8 cl.famo.length ++ List.replicate 48 0
    ++ cl.plats.toList.flatMap (fun p => leBytes 8 p.word.toNat) ++ cl.famo.flatMap Gathered.bytes
    ++ List.replicate (7616 - 16 * cl.famo.length) 0 ++ cl.tmpl.toList.flatMap fun t => leBytes 32 t.toNat

/-- The header and templates take the first 16,384 bytes (R403). -/
theorem Cluster.slotHead_length {cl : Cluster} (h : cl.famo.length ≤ 476) : cl.slotHead.length = 0x4000 := by
  have hrun : ∀ {α : Type} (l : List α) (f : α → List Byte) (n : Nat), (∀ x, (f x).length = n) → (l.flatMap f).length = n * l.length :=
    fun l f n hf => by rw [List.length_flatMap, List.map_congr_left fun x _ => hf x, List.map_const', List.sum_replicate,
      smul_eq_mul, Nat.mul_comm]
  simp only [Cluster.slotHead, List.length_append, leBytes_length, List.length_replicate, hrun _ _ 8 fun _ => leBytes_length _ _,
    hrun _ _ 32 fun _ => leBytes_length _ _, hrun _ Gathered.bytes 16 fun g => by simp [Gathered.bytes], Vector.length_toList]
  omega

/-- The scratchpad's bytes, its tags and its contexts' images as a slot holds them (R403). -/
def State.slotBank (s : State) (a k : Nat) : List (Nat × Byte) :=
  (s.mem.filter fun c => decide (spKey k 0 ≤ c.1) && decide (c.1 < spKey k 0 + 2 ^ 23)).map fun c => (a + 0x4000 + (c.1 - spKey k 0), c.2)
def State.slotTags (s : State) (a k : Nat) : List (Nat × Byte) :=
  (s.spTags k).flatMap fun t => runAt (a + 0x804000 + 8 * (t.1.2 - spKey k 0 / 64)) (leBytes 8 (tagWord t.2))
def State.slotImages (s : State) (l : Launch) (a k : Nat) : List (Nat × Byte) :=
  (List.range (l.c * l.m)).flatMap fun i => runAt (a + 0x904000 + 57856 * i) (s.image (ctxidOf k (i % l.m) (i / l.m)))

theorem State.carryPoison_mem (s : State) (src dst n : Nat) : (s.carryPoison src dst n).mem = s.mem := rfl

/-- All that the save of a cluster writes in its slot. -/
def State.slotBytes (s : State) (l : Launch) (k : Nat) : List (Nat × Byte) :=
  runAt (slotAt l.save k) (s.cluster k).slotHead ++ s.slotBank (slotAt l.save k) k ++ s.slotTags (slotAt l.save k) k ++
    s.slotImages l (slotAt l.save k) k

theorem State.saveCluster_eq (s : State) (l : Launch) (k : Nat) : s.saveCluster l k =
    ((s.cpZero (slotAt l.save k) (slotAt l.save k + 0xA00000)).cpPut (s.slotBytes l k)).carryPoison (spKey k 0)
      (slotAt l.save k + 0x4000) (2 ^ 23) := rfl

/-- Of a slot's bytes, those of the scratchpad alone stand where the scratchpad's do (R403). -/
theorem State.slotBytes_at {s : State} {l : Launch} {k i : Nat} (hfamo : (s.cluster k).famo.length ≤ 476) (hi : i < 2 ^ 23)
    {p : Nat × Byte} (hp : p ∈ s.slotBytes l k) (hx : p.1 = slotAt l.save k + 0x4000 + i) : (spKey k i, p.2) ∈ s.mem := by
  simp only [State.slotBytes, List.mem_append] at hp
  rcases hp with ((hp | hp) | hp) | hp
  · have := (runAt_keys hp).2
    rw [Cluster.slotHead_length hfamo] at this
    omega
  · obtain ⟨c, hc, rfl⟩ := List.mem_map.1 hp
    obtain ⟨hc, hin⟩ := List.mem_filter.1 hc
    simp only [Bool.and_eq_true, decide_eq_true_eq] at hin
    have : c.1 = spKey k i := by
      simp only [spKey, Nat.zero_mod] at hin hx ⊢
      rw [Nat.mod_eq_of_lt hi]
      omega
    exact this ▸ hc
  · obtain ⟨t, -, hp⟩ := List.mem_flatMap.1 hp
    have := (runAt_keys hp).1
    omega
  · obtain ⟨j, -, hp⟩ := List.mem_flatMap.1 hp
    have := (runAt_keys hp).1
    omega

/-- The scratchpad's bytes are in the slot. -/
theorem State.mem_slotBytes {s : State} {l : Launch} {k i : Nat} (hi : i < 2 ^ 23) {b : Byte} (h : (spKey k i, b) ∈ s.mem) :
    (slotAt l.save k + 0x4000 + i, b) ∈ s.slotBytes l k := by
  have hkey : spKey k i = spKey k 0 + i := by rw [spKey, spKey, Nat.mod_eq_of_lt hi, Nat.zero_mod, Nat.add_zero]
  refine List.mem_append_left _ (List.mem_append_left _ (List.mem_append_right _ (List.mem_map.2 ⟨(spKey k i, b), ?_, ?_⟩)))
  · exact List.mem_filter.2 ⟨h, by simp only [hkey, Bool.and_eq_true, decide_eq_true_eq]; omega⟩
  · rw [hkey, Nat.add_sub_cancel_left]

/-- The slot holds the scratchpad once a cluster has been saved (R403). -/
theorem State.saveCluster_read {s : State} {l : Launch} {k i : Nat} (hwf : Memory.wf s.mem = true) (hmig : s.migs = [])
    (hfamo : (s.cluster k).famo.length ≤ 476) (hi : i < 2 ^ 23) (hmay : s.cpMay (slotAt l.save k + 0x4000 + i) .w = true)
    (hin : outsideKey (slotAt l.save k + 0x4000 + i) = false) :
    memRead (s.saveCluster l k).mem (slotAt l.save k + 0x4000 + i) = memRead s.mem (spKey k i) := by
  rw [State.saveCluster_eq, State.carryPoison_mem]
  have hzero := State.cpZero_read hmig hwf hmay hin (lo := slotAt l.save k) (hi := slotAt l.save k + 0xA00000) (by omega) (by omega)
  have hmig' : (s.cpZero (slotAt l.save k) (slotAt l.save k + 0xA00000)).migs = [] := (s.cpPut_migs _).trans hmig
  have hwf' : Memory.wf (s.cpZero (slotAt l.save k) (slotAt l.save k + 0xA00000)).mem = true := State.cpPut_wf hmig hwf
  by_cases h : ∃ b, (spKey k i, b) ∈ s.mem
  · obtain ⟨b, hb⟩ := h
    rw [State.cpPut_read hmig' hwf' ((s.cpPut_cpMay _ _ _).trans hmay) hin (State.mem_slotBytes hi hb) fun p hp hx =>
      (memRead_of_mem hwf (State.slotBytes_at hfamo hi hp hx)).symm.trans (memRead_of_mem hwf hb), memRead_of_mem hwf hb]
  · rw [State.cpPut_read_ne hmig' hwf' fun p hp hx => h ⟨_, State.slotBytes_at hfamo hi hp hx⟩, hzero,
      memRead_of_not_mem (x := spKey k i) fun c hc hx => h ⟨c.2, hx ▸ hc⟩]

end Sys2Proof.Machine
end

section
/-! The scheduler's events: pre-emption, doorbells, scheduling steps, saves, gangs (O40). -/

namespace Sys2Proof.Machine

/-! ### Requests and pending records -/

theorem State.die_modDie (s : State) (d : Nat) (f : Die → Die) : (s.modDie d f).die d = f (s.die d) := aget_aset_self _ _ _ _
theorem State.die_modDie_ne (s : State) {d d' : Nat} (f : Die → Die) (h : d' ≠ d) : (s.modDie d f).die d' = s.die d' :=
  aget_aset_ne _ _ _ h

/-- The ring with OVR cleared (R365). -/
def State.ovrCleared (s : State) : State := { s with sys := { s.sys with trapOvr := false } }

/-- With no pending record, clearing OVR clears OVR (R365). -/
theorem State.reraise_nil {s : State} (h : s.pendingRecs = []) : s.reraise = s.ovrCleared := by
  rw [State.reraise, h]
  rfl

/-- A pending record is claimed when OVR is cleared and the ring is open (R365). -/
theorem State.reraise_one {s : State} {r : TrapRec × RecOwner} (h : s.pendingRecs = [r]) (hring : s.sys.ringOpen = true) :
    s.reraise = s.ovrCleared.claimPending r := by
  rw [State.reraise, h, List.foldl_cons, List.foldl_nil]
  exact if_pos hring

/-- A claim in a ring whose memory is sound advances WR (R362). -/
theorem State.claim_ok {s : State} (h : s.ringBad = false) (r : TrapRec) (b : Bool) :
    ∃ m o, s.claim r b = { s with mem := m, out := o, sys := { s.sys with trapWr := s.sys.trapWr + 1 } } := by
  unfold State.claim
  rw [if_neg (ne_true_of_eq_false h)]
  obtain ⟨m, o, e⟩ := s.write_eq (runAt (s.sys.trapBase.toNat + 64 * (s.sys.trapWr.toNat % 2 ^ s.sys.trapLog2n)) (r.bytes b))
  exact ⟨m, o, by rw [e]⟩

/-- A record that has been claimed is no longer pending. -/
theorem Ctx.claimed_pendRec (x : Ctx) (r : TrapRec) : (x.claimed r).pendRec = x.pendRec.erase r := by
  unfold Ctx.claimed
  dsimp only
  split <;> rfl

/-- A context in state 3 whose last record is claimed goes to state 2 (R365). -/
theorem Ctx.claimed_status {x : Ctx} {r : TrapRec} (hst : x.status = .parked .trapPending) (hrec : x.pendRec = [r]) :
    (x.claimed r).status = .parked .trap :=
  congrArg Ctx.status (if_pos ⟨hst, by rw [hrec, List.erase_cons_head]⟩)

/-- The pending records of the contexts, of the pre-empted launches and of the guest (R365). -/
def State.liveRecs (s : State) : List (TrapRec × RecOwner) := s.ctxs.flatMap fun p => p.2.pendRec.map fun r => (r, RecOwner.ctx p.1)
def State.keptRecs (s : State) : List (TrapRec × RecOwner) :=
  s.launches.flatMap fun l => l.kept.flatMap fun p => p.2.pendRec.map fun r => (r, RecOwner.kept l.id p.1)

theorem State.pendingRecs_eq {s : State} (h : s.guest.pend = []) :
    s.pendingRecs = (s.liveRecs ++ s.keptRecs).foldl (fun acc r => insertRec r acc) [] := by
  show (s.liveRecs ++ s.keptRecs ++ s.guest.pend.map fun r => (r, RecOwner.guest)).foldl _ _ = _
  rw [h, List.map_nil, List.append_nil]

theorem State.liveRecs_nil {s : State} (h : s.ctxs.flatMap (fun p => p.2.pendRec) = []) : s.liveRecs = [] := by
  simp only [State.liveRecs, List.flatMap_eq_nil_iff, List.map_eq_nil_iff] at h ⊢
  exact h

theorem State.liveRecs_one {s : State} {c : Nat} {r : TrapRec}
    (h : s.ctxs.flatMap (fun p => p.2.pendRec.map fun r => (p.1, r)) = [(c, r)]) : s.liveRecs = [(r, .ctx c)] := by
  have := congrArg (List.map fun x : Nat × TrapRec => (x.2, RecOwner.ctx x.1)) h
  simpa [State.liveRecs, List.map_flatMap, Function.comp_def] using this

theorem State.keptRecs_nil {s : State} (h : ∀ l ∈ s.launches, ∀ p ∈ l.kept, p.2.pendRec = []) : s.keptRecs = [] := by
  simp only [State.keptRecs, List.flatMap_eq_nil_iff, List.map_eq_nil_iff]
  exact h

/-! ### Registers at launch -/

/-- A vector of one value has that value at every index. -/
theorem vector_replicate_getD {α : Type} (n i : Nat) (a : α) : (Vector.replicate n a).getD i a = a := by
  simp only [Vector.getD, Array.getD]
  split
  · simp
  · rfl

section
variable (sk : Vector SkinkDim 32)

theorem Vis.launch_s (r : BitVec 5) : { Vis.launch with skink := sk }.s r = 0 := by
  unfold Vis.s
  split
  · rfl
  · exact vector_replicate_getD _ _ _

theorem Vis.launch_v (i : Nat) : { Vis.launch with skink := sk }.v i = 0 := vector_replicate_getD _ _ _

theorem Vis.launch_p (p : BitVec 5) (h : p ≠ 0) : { Vis.launch with skink := sk }.p p = 0 :=
  (if_neg h).trans (vector_replicate_getD _ _ _)

end

/-! ### Gangs -/

/-- Messages sent one after another. -/
theorem State.foldl_emit (l : List Nat) (f : Nat → OutMsg) (s : State) :
    l.foldl (fun s p => s.emit (f p)) s = { s with out := s.out ++ l.map f } := by
  induction l generalizing s with
  | nil => simp
  | cons p l ih =>
    rw [List.foldl_cons, ih, List.map_cons, List.append_cons]
    rfl

/-- What is said of a launch that has been changed. -/
theorem State.modLaunch_launches {s : State} {i : Nat} {f : Launch → Launch} {p : Launch → Prop} (hf : ∀ x, p (f x)) :
    ∀ y ∈ (s.modLaunch i f).launches, y.id = i → p y := by
  intro y hy hi
  obtain ⟨x, -, rfl⟩ := List.mem_map.1 hy
  by_cases h : x.id = i
  · rw [if_pos h]
    exact hf x
  · rw [if_neg h] at hi
    exact absurd hi h

/-- A gang launch that has been given up waits anew (R404). -/
theorem State.gangDrop_launches (s : State) (l : Launch) : ∀ y ∈ (s.gangDrop l).launches, y.id = l.id →
    y.st = .waiting ∧ y.ready = [] ∧ y.gate = none ∧ y.tgo = none :=
  State.modLaunch_launches fun _ => ⟨rfl, rfl, rfl, rfl⟩

/-- The members of a gang whose READY has come, with one more (R404). -/
def Launch.readyWith (l : Launch) (m : Nat) : List Nat := if l.ready.contains m then l.ready else m :: l.ready

theorem Launch.mem_readyWith {l : Launch} {m x : Nat} : x ∈ l.readyWith m ↔ x = m ∨ x ∈ l.ready := by
  unfold Launch.readyWith
  split
  · next h =>
    have := List.contains_iff_mem.1 h
    exact ⟨.inr, fun hx => hx.elim (· ▸ this) fun hr => hr⟩
  · exact List.mem_cons

/-- The READY of a gang's member noted (R404). -/
def State.readied (s : State) (l : Launch) (m : Nat) : State := s.modLaunch l.id fun x => { x with ready := l.readyWith m }

/-- GO sent to a gang's other members, for time tgo, and its own start fixed (R404). -/
def State.sendGo (s : State) (l : Launch) (tgo : Nat) : State :=
  ((l.gmem.filter (· ≠ s.luvex.pos)).foldl (fun s p => s.emit (.gangGo p l.pkt.gid tgo))
    (s.modLaunch l.id fun x => { x with tgo := some tgo })).schedule (firstCycleOf tgo) .gangStart { id := l.id }

/-- A READY that comes before its leader knows the gang waits (R404; log 62). -/
theorem exec_gangReady_unknown {s : State} (hfresh : ¬s.now < aget 0 s.gangsOut s.due.arg) (h : s.gang? s.due.arg = none) :
    exec .gangReady s = .next (s.schedule (s.now + 1) .gangReady s.due) := by
  show execGangReady s = _
  simp only [execGangReady, if_neg hfresh, h]

/-- A READY of a gang that its leader knows: the last one inside the gate makes the leader send GO (R404). -/
theorem exec_gangReady_known {s : State} {l : Launch} (hfresh : ¬s.now < aget 0 s.gangsOut s.due.arg)
    (hl : s.gang? s.due.arg = some l) (hst : l.st = .gang) (hgate : l.gate ≠ none) (htgo : l.tgo = none) :
    exec .gangReady s = .next (if ∀ m ∈ l.gmem, m ∈ l.readyWith s.due.arg2 then (s.readied l s.due.arg2).sendGo l (s.ns + 10000)
      else s.readied l s.due.arg2) := by
  show execGangReady s = _
  have hall : (l.st = .gang ∧ l.gate.isSome = true ∧ l.tgo.isNone = true ∧
      l.gmem.all (l.readyWith s.due.arg2).contains = true) ↔ ∀ m ∈ l.gmem, m ∈ l.readyWith s.due.arg2 := by
    simp [hst, htgo, Option.isSome_iff_ne_none.2 hgate]
  simp only [execGangReady, if_neg hfresh, hl]
  rw [if_neg (by simp [hst])]
  exact congrArg Host.Outcome.next (if_congr hall rfl rfl)

/-- What GO leaves: a message to each other member, and the start at tgo (R404). -/
theorem State.sendGo_out (s : State) (l : Launch) (tgo : Nat) :
    (s.sendGo l tgo).out = s.out ++ (l.gmem.filter (· ≠ s.luvex.pos)).map (fun p => .gangGo p l.pkt.gid tgo) ∧
    (s.sendGo l tgo).agenda = s.agenda ++ [{ at_ := firstCycleOf tgo, ev := .gangStart, due := { id := l.id } }] ∧
    ∀ y ∈ (s.sendGo l tgo).launches, y.id = l.id → y.tgo = some tgo := by
  unfold State.sendGo
  rw [State.foldl_emit]
  exact ⟨rfl, rfl, State.modLaunch_launches fun _ => rfl⟩

/-- ABANDON goes to each other member (R404). -/
theorem State.abandon_out (s : State) (l : Launch) :
    (s.abandon l).out = s.out ++ (l.gmem.filter (· ≠ s.luvex.pos)).map fun p => .gangAbandon p l.pkt.gid := by
  unfold State.abandon
  rw [State.foldl_emit]

theorem exec_gangLimitExpiry {s : State} {l : Launch} (hl : s.launch? s.due.id = some l) (hst : l.st = .gang) (htgo : l.tgo = none)
    (hnone : ∀ a ∈ s.agenda, a.ev ≠ .gangReady) : exec .gangLimitExpiry s = .next ((s.abandon l).gangDrop l) := by
  show execGangLimitExpiry s = _
  have hlate : ¬(s.agenda.any fun a => a.ev = .gangReady && a.due.arg = l.pkt.gid && decide (a.at_ ≤ s.now)) = true := by
    simpa using fun a ha h => absurd h (hnone a ha)
  simp only [execGangLimitExpiry, hl, if_neg hlate, hst, htgo]
  rfl

theorem exec_gangAbandon {s : State} {l : Launch} (hl : s.gang? s.due.arg = some l) (htgo : l.tgo = none) :
    exec .gangAbandon s = .next (s.gangDrop l) := by
  show execGangAbandon s = _
  simp only [execGangAbandon, hl, htgo]
  rfl

theorem exec_gangGo {s : State} {l : Launch} (hl : s.gang? s.due.arg = some l) (hst : l.st = .gang) (htgo : l.tgo = none) :
    exec .gangGo s = .next ((s.modLaunch l.id fun x => { x with tgo := some s.due.arg2 }).schedule
      (max (s.now + 1) (firstCycleOf s.due.arg2)) .gangStart { id := l.id }) := by
  show execGangGo s = _
  simp only [execGangGo, hl, hst, htgo]
  rfl

theorem exec_gangStart {s : State} {l : Launch} (hl : s.launch? s.due.id = some l) (hst : l.st = .gang) (htgo : l.tgo ≠ none) :
    exec .gangStart s = .next (if s.dieDown l.pkt = true then s.refuseLaunch l 0x45 else s.startLaunch l) := by
  show execGangStart s = _
  have hgo : ¬(l.st ≠ .gang ∨ l.tgo.isNone = true) := by simp [hst, htgo]
  simp only [execGangStart, hl, if_neg hgo]

/-! ### Doorbells -/

/-- A read that the command processor may make, of words without an error, changes nothing in memory. -/
theorem State.cpSees_mem {s : State} {m n : Nat} (h : s.cpBytes? m n ≠ none) (hc : s.corr = []) : (s.cpSees m n).mem = s.mem := by
  have hok : s.allowedRun m n 0x0B false .r = true ∧ s.poisoned (m / 64 * 64) (roundUp (m % 64 + n) 64) = none := by
    simpa [State.cpBytes?] using h
  unfold State.cpSees
  simp only [hok.1, hok.2]
  exact congrArg State.mem (State.corrected_of_clear (by simp [hc]))

/-- What a read of the command processor leaves is in the books. -/
theorem State.cpSees_offBooks (s : State) (m n : Nat) : (s.cpSees m n).offBooks = s.offBooks := by
  unfold State.cpSees
  dsimp only
  split
  · rfl
  split
  · exact s.memError_offBooks _ _
  · exact s.corrected_offBooks _ _ _

theorem State.queue?_of_offBooks {s t : State} (h : t.offBooks = s.offBooks) (q : Nat) : t.queue? q = s.queue? q :=
  (congrArg (·.queue? q) h :)

theorem State.queues_of_offBooks {s t : State} (h : t.offBooks = s.offBooks) : t.queues = s.queues := (congrArg State.queues h :)
theorem State.agenda_of_offBooks {s t : State} (h : t.offBooks = s.offBooks) : t.agenda = s.agenda := (congrArg State.agenda h :)

/-- A queue's record once it has been changed. -/
theorem State.queue?_modQueue {s : State} {q : Nat} {y : Queue} {f : Queue → Queue} (hf : ∀ x, (f x).q = x.q)
    (h : s.queue? q = some y) : (s.modQueue q f).queue? q = some (f y) := by
  have hq : y.q = q := by simpa using List.find?_some h
  have hcomp : ((fun x : Queue => decide (x.q = q)) ∘ fun x => if x.q = q then f x else x) = fun x => decide (x.q = q) := by
    funext x
    simp only [Function.comp_apply]
    split
    · rw [hf]
    · rfl
  show List.find? _ (List.map _ _) = _
  rw [List.find?_map, hcomp, show List.find? _ _ = some y from h, Option.map_some, if_pos hq]

/-- The scheduler's record of a queue, begun with its descriptor where it has none (R394). -/
def State.knowQueue (s : State) (q : Nat) (d : QDesc) : State :=
  if (s.queue? q).isSome then s
  else { s with queues := s.queues ++ [{ q := q, wr := 0, next := BitVec.ofNat 32 d.rd, lseq := none, off := false,
                                         holdTo := 0, doneIx := [] }] }

theorem State.knowQueue_queue? (s : State) (q : Nat) (d : QDesc) : ∃ y, (s.knowQueue q d).queue? q = some y ∧
    (s.queue? q = none → y.next = BitVec.ofNat 32 d.rd) := by
  unfold State.knowQueue
  rcases h : s.queue? q with _ | y
  · refine ⟨{ q := q, wr := 0, next := BitVec.ofNat 32 d.rd, lseq := none, off := false, holdTo := 0, doneIx := [] }, ?_,
      fun _ => rfl⟩
    show List.find? _ (s.queues ++ [_]) = _
    rw [List.find?_append, show List.find? _ s.queues = none from h]
    exact List.find?_cons_of_pos (p := fun x : Queue => decide (x.q = q)) (decide_eq_true rfl)
  · exact ⟨y, h, fun hn => nomatch hn⟩

/-- A scheduling step is due (R401). -/
theorem State.wakeSched_due (s : State) : ∃ a ∈ s.wakeSched.agenda, a.ev = .schedulingStep := by
  unfold State.wakeSched
  split
  · next h => simpa using h
  · exact ⟨_, List.mem_append_right _ List.mem_cons_self, rfl⟩

theorem State.wakeSched_queue? (s : State) (q : Nat) : s.wakeSched.queue? q = s.queue? q := by
  unfold State.wakeSched
  split <;> rfl

theorem State.wakeSched_mem (s : State) : s.wakeSched.mem = s.mem := by
  unfold State.wakeSched
  split <;> rfl

theorem State.modQueue_mem (s : State) (q : Nat) (f : Queue → Queue) : (s.modQueue q f).mem = s.mem := rfl

theorem State.knowQueue_mem (s : State) (q : Nat) (d : QDesc) : (s.knowQueue q d).mem = s.mem := by
  unfold State.knowQueue
  split <;> rfl

/-- Reading LSEQ changes nothing else of a queue's record (R393). -/
theorem State.readLseq_queue? {s : State} {q : Nat} {y : Queue} (h : s.queue? q = some y) :
    ∃ z, (s.readLseq q).queue? q = some z ∧ z.wr = y.wr ∧ z.next = y.next := by
  unfold State.readLseq
  generalize s.qdesc q = d
  exact ⟨_, State.queue?_modQueue (fun _ => rfl) h, rfl, rfl⟩

/-- The queue's record as a doorbell leaves it (R394). -/
def State.rung (s : State) (q : Nat) (d : QDesc) : State :=
  (((s.cpSees (s.qAddr q) 64).knowQueue q d).modQueue q fun x => { x with
    wr := BitVec.ofNat 32 d.wr, off := x.off && !d.en }).readLseq q

theorem State.rung_mem {s : State} {q : Nat} (h : s.cpBytes? (s.qAddr q) 64 ≠ none) (hc : s.corr = []) (d : QDesc) :
    (s.rung q d).mem = s.mem := by
  rw [State.rung, State.readLseq, State.modQueue_mem, State.modQueue_mem, State.knowQueue_mem, State.cpSees_mem h hc]

theorem State.rung_queue? (s : State) (q : Nat) (d : QDesc) : ∃ y, (s.rung q d).queue? q = some y ∧ y.wr = BitVec.ofNat 32 d.wr ∧
    (s.queue? q = none → y.next = BitVec.ofNat 32 d.rd) := by
  obtain ⟨y, hy, hnext⟩ := (s.cpSees (s.qAddr q) 64).knowQueue_queue? q d
  have hq := State.queue?_of_offBooks (s.cpSees_offBooks (s.qAddr q) 64) q
  have hmod := State.queue?_modQueue (f := fun x => { x with wr := BitVec.ofNat 32 d.wr, off := x.off && !d.en }) (fun _ => rfl) hy
  obtain ⟨z, hz, hwr, hnext'⟩ := State.readLseq_queue? hmod
  exact ⟨z, hz, hwr, fun h => hnext'.trans (hnext (hq.trans h))⟩

/-- A doorbell of a descriptor that may be read (R394). -/
theorem exec_queueDoorbell_ok {s : State} (h : s.cpBytes? (s.qAddr (s.due.arg % 64)) 64 ≠ none) :
    exec .queueDoorbell s = .next (s.rung (s.due.arg % 64) (s.qdesc (s.due.arg % 64))).wakeSched :=
  congrArg Host.Outcome.next (if_neg (by simpa [Option.isNone_iff_eq_none] using h))

/-- A doorbell of a descriptor that may not be read (log 26). -/
theorem exec_queueDoorbell_no {s : State} (h : s.cpBytes? (s.qAddr (s.due.arg % 64)) 64 = none) :
    exec .queueDoorbell s = .next (s.cpSees (s.qAddr (s.due.arg % 64)) 64) :=
  congrArg Host.Outcome.next (if_pos (by rw [h]; rfl))

/-! ### The scheduling step -/

theorem State.retireDone_of_waiting {s : State} (h : ∀ l ∈ s.launches, l.st = .waiting) : s.retireDone = s := by
  have hnone : s.launches.filter (fun l => l.st = .running || l.st = .preempting) = [] :=
    List.filter_eq_nil_iff.2 fun l hl => by simp [h l hl]
  rw [State.retireDone, hnone, List.foldl_nil]

theorem State.refuseDown_of_serving {s : State} (h : ∀ l ∈ s.launches, s.dieDown l.pkt = false) : s.refuseDown = s := by
  have hnone : s.launches.filter (fun l => !l.started && s.dieDown l.pkt) = [] :=
    List.filter_eq_nil_iff.2 fun l hl => by simp [h l hl]
  rw [State.refuseDown, hnone, List.foldl_nil]

/-- LSEQ is read once (R393). -/
theorem State.readLseq_of_known {s : State} {q : Nat} (h : ∀ x ∈ s.queues, x.lseq ≠ none) : s.readLseq q = s := by
  unfold State.readLseq State.modQueue
  have hid : (s.queues.map fun x => if x.q = q then { x with
      lseq := if x.lseq.isNone && (s.qdesc q).en then some (BitVec.ofNat 16 (s.qdesc q).lseq) else x.lseq } else x) = s.queues := by
    refine (List.map_congr_left fun x hx => ?_).trans (List.map_id _)
    have hsome : x.lseq.isNone = false := Option.isNone_eq_false_iff.2 (Option.isSome_iff_ne_none.2 (h x hx))
    rw [hsome]
    exact ite_self _
  exact congrArg (fun l => { s with queues := l }) hid

/-- A queue whose launch waits has no entry considered (R400). -/
theorem State.considerQueue_of_waiting {s : State} {x : Queue} {l : Launch} (hx : s.queue? x.q = some x)
    (hknown : ∀ x ∈ s.queues, x.lseq ≠ none) (hl : l ∈ s.launches) (hqid : l.qid = x.q) (hst : l.st = .waiting)
    (hwr : (x.wr.toNat + 2 ^ 32 - (s.qdesc x.q).rd) % 2 ^ 32 ≤ 2 ^ (s.qdesc x.q).log2n) : s.considerQueue x.q = s := by
  have hwaits : (s.liveOf x.q).any (fun l => !l.started) = true :=
    List.any_eq_true.2 ⟨l, List.mem_filter.2 ⟨hl, by simp [hqid, hst]⟩, by simp [Launch.started, hst]⟩
  unfold State.considerQueue
  split
  · rfl
  · next y hy =>
    obtain rfl := Option.some.inj (hy.symm.trans hx)
    extract_lets d waits ix u given left disabled
    clear_value disabled
    refine ite_eq_left_iff.2 fun _ => ?_
    exact (if_neg (not_lt.2 hwr)).trans ((if_pos (Bool.or_eq_true_iff.2 (.inl hwaits))).trans (State.readLseq_of_known hknown))

/-- The only launch, waiting for free clusters, starts, or says that it is ready (R400, R401). -/
theorem State.schedOne_alone {s : State} {l : Launch} (hl : s.launches = [l]) (hst : l.st = .waiting)
    (hfree : ∀ k ∈ l.clus, (s.cluster k).freeAt ≤ s.now) :
    let u := s.modLaunch l.id fun y => { y with waits := none }
    s.schedOne [] l = (if l.pkt.gn = 0 then u.startLaunch { l with waits := none } else u.gangSelect { l with waits := none }, []) := by
  have hbar : ¬((l.clus.any fun k => [].contains k || decide (s.now < (s.cluster k).freeAt)) ||
      s.launches.any fun w => s.keepsFrom w l) = true := by
    simpa [hl, State.keepsFrom] using hfree
  have hhold : l.clus.flatMap (s.holders l) = [] :=
    List.flatMap_eq_nil_iff.2 fun k _ => by simp [State.holders, hl]
  unfold State.schedOne
  dsimp only
  rw [if_neg hbar, if_pos hhold, if_neg (by simp [hst])]

/-- A scheduling step with one launch, which waits in the one queue (R401). -/
theorem exec_schedulingStep_alone {s : State} {l : Launch} {x : Queue} (hboot : s.luvex.boot = .ready) (hl : s.launches = [l])
    (hq : s.queues = [x]) (hqid : l.qid = x.q) (hst : l.st = .waiting) (hoff : x.off = false) (hhold : x.holdTo ≤ s.now)
    (hen : (s.qdesc x.q).en = true) (hlseq : x.lseq ≠ none)
    (hwr : (x.wr.toNat + 2 ^ 32 - (s.qdesc x.q).rd) % 2 ^ 32 ≤ 2 ^ (s.qdesc x.q).log2n) (hdie : s.dieDown l.pkt = false) :
    exec .schedulingStep s = .next (s.schedOne [] l).1 := by
  have hx : s.queue? x.q = some x := by simp [State.queue?, hq]
  have hcons : s.considered l = true := by simp [State.considered, hst, hqid, hen, hx, hoff, hhold]
  refine congrArg Host.Outcome.next ((if_neg (by simp [hboot])).trans ?_)
  dsimp only
  rw [State.retireDone_of_waiting (by simp [hl, hst]), State.refuseDown_of_serving (by simp [hl, hdie]), hq, List.map_singleton,
    List.foldl_cons, List.foldl_nil, State.considerQueue_of_waiting hx (by simp [hq, hlseq]) (by simp [hl]) hqid hst hwr, hl]
  simp [hcons, State.insertByKey]

/-- A launch that a longer wait bars waits itself (R401). -/
theorem State.schedOne_barred {s : State} {l w : Launch} {n : Nat} (kept : List Nat) (hwait : l.waits = none) (hw : w ∈ s.launches)
    (hn : w.waits = some n) (hcons : s.considered w = true) (hid : w.id ≠ l.id) (hpri : l.pri ≤ w.pri)
    (hshare : ∃ k ∈ l.clus, k ∈ w.clus) : s.schedOne kept l = (s.waits l, kept ++ l.clus) := by
  have hkeeps : s.keepsFrom w l = true := by
    obtain ⟨k, hkl, hkw⟩ := hshare
    simp only [State.keepsFrom, hn, hwait, hcons, hpri]
    simpa using ⟨hid, k, hkw, hkl⟩
  unfold State.schedOne
  dsimp only
  exact if_pos (by rw [List.any_eq_true.2 ⟨w, hw, hkeeps⟩, Bool.or_true])

/-! ### Clusters left by a launch that is saved -/

/-- The contexts of a list made IDLE. -/
def State.idled (s : State) (cs : List Nat) : State := cs.foldl (fun s c => (s.setCtx c Ctx.idle).dropCurrent c) s

/-- Contexts made IDLE change the contexts and the cores alone. -/
theorem State.idled_kept {β : Type} (g : State → β) (hg : ∀ s : State, g { s with ctxs := [], cores := [] } = g s) (s : State) (cs : List Nat) :
    g (s.idled cs) = g s :=
  foldl_keeps g (fun s c => (hg ((s.setCtx c Ctx.idle).dropCurrent c)).symm.trans (hg s)) cs s

theorem State.idled_ctx {s : State} {cs : List Nat} {c : Nat} (h : c ∈ cs ∨ s.ctx c = Ctx.idle) : (s.idled cs).ctx c = Ctx.idle := by
  induction cs generalizing s with
  | nil => exact h.resolve_left List.not_mem_nil
  | cons d cs ih =>
    refine ih ?_
    by_cases hd : c = d
    · subst hd
      exact .inr (State.ctx_setCtx s c Ctx.idle)
    · exact h.imp (fun hc => (List.mem_cons.1 hc).resolve_left hd) (State.ctx_setCtx_ne s Ctx.idle hd).trans

/-- What a launch that has been saved leaves: itself pre-empted with the records of its contexts, its contexts IDLE, its clusters free
from the next cycle (R403; log 25). -/
def State.vacated (s : State) (l : Launch) : State :=
  let s := (s.modLaunch l.id fun x => { x with
    st := .preempted, kept := l.ctxids.map fun c => (c, s.ctx c), keptCl := l.clus.map fun k => (k, s.cluster k) }).idled l.ctxids
  let s := l.clus.foldl (fun s k => (s.setCluster k { Cluster.reset with freeAt := s.now + 1 }).preemptCarried k) s
  let s := { s with consists := s.consists.map fun (x : Consist) => if x.launch = l.id then { x with beats := 0, hold := none } else x }
  s.schedule (s.now + 1) .schedulingStep {}

/-- Once a launch can be saved, its clusters go into their slots (R403). -/
theorem exec_clusterSave {s : State} {l : Launch} (hl : s.launch? s.due.id = some l) (hst : l.st = .preempting) :
    exec .clusterSave s = .next (if s.saveReady l = false then s.schedule (s.now + 1) .clusterSave s.due
      else match l.ctxids.find? fun c => s.poison.contains (chkKey c) with
        | some c => s.fatalError 2 (some c)
        | none => (l.clus.foldl (fun s k => s.saveCluster l k) s).vacated l) := by
  show execClusterSave s = _
  simp only [execClusterSave, hl, hst, ne_eq, not_true, if_false, Bool.not_eq_true']
  rfl

section
variable (s : State) (l : Launch) {k : Nat} (hk : l.clus = [k])
include hk

theorem State.vacated_facts : (s.vacated l).mem = s.mem ∧ (∀ y ∈ (s.vacated l).launches, y.id = l.id → y.st = .preempted) ∧
    (∀ c ∈ l.ctxids, (s.vacated l).ctx c = Ctx.idle) ∧ (s.vacated l).cluster k = { Cluster.reset with freeAt := s.now + 1 } := by
  unfold State.vacated
  rw [hk]
  refine ⟨State.idled_kept State.mem (fun _ => rfl) _ _, ?_, fun c hc => State.idled_ctx (.inl hc), ?_⟩
  · show ∀ y ∈ (State.idled _ _).launches, _
    rw [State.idled_kept State.launches fun _ => rfl]
    exact State.modLaunch_launches fun _ => rfl
  · refine (aget_aset_self Cluster.reset _ k _).trans ?_
    rw [State.idled_kept State.now fun _ => rfl]
    rfl

end

/-- A module address of the module's own memory does not leave it. -/
theorem outsideKey_of_target {m : Nat} (h : ∀ u, targetOf m = some u → u < 26) : outsideKey m = false := by
  unfold outsideKey
  rcases ht : targetOf m with _ | u
  · simp
  · simp [h u ht]

/-- The scratchpad of a launch's only cluster is in its slot once the launch has been saved (R403). -/
theorem exec_clusterSave_one {s : State} {l : Launch} {k : Nat} (hl : s.launch? s.due.id = some l) (hst : l.st = .preempting)
    (hready : s.saveReady l = true) (hsound : ∀ c ∈ l.ctxids, chkKey c ∉ s.poison) (hk : l.clus = [k]) :
    exec .clusterSave s = .next ((s.saveCluster l k).vacated l) := by
  have hfind : l.ctxids.find? (fun c => s.poison.contains (chkKey c)) = none :=
    List.find?_eq_none.2 fun c hc => by simpa using hsound c hc
  rw [exec_clusterSave hl hst, if_neg (by simp [hready]), hfind, hk]
  rfl

theorem State.cpPut_now (s : State) (bs : List (Nat × Byte)) : (s.cpPut bs).now = s.now := s.write_now _
theorem State.carryPoison_now (s : State) (src dst n : Nat) : (s.carryPoison src dst n).now = s.now := rfl

theorem State.saveCluster_now (s : State) (l : Launch) (k : Nat) : (s.saveCluster l k).now = s.now := by
  rw [State.saveCluster_eq, State.carryPoison_now, State.cpPut_now, State.cpZero, State.cpPut_now]

/-- Settles O40, an event at a time: the ring by `State.reraise_one`, a doorbell by `State.rung_queue?`, a step by
`State.schedOne_alone`, a save by `State.saveCluster_read`, a gang's events by an equation each. -/
theorem schedulerEvents : Obligations.SchedulerEvents := by
  refine ⟨fun s => ?_, fun l h q g cons pos sk win wlim => ?_⟩
  · intro d
    refine ⟨?_, fun hctx hkept hguest => ?_, fun l c y r hctx hl hkept hrec hguest hring hbad => ?_,
      fun c r hone hrec hst hkept hguest hring hbad => ?_, ?_, fun hboot => congrArg Host.Outcome.next (if_pos hboot),
      fun l x hboot hl hq hqid hst hoff hhold hen hlseq hfree hwr hdie => ?_,
      fun l w n kept hwait hw hn hcons hid hpri hshare => ?_, fun l hl hst => ?_, ?_⟩
    · exact ⟨_, rfl, congrArg Die.preReq (State.die_modDie s d.id _), rfl, fun k hk => State.die_modDie_ne s _ hk⟩
    · have hnil : s.pendingRecs = [] := by rw [State.pendingRecs_eq hguest, State.liveRecs_nil hctx, State.keptRecs_nil hkept]; rfl
      exact ⟨_, congrArg Host.Outcome.next (State.reraise_nil hnil), rfl, rfl⟩
    · have honly : s.pendingRecs = [(r, .kept l.id c)] := by
        rw [State.pendingRecs_eq hguest, State.liveRecs_nil hctx, State.keptRecs, hl]
        simp [hkept, hrec, insertRec]
      obtain ⟨m, o, hclaim⟩ := State.claim_ok (s := s.ovrCleared) hbad r true
      refine ⟨_, congrArg Host.Outcome.next (State.reraise_one honly hring), ?_, ?_⟩
      · rw [State.claimPending, hclaim]
        rfl
      · rw [State.claimPending, hclaim]
        show ∀ z ∈ List.map _ s.launches, _
        simp [hl, hkept, Ctx.claimed_pendRec, hrec]
    · have honly : s.pendingRecs = [(r, .ctx c)] := by
        rw [State.pendingRecs_eq hguest, State.liveRecs_one hone, State.keptRecs_nil hkept]
        rfl
      obtain ⟨m, o, hclaim⟩ := State.claim_ok (s := s.ovrCleared) hbad r true
      have hx := State.ctx_modCtx (s.ovrCleared.claim r true) c fun x => x.claimed r
      have hc : (s.ovrCleared.claim r true).ctx c = s.ctx c := by rw [hclaim]; rfl
      rw [hc] at hx
      refine ⟨_, congrArg Host.Outcome.next (State.reraise_one honly hring), ?_, (congrArg Ctx.status hx).trans ?_,
        (congrArg Ctx.pendRec hx).trans ?_⟩
      · rw [State.claimPending, hclaim]
        rfl
      · exact Ctx.claimed_status hst hrec
      · rw [Ctx.claimed_pendRec, hrec, List.erase_cons_head]
    · intro q bytes
      refine ⟨fun hb => ?_, fun hb => ?_⟩
      · obtain ⟨y, hy, hwr, hnext⟩ := s.rung_queue? q (s.qdesc q)
        exact ⟨_, y, exec_queueDoorbell_ok hb, (State.wakeSched_queue? _ q).trans hy, hwr,
          fun hc => (State.wakeSched_mem _).trans (State.rung_mem hb hc _), hnext, State.wakeSched_due _⟩
      · exact ⟨_, exec_queueDoorbell_no hb, State.queues_of_offBooks (s.cpSees_offBooks _ _),
          State.agenda_of_offBooks (s.cpSees_offBooks _ _)⟩
    · intro u
      rw [exec_schedulingStep_alone hboot hl hq hqid hst hoff hhold hen hlseq hwr hdie, State.schedOne_alone hl hst hfree]
    · refine ⟨_, State.schedOne_barred kept hwait hw hn hcons hid hpri hshare, ?_⟩
      rw [State.waits, hwait]
      exact ⟨rfl, rfl, rfl⟩
    · refine ⟨fun hready => ?_, fun hready c hc => ?_, fun k hready hsound hk hwf hmig hfamo hend hmay => ?_⟩
      · rw [exec_clusterSave hl hst, if_pos hready]
      · rw [exec_clusterSave hl hst, if_neg (by simp [hready]), hc]
      · obtain ⟨hmem, hlaunch, hidle, hclus⟩ := (s.saveCluster l k).vacated_facts l hk
        refine ⟨_, exec_clusterSave_one hl hst hready hsound hk, hlaunch, hidle, ?_, fun i hi => ?_⟩
        · rw [hclus, State.saveCluster_now]
        · have hi' : 0x4000 + i < 0xA00000 := by omega
          obtain ⟨hw, hin⟩ := hmay _ hi'
          rw [← Nat.add_assoc] at hw hin
          rw [hmem]
          exact State.saveCluster_read hwf hmig hfamo hi hw (outsideKey_of_target hin)
    · intro mine back stale
      refine ⟨fun h => congrArg Host.Outcome.next (if_pos h), exec_gangReady_unknown,
        fun l hfresh hl hst hgate htgo hnew => ⟨fun hmiss => ?_, fun hall => ?_⟩,
        fun l hl hst htgo hnone => ?_, fun l hl htgo => ?_, fun l hl hst htgo => ?_, fun l hl hst htgo => exec_gangStart hl hst htgo⟩
      · rw [exec_gangReady_known hfresh hl hst hgate htgo, if_neg fun h => ?_]
        · exact ⟨_, rfl, rfl, rfl, State.modLaunch_launches fun _ => Launch.mem_readyWith.2 (.inl rfl)⟩
        · obtain ⟨m, hm, hne, hnot⟩ := hmiss
          exact (Launch.mem_readyWith.1 (h m hm)).elim hne hnot
      · rw [exec_gangReady_known hfresh hl hst hgate htgo, if_pos fun m hm => Launch.mem_readyWith.2 (hall m hm)]
        exact ⟨_, rfl, (s.readied l d.arg2).sendGo_out l _⟩
      · exact ⟨_, exec_gangLimitExpiry hl hst htgo hnone, State.gangDrop_launches _ l, State.abandon_out s l⟩
      · exact ⟨_, exec_gangAbandon hl htgo, State.gangDrop_launches s l, rfl⟩
      · exact ⟨_, exec_gangGo hl hst htgo, State.modLaunch_launches fun _ => rfl, rfl⟩
  · intro x
    exact ⟨rfl, rfl, rfl, rfl, rfl, rfl, Vis.launch_s sk, Vis.launch_v sk, Vis.launch_p sk, rfl, rfl, rfl, rfl, rfl, rfl, rfl, rfl⟩

end Sys2Proof.Machine
end

section
/-! Representable values round to themselves (O49). -/

namespace Sys2Proof.Machine

/-! ### The fields of a bit pattern -/

/-- The exponent and fraction fields make up the pattern without its sign bit. -/
theorem bits_magnitude (f : Fmt) (x : Nat) : bits x f.mb f.eb * 2 ^ f.mb + bits x 0 f.mb = x % 2 ^ (f.eb + f.mb) := by
  rw [bits_eq, bits_eq, pow_zero, Nat.div_one, add_comm f.eb, pow_add, Nat.mod_mul, Nat.mul_comm, add_comm]

/-- A pattern is put together again from its sign bit and its magnitude. -/
theorem Fmt.signed_magnitude (f : Fmt) {x : Nat} (hx : x < 2 ^ (1 + f.eb + f.mb)) :
    f.signed (tst x (f.eb + f.mb)) (x % 2 ^ (f.eb + f.mb)) = x := by
  have hsign : bit (tst x (f.eb + f.mb)) = x / 2 ^ (f.eb + f.mb) := by
    have hlt : x / 2 ^ (f.eb + f.mb) < 2 :=
      Nat.div_lt_of_lt_mul (by rwa [← pow_succ, add_comm _ 1, ← add_assoc])
    rw [tst, Nat.testBit_eq_decide_div_mod_eq, Nat.mod_eq_of_lt hlt]
    obtain h | h := Nat.le_one_iff_eq_zero_or_eq_one.1 (Nat.le_of_lt_succ hlt) <;> rw [h] <;> rfl
  rw [Fmt.signed, hsign, Nat.shiftLeft_eq, Nat.div_add_mod']

/-- What a pattern that holds a finite value says of it: its sign, an exponent field that is not all ones, and a subnormal
or a normal significand with its exponent (R47, R48). -/
theorem decodeF_fin {f : Fmt} (he4 : f.e4 = false) {x : Nat} {s : Bool} {m : Nat} {e : Int} (h : decodeF f x = .fin s m e) :
    s = tst x (f.eb + f.mb) ∧ bits x f.mb f.eb ≠ 2 ^ f.eb - 1 ∧
      (bits x f.mb f.eb = 0 ∧ m = bits x 0 f.mb ∧ e = 1 - f.bias - f.mb ∨
        bits x f.mb f.eb ≠ 0 ∧ m = 2 ^ f.mb + bits x 0 f.mb ∧ e = bits x f.mb f.eb - f.bias - f.mb) := by
  simp only [decodeF, he4, Bool.false_eq_true, if_false] at h
  split at h
  · split at h <;> cases h
  next hmax =>
    split at h
    next hzero =>
      obtain ⟨rfl, rfl, rfl⟩ := FVal.fin.inj h
      exact ⟨rfl, hmax, .inl ⟨hzero, rfl, rfl⟩⟩
    next hpos =>
      obtain ⟨rfl, rfl, rfl⟩ := FVal.fin.inj h
      exact ⟨rfl, hmax, .inr ⟨hpos, rfl, rfl⟩⟩

/-- A magnitude whose exponent field is not all ones is at most the largest finite one. -/
theorem Fmt.magnitude_le_maxMag {f : Fmt} (he4 : f.e4 = false) {k r : Nat} (hk : k < 2 ^ f.eb) (hmax : k ≠ 2 ^ f.eb - 1)
    (hr : r < 2 ^ f.mb) : k * 2 ^ f.mb + r ≤ f.maxMag := by
  have hinf : k * 2 ^ f.mb + 2 ^ f.mb ≤ (2 ^ f.eb - 1) * 2 ^ f.mb := by
    rw [← Nat.succ_mul]
    exact Nat.mul_le_mul_right _ (by omega)
  rw [Fmt.maxMag, he4, if_neg Bool.false_ne_true, Fmt.infMag, Nat.shiftLeft_eq]
  omega

/-! ### Rounding without a remainder -/

/-- With nothing left over, no mode rounds up (R58, R59). -/
theorem roundsUp_exact (rm : Rm) (rnd : Nat) (s : Bool) (t : Nat) : roundsUp rm rnd s t 0 1 = false := by
  cases rm <;> simp [roundsUp]

/-- Rounded at its own quantum, a dyadic is exact. -/
theorem roundAt_self (rm : Rm) (rnd : Nat) (s : Bool) (m : Nat) (e : Int) : roundAt rm rnd s m 1 e e = (m, false) := by
  have hscale : scaleQ m 1 (e - e) = (m, 1) := by simp [scaleQ]
  simp only [roundAt, hscale, Nat.mod_one, Nat.div_one, roundsUp_exact, Bool.false_eq_true, if_false, ne_eq, not_true,
    decide_false]

/-- The binary exponent of an integer. -/
theorem log2Q_one {m : Nat} (hm : m ≠ 0) : log2Q m 1 = m.log2 := by
  have hle : (scaleQ m 1 (-m.log2)).2 ≤ (scaleQ m 1 (-m.log2)).1 := by
    unfold scaleQ
    split
    · have hlog : m.log2 = 0 := by omega
      simpa [hlog] using Nat.one_le_iff_ne_zero.2 hm
    · simpa [Nat.shiftLeft_eq] using Nat.log2_self_le hm
  simpa [log2Q, show Nat.log2 1 = 0 from by decide] using hle

/-- A dyadic whose exponent is that of the quantum it is rounded at keeps its significand and sets no flag; its magnitude is
biased as a normal one's from the least normal exponent on (R58, R60, R61). -/
theorem roundQ_at_quantum {f : Fmt} {m mag : Nat} {e : Int} (hm : m ≠ 0)
    (hq : max (m.log2 + e) (1 - (f.bias : Int)) - f.mb = e)
    (hmag : mag = if 1 - (f.bias : Int) ≤ m.log2 + e then ((m.log2 + e + f.bias).toNat <<< f.mb) + m - 2 ^ f.mb else m)
    (hle : mag ≤ f.maxMag) (rm : Rm) (rnd : Nat) (s : Bool) : roundQ f rm rnd s m 1 e = (f.signed s mag, 0) := by
  unfold roundQ
  simp only [log2Q_one hm, hq, roundAt_self, ← hmag, Nat.not_lt.2 hle, if_false, Bool.false_and, Bool.false_eq_true,
    Nat.or_self]

/-- A subnormal significand at the least exponent is its own magnitude. -/
theorem roundQ_subnormal {f : Fmt} {m : Nat} (hm : m ≠ 0) (hlt : m < 2 ^ f.mb) (hle : m ≤ f.maxMag)
    (rm : Rm) (rnd : Nat) (s : Bool) : roundQ f rm rnd s m 1 (1 - f.bias - f.mb) = (f.signed s m, 0) := by
  have hlog : m.log2 < f.mb := (Nat.log2_lt hm).2 hlt
  exact roundQ_at_quantum hm (by omega) (if_neg (by omega)).symm hle rm rnd s

/-- A significand with its leading bit set keeps its exponent field and its fraction. -/
theorem roundQ_normal {f : Fmt} {k r : Nat} (hk : k ≠ 0) (hr : r < 2 ^ f.mb) (hle : k * 2 ^ f.mb + r ≤ f.maxMag)
    (rm : Rm) (rnd : Nat) (s : Bool) :
    roundQ f rm rnd s (2 ^ f.mb + r) 1 (k - f.bias - f.mb) = (f.signed s (k * 2 ^ f.mb + r), 0) := by
  have hm : 2 ^ f.mb + r ≠ 0 := by positivity
  have hlog : (2 ^ f.mb + r).log2 = f.mb := (Nat.log2_eq_iff hm).2 ⟨by omega, by rw [pow_succ]; omega⟩
  have hfield : ((f.mb : Int) + (k - f.bias - f.mb) + f.bias).toNat = k := by omega
  refine roundQ_at_quantum hm (by omega) ?_ hle rm rnd s
  rw [hlog, if_pos (by omega), hfield, Nat.shiftLeft_eq]
  omega

/-- The finite nonzero value of a pattern rounds to the pattern, with no flag. -/
theorem roundQ_decodeF {f : Fmt} (he4 : f.e4 = false) {x : Nat} (hx : x < 2 ^ (1 + f.eb + f.mb)) {s : Bool} {m : Nat} {e : Int}
    (h : decodeF f x = .fin s m e) (hm : m ≠ 0) (rm : Rm) (rnd : Nat) : roundQ f rm rnd s m 1 e = (x, 0) := by
  obtain ⟨rfl, hmax, hval⟩ := decodeF_fin he4 h
  have hfrac := bits_lt x 0 f.mb
  have hle := Fmt.magnitude_le_maxMag he4 (bits_lt x f.mb f.eb) hmax hfrac
  have hmag := bits_magnitude f x
  suffices hround : roundQ f rm rnd (tst x (f.eb + f.mb)) m 1 e =
      (f.signed (tst x (f.eb + f.mb)) (bits x f.mb f.eb * 2 ^ f.mb + bits x 0 f.mb), 0) by
    rw [hround, hmag, f.signed_magnitude hx]
  obtain ⟨hzero, rfl, rfl⟩ | ⟨hpos, rfl, rfl⟩ := hval
  · rw [hzero, Nat.zero_mul, Nat.zero_add] at hle ⊢
    exact roundQ_subnormal hm hfrac hle rm rnd _
  · exact roundQ_normal hpos hfrac hle rm rnd _

/-- A signed nonzero significand is rounded by its sign and its absolute value. -/
theorem roundDy_signed (f : Fmt) (rm : Rm) (rnd : Nat) (zs s : Bool) {m : Nat} (hm : m ≠ 0) (e : Int) :
    roundDy f rm rnd zs (if s then -(m : Int) else m) e = roundQ f rm rnd s m 1 e := by
  cases s
  · simp [roundDy, hm, show ¬ (m : Int) < 0 by omega]
  · simp [roundDy, hm, Nat.pos_of_ne_zero hm]

/-- Settles O49: a pattern's significand stands at the quantum of its format already, so nothing is left to round. -/
theorem representableValuesRoundToThemselves : Obligations.RepresentableValuesRoundToThemselves := by
  intro g hg x rnd rm s zs m e hx hdec hm
  have he4 : g.e4 = false := by
    simp only [List.mem_cons, List.not_mem_nil, or_false] at hg
    obtain rfl | rfl | rfl := hg <;> rfl
  rw [roundDy_signed g rm rnd zs s hm e, roundQ_decodeF he4 hx hdec hm]

end Sys2Proof.Machine
end

section
/-! The word of an instruction is its row's match value with the operands placed beside it (R75 to R84). So a class reads every
word of its own back, and the bits that a row tests, with those that it takes as operands, are all the bits of the word. -/

namespace Sys2Proof

/-! ### The fields of a word -/

/-- The bits of `v` from bit `lo` of a word on. -/
def place {n : Nat} (v : BitVec n) (lo : Nat) : BitVec 32 := v.setWidth 32 <<< lo

theorem getLsbD_fld (w : BitVec 32) (lo len i : Nat) : (fld w lo len).getLsbD i = (decide (i < len) && w.getLsbD (lo + i)) := by
  rw [fld, BitVec.getLsbD_extractLsb']

theorem getLsbD_place {n : Nat} (v : BitVec n) (lo : Nat) {i : Nat} (hi : i < 32) :
    (place v lo).getLsbD i = (decide (lo ≤ i) && v.getLsbD (i - lo)) := by
  rw [place, BitVec.getLsbD_shiftLeft, BitVec.getLsbD_setWidth, decide_eq_true hi, decide_eq_true (show i - lo < 32 by omega),
    Bool.true_and, Bool.true_and, ← decide_not, decide_eq_decide.2 Nat.not_lt]

theorem fld_or (x y : BitVec 32) (lo len : Nat) : fld (x ||| y) lo len = fld x lo len ||| fld y lo len :=
  BitVec.extractLsb'_or

theorem fld_ofNat (x lo len : Nat) : fld (BitVec.ofNat 32 x) lo len = BitVec.ofNat len (x % 2 ^ 32 / 2 ^ lo) := by
  refine BitVec.eq_of_toNat_eq ?_
  rw [fld, BitVec.extractLsb'_toNat, BitVec.toNat_ofNat, BitVec.toNat_ofNat, Nat.shiftRight_eq_div_pow]

theorem fld_place_self {n : Nat} (v : BitVec n) {lo : Nat} (h : lo + n ≤ 32) : fld (place v lo) lo n = v := by
  refine BitVec.eq_of_getLsbD_eq fun i hi => ?_
  rw [getLsbD_fld, getLsbD_place _ _ (by omega)]
  simp [hi]

theorem fld_place_above {n : Nat} (v : BitVec n) {k lo len : Nat} (h : k + n ≤ lo) : fld (place v k) lo len = 0#len := by
  refine BitVec.eq_of_getLsbD_eq fun i hi => ?_
  rw [getLsbD_fld, BitVec.getLsbD_zero, Bool.and_eq_false_iff]
  by_cases hlt : lo + i < 32
  · rw [getLsbD_place _ _ hlt, BitVec.getLsbD_of_ge v _ (by omega), Bool.and_false]
    exact .inr rfl
  · exact .inr (BitVec.getLsbD_of_ge _ _ (by omega))

theorem fld_place_below {n : Nat} (v : BitVec n) {k lo len : Nat} (h : lo + len ≤ k) : fld (place v k) lo len = 0#len := by
  refine BitVec.eq_of_getLsbD_eq fun i hi => ?_
  rw [getLsbD_fld, BitVec.getLsbD_zero, Bool.and_eq_false_iff]
  by_cases hlt : lo + i < 32
  · rw [getLsbD_place _ _ hlt, decide_eq_false (show ¬k ≤ lo + i by omega), Bool.false_and]
    exact .inr rfl
  · exact .inr (BitVec.getLsbD_of_ge _ _ (by omega))

/-- A field of a word, put back in its place: the word's bits there. -/
theorem place_fld (w : BitVec 32) (lo n : Nat) : place (fld w lo n) lo = w &&& place (BitVec.allOnes n) lo := by
  refine BitVec.eq_of_getLsbD_eq fun i hi => ?_
  rw [BitVec.getLsbD_and, getLsbD_place _ _ hi, getLsbD_place _ _ hi, getLsbD_fld, BitVec.getLsbD_allOnes]
  by_cases hlo : lo ≤ i
  · rw [Nat.add_sub_cancel' hlo, decide_eq_true hlo, Bool.true_and, Bool.true_and, Bool.and_comm]
  · simp [hlo]

/-! ### A packed word as its fields -/

/-- A word with a number added from bit `lo` on, as `packWord` adds one. -/
def addField (x : BitVec 32) (f : Nat × Nat) : BitVec 32 := x + BitVec.ofNat 32 (f.1 * 2 ^ f.2)

theorem packWord_eq_foldl (base : Nat) (fs : List (Nat × Nat)) : packWord base fs = fs.foldl addField (BitVec.ofNat 32 base) := by
  rw [packWord]
  induction fs generalizing base with
  | nil => rfl
  | cons f fs ih => rw [List.foldl_cons, List.foldl_cons, ih, addField, BitVec.ofNat_add]

/-- Adding a number to zero bits is placing it there. -/
theorem addField_of_lt {x : BitVec 32} {v n lo : Nat} (hv : v < 2 ^ n) (hfree : fld x lo n = 0#n) :
    addField x (v, lo) = x ||| place (BitVec.ofNat n v) lo := by
  have hdisj : x &&& place (BitVec.ofNat n v) lo = 0#32 := by
    refine BitVec.eq_of_getLsbD_eq fun i hi => ?_
    rw [BitVec.getLsbD_and, getLsbD_place _ _ hi, BitVec.getLsbD_zero]
    by_cases hin : lo ≤ i ∧ i < lo + n
    · have hbit := congrArg (·.getLsbD (i - lo)) hfree
      simp only [getLsbD_fld, BitVec.getLsbD_zero, Nat.add_sub_cancel' hin.1] at hbit
      simp_all [show i - lo < n by omega]
    · by_cases hlo : lo ≤ i
      · rw [BitVec.getLsbD_of_ge (BitVec.ofNat n v) _ (by omega), Bool.and_false, Bool.and_false]
      · simp [hlo]
  rw [← BitVec.add_eq_or_of_and_eq_zero _ _ hdisj, addField]
  congr 1
  refine BitVec.eq_of_toNat_eq ?_
  simp [place, Nat.shiftLeft_eq, Nat.mod_eq_of_lt hv]

theorem addField_toNat {x : BitVec 32} {n lo : Nat} (v : BitVec n) (hfree : fld x lo n = 0#n) :
    addField x (v.toNat, lo) = x ||| place v lo := by
  rw [addField_of_lt v.isLt hfree, BitVec.ofNat_toNat, BitVec.setWidth_eq]

theorem addField_bitN {x : BitVec 32} {lo : Nat} (b : Bool) (hfree : fld x lo 1 = 0#1) :
    addField x (bitN b, lo) = x ||| place (BitVec.ofBool b) lo := by
  cases b
  · exact addField_of_lt (by decide) hfree
  · exact addField_of_lt (by decide) hfree

theorem ofBool_beq_one (b : Bool) : (BitVec.ofBool b == 1#1) = b := by
  cases b <;> rfl

/-! ### The codes -/

/-- `v` is a number of `n` bits: where a word is zero, adding it is placing it. -/
abbrev FitsIn (n v : Nat) : Prop :=
  ∀ {x : BitVec 32} {lo : Nat}, fld x lo n = 0#n → addField x (v, lo) = x ||| place (BitVec.ofNat n v) lo

/-- The codes of the operands fit their fields (R77, R78). -/
theorem addField_code : (∀ t : Ty, FitsIn 3 t.code) ∧ (∀ z : Sz, FitsIn 3 z.code) ∧ (∀ c : BCc, FitsIn 3 c.code) ∧
    (∀ c : SCc, FitsIn 4 c.code) ∧ (∀ c : VCc, FitsIn 3 c.code) ∧ (∀ c : FCc, FitsIn 3 c.code) ∧ (∀ r : Rm, FitsIn 3 r.code) ∧
    (∀ g : Grp, FitsIn 2 g.code) ∧ (∀ o : QOut, FitsIn 2 o.code) ∧ (∀ f : AmoOp, FitsIn 4 f.code) ∧
    (∀ o : Ord, FitsIn 2 o.code) ∧ (∀ s : Scope, FitsIn 3 s.code) ∧ (∀ k : FKind, FitsIn 2 k.code) ∧
    (∀ c : PCond, FitsIn 2 c.code) ∧ (∀ t : FTy, FitsIn 2 t.code) := by
  and_intros <;> intro a x lo hfree <;> refine addField_of_lt ?_ hfree <;> cases a <;> decide

/-- The code of an operand names it. -/
theorem ofCode_code : (∀ t : Ty, Ty.ofCode (BitVec.ofNat 3 t.code).toNat = some t) ∧
    (∀ z : Sz, Sz.ofCode (BitVec.ofNat 3 z.code).toNat = some z) ∧ (∀ c : BCc, BCc.ofCode (BitVec.ofNat 3 c.code).toNat = some c) ∧
    (∀ c : SCc, SCc.ofCode (BitVec.ofNat 4 c.code).toNat = some c) ∧
    (∀ c : VCc, VCc.ofCode (BitVec.ofNat 3 c.code).toNat = some c) ∧
    (∀ c : FCc, FCc.ofCode (BitVec.ofNat 3 c.code).toNat = some c) ∧
    (∀ r : Rm, Rm.ofCode (BitVec.ofNat 3 r.code).toNat = some r) ∧ (∀ g : Grp, Grp.ofCode (BitVec.ofNat 2 g.code).toNat = some g) ∧
    (∀ o : QOut, QOut.ofCode (BitVec.ofNat 2 o.code).toNat = some o) ∧
    (∀ f : AmoOp, AmoOp.ofCode (BitVec.ofNat 4 f.code).toNat = some f) ∧
    (∀ o : Ord, Ord.ofCode (BitVec.ofNat 2 o.code).toNat = some o) ∧
    (∀ s : Scope, Scope.ofCode (BitVec.ofNat 3 s.code).toNat = some s) ∧
    (∀ k : FKind, FKind.ofCode (BitVec.ofNat 2 k.code).toNat = some k) ∧
    (∀ c : PCond, PCond.ofCode (BitVec.ofNat 2 c.code).toNat = some c) ∧
    (∀ t : FTy, FTy.ofCode (BitVec.ofNat 2 t.code).toNat = some t) := by
  and_intros <;> intro a <;> cases a <;> rfl

/-- The other way: a number that names an operand is its code. -/
theorem ofCode_eq_some : (∀ n t, Ty.ofCode n = some t ↔ t.code = n) ∧ (∀ n z, Sz.ofCode n = some z ↔ z.code = n) ∧
    (∀ n c, BCc.ofCode n = some c ↔ c.code = n) ∧ (∀ n c, SCc.ofCode n = some c ↔ c.code = n) ∧
    (∀ n c, VCc.ofCode n = some c ↔ c.code = n) ∧ (∀ n c, FCc.ofCode n = some c ↔ c.code = n) ∧
    (∀ n r, Rm.ofCode n = some r ↔ r.code = n) ∧ (∀ n g, Grp.ofCode n = some g ↔ g.code = n) ∧
    (∀ n o, QOut.ofCode n = some o ↔ o.code = n) ∧ (∀ n f, AmoOp.ofCode n = some f ↔ f.code = n) ∧
    (∀ n o, Ord.ofCode n = some o ↔ o.code = n) ∧ (∀ n s, Scope.ofCode n = some s ↔ s.code = n) ∧
    (∀ n k, FKind.ofCode n = some k ↔ k.code = n) ∧ (∀ n c, PCond.ofCode n = some c ↔ c.code = n) ∧
    (∀ n t, FTy.ofCode n = some t ↔ t.code = n) := by
  and_intros <;> intro n a <;> refine ⟨fun h => ?_, by rintro rfl; cases a <;> rfl⟩
  all_goals
    simp only [Ty.ofCode, Sz.ofCode, BCc.ofCode, SCc.ofCode, VCc.ofCode, FCc.ofCode, Rm.ofCode, Grp.ofCode, QOut.ofCode,
      AmoOp.ofCode, Ord.ofCode, Scope.ofCode, FKind.ofCode, PCond.ofCode, FTy.ofCode] at h
    split at h <;> cases h <;> rfl

/-! ### The opcode maps -/

/-- The opcode map of a class (R79 to R82): its majors, each with the decoder of its rows. -/
def majors : SlotClass → List (Nat × (BitVec 32 → Except DecodeError Instr))
  | .scalar =>
    [(0x01, decodeScalar01), (0x02, decodeScalar02), (0x03, decodeScalar03), (0x04, decodeScalar04),
     (0x05, decodeScalar05), (0x06, decodeScalar06), (0x07, decodeScalar07), (0x08, decodeScalar08),
     (0x09, decodeScalar09), (0x0A, decodeScalar0A), (0x0B, decodeScalar0B), (0x0C, decodeScalar0C),
     (0x0D, decodeScalar0D), (0x0E, decodeScalar0E), (0x0F, decodeScalar0F), (0x10, decodeScalar10),
     (0x11, decodeScalar11), (0x12, decodeScalar12), (0x13, decodeScalar13), (0x14, decodeScalar14),
     (0x15, decodeScalar15), (0x16, decodeScalar16), (0x17, decodeScalar17), (0x18, decodeScalar18),
     (0x19, decodeScalar19), (0x1A, decodeScalar1A), (0x1B, decodeScalar1B), (0x20, decodeScalar20),
     (0x21, decodeScalar21), (0x22, decodeScalar22), (0x23, decodeScalar23), (0x24, decodeScalar24),
     (0x25, decodeScalar25), (0x26, decodeScalar26), (0x27, decodeScalar27), (0x30, decodeScalar30),
     (0x31, decodeScalar31), (0x32, decodeScalar32), (0x33, decodeScalar33), (0x34, decodeScalar34),
     (0x35, decodeScalar35), (0x36, decodeScalar36)]
  | .vector =>
    [(0x01, decodeVector01), (0x02, decodeVector02), (0x03, decodeVector03), (0x04, decodeVector04),
     (0x05, decodeVector05), (0x06, decodeVector06), (0x07, decodeVector07), (0x08, decodeVector08),
     (0x09, decodeVector09), (0x0A, decodeVector0A), (0x0B, decodeVector0B), (0x0C, decodeVector0C),
     (0x0D, decodeVector0D), (0x0E, decodeVector0E), (0x0F, decodeVector0F), (0x10, decodeVector10),
     (0x11, decodeVector11), (0x12, decodeVector12), (0x13, decodeVector13), (0x14, decodeVector14),
     (0x15, decodeVector15), (0x18, decodeVector18), (0x19, decodeVector19), (0x1C, decodeVector1C),
     (0x1D, decodeVector1D), (0x1E, decodeVector1E)]
  | .xclass =>
    [(0x01, decodeX01), (0x02, decodeX02), (0x08, decodeX08), (0x09, decodeX09), (0x0A, decodeX0A), (0x0B, decodeX0B),
     (0x10, decodeX10), (0x11, decodeX11), (0x12, decodeX12), (0x13, decodeX13)]
  | .memory =>
    [(0x01, decodeMemory01), (0x02, decodeMemory02), (0x03, decodeMemory03), (0x04, decodeMemory04),
     (0x05, decodeMemory05), (0x06, decodeMemory06), (0x07, decodeMemory07), (0x08, decodeMemory08),
     (0x09, decodeMemory09), (0x0A, decodeMemory0A), (0x0B, decodeMemory0B), (0x10, decodeMemory10),
     (0x11, decodeMemory11), (0x12, decodeMemory12), (0x13, decodeMemory13), (0x14, decodeMemory14),
     (0x15, decodeMemory15), (0x16, decodeMemory16), (0x17, decodeMemory17), (0x18, decodeMemory18),
     (0x19, decodeMemory19), (0x1A, decodeMemory1A), (0x1C, decodeMemory1C), (0x1D, decodeMemory1D),
     (0x1E, decodeMemory1E), (0x1F, decodeMemory1F), (0x20, decodeMemory20), (0x21, decodeMemory21),
     (0x22, decodeMemory22), (0x23, decodeMemory23), (0x24, decodeMemory24), (0x25, decodeMemory25),
     (0x26, decodeMemory26), (0x28, decodeMemory28), (0x29, decodeMemory29), (0x30, decodeMemory30),
     (0x31, decodeMemory31), (0x32, decodeMemory32), (0x33, decodeMemory33), (0x34, decodeMemory34),
     (0x35, decodeMemory35), (0x36, decodeMemory36), (0x37, decodeMemory37)]

/-- What the row decoders of a list answer to major `m`: the one listed for it, where one is. -/
def dispatch : List (Nat × (BitVec 32 → Except DecodeError Instr)) → Nat → BitVec 32 → Except DecodeError Instr
  | [], _, _ => .error .illegalMajor
  | (k, f) :: rows, m, w => if m = k then f w else dispatch rows m w

theorem decodeScalar_eq_dispatch (w : BitVec 32) : decodeScalar w = dispatch (majors .scalar) (fld w 26 6).toNat w := by
  unfold decodeScalar
  generalize (fld w 26 6).toNat = m
  split
  case h_43 =>
    simp only [imp_false] at *
    simp only [dispatch, majors, *, ↓reduceIte]
  all_goals simp only [dispatch, majors, Nat.reduceEqDiff, ↓reduceIte]

theorem decodeVector_eq_dispatch (w : BitVec 32) : decodeVector w = dispatch (majors .vector) (fld w 26 6).toNat w := by
  unfold decodeVector
  generalize (fld w 26 6).toNat = m
  split
  case h_27 =>
    simp only [imp_false] at *
    simp only [dispatch, majors, *, ↓reduceIte]
  all_goals simp only [dispatch, majors, Nat.reduceEqDiff, ↓reduceIte]

theorem decodeX_eq_dispatch (w : BitVec 32) : decodeX w = dispatch (majors .xclass) (fld w 26 6).toNat w := by
  unfold decodeX
  generalize (fld w 26 6).toNat = m
  split
  case h_11 =>
    simp only [imp_false] at *
    simp only [dispatch, majors, *, ↓reduceIte]
  all_goals simp only [dispatch, majors, Nat.reduceEqDiff, ↓reduceIte]

theorem decodeMemory_eq_dispatch (w : BitVec 32) : decodeMemory w = dispatch (majors .memory) (fld w 26 6).toNat w := by
  unfold decodeMemory
  generalize (fld w 26 6).toNat = m
  split
  case h_44 =>
    simp only [imp_false] at *
    simp only [dispatch, majors, *, ↓reduceIte]
  all_goals simp only [dispatch, majors, Nat.reduceEqDiff, ↓reduceIte]

/-! ### A class reads its words back -/

theorem seg_iff {w : BitVec 32} {lo len v : Nat} :
    seg w lo len v = true ↔ ∀ i, i < len → w.getLsbD (lo + i) = v.testBit i := by
  rw [seg, beq_iff_eq]
  constructor
  · intro heq i hi
    have hbit := congrArg (·.getLsbD i) heq
    simpa only [getLsbD_fld, BitVec.getLsbD_ofNat, hi, decide_true, Bool.true_and] using hbit
  · intro h
    refine BitVec.eq_of_getLsbD_eq fun i hi => ?_
    rw [getLsbD_fld, BitVec.getLsbD_ofNat, h i hi]

/-- A test of `m + n` bits is a test of the low `m` and one of the `n` above them. -/
theorem seg_split (m n len : Nat) (h : m + n = len) (w : BitVec 32) (lo v : Nat) :
    seg w lo len v = (seg w lo m v && seg w (lo + m) n (v / 2 ^ m)) := by
  subst h
  rw [Bool.eq_iff_iff, Bool.and_eq_true, seg_iff, seg_iff, seg_iff]
  constructor
  · intro h
    refine ⟨fun i hi => h i (by omega), fun i hi => ?_⟩
    rw [Nat.add_assoc, h (m + i) (by omega), Nat.testBit_div_two_pow, Nat.add_comm]
  · rintro ⟨hlow, hhigh⟩ i hi
    by_cases him : i < m
    · exact hlow i him
    · have hbit := hhigh (i - m) (by omega)
      rwa [Nat.add_assoc, Nat.add_sub_cancel' (by omega), Nat.testBit_div_two_pow, Nat.sub_add_cancel (by omega)] at hbit

/-- R79: the opcode map of the scalar class reads every instruction of the class back from its word.
Each word is the match value with the operands placed beside it, so that each field that a row tests or takes is one part of
the word. -/
theorem dispatch_scalar_of_encode (i : Instr) (w : BitVec 32) (hcls : i.cls = some .scalar) (henc : encode i = some w) :
    dispatch (majors .scalar) (fld w 26 6).toNat w = .ok i := by
  cases i
  all_goals cases hcls
  all_goals
    cases henc
    simp only [packWord_eq_foldl, List.foldl_cons, List.foldl_nil, addField_toNat, addField_bitN, addField_code, fld_or,
      fld_ofNat, fld_place_above, fld_place_below, Nat.reduceAdd, Nat.reduceLeDiff, Nat.reducePow, Nat.reduceMod,
      Nat.reduceDiv, BitVec.or_zero, BitVec.reduceToNat, BitVec.reduceOfNat]
    simp only [dispatch, majors, ↓reduceIte, Nat.reduceEqDiff, ↓seg_split 16 10 26 rfl, ↓seg_split 11 5 16 rfl,
      decodeScalar01, decodeScalar02, decodeScalar03, decodeScalar04, decodeScalar05, decodeScalar06, decodeScalar07,
      decodeScalar08, decodeScalar09, decodeScalar0A, decodeScalar0B, decodeScalar0C, decodeScalar0D, decodeScalar0E,
      decodeScalar0F, decodeScalar10, decodeScalar11, decodeScalar12, decodeScalar13, decodeScalar14, decodeScalar15,
      decodeScalar16, decodeScalar17, decodeScalar18, decodeScalar19, decodeScalar1A, decodeScalar1B, decodeScalar20,
      decodeScalar21, decodeScalar22, decodeScalar23, decodeScalar24, decodeScalar25, decodeScalar26, decodeScalar27,
      decodeScalar30, decodeScalar31, decodeScalar32, decodeScalar33, decodeScalar34, decodeScalar35, decodeScalar36, seg,
      flag, fld_or, fld_ofNat, fld_place_self, fld_place_above, fld_place_below, Nat.reduceAdd, Nat.reduceLeDiff,
      Nat.reducePow, Nat.reduceMod, Nat.reduceDiv, BitVec.or_zero, BitVec.zero_or, BitVec.reduceOfNat, BitVec.reduceBEq,
      Bool.false_eq_true, Bool.false_and, Bool.and_true, ofBool_beq_one, ofCode_code, rowOf, Option.bind_some]

/-- R80: the opcode map of the vector class reads every instruction of the class back from its word. -/
theorem dispatch_vector_of_encode (i : Instr) (w : BitVec 32) (hcls : i.cls = some .vector) (henc : encode i = some w) :
    dispatch (majors .vector) (fld w 26 6).toNat w = .ok i := by
  cases i
  all_goals cases hcls
  all_goals
    cases henc
    simp only [packWord_eq_foldl, List.foldl_cons, List.foldl_nil, addField_toNat, addField_bitN, addField_code, fld_or,
      fld_ofNat, fld_place_above, fld_place_below, Nat.reduceAdd, Nat.reduceLeDiff, Nat.reducePow, Nat.reduceMod,
      Nat.reduceDiv, BitVec.or_zero, BitVec.reduceToNat, BitVec.reduceOfNat]
    simp only [dispatch, majors, ↓reduceIte, Nat.reduceEqDiff, ↓seg_split 6 5 11 rfl, ↓seg_split 6 10 16 rfl,
      ↓seg_split 1 4 5 rfl, decodeVector01, decodeVector02, decodeVector03, decodeVector04, decodeVector05,
      decodeVector06, decodeVector07, decodeVector08, decodeVector09, decodeVector0A, decodeVector0B, decodeVector0C,
      decodeVector0D, decodeVector0E, decodeVector0F, decodeVector10, decodeVector11, decodeVector12, decodeVector13,
      decodeVector14, decodeVector15, decodeVector18, decodeVector19, decodeVector1C, decodeVector1D, decodeVector1E, seg,
      flag, fld_or, fld_ofNat, fld_place_self, fld_place_above, fld_place_below, Nat.reduceAdd, Nat.reduceLeDiff,
      Nat.reducePow, Nat.reduceMod, Nat.reduceDiv, BitVec.or_zero, BitVec.zero_or, BitVec.reduceOfNat, BitVec.reduceBEq,
      Bool.false_eq_true, Bool.false_and, Bool.and_false, Bool.and_true, ofBool_beq_one, ofCode_code, rowOf,
      Option.bind_some]

/-- R81: the opcode map of the X class reads every instruction of the class back from its word. -/
theorem dispatch_xclass_of_encode (i : Instr) (w : BitVec 32) (hcls : i.cls = some .xclass) (henc : encode i = some w) :
    dispatch (majors .xclass) (fld w 26 6).toNat w = .ok i := by
  cases i
  all_goals cases hcls
  all_goals
    cases henc
    simp only [packWord_eq_foldl, List.foldl_cons, List.foldl_nil, addField_toNat, addField_bitN, addField_code, fld_or,
      fld_ofNat, fld_place_above, fld_place_below, Nat.reduceAdd, Nat.reduceLeDiff, Nat.reducePow, Nat.reduceMod,
      Nat.reduceDiv, BitVec.or_zero, BitVec.reduceToNat, BitVec.reduceOfNat]
    simp only [dispatch, majors, ↓reduceIte, Nat.reduceEqDiff, decodeX01, decodeX02, decodeX08, decodeX09, decodeX0A,
      decodeX0B, decodeX10, decodeX11, decodeX12, decodeX13, seg, flag, fld_or, fld_ofNat, fld_place_self,
      fld_place_above, fld_place_below, Nat.reduceAdd, Nat.reduceLeDiff, Nat.reducePow, Nat.reduceMod, Nat.reduceDiv,
      BitVec.or_zero, BitVec.zero_or, BitVec.reduceOfNat, BitVec.reduceBEq, Bool.false_eq_true, Bool.false_and,
      Bool.and_true, ofBool_beq_one, ofCode_code, rowOf, Option.bind_some]

/-- R82: the opcode map of the memory class reads every instruction of the class back from its word. -/
theorem dispatch_memory_of_encode (i : Instr) (w : BitVec 32) (hcls : i.cls = some .memory) (henc : encode i = some w) :
    dispatch (majors .memory) (fld w 26 6).toNat w = .ok i := by
  cases i
  all_goals cases hcls
  all_goals
    cases henc
    simp only [packWord_eq_foldl, List.foldl_cons, List.foldl_nil, addField_toNat, addField_bitN, addField_code, fld_or,
      fld_ofNat, fld_place_above, fld_place_below, Nat.reduceAdd, Nat.reduceLeDiff, Nat.reducePow, Nat.reduceMod,
      Nat.reduceDiv, BitVec.or_zero, BitVec.reduceToNat, BitVec.reduceOfNat]
    simp only [dispatch, majors, ↓reduceIte, Nat.reduceEqDiff, decodeMemory01, decodeMemory02, decodeMemory03,
      decodeMemory04, decodeMemory05, decodeMemory06, decodeMemory07, decodeMemory08, decodeMemory09, decodeMemory0A,
      decodeMemory0B, decodeMemory10, decodeMemory11, decodeMemory12, decodeMemory13, decodeMemory14, decodeMemory15,
      decodeMemory16, decodeMemory17, decodeMemory18, decodeMemory19, decodeMemory1A, decodeMemory1C, decodeMemory1D,
      decodeMemory1E, decodeMemory1F, decodeMemory20, decodeMemory21, decodeMemory22, decodeMemory23, decodeMemory24,
      decodeMemory25, decodeMemory26, decodeMemory28, decodeMemory29, decodeMemory30, decodeMemory31, decodeMemory32,
      decodeMemory33, decodeMemory34, decodeMemory35, decodeMemory36, decodeMemory37, seg, flag, fld_or, fld_ofNat,
      fld_place_self, fld_place_above, fld_place_below, Nat.reduceAdd, Nat.reduceLeDiff, Nat.reducePow, Nat.reduceMod,
      Nat.reduceDiv, BitVec.or_zero, BitVec.zero_or, BitVec.reduceOfNat, BitVec.reduceBEq, Bool.false_eq_true,
      Bool.and_false, Bool.and_true, ofBool_beq_one, ofCode_code, rowOf, Option.bind_some]

/-! ### What the decoder accepts -/

/-- Where the bits `m` of `w` are `b`, the answer `r` is an instruction only if that has class `c` and `w` is its word. -/
def Faithful (c : SlotClass) (w m b : BitVec 32) (r : Except DecodeError Instr) : Prop :=
  w &&& m = b → ∀ i, r = .ok i → encode i = some w ∧ i.isWord = true ∧ i.cls = some c

section
variable {c : SlotClass} {w m b : BitVec 32} {x y : Except DecodeError Instr}

theorem Faithful.error {e : DecodeError} : Faithful c w m b (.error e) := by
  rintro - i ⟨⟩

/-- An instruction's word is `w` when, beside the match value, it holds bits of `w` alone (none for an instruction without
operands). -/
theorem Faithful.ok {i : Instr} {x : BitVec 32} (hcls : i.isWord = true ∧ i.cls = some c) (hx : encode i = some x)
    (h : w &&& m = b → x ||| (w &&& 0#32) = w) : Faithful c w m b (.ok i) := by
  rintro hw _ ⟨⟩
  rw [BitVec.and_zero, BitVec.or_zero] at h
  exact ⟨hx.trans (congrArg some (h hw)), hcls⟩

theorem and_place_of_seg {lo len v : Nat} (h : seg w lo len v = true) :
    w &&& place (BitVec.allOnes len) lo = place (BitVec.ofNat len v) lo := by
  rw [seg, beq_iff_eq] at h
  rw [← place_fld, h]

/-- A test that holds tells the bits that it reads. -/
theorem Faithful.ite {lo len v : Nat}
    (hx : Faithful c w (m ||| place (BitVec.allOnes len) lo) (b ||| place (BitVec.ofNat len v) lo) x) (hy : Faithful c w m b y) :
    Faithful c w m b (if seg w lo len v = true then x else y) := by
  intro hw
  split
  · next h => exact hx (by rw [BitVec.and_or_distrib_left, hw, and_place_of_seg h])
  · exact hy hw

/-- Two tests: where either fails, what follows is answered as in `hy`. -/
theorem Faithful.ite_and {lo len v : Nat} {q : Bool}
    (hx : Faithful c w (m ||| place (BitVec.allOnes len) lo) (b ||| place (BitVec.ofNat len v) lo)
      (if q = true then x else .error .illegalFields))
    (hy : Faithful c w m b y) : Faithful c w m b (if (seg w lo len v && q) = true then x else y) := by
  cases q with
  | false => simpa only [Bool.and_false, Bool.false_eq_true, if_false] using hy
  | true => simpa only [Bool.and_true] using Faithful.ite (by simpa only [if_true] using hx) hy

/-- An operand that is read through its code is there only where its code stands. -/
theorem Faithful.bind {α : Type} {o : Option α} {f : α → Option Instr} (h : ∀ a, o = some a → Faithful c w m b (rowOf (f a))) :
    Faithful c w m b (rowOf (o.bind f)) := by
  cases o with
  | none => exact Faithful.error
  | some a => exact h a rfl

/-- A word is its bits `m` with the rest of its bits beside them. -/
theorem or_rest {k base : BitVec 32} (hbase : b = base) (hk : m ||| k = BitVec.allOnes 32) :
    w &&& m = b → base ||| (w &&& k) = w := by
  rintro rfl
  subst hbase
  rw [← BitVec.and_or_distrib_left, hk, BitVec.and_allOnes]

end

theorem bitN_flag (w : BitVec 32) (lo : Nat) : bitN (flag w lo) = (fld w lo 1).toNat := by
  rw [flag]
  generalize fld w lo 1 = v
  revert v
  decide

/-- R79 and R84: what a row of the scalar class accepts. -/
theorem majors_scalar_faithful (w : BitVec 32) : ∀ e ∈ majors .scalar,
    Faithful .scalar w (place (BitVec.allOnes 6) 26) (place (BitVec.ofNat 6 e.1) 26) (e.2 w) := by
  simp only [majors, List.forall_mem_cons, List.not_mem_nil, IsEmpty.forall_iff, implies_true, and_true, decodeScalar01,
    decodeScalar02, decodeScalar03, decodeScalar04, decodeScalar05, decodeScalar06, decodeScalar07, decodeScalar08,
    decodeScalar09, decodeScalar0A, decodeScalar0B, decodeScalar0C, decodeScalar0D, decodeScalar0E, decodeScalar0F,
    decodeScalar10, decodeScalar11, decodeScalar12, decodeScalar13, decodeScalar14, decodeScalar15, decodeScalar16,
    decodeScalar17, decodeScalar18, decodeScalar19, decodeScalar1A, decodeScalar1B, decodeScalar20, decodeScalar21,
    decodeScalar22, decodeScalar23, decodeScalar24, decodeScalar25, decodeScalar26, decodeScalar27, decodeScalar30,
    decodeScalar31, decodeScalar32, decodeScalar33, decodeScalar34, decodeScalar35, decodeScalar36]
  and_intros
  all_goals
    repeat' first
      | with_reducible apply Faithful.ite
      | with_reducible apply Faithful.ite_and
      | with_reducible apply Faithful.error
      | (with_reducible apply Faithful.bind; intro _ h; simp only [ofCode_eq_some] at h)
  all_goals
    refine Faithful.ok ⟨rfl, rfl⟩ rfl ?_
    simp only [*, bitN_flag, packWord_eq_foldl, List.foldl_cons, List.foldl_nil, addField_toNat, fld_or, fld_ofNat,
      fld_place_below, Nat.reduceAdd, Nat.reduceLeDiff, Nat.reducePow, Nat.reduceMod, Nat.reduceDiv, BitVec.or_zero,
      BitVec.reduceOfNat]
    try simp only [place_fld, BitVec.or_assoc, ← BitVec.and_or_distrib_left]
    exact or_rest (by decide) (by decide)

/-- R80 and R84: what a row of the vector class accepts. -/
theorem majors_vector_faithful (w : BitVec 32) : ∀ e ∈ majors .vector,
    Faithful .vector w (place (BitVec.allOnes 6) 26) (place (BitVec.ofNat 6 e.1) 26) (e.2 w) := by
  simp only [majors, List.forall_mem_cons, List.not_mem_nil, IsEmpty.forall_iff, implies_true, and_true, decodeVector01,
    decodeVector02, decodeVector03, decodeVector04, decodeVector05, decodeVector06, decodeVector07, decodeVector08,
    decodeVector09, decodeVector0A, decodeVector0B, decodeVector0C, decodeVector0D, decodeVector0E, decodeVector0F,
    decodeVector10, decodeVector11, decodeVector12, decodeVector13, decodeVector14, decodeVector15, decodeVector18,
    decodeVector19, decodeVector1C, decodeVector1D, decodeVector1E]
  and_intros
  all_goals
    repeat' first
      | with_reducible apply Faithful.ite
      | with_reducible apply Faithful.ite_and
      | with_reducible apply Faithful.error
      | (with_reducible apply Faithful.bind; intro _ h; simp only [ofCode_eq_some] at h)
  all_goals
    refine Faithful.ok ⟨rfl, rfl⟩ rfl ?_
    simp only [*, bitN_flag, packWord_eq_foldl, List.foldl_cons, List.foldl_nil, addField_toNat, fld_or, fld_ofNat,
      fld_place_below, Nat.reduceAdd, Nat.reduceLeDiff, Nat.reducePow, Nat.reduceMod, Nat.reduceDiv, BitVec.or_zero,
      BitVec.reduceOfNat]
    try simp only [place_fld, BitVec.or_assoc, ← BitVec.and_or_distrib_left]
    exact or_rest (by decide) (by decide)

/-- R81 and R84: what a row of the X class accepts. -/
theorem majors_xclass_faithful (w : BitVec 32) : ∀ e ∈ majors .xclass,
    Faithful .xclass w (place (BitVec.allOnes 6) 26) (place (BitVec.ofNat 6 e.1) 26) (e.2 w) := by
  simp only [majors, List.forall_mem_cons, List.not_mem_nil, IsEmpty.forall_iff, implies_true, and_true, Bool.and_assoc,
    decodeX01, decodeX02, decodeX08, decodeX09, decodeX0A, decodeX0B, decodeX10, decodeX11, decodeX12, decodeX13]
  and_intros
  all_goals
    repeat' first
      | with_reducible apply Faithful.ite
      | with_reducible apply Faithful.ite_and
      | with_reducible apply Faithful.error
      | (with_reducible apply Faithful.bind; intro _ h; simp only [ofCode_eq_some] at h)
  all_goals
    refine Faithful.ok ⟨rfl, rfl⟩ rfl ?_
    simp only [*, bitN_flag, packWord_eq_foldl, List.foldl_cons, List.foldl_nil, addField_toNat, fld_or, fld_ofNat,
      fld_place_below, Nat.reduceAdd, Nat.reduceLeDiff, Nat.reducePow, Nat.reduceMod, Nat.reduceDiv, BitVec.or_zero,
      BitVec.reduceOfNat]
    try simp only [place_fld, BitVec.or_assoc, ← BitVec.and_or_distrib_left]
    exact or_rest (by decide) (by decide)

/-- R82 and R84: what a row of the memory class accepts. -/
theorem majors_memory_faithful (w : BitVec 32) : ∀ e ∈ majors .memory,
    Faithful .memory w (place (BitVec.allOnes 6) 26) (place (BitVec.ofNat 6 e.1) 26) (e.2 w) := by
  simp only [majors, List.forall_mem_cons, List.not_mem_nil, IsEmpty.forall_iff, implies_true, and_true, Bool.and_assoc,
    decodeMemory01, decodeMemory02, decodeMemory03, decodeMemory04, decodeMemory05, decodeMemory06, decodeMemory07,
    decodeMemory08, decodeMemory09, decodeMemory0A, decodeMemory0B, decodeMemory10, decodeMemory11, decodeMemory12,
    decodeMemory13, decodeMemory14, decodeMemory15, decodeMemory16, decodeMemory17, decodeMemory18, decodeMemory19,
    decodeMemory1A, decodeMemory1C, decodeMemory1D, decodeMemory1E, decodeMemory1F, decodeMemory20, decodeMemory21,
    decodeMemory22, decodeMemory23, decodeMemory24, decodeMemory25, decodeMemory26, decodeMemory28, decodeMemory29,
    decodeMemory30, decodeMemory31, decodeMemory32, decodeMemory33, decodeMemory34, decodeMemory35, decodeMemory36,
    decodeMemory37]
  and_intros
  all_goals
    repeat' first
      | with_reducible apply Faithful.ite
      | with_reducible apply Faithful.ite_and
      | with_reducible apply Faithful.error
      | (with_reducible apply Faithful.bind; intro _ h; simp only [ofCode_eq_some] at h)
  all_goals
    refine Faithful.ok ⟨rfl, rfl⟩ rfl ?_
    simp only [*, bitN_flag, packWord_eq_foldl, List.foldl_cons, List.foldl_nil, addField_toNat, fld_or, fld_ofNat,
      fld_place_below, Nat.reduceAdd, Nat.reduceLeDiff, Nat.reducePow, Nat.reduceMod, Nat.reduceDiv, BitVec.or_zero,
      BitVec.reduceOfNat]
    try simp only [place_fld, BitVec.or_assoc, ← BitVec.and_or_distrib_left]
    exact or_rest (by decide) (by decide)

/-! ### The decoder -/

theorem mem_majors_of_dispatch {rows : List (Nat × (BitVec 32 → Except DecodeError Instr))} {m : Nat} {w : BitVec 32} {i : Instr}
    (h : dispatch rows m w = .ok i) : ∃ e ∈ rows, e.1 = m ∧ e.2 w = .ok i := by
  induction rows with
  | nil => cases h
  | cons e rows ih =>
    rw [dispatch] at h
    split at h
    · next hm => exact ⟨e, List.mem_cons_self, hm.symm, h⟩
    · obtain ⟨e', hmem, he⟩ := ih h
      exact ⟨e', List.mem_cons_of_mem _ hmem, he⟩

/-- No class assigns major 0, which the no-operation's word has, nor one from 0x38 on, where the literal words are (R75). -/
theorem majors_range (c : SlotClass) : ∀ e ∈ majors c, 0 < e.1 ∧ e.1 < 0x38 := by
  have hall : ∀ k ∈ (majors c).map Prod.fst, 0 < k ∧ k < 0x38 := by cases c <;> decide
  exact fun e he => hall _ (List.mem_map_of_mem he)

theorem decodeRow_eq_dispatch (c : SlotClass) (w : BitVec 32) : decodeRow c w =
    if w == 0#32 then .ok .nop
    else if fld w 29 3 == 7#3 then .ok (.literal (fld w 0 29))
    else dispatch (majors c) (fld w 26 6).toNat w := by
  cases c <;>
    simp only [decodeRow, decodeScalar_eq_dispatch, decodeVector_eq_dispatch, decodeX_eq_dispatch, decodeMemory_eq_dispatch]

theorem decode_eq_ok {c : SlotClass} {w : BitVec 32} {i : Instr} :
    decode c w = .ok i ↔ decodeRow c w = .ok i ∧ i.wf = true := by
  rw [decode]
  cases decodeRow c w with
  | error e => simp
  | ok j =>
    by_cases hwf : j.wf = true
    · simp only [hwf, if_true, Except.ok.injEq]
      exact ⟨by rintro rfl; exact ⟨rfl, hwf⟩, And.left⟩
    · simp only [hwf, Except.ok.injEq]
      exact ⟨by rintro ⟨⟩, by rintro ⟨rfl, h⟩; exact absurd h hwf⟩

theorem decodeRow_of_dispatch {c : SlotClass} {w : BitVec 32} {i : Instr}
    (h : dispatch (majors c) (fld w 26 6).toNat w = .ok i) : decodeRow c w = .ok i := by
  obtain ⟨e, hmem, hmajor, -⟩ := mem_majors_of_dispatch h
  obtain ⟨hpos, hlt⟩ := majors_range c e hmem
  rw [hmajor] at hpos hlt
  have hnop : (w == 0#32) = false := by
    rw [beq_eq_false_iff_ne]
    rintro rfl
    exact absurd hpos (by decide)
  have hliteral : (fld w 29 3 == 7#3) = false := by
    rw [beq_eq_false_iff_ne]
    intro htop
    have htop := congrArg BitVec.toNat htop
    simp only [fld, BitVec.extractLsb'_toNat, Nat.shiftRight_eq_div_pow, BitVec.toNat_ofNat] at htop hlt
    omega
  rw [decodeRow_eq_dispatch, hnop, hliteral, if_neg Bool.false_ne_true, if_neg Bool.false_ne_true, h]

/-- A class's slots accept what its opcode map answers, within the operand limits. -/
theorem decode_of_dispatch {c : SlotClass} {w : BitVec 32} {i : Instr} (hwf : i.wf = true)
    (h : dispatch (majors c) (fld w 26 6).toNat w = .ok i) : decode c w = .ok i :=
  decode_eq_ok.2 ⟨decodeRow_of_dispatch h, hwf⟩

theorem majors_faithful (c : SlotClass) (w : BitVec 32) : ∀ e ∈ majors c,
    Faithful c w (place (BitVec.allOnes 6) 26) (place (BitVec.ofNat 6 e.1) 26) (e.2 w) := by
  cases c with
  | scalar => exact majors_scalar_faithful w
  | vector => exact majors_vector_faithful w
  | xclass => exact majors_xclass_faithful w
  | memory => exact majors_memory_faithful w

theorem dispatch_faithful {c : SlotClass} {w : BitVec 32} {i : Instr} (h : dispatch (majors c) (fld w 26 6).toNat w = .ok i) :
    encode i = some w ∧ i.isWord = true ∧ i.cls = some c := by
  obtain ⟨e, hmem, hmajor, hrow⟩ := mem_majors_of_dispatch h
  refine majors_faithful c w e hmem ?_ i hrow
  rw [hmajor, ← place_fld, BitVec.ofNat_toNat, BitVec.setWidth_eq]

/-- R75: the literal word of 29 bits has seven above them. -/
theorem encode_literal_fld {w : BitVec 32} (htop : fld w 29 3 = 7#3) : encode (.literal (fld w 0 29)) = some w := by
  refine congrArg some ?_
  have hlow : fld (BitVec.ofNat 32 0xE0000000) 0 29 = 0#29 := by decide
  rw [packWord_eq_foldl, List.foldl_cons, List.foldl_nil, addField_toNat _ hlow, place_fld]
  have hbits : w &&& place (BitVec.allOnes 3) 29 = place 7#3 29 := by rw [← place_fld, htop]
  exact or_rest (by decide) (by decide) hbits

theorem decodeRow_faithful {c : SlotClass} {w : BitVec 32} {i : Instr} (h : decodeRow c w = .ok i) :
    encode i = some w ∧ i.isWord = true ∧ (i.cls = some c ∨ i = .nop ∨ ∃ p, i = .literal p) := by
  rw [decodeRow_eq_dispatch] at h
  split at h
  · next hw =>
    cases h
    exact ⟨congrArg some (beq_iff_eq.1 hw).symm, rfl, .inr (.inl rfl)⟩
  split at h
  · next htop =>
    cases h
    exact ⟨encode_literal_fld (beq_iff_eq.1 htop), rfl, .inr (.inr ⟨_, rfl⟩)⟩
  · obtain ⟨henc, hword, hcls⟩ := dispatch_faithful h
    exact ⟨henc, hword, .inl hcls⟩

theorem decode_zero (c : SlotClass) : decode c 0 = .ok .nop :=
  decode_eq_ok.2 ⟨rfl, rfl⟩

theorem decode_literal (c : SlotClass) (p : BitVec 29) : decode c (7#3 ++ p) = .ok (.literal p) := by
  have hnop : (7#3 ++ p == 0#32) = false := by
    rw [beq_eq_false_iff_ne]
    intro h
    exact absurd (congrArg (BitVec.extractLsb' 29 3) h) (by rw [BitVec.extractLsb'_append_eq_left]; decide)
  have htop : fld (7#3 ++ p) 29 3 = 7#3 := BitVec.extractLsb'_append_eq_left
  have hlow : fld (7#3 ++ p) 0 29 = p := BitVec.extractLsb'_append_eq_right
  refine decode_eq_ok.2 ⟨?_, rfl⟩
  rw [decodeRow_eq_dispatch, hnop, htop, hlow]
  rfl

/-! ### The obligations -/

/-- Settles O57: the word is the match value with the operands beside it, so each field that the opcode map reads is one of them. -/
theorem encodedScalarWordsDecode : Obligations.EncodedScalarWordsDecode := by
  unfold Obligations.EncodedScalarWordsDecode
  exact ⟨fun i w hwf hcls henc => decode_of_dispatch hwf (dispatch_scalar_of_encode i w hcls henc),
    fun c => ⟨decode_zero c, decode_literal c⟩⟩

/-- Settles O58, as O57 for the vector and X opcode maps. -/
theorem encodedVectorWordsDecode : Obligations.EncodedVectorWordsDecode := by
  unfold Obligations.EncodedVectorWordsDecode
  exact fun i w hwf henc => ⟨fun hcls => decode_of_dispatch hwf (dispatch_vector_of_encode i w hcls henc),
    fun hcls => decode_of_dispatch hwf (dispatch_xclass_of_encode i w hcls henc)⟩

/-- Settles O59, as O57 for the memory opcode map. -/
theorem encodedMemoryWordsDecode : Obligations.EncodedMemoryWordsDecode := by
  unfold Obligations.EncodedMemoryWordsDecode
  exact fun i w hwf hcls henc => decode_of_dispatch hwf (dispatch_memory_of_encode i w hcls henc)

/-- Settles O60: the tests that led to a row, with the operands that it reads, cover each bit of the word exactly. -/
theorem acceptedWordsAreEncodings : Obligations.AcceptedWordsAreEncodings := by
  unfold Obligations.AcceptedWordsAreEncodings
  intro c w i h
  obtain ⟨hrow, hwf⟩ := decode_eq_ok.1 h
  obtain ⟨henc, hword, hcls⟩ := decodeRow_faithful hrow
  exact ⟨henc, hwf, hword, hcls⟩

/-- Settles O56: each of the words, decoded. -/
theorem workedEncodings : Obligations.WorkedEncodings := by
  unfold Obligations.WorkedEncodings
  simp only [List.forall_mem_cons, List.not_mem_nil, IsEmpty.forall_iff, implies_true, and_true]
  and_intros <;> rfl

end Sys2Proof
end

section
/-! A due bundle that is not legal or not permitted traps before its slots act (O53). -/

namespace Sys2Proof.Machine

/-! ### A due bundle that may not act -/

section
variable {s : State} {c : Nat} {words : List (BitVec 32)} {e : Tlb}

theorem State.evaluate_illegal {k : Nat} (hpois : regKey c ∉ s.poison) (hf : s.fetch c = .ok words e)
    (hdec : decodeBundle words = .error k) :
    s.evaluate c = .trap true [{ kind := 0x01, pc := (s.ctx c).pc, slot := BitVec.ofNat 8 k }] := by
  have hp : s.poison.contains (regKey c) = false := by simpa using hpois
  simp only [State.evaluate, hp, hf, hdec, Bool.false_eq_true, if_false]

theorem State.evaluate_privileged {is : List Instr} {k : Nat} (hpois : regKey c ∉ s.poison) (hf : s.fetch c = .ok words e)
    (hdec : decodeBundle words = .ok is) (hx : (s.ctx c).exec = false)
    (hk : (List.range 8).find? (fun j => (is.getD j .nop).privileged) = some k) :
    s.evaluate c = .trap true [{ kind := 0x02, pc := (s.ctx c).pc, slot := BitVec.ofNat 8 k }] := by
  have hp : s.poison.contains (regKey c) = false := by simpa using hpois
  simp only [State.evaluate, hp, hf, hdec, hx, hk, Bool.false_eq_true, if_false]

end

/-- Settles O53: legality and privilege are found before `State.runBundle` runs a slot. -/
theorem illegalAndPrivilegedBundlesTrap : Obligations.IllegalAndPrivilegedBundlesTrap := by
  unfold Obligations.IllegalAndPrivilegedBundlesTrap
  intro s c words e hpois hf
  refine ⟨fun k hdec => State.evaluate_illegal hpois hf hdec, fun is k hdec hx hk hpriv hfirst => ?_⟩
  have hfind : (List.range 8).find? (fun j => (is.getD j .nop).privileged) = some k :=
    List.find?_range_eq_some.2 ⟨hpriv, List.mem_range.2 hk, fun j hj => by rw [hfirst j hj]; rfl⟩
  exact State.evaluate_privileged hpois hf hdec hx hfind

end Sys2Proof.Machine
end

section
/-! Results posted and results arriving (O50). -/

namespace Sys2Proof.Machine

/-! ### Posting -/

section
variable (s : State) (rs : List (Nat × Eff))

theorem State.posted_ctx_ne {c : Nat} (h : c ≠ s.iss.ctx) : (s.posted rs).ctx c = s.ctx c := by
  induction rs generalizing s with
  | nil => rfl
  | cons r rs ih => exact (ih (s.push r.1 r.2) h).trans (s.ctx_modCtx_ne _ h)

/-- Posting changes contexts alone. -/
theorem State.posted_frame : { s.posted rs with ctxs := s.ctxs } = s := by
  induction rs generalizing s with
  | nil => rfl
  | cons r rs ih => exact congrArg (fun t : State => { t with ctxs := s.ctxs }) (ih (s.push r.1 r.2))

end

/-! ### One arriving result -/

/-- A register file read after a write of one register. -/
theorem getD_setIfInBounds {α : Type} {n : Nat} (file : Vector α n) {r q : BitVec 5} (x d : α) (hq : q.toNat < n) :
    (file.setIfInBounds r.toNat x).getD q.toNat d = if q = r then x else file.getD q.toNat d := by
  by_cases h : q = r
  · subst h
    simp [Vector.getD, hq]
  · have hne : r.toNat ≠ q.toNat := fun e => h (BitVec.eq_of_toNat_eq e).symm
    simp [Vector.getD, h, hne]

section
variable (v : Vis)

theorem Vis.apply_sreg_of_ne {r : BitVec 5} (h : r ≠ 0) (x : Word) :
    v.apply (.sreg r x) = { v with sreg := v.sreg.setIfInBounds r.toNat x } := if_neg h

/-- s0 reads as zero, whatever is written (R74). -/
theorem Vis.s_apply_sreg (r q : BitVec 5) (x : Word) :
    (v.apply (.sreg r x)).s q = if q = r ∧ r ≠ 0 then x else v.s q := by
  by_cases hr : r = 0
  · subst hr
    exact (if_neg fun h => h.2 rfl).symm
  rw [v.apply_sreg_of_ne hr, Vis.s, Vis.s, getD_setIfInBounds _ _ _ q.isLt]
  by_cases hq : q = r
  · subst hq
    simp only [hr, if_false, if_true, ne_eq, not_false_eq_true, and_self]
  · simp only [hq, if_false, false_and]

theorem Vis.apply_sreg_frame (r : BitVec 5) (x : Word) : { v.apply (.sreg r x) with sreg := v.sreg } = v := by
  by_cases hr : r = 0
  · subst hr
    rfl
  · rw [v.apply_sreg_of_ne hr]

theorem Vis.apply_pred_of_ne {r : BitVec 5} (h : r ≠ 0) (x : PReg) :
    v.apply (.pred r x) = { v with pred := v.pred.setIfInBounds r.toNat x } := if_neg h

/-- p0 reads as all ones, whatever is written (R74). -/
theorem Vis.p_apply_pred {r q : BitVec 5} (x : PReg) (h24 : q.toNat < 24) :
    (v.apply (.pred r x)).p q = if q = r ∧ r ≠ 0 then x else v.p q := by
  by_cases hr : r = 0
  · subst hr
    exact (if_neg fun h => h.2 rfl).symm
  rw [v.apply_pred_of_ne hr, Vis.p, Vis.p, getD_setIfInBounds _ _ _ h24]
  by_cases hq : q = r
  · subst hq
    simp only [hr, if_false, if_true, ne_eq, not_false_eq_true, and_self]
  · simp only [hq, if_false, false_and]

theorem Vis.apply_pred_frame (r : BitVec 5) (x : PReg) : { v.apply (.pred r x) with pred := v.pred } = v := by
  by_cases hr : r = 0
  · subst hr
    rfl
  · rw [v.apply_pred_of_ne hr]

theorem Vis.v_apply_vec_eq {n : Nat} (m : Nat) (z mask : VReg) (hn : n < 48) :
    (v.apply (.vec n z mask)).v m = if m = n then (v.v m &&& ~~~mask) ||| (z &&& mask) else v.v m := by
  split
  · next h => rw [h, Vis.v_apply_vec v z mask hn]
  · next h => exact v.v_apply_vec_ne z mask h

end

/-! ### RESULT ARRIVAL -/

/-- What a result does to the context: it writes the visible state, its checkpoint too where it belongs to it, or frees a slot. -/
theorem Ctx.land_eq (x : Ctx) (p : Pending) : x.land p = { x with
    vis := x.vis.apply p.eff
    chk := if p.inChk then x.chk.apply p.eff else x.chk
    freeing := x.freeing - if p.eff = .freeSlot then 1 else 0 } := by
  unfold Ctx.land
  dsimp only
  split
  · next h => rw [if_pos h]
  · next h => rw [if_neg h, Nat.sub_zero]

theorem Ctx.foldl_land (x : Ctx) (ps : List Pending) : ps.foldl Ctx.land x = { x with
    vis := ps.foldl (fun v p => v.apply p.eff) x.vis
    chk := (ps.filter (·.inChk)).foldl (fun v p => v.apply p.eff) x.chk
    freeing := x.freeing - ps.countP (·.eff = .freeSlot) } := by
  induction ps generalizing x with
  | nil => rfl
  | cons p ps ih =>
    have hchk : ((p :: ps).filter (·.inChk)).foldl (fun v p => v.apply p.eff) x.chk =
        (ps.filter (·.inChk)).foldl (fun v p => v.apply p.eff) (if p.inChk then x.chk.apply p.eff else x.chk) := by
      cases hp : p.inChk <;> simp [hp]
    have hfree : x.freeing - (p :: ps).countP (·.eff = .freeSlot) =
        (x.freeing - if p.eff = .freeSlot then 1 else 0) - ps.countP (·.eff = .freeSlot) := by
      simp only [List.countP_cons, decide_eq_true_eq]
      omega
    rw [List.foldl_cons, ih, x.land_eq, hchk, hfree, List.foldl_cons]

theorem Ctx.deliver_eq (x : Ctx) (t : Nat) : x.deliver t = { x with
    vis := (x.duePend t).foldl (fun v p => v.apply p.eff) x.vis
    chk := ((x.duePend t).filter (·.inChk)).foldl (fun v p => v.apply p.eff) x.chk
    pend := x.pend.filter fun p => t < p.at_
    freeing := x.freeing - (x.duePend t).countP (·.eff = .freeSlot) } :=
  Ctx.foldl_land { x with pend := x.pend.filter fun p => t < p.at_ } _

/-- Settles O50: posting by induction over the results, RESULT ARRIVAL by `Ctx.deliver_eq`. -/
theorem resultsPostedAndArriving : Obligations.ResultsPostedAndArriving := by
  unfold Obligations.ResultsPostedAndArriving
  refine ⟨fun s rs => ⟨s.posted_cur rs, fun c hc => s.posted_ctx_ne rs hc, s.posted_frame rs⟩, ?_, fun s => ?_⟩
  · intro v r q n m x y z mask f
    exact ⟨rfl, rfl, v.s_apply_sreg r q x, v.apply_sreg_frame r x, v.p_apply_pred y, v.apply_pred_frame r y,
      v.v_apply_vec_eq m z mask, rfl, rfl, rfl, rfl⟩
  · exact congrArg (fun x => (.next (s.setCtx s.due.ctx x) : Res)) (Ctx.deliver_eq _ _)

end Sys2Proof.Machine
end

section
/-! The words of major 0x01, 0x02, 0x06 and 0x07 of the scalar class, and what their instructions post (O1, O2). -/

namespace Sys2Proof

/-! ### A major's rows -/

theorem dispatch_of_mem {rows : List (Nat × (BitVec 32 → Except DecodeError Instr))} {e : Nat × (BitVec 32 → Except DecodeError Instr)}
    (hnodup : (rows.map Prod.fst).Nodup) (he : e ∈ rows) (w : BitVec 32) : dispatch rows e.1 w = e.2 w := by
  induction rows with
  | nil => cases he
  | cons r rows ih =>
    rw [List.map_cons, List.nodup_cons] at hnodup
    rw [dispatch]
    rcases List.mem_cons.1 he with rfl | he
    · exact if_pos rfl
    · have hne : ¬e.1 = r.1 := fun h => hnodup.1 (h ▸ List.mem_map_of_mem he)
      rw [if_neg hne, ih hnodup.2 he]

theorem majors_nodup (c : SlotClass) : ((majors c).map Prod.fst).Nodup := by
  cases c <;> decide

/-- A word of an assigned major is read by that major's rows (R79 to R82). -/
theorem decodeRow_of_major {c : SlotClass} {w : BitVec 32} {e : Nat × (BitVec 32 → Except DecodeError Instr)} (he : e ∈ majors c)
    (hw : (fld w 26 6).toNat = e.1) : decodeRow c w = e.2 w := by
  obtain ⟨hpos, hlt⟩ := majors_range c e he
  rw [← hw] at hpos hlt
  have hnop : (w == 0#32) = false := by
    rw [beq_eq_false_iff_ne]
    rintro rfl
    exact absurd hpos (by decide)
  have hliteral : (fld w 29 3 == 7#3) = false := by
    rw [beq_eq_false_iff_ne]
    intro htop
    have htop := congrArg BitVec.toNat htop
    simp only [fld, BitVec.extractLsb'_toNat, Nat.shiftRight_eq_div_pow, BitVec.toNat_ofNat] at htop hlt
    omega
  rw [decodeRow_eq_dispatch, hnop, hliteral, if_neg Bool.false_ne_true, if_neg Bool.false_ne_true, hw]
  exact dispatch_of_mem (majors_nodup c) he w

/-- A word that no row of its major accepts is an illegal encoding. -/
theorem decode_error_of_major {c : SlotClass} {w : BitVec 32} {e : Nat × (BitVec 32 → Except DecodeError Instr)} (he : e ∈ majors c)
    (hw : (fld w 26 6).toNat = e.1) {x : DecodeError} (h : e.2 w = .error x) : decode c w = .error x := by
  rw [decode, decodeRow_of_major he hw, h]

/-- A word that a row of its major accepts, within the operand limits. -/
theorem decode_ok_of_major {c : SlotClass} {w : BitVec 32} {e : Nat × (BitVec 32 → Except DecodeError Instr)} (he : e ∈ majors c)
    (hw : (fld w 26 6).toNat = e.1) {i : Instr} (h : e.2 w = .ok i) (hwf : i.wf = true) : decode c w = .ok i :=
  decode_eq_ok.2 ⟨(decodeRow_of_major he hw).trans h, hwf⟩

/-- The scalar class is that of slots S0 and S1 (R72). -/
theorem slotClass_scalar_iff (k : Nat) : slotClass k = .scalar ↔ k < 2 := by
  unfold slotClass
  by_cases h : k < 2
  · simp [h]
  · simp only [h, if_false, iff_false]
    split
    · simp
    · split <;> simp

/-! ### The SR format (R76, R98) -/

/-- A word of the SR format: major, sd, sa, sb, L and fn. -/
def srWord (major : BitVec 6) (d a b : BitVec 5) (l : Bool) (fn : BitVec 10) : BitVec 32 :=
  major ++ d ++ a ++ b ++ BitVec.ofBool l ++ fn

section
variable (major : BitVec 6) (d a b : BitVec 5) (l : Bool) (fn : BitVec 10)

@[simp] theorem fld_major_srWord : fld (srWord major d a b l fn) 26 6 = major := by
  rw [fld, srWord]
  iterate 4 rw [BitVec.extractLsb'_append_eq_of_le (by decide)]
  exact BitVec.extractLsb'_append_eq_left
@[simp] theorem fld_sd_srWord : fld (srWord major d a b l fn) 21 5 = d := by
  rw [fld, srWord]
  iterate 4 rw [BitVec.extractLsb'_append_eq_of_le (by decide)]
  exact BitVec.extractLsb'_append_eq_right
@[simp] theorem fld_sa_srWord : fld (srWord major d a b l fn) 16 5 = a := by
  rw [fld, srWord]
  iterate 3 rw [BitVec.extractLsb'_append_eq_of_le (by decide)]
  exact BitVec.extractLsb'_append_eq_right
@[simp] theorem fld_sb_srWord : fld (srWord major d a b l fn) 11 5 = b := by
  rw [fld, srWord]
  iterate 2 rw [BitVec.extractLsb'_append_eq_of_le (by decide)]
  exact BitVec.extractLsb'_append_eq_right
@[simp] theorem flag_l_srWord : flag (srWord major d a b l fn) 10 = l := by
  rw [flag, fld, srWord, BitVec.extractLsb'_append_eq_of_le (by decide)]
  exact (congrArg (· == 1#1) BitVec.extractLsb'_append_eq_right).trans (ofBool_beq_one l)

/-- A field within fn. -/
theorem fld_fn_srWord {lo n : Nat} (h : lo + n ≤ 10) : fld (srWord major d a b l fn) lo n = fn.extractLsb' lo n :=
  BitVec.extractLsb'_append_eq_of_add_le h

end

/-- R100: the words of major 0x01. -/
theorem decode_srWord_arithmetic (d a b : BitVec 5) {l : Bool} (hb : srcOk b l = true) :
    ∀ p ∈ [(0, Instr.add d a b l), (1, .sub d a b l), (2, .min d a b l), (3, .max d a b l), (4, .minn d a b l), (5, .maxn d a b l)],
      decode .scalar (srWord 1 d a b l p.1) = .ok p.2 := by
  have hmajor : ((1, decodeScalar01) : Nat × (BitVec 32 → Except DecodeError Instr)) ∈ majors .scalar := by simp [majors]
  simp only [List.forall_mem_cons, List.not_mem_nil, IsEmpty.forall_iff, implies_true, and_true]
  and_intros <;> refine decode_ok_of_major hmajor (by simp) ?_ hb <;> simp [decodeScalar01, seg, fld_fn_srWord]

/-- R101: the words of major 0x02. -/
theorem decode_srWord_logic (d a b : BitVec 5) {l : Bool} (hb : srcOk b l = true) :
    ∀ p ∈ [(0, Instr.and d a b l), (1, .or d a b l), (2, .xor d a b l), (3, .andn d a b l), (4, .shl d a b l), (5, .shr d a b l),
        (6, .sra d a b l), (7, .rot d a b l)], decode .scalar (srWord 2 d a b l p.1) = .ok p.2 := by
  have hmajor : ((2, decodeScalar02) : Nat × (BitVec 32 → Except DecodeError Instr)) ∈ majors .scalar := by simp [majors]
  simp only [List.forall_mem_cons, List.not_mem_nil, IsEmpty.forall_iff, implies_true, and_true]
  and_intros <;> refine decode_ok_of_major hmajor (by simp) ?_ hb <;> simp [decodeScalar02, seg, fld_fn_srWord]

/-- R105: the words of major 0x06. -/
theorem decode_srWord_scmp (d a b : BitVec 5) {l : Bool} (hb : srcOk b l = true) :
    ∀ p ∈ [(0, SCc.eq), (1, .ne), (2, .lt), (3, .ge), (4, .le), (5, .gt), (6, .ltn), (7, .gen), (8, .len), (9, .gtn)],
      decode .scalar (srWord 6 d a b l p.1) = .ok (.scmp d a b l p.2) := by
  have hmajor : ((6, decodeScalar06) : Nat × (BitVec 32 → Except DecodeError Instr)) ∈ majors .scalar := by simp [majors]
  simp only [List.forall_mem_cons, List.not_mem_nil, IsEmpty.forall_iff, implies_true, and_true]
  and_intros <;> refine decode_ok_of_major hmajor (by simp) ?_ hb <;> simp [decodeScalar06, seg, fld_fn_srWord, SCc.ofCode, rowOf]

/-- R106: the words of major 0x07. -/
theorem decode_srWord_sel (d a b c : BitVec 5) {l : Bool} (hb : srcOk b l = true) :
    decode .scalar (srWord 7 d a b l (0#5 ++ c)) = .ok (.sel d a b l c) := by
  have hmajor : ((7, decodeScalar07) : Nat × (BitVec 32 → Except DecodeError Instr)) ∈ majors .scalar := by simp [majors]
  refine decode_ok_of_major hmajor (by simp) ?_ hb
  have hhigh : (0#5 ++ c : BitVec 10).extractLsb' 5 5 = 0#5 := BitVec.extractLsb'_append_eq_left
  have hlow : (0#5 ++ c : BitVec 10).extractLsb' 0 5 = c := BitVec.extractLsb'_append_eq_right
  simp [decodeScalar07, seg, fld_fn_srWord, hhigh, hlow]

/-- R105: no condition has a code above 9. -/
theorem decodeScalar06_error {w : BitVec 32} (h : 9 < (w.extractLsb' 0 10).toNat) : ∃ e, decodeScalar06 w = .error e := by
  unfold decodeScalar06
  by_cases hseg : seg w 4 6 0 = true
  · have hcode : SCc.ofCode (fld w 0 4).toNat = none := by
      rw [Option.eq_none_iff_forall_ne_some]
      intro c hc
      have hle : c.code ≤ 9 := by cases c <;> decide
      have hval := congrArg BitVec.toNat (beq_iff_eq.1 hseg)
      rw [(ofCode_eq_some.2.2.2.1 _ _).1 hc] at hle
      simp only [fld, BitVec.extractLsb'_toNat, Nat.shiftRight_eq_div_pow, BitVec.toNat_ofNat] at h hle hval
      omega
    exact ⟨_, by rw [if_pos hseg, hcode]; rfl⟩
  · exact ⟨_, if_neg hseg⟩

end Sys2Proof

namespace Sys2Proof.Machine

/-! ### Results -/

/-- A test for less and one for at most choose alike between two that are the same when the numbers are equal. -/
theorem ite_lt_eq_ite_le {α β : Type} [LinearOrder α] {a b : α} {u v : β} (h : a = b → u = v) :
    (if a < b then u else v) = if a ≤ b then u else v := by
  rcases lt_trichotomy a b with hlt | heq | hgt
  · rw [if_pos hlt, if_pos hlt.le]
  · rw [if_neg heq.not_lt, if_pos heq.le, h heq]
  · rw [if_neg hgt.not_gt, if_neg hgt.not_ge]

section
variable (x y : Word)

theorem minS_eq : minS x y = if x.toInt ≤ y.toInt then x else y := by
  simp only [minS, BitVec.slt_eq_decide, decide_eq_true_eq]
  exact ite_lt_eq_ite_le BitVec.eq_of_toInt_eq

theorem maxS_eq : maxS x y = if x.toInt ≤ y.toInt then y else x := by
  simp only [maxS, BitVec.slt_eq_decide, decide_eq_true_eq]
  exact ite_lt_eq_ite_le fun h => (BitVec.eq_of_toInt_eq h).symm

theorem minU_eq : minU x y = if x.toNat ≤ y.toNat then x else y := by
  simp only [minU, BitVec.ult_eq_decide, decide_eq_true_eq]
  exact ite_lt_eq_ite_le BitVec.eq_of_toNat_eq

theorem maxU_eq : maxU x y = if x.toNat ≤ y.toNat then y else x := by
  simp only [maxU, BitVec.ult_eq_decide, decide_eq_true_eq]
  exact ite_lt_eq_ite_le fun h => (BitVec.eq_of_toNat_eq h).symm

/-- A rotation takes each bit up by the amount, around the top (R101). -/
theorem getLsbD_rotateLeft_of_lt {n i : Nat} (hn : n < 64) (hi : i < 64) :
    (x.rotateLeft n).getLsbD ((i + n) % 64) = x.getLsbD i := by
  rw [BitVec.getLsbD_rotateLeft, Nat.mod_eq_of_lt hn]
  by_cases h : i + n < 64
  · rw [Nat.mod_eq_of_lt h, decide_eq_false (by omega), decide_eq_true h, Nat.add_sub_cancel]
    rfl
  · rw [Nat.mod_eq_sub_mod (by omega), Nat.mod_eq_of_lt (by omega), decide_eq_true (by omega), show 64 - n + (i + n - 64) = i by omega]
    rfl

end

/-- The condition of a comparison, in integers and numbers (R105). -/
theorem scmpHolds_of_mem {c : SCc} {p : Bool} {A B : Word}
    (h : (c, p) ∈ [(SCc.eq, decide (A = B)), (.ne, decide (A ≠ B)), (.lt, decide (A.toInt < B.toInt)),
      (.ge, decide (B.toInt ≤ A.toInt)), (.le, decide (A.toInt ≤ B.toInt)), (.gt, decide (B.toInt < A.toInt)),
      (.ltn, decide (A.toNat < B.toNat)), (.gen, decide (B.toNat ≤ A.toNat)), (.len, decide (A.toNat ≤ B.toNat)),
      (.gtn, decide (B.toNat < A.toNat))]) : scmpHolds c A B = p := by
  simp only [List.mem_cons, List.not_mem_nil, or_false, Prod.mk.injEq] at h
  obtain ⟨rfl, rfl⟩ | ⟨rfl, rfl⟩ | ⟨rfl, rfl⟩ | ⟨rfl, rfl⟩ | ⟨rfl, rfl⟩ | ⟨rfl, rfl⟩ | ⟨rfl, rfl⟩ | ⟨rfl, rfl⟩ | ⟨rfl, rfl⟩ | ⟨rfl, rfl⟩ := h <;>
    rw [Bool.eq_iff_iff] <;>
    simp [scmpHolds, BitVec.slt_eq_decide, BitVec.sle_eq_decide, BitVec.ult_eq_decide, BitVec.ule_eq_decide]

/-! ### The obligations -/

/-- Settles O1: each operation is the two-source form with its own result; the words by `decode_srWord_arithmetic` and
`decode_srWord_logic`. -/
theorem scalarArithmeticAndLogicResults : Obligations.ScalarArithmeticAndLogicResults := by
  unfold Obligations.ScalarArithmeticAndLogicResults
  refine ⟨fun s d a b l => ?_, fun s d a b l => ?_, fun k _ => slotClass_scalar_iff k, fun d a b l hb => ?_, fun w => ?_⟩
  · intro A B
    have hform := fun f => s.sr2_posted d a b l 1 f
    exact ⟨hform _, hform _, minS_eq A B ▸ hform minS, maxS_eq A B ▸ hform maxS, minU_eq A B ▸ hform minU, maxU_eq A B ▸ hform maxU⟩
  · intro A B sh
    have hform := fun f => s.sr2_posted d a b l 1 f
    exact ⟨hform _, hform _, hform _, hform fun x y => x &&& ~~~y, hform fun x y => x <<< shAmt y, hform fun x y => x >>> shAmt y,
      hform fun x y => x.sshiftRight (shAmt y), _, hform fun x y => x.rotateLeft (shAmt y),
      fun i hi => getLsbD_rotateLeft_of_lt A (Nat.mod_lt _ (by decide)) hi⟩
  · exact ⟨decode_srWord_arithmetic d a b hb, decode_srWord_logic d a b hb⟩
  · have hrow : ∀ {n : Nat}, n < (w.extractLsb' 0 10).toNat → ∀ v ≤ n, seg w 0 10 v = false := fun hn v hv =>
      beq_eq_false_iff_ne.2 fun h => by
        have hval := congrArg BitVec.toNat h
        rw [BitVec.toNat_ofNat, Nat.mod_eq_of_lt (hv.trans_lt (hn.trans (BitVec.isLt _)))] at hval
        exact absurd hval (by simp only [Sys2Proof.fld]; omega)
    refine ⟨fun hw h => ?_, fun hw h => ?_⟩
    · refine decode_error_of_major (e := (1, decodeScalar01)) (by simp [majors]) (congrArg BitVec.toNat hw) ?_
      simp [decodeScalar01, hrow h]
    · refine decode_error_of_major (e := (2, decodeScalar02)) (by simp [majors]) (congrArg BitVec.toNat hw) ?_
      simp [decodeScalar02, hrow h]

/-- Settles O2: the comparison's result by `scmpHolds_of_mem`; the words by `decode_srWord_scmp` and `decode_srWord_sel`. -/
theorem scalarCompareAndSelect : Obligations.ScalarCompareAndSelect := by
  unfold Obligations.ScalarCompareAndSelect
  refine ⟨fun s d a b l => ?_, fun k _ => slotClass_scalar_iff k,
    fun d a b l hb => ⟨decode_srWord_scmp d a b hb, fun c => decode_srWord_sel d a b c hb⟩, fun w => ⟨fun hw h => ?_, fun hw h => ?_⟩⟩
  · intro A B
    refine ⟨fun c p hp => ?_, fun c => s.sr2_posted d a b l 1 _⟩
    obtain rfl := scmpHolds_of_mem hp
    exact s.sr2_posted d a b l 1 fun x y => ofBool (scmpHolds c x y)
  · obtain ⟨e, hrow⟩ := decodeScalar06_error h
    exact ⟨e, decode_error_of_major (e := (6, decodeScalar06)) (by simp [majors]) (congrArg BitVec.toNat hw) hrow⟩
  · refine ⟨.illegalFields, decode_error_of_major (e := (7, decodeScalar07)) (by simp [majors]) (congrArg BitVec.toNat hw) ?_⟩
    exact if_neg fun hseg => h (beq_iff_eq.1 hseg)

end Sys2Proof.Machine
end


section
/-! One-source operations, products, quotients, immediates and literals (O3). -/

namespace Sys2Proof.Machine

/-! ### Counts of bits, reversed bytes (R102) -/

/-- Above a number's leading one are the zeros that are counted. -/
theorem clzNat_spec {n x : Nat} (hx : x < 2 ^ n) : clzNat n x ≤ n ∧ (∀ i, n - clzNat n x ≤ i → x.testBit i = false) ∧
    (clzNat n x < n → x.testBit (n - 1 - clzNat n x) = true) := by
  by_cases h0 : x = 0
  · simp [clzNat, h0]
  · have hlog : x.log2 < n := (Nat.log2_lt h0).2 hx
    rw [clzNat, if_neg h0]
    refine ⟨by omega, fun i hi => Nat.testBit_lt_two_pow ?_, fun _ => ?_⟩
    · exact Nat.lt_log2_self.trans_le (Nat.pow_le_pow_right (by decide) (by omega))
    · rw [show n - 1 - (n - 1 - x.log2) = x.log2 by omega]
      exact Nat.testBit_log2 h0

/-- Below a number's lowest one are the zeros that are counted. -/
theorem ctzNat_spec (n x : Nat) : ctzNat n x ≤ n ∧ (∀ i, i < ctzNat n x → x.testBit i = false) ∧
    (ctzNat n x < n → x.testBit (ctzNat n x) = true) := by
  unfold ctzNat
  cases h : (List.range n).find? fun i => x.testBit i with
  | none =>
    rw [List.find?_range_eq_none] at h
    exact ⟨le_rfl, fun i hi => by simpa using h i hi, fun hlt => absurd hlt (lt_irrefl n)⟩
  | some k =>
    obtain ⟨hk, hmem, hbelow⟩ := List.find?_range_eq_some.1 h
    exact ⟨(List.mem_range.1 hmem).le, fun i hi => by simpa using hbelow i hi, fun _ => hk⟩

theorem leNat_byte (bs : List Byte) (k : Nat) : leNat bs / 256 ^ k % 256 = (bs.getD k 0).toNat := by
  induction bs generalizing k with
  | nil => simp [leNat]
  | cons b bs ih =>
    have hb := b.isLt
    cases k with
    | zero => simp only [leNat, pow_zero, Nat.div_one, List.getD_cons_zero]; omega
    | succ k =>
      rw [pow_succ', ← Nat.div_div_eq_div_mul, List.getD_cons_succ, ← ih k, leNat]
      congr 2
      omega

theorem leBytes_getD {n i : Nat} (x : Nat) (h : i < n) : (leBytes n x).getD i 0 = BitVec.ofNat 8 (x / 256 ^ i) := by
  induction n generalizing x i with
  | zero => omega
  | succ n ih =>
    cases i with
    | zero => simp [leBytes]
    | succ i =>
      rw [leBytes, List.getD_cons_succ, ih _ (by omega), Nat.shiftRight_eq_div_pow, Nat.div_div_eq_div_mul, pow_succ' 256]

/-- The bytes of a word of which the lowest `n` are reversed, from the lowest up. -/
theorem bswap_byte {n k : Nat} (A : Word) (hn : n ≤ 8) (hk : k < 8) :
    (bswap n A).extractLsb' (8 * k) 8 = if k < n then A.extractLsb' (8 * (n - 1 - k)) 8 else 0 := by
  have hlen : (leBytes n A.toNat).reverse.length = n := by rw [List.length_reverse, leBytes_length]
  have hlt : leNat (leBytes n A.toNat).reverse < 2 ^ 64 := by
    refine (leNat_lt _).trans_le ?_
    rw [hlen]
    exact Nat.pow_le_pow_right (by decide) hn
  refine BitVec.eq_of_toNat_eq ?_
  rw [BitVec.extractLsb'_toNat, bswap, BitVec.toNat_ofNat, Nat.mod_eq_of_lt hlt, Nat.shiftRight_eq_div_pow, pow_mul]
  refine (leNat_byte _ k).trans ?_
  rw [List.getD_eq_getElem?_getD]
  split
  · next hkn =>
    rw [List.getElem?_reverse (by rwa [leBytes_length]), leBytes_length, ← List.getD_eq_getElem?_getD, leBytes_getD _ (by omega),
      BitVec.toNat_ofNat, BitVec.extractLsb'_toNat, Nat.shiftRight_eq_div_pow, pow_mul]
    rfl
  · next hkn =>
    rw [List.getElem?_eq_none (by rw [hlen]; omega)]
    rfl

/-! ### Products and quotients (R103, R104) -/

/-- The high half of a product of natural numbers. -/
theorem mulHigh_natCast (m n : Nat) : mulHigh m n = BitVec.ofNat 64 (m * n / 2 ^ 64) := by
  rw [mulHigh, ← BitVec.ofInt_natCast]
  norm_cast

theorem divS_remS_overflow {A B : Word} (hA : A = BitVec.intMin 64) (hB : B = -1) : divS A B = A ∧ remS A B = 0 := by
  subst hA hB
  decide

section
variable (A B : Word)

/-- The signed quotient and remainder fit a word, but for the most negative number by -1. -/
theorem divS_toInt (hB : B ≠ 0) (h : ¬(A = BitVec.intMin 64 ∧ B = -1)) : (divS A B).toInt = A.toInt.tdiv B.toInt := by
  have hfits : A ≠ BitVec.intMin 64 ∨ B ≠ -1#64 := not_and_or.1 h
  rw [divS, if_neg hB, ← BitVec.toInt_sdiv_of_ne_or_ne A B hfits, BitVec.ofInt_toInt]

theorem remS_toInt (hB : B ≠ 0) : (remS A B).toInt = A.toInt.tmod B.toInt := by
  rw [remS, if_neg hB, ← BitVec.toInt_srem, BitVec.ofInt_toInt]

theorem divU_remU (hB : B ≠ 0) :
    A.toNat = (divU A B).toNat * B.toNat + (remU A B).toNat ∧ (remU A B).toNat < B.toNat := by
  have hpos : 0 < B.toNat := Nat.pos_of_ne_zero fun h => hB (BitVec.eq_of_toNat_eq h)
  have hdiv : A.toNat / B.toNat < 2 ^ 64 := (Nat.div_le_self _ _).trans_lt A.isLt
  have hmod : A.toNat % B.toNat < 2 ^ 64 := (Nat.mod_le _ _).trans_lt A.isLt
  rw [divU, remU, if_neg hB, if_neg hB, BitVec.toNat_ofNat, BitVec.toNat_ofNat, Nat.mod_eq_of_lt hdiv, Nat.mod_eq_of_lt hmod]
  exact ⟨(Nat.div_add_mod' _ _).symm, Nat.mod_lt _ hpos⟩

/-- The low bits of a word are a mask of it. -/
theorem setWidth_setWidth_eq_and (n : Nat) : (A.setWidth n).setWidth 64 = A &&& BitVec.ofNat 64 (2 ^ n - 1) := by
  refine BitVec.eq_of_getLsbD_eq fun i hi => ?_
  rw [BitVec.getLsbD_and, BitVec.getLsbD_ofNat, Nat.testBit_two_pow_sub_one, BitVec.getLsbD_setWidth, BitVec.getLsbD_setWidth,
    decide_eq_true hi, Bool.true_and, Bool.true_and, Bool.and_comm]

end

/-! ### Immediates and literals (R75, R76, R107, R108) -/

theorem State.si_posted (s : State) (d a : BitVec 5) (i : BitVec 16) (f : Word → Word → Word) :
    s.si d a i f = .next (s.posted (regResult d 1 (f (s.rs a) (i.signExtend 64)))) := by
  rw [State.si, State.ws_posted]

theorem State.siShift_posted (s : State) (d a : BitVec 5) (i : BitVec 6) (f : Word → Nat → Word) :
    s.siShift d a i f = .next (s.posted (regResult d 1 (f (s.rs a) i.toNat))) := by
  rw [State.siShift, State.ws_posted]

theorem exec_movl (s : State) (d : BitVec 5) (k : BitVec 3) :
    exec (.movl d k) s = .next (s.posted (regResult d 1 (literalValue s.word k.toNat))) :=
  congrArg _ (s.ws_posted d 1 _)

/-- A literal word is one with ones in bits 31 to 29. -/
theorem isLiteral_iff (w : BitVec 32) : isLiteral w = true ↔ w.extractLsb' 29 3 = 7#3 := by
  rw [isLiteral, bits, decide_eq_true_iff, ← BitVec.toNat_inj, BitVec.extractLsb'_toNat]
  rfl

theorem setWidth_literal (p : BitVec 29) : (7#3 ++ p : BitVec 32).setWidth 29 = p := by
  rw [BitVec.setWidth_eq_extractLsb' (by decide)]
  exact BitVec.extractLsb'_append_eq_right

section
variable {word : Nat → BitVec 32} {k : Nat} {lo : BitVec 29} (hlo : word k = 7#3 ++ lo)
include hlo

theorem literalValue_pair {hi : BitVec 29} (hhi : word (k + 1) = 7#3 ++ hi) (hk : k < 7) :
    literalValue word k = (hi ++ lo).signExtend 64 := by
  have hlit : isLiteral (word (k + 1)) = true := (isLiteral_iff _).2 (hhi ▸ BitVec.extractLsb'_append_eq_left)
  rw [literalValue, if_pos ⟨hk, hlit⟩, hhi, hlo, setWidth_literal, setWidth_literal]

theorem literalValue_single (h : ¬(k < 7 ∧ (word (k + 1)).extractLsb' 29 3 = 7#3)) : literalValue word k = lo.signExtend 64 := by
  rw [literalValue, if_neg (by rwa [isLiteral_iff]), hlo, setWidth_literal]

end

/-! ### The obligation -/

/-- Settles O3: each form with the facts of its result above. -/
theorem scalarUnaryMultiplyDivideAndImmediateResults : Obligations.ScalarUnaryMultiplyDivideAndImmediateResults := by
  unfold Obligations.ScalarUnaryMultiplyDivideAndImmediateResults
  refine ⟨fun s d a => ?_, fun s d a b l => ?_, fun s d a i n => ?_⟩
  · intro A
    have hform := fun f => s.sr1_posted d a f
    have hlt : A.toNat < 2 ^ 64 := A.isLt
    obtain ⟨hclz, hclz0, hclz1⟩ := clzNat_spec hlt
    obtain ⟨hctz, hctz0, hctz1⟩ := ctzNat_spec 64 A.toNat
    refine ⟨hform id, ⟨_, hclz, hform fun x => BitVec.ofNat 64 (clzNat 64 x.toNat), hclz0, hclz1⟩,
      ⟨_, hctz, hform fun x => BitVec.ofNat 64 (ctzNat 64 x.toNat), hctz0, hctz1⟩, hform fun x => BitVec.ofNat 64 (popNat 64 x.toNat),
      ?_, hform fun x => (x.setWidth 8).signExtend 64, hform fun x => (x.setWidth 16).signExtend 64,
      hform fun x => (x.setWidth 32).signExtend 64, ?_, ?_, ?_⟩
    · intro i n hi
      simp only [List.mem_cons, List.not_mem_nil, or_false, Prod.mk.injEq] at hi
      obtain ⟨rfl, rfl⟩ | ⟨rfl, rfl⟩ | ⟨rfl, rfl⟩ := hi
      · exact ⟨_, hform (bswap 2), fun k => bswap_byte A (by decide)⟩
      · exact ⟨_, hform (bswap 4), fun k => bswap_byte A (by decide)⟩
      · exact ⟨_, hform (bswap 8), fun k => bswap_byte A (by decide)⟩
    · exact (hform fun x => (x.setWidth 8).setWidth 64).trans (by rw [setWidth_setWidth_eq_and]; rfl)
    · exact (hform fun x => (x.setWidth 16).setWidth 64).trans (by rw [setWidth_setWidth_eq_and]; rfl)
    · exact (hform fun x => (x.setWidth 32).setWidth 64).trans (by rw [setWidth_setWidth_eq_and]; rfl)
  · intro A B
    have hform := fun lat f => s.sr2_posted d a b l lat f
    refine ⟨hform 3 _, hform 3 fun x y => mulHigh x.toInt y.toInt, ?_, ⟨_, _, hform 20 divS, hform 20 remS, ?_, ?_, ?_⟩,
      _, _, hform 20 divU, hform 20 remU, fun hB => ⟨if_pos hB, if_pos hB⟩, divU_remU A B⟩
    · exact (hform 3 fun x y => mulHigh x.toNat y.toNat).trans (by rw [mulHigh_natCast])
    · exact fun hB => ⟨if_pos hB, if_pos hB⟩
    · exact divS_remS_overflow
    · exact fun hB h => ⟨divS_toInt A B hB h, remS_toInt A B hB⟩
  · intro A k
    have hform := fun f => s.si_posted d a i f
    have hshift := fun f => s.siShift_posted d a n f
    refine ⟨hform _, hform _, hform _, hform _, hshift fun x y => x <<< y, hshift fun x y => x >>> y, hshift BitVec.sshiftRight,
      fun j lo hi hlo => ⟨fun hhi hj => ?_, fun h => ?_⟩, rfl, fun _ => rfl⟩
    · rw [exec_movl, literalValue_pair hlo hhi (by have := j.isLt; bv_omega)]
    · rw [exec_movl, literalValue_single hlo]
      rintro ⟨hlt, hlit⟩
      exact h.elim (by rintro rfl; exact absurd hlt (by decide)) fun hne => hne hlit

end Sys2Proof.Machine
end


section
/-! The passing of control from a bundle: the loop-back rule (O12). -/

namespace Sys2Proof.Machine

/-! ### A context written again -/

theorem aset_aset {α : Type} (l : List (Nat × α)) (k : Nat) (x y : α) : aset (aset l k x) k y = aset l k y := by
  induction l with
  | nil => simp [aset]
  | cons p r ih =>
    obtain ⟨j, z⟩ := p
    by_cases hkj : k = j
    · simp [aset, hkj]
    · by_cases hlt : k < j
      · simp [aset, hkj, hlt]
      · simp [aset, hkj, hlt, ih]

section
variable (s : State)

theorem State.setCtx_setCtx (c : Nat) (x y : Ctx) : (s.setCtx c x).setCtx c y = s.setCtx c y :=
  congrArg (fun l => { s with ctxs := l }) (aset_aset s.ctxs c x y)

theorem State.modCur_modCur (f g : Ctx → Ctx) : (s.modCur f).modCur g = s.modCur fun c => g (f c) := by
  have hcur : (s.modCur f).cur = f s.cur := s.ctx_modCtx s.iss.ctx f
  exact (congrArg ((s.modCur f).setCtx s.iss.ctx) (congrArg g hcur)).trans (s.setCtx_setCtx _ _ _)

/-- Results posted, and then the issuing context changed: one change of it. -/
theorem State.posted_modCur (rs : List (Nat × Eff)) (f : Ctx → Ctx) : (s.posted rs).modCur f = s.modCur fun c =>
    f { c with pend := c.pend ++ rs.map fun r => { at_ := s.iss.cyc + r.1, inChk := false, eff := r.2 } } := by
  induction rs generalizing s with
  | nil => simp [State.posted]
  | cons r rs ih =>
    refine (ih (s.push r.1 r.2)).trans ((s.modCur_modCur _ _).trans ?_)
    simp [State.push]

end

/-! ### The rule on the loop stack -/

section
variable {pc : Word} {e : LoopEntry} {r : List LoopEntry}

theorem loopBack_of_ne (h : e.fin ≠ pc) : loopBack pc (e :: r) = (pc + 32, e :: r, []) := if_pos h

theorem loopBack_of_lt (h : e.fin = pc) (hrem : 1 < e.remaining.toNat) :
    loopBack pc (e :: r) = (e.start, { e with remaining := e.remaining - 1 } :: r, e.steps) := by
  rw [loopBack, if_neg (not_not.2 h), if_pos (by rw [BitVec.ult_eq_decide]; exact decide_eq_true hrem)]

theorem loopBack_of_le (h : e.fin = pc) (hrem : e.remaining.toNat ≤ 1) : loopBack pc (e :: r) = loopBack pc r := by
  rw [loopBack, if_neg (not_not.2 h), if_neg (by rw [BitVec.ult_eq_decide, decide_eq_true_iff]; exact not_lt.2 hrem)]

end

/-- What a transfer drops of the loop stack, and what it leaves (R121). -/
theorem popLoops_split (pc target : Word) (ls : List LoopEntry) : ∃ out, ls = out ++ popLoops pc target ls ∧
    (∀ e ∈ out, e.holds pc = true ∧ e.holds target = false) ∧
    ∀ e, (popLoops pc target ls).head? = some e → ¬(e.holds pc = true ∧ e.holds target = false) := by
  induction ls with
  | nil => exact ⟨[], rfl, by simp, by simp [popLoops]⟩
  | cons e r ih =>
    by_cases h : (e.holds pc && !e.holds target) = true
    · obtain ⟨out, hsplit, hout, hleft⟩ := ih
      rw [popLoops, if_pos h]
      refine ⟨e :: out, congrArg _ hsplit, List.forall_mem_cons.2 ⟨by simpa using h, hout⟩, hleft⟩
    · rw [popLoops, if_neg h]
      refine ⟨[], rfl, by simp, fun x hx => ?_⟩
      obtain rfl : e = x := Option.some.inj hx
      simpa using h

/-- The registers that a loop-back's steps write, and what each gets: s0 discards its sum (R74, R120). -/
def stepResults (v : Vis) (steps : List (BitVec 5 × Word)) : List (BitVec 5 × Word) := (stepWrites v steps).filter (·.1 ≠ 0)

theorem stepResults_fst (v : Vis) (steps : List (BitVec 5 × Word)) :
    (stepResults v steps).map (·.1) = ((steps.map (·.1)).dedup).filter (· ≠ 0) := by
  simp [stepResults, stepWrites, List.filter_map, Function.comp_def]

theorem stepResults_snd {v : Vis} {steps : List (BitVec 5 × Word)} {w : BitVec 5 × Word} (h : w ∈ stepResults v steps) :
    w.2 = v.s w.1 + ((steps.filter (·.1 = w.1)).map (·.2)).sum := by
  obtain ⟨r, -, rfl⟩ := List.mem_map.1 (List.mem_of_mem_filter h)
  rfl

/-- Registers written one after another, each at 1 cy. -/
theorem State.foldl_ws (s : State) (ws : List (BitVec 5 × Word)) : ws.foldl (fun s w => s.ws w.1 1 w.2) s =
    s.posted ((ws.filter (·.1 ≠ 0)).map fun w => (1, .sreg w.1 w.2)) := by
  induction ws generalizing s with
  | nil => rfl
  | cons w ws ih =>
    rw [List.foldl_cons, ih, State.ws_posted]
    by_cases h : w.1 = 0
    · rw [regResult, if_pos h, List.filter_cons_of_neg (by simpa using h)]
      rfl
    · rw [regResult, if_neg h, List.filter_cons_of_pos (by simpa using h)]
      rfl

/-! ### Control passes -/

/-- The state with the loop state that its bundle gave (R117). -/
def State.looped (s : State) : State :=
  match s.iss.loops with
  | none => s
  | some l => s.modVis fun v => { v with loops := l.1, steps := l.2 }

/-- The issuing context's visible state with the loop state that the bundle gave. -/
def State.loopVis (s : State) : Vis :=
  match s.iss.loops with
  | none => s.cur.vis
  | some l => { s.cur.vis with loops := l.1, steps := l.2 }

section
variable (s : State)

@[simp] theorem State.looped_iss : s.looped.iss = s.iss := by
  unfold State.looped
  split <;> rfl

@[simp] theorem State.looped_cur : s.looped.cur = { s.cur with vis := s.loopVis } := by
  unfold State.looped State.loopVis
  split
  · rfl
  · exact s.ctx_modCtx s.iss.ctx _

theorem State.setLoops_loopVis (ls : List LoopEntry) : (s.setLoops ls s.loopVis.steps).loopVis = { s.loopVis with loops := ls } := by
  change ({ s.cur.vis with loops := ls, steps := s.loopVis.steps } : Vis) = _
  unfold State.loopVis
  split <;> rfl

/-- A change of the issuing context takes the loop state with it. -/
theorem State.looped_modCur (f : Ctx → Ctx) : s.looped.modCur f = s.modCur fun c => f { c with vis := s.loopVis } := by
  unfold State.looped State.loopVis
  split
  · rfl
  · exact s.modCur_modCur _ _

variable {s}

theorem State.passControl_next (h : s.iss.xfer = none) : s.passControl =
    (s.posted ((stepResults s.loopVis (loopBack s.iss.pc s.loopVis.loops).2.2).map fun w => (1, .sreg w.1 w.2))).modCur fun c =>
      { c with pc := (loopBack s.iss.pc s.loopVis.loops).1
               vis := { s.loopVis with loops := (loopBack s.iss.pc s.loopVis.loops).2.1 } } := by
  have hpass : s.passControl = (let v := s.looped.cur.vis
      ((stepWrites v (loopBack s.iss.pc v.loops).2.2).foldl (fun s w => s.ws w.1 1 w.2) s.looped).modCur fun c =>
        { c with pc := (loopBack s.iss.pc v.loops).1, vis := { c.vis with loops := (loopBack s.iss.pc v.loops).2.1 } }) := by
    unfold State.passControl State.looped
    cases s.iss.loops <;> simp only [h, State.modVis, State.modCur, State.modCtx_iss]
  rw [hpass]
  simp only [State.looped_cur, State.foldl_ws, State.posted_modCur, State.looped_modCur, State.looped_iss]
  rfl

theorem State.passControl_transfer {x : Xfer} (h : s.iss.xfer = some x) : s.passControl = s.modCur fun c =>
    { c with pc := x.target, vis := { s.loopVis with
      loops := if x.pops then popLoops s.iss.pc x.target s.loopVis.loops else s.loopVis.loops } } := by
  have hpass : s.passControl = s.looped.modCur fun c => { c with pc := x.target, vis := { c.vis with
      loops := if x.pops then popLoops s.iss.pc x.target c.vis.loops else c.vis.loops } } := by
    unfold State.passControl State.looped
    cases s.iss.loops <;> simp only [h, State.modVis, State.modCur, State.modCtx_iss]
  rw [hpass, State.looped_modCur]

end

/-- Settles O12: without a transfer `State.passControl_next` with what `loopBack` does on each stack, with one
`State.passControl_transfer` and `popLoops_split`. -/
theorem loopBackRule : Obligations.LoopBackRule := by
  unfold Obligations.LoopBackRule
  intro s v pc
  have hv : v = s.loopVis := rfl
  refine ⟨fun hx => ⟨fun h => ?_, fun e r hloops hfin => ⟨fun hrem => ?_, fun hrem => ?_⟩⟩, fun x hx => ?_⟩
  · have hback : loopBack pc v.loops = (pc + 32, v.loops, []) := by
      obtain hnil | ⟨e, r, hcons, hne⟩ := h
      · rw [hnil]
        rfl
      · rw [hcons, loopBack_of_ne hne]
    rw [State.passControl_next hx, ← hv, hback]
    rfl
  · refine ⟨stepResults v e.steps, ?_, ?_, ?_, fun w hw => stepResults_snd hw⟩
    · rw [State.passControl_next hx, ← hv, hloops, loopBack_of_lt hfin hrem]
    · rw [stepResults_fst]
      exact (List.nodup_dedup _).filter _
    · intro q
      simp [stepResults_fst, and_comm]
  · have hback : loopBack pc v.loops = loopBack pc r := by rw [hloops, loopBack_of_le hfin hrem]
    have hset : (s.setLoops r v.steps).loopVis = { v with loops := r } := s.setLoops_loopVis r
    change s.passControl = { (s.setLoops r v.steps).passControl with iss := s.iss }
    rw [State.passControl_next hx, State.passControl_next (s := s.setLoops r v.steps) hx, State.posted_modCur, State.posted_modCur,
      hset, ← hv, hback]
    rfl
  · refine ⟨if x.pops then popLoops pc x.target v.loops else v.loops, ?_, State.passControl_transfer hx, fun h => by simp [h], fun h => ?_⟩
    · split
      · obtain ⟨out, hsplit, -⟩ := popLoops_split pc x.target v.loops
        exact ⟨out, hsplit.symm⟩
      · exact List.suffix_rfl
    · rw [if_pos h]
      exact popLoops_split pc x.target v.loops

end Sys2Proof.Machine
end


section
/-! The release of what a checkpoint bundle withholds, and what its instruction then does (O15). -/

namespace Sys2Proof.Machine

/-! ### The release (R357, R358) -/

/-- What the release of the issuing context's entries leaves: the translations held, the buffer empty, each entry performed. -/
def State.letGo (s : State) : State :=
  ((s.learnAll s.cur.wb).modCur fun c => { c with wb := [] }).perform s.iss.ctx s.iss.cyc (s.cur.wb.map s.mapped)

section
variable {s : State}

section
variable (k : State → State)

theorem State.release_waits (hheld : s.iss.held = false) (h : s.walksNeeded s.cur.wb ≠ []) :
    s.release k = s.blocked .loadBlock [] [] [] (s.walksNeeded s.cur.wb) := by
  simp [State.release, hheld, h]

theorem State.release_traps {t : TrapInfo} (hheld : s.iss.held = false) (hw : s.walksNeeded s.cur.wb = [])
    (h : s.releaseFault s.cur.wb = some t) : s.release k = s.raise t := by
  simp [State.release, hheld, hw, h]

theorem State.release_performs (h : s.iss.held = true ∨ (s.walksNeeded s.cur.wb = [] ∧ s.releaseFault s.cur.wb = none)) :
    s.release k = k s.letGo := by
  obtain hheld | ⟨hw, hf⟩ := h
  · simp [State.release, State.letGo, hheld]
  · simp [State.release, State.letGo, hw, hf]

end

theorem State.letGo_nothing (h : s.cur.wb = []) : s.letGo = s.modCur fun c => { c with wb := [] } := by
  rw [State.letGo, h]
  rfl

theorem State.modCur_modCur_of_same {f : Ctx → Ctx} (h : f s.cur = s.cur) (g : Ctx → Ctx) : (s.modCur f).modCur g = s.modCur g :=
  (s.modCur_modCur f g).trans (State.modCur_congr (congrArg g h))

end

/-! ### The obligation -/

/-- Settles O15: each of the three instructions releases what is withheld and goes on by `State.release_performs`; where nothing is, the
release writes the context as it stands. -/
theorem checkpointsReleasesAndHalt : Obligations.CheckpointsReleasesAndHalt := by
  unfold Obligations.CheckpointsReleasesAndHalt
  intro takes safely ends
  have hexec : ∀ (i : Instr) (does : State → State), (i, does) ∈ [(Instr.ckpt, takes), (.safe, safely), (.halt, ends)] →
      (∀ s, exec i s = .next (s.release does)) ∧ ∀ (s : State) (f : Ctx → Ctx), f s.cur = s.cur → does (s.modCur f) = does s := by
    intro i does h
    simp only [List.mem_cons, List.not_mem_nil, or_false, Prod.mk.injEq] at h
    obtain ⟨rfl, rfl⟩ | ⟨rfl, rfl⟩ | ⟨rfl, rfl⟩ := h
    · exact ⟨fun s => rfl, fun s f hf => State.modCur_modCur_of_same hf _⟩
    · refine ⟨fun s => rfl, fun s f hf => ?_⟩
      exact congrArg (fun t : State => { t with iss := { t.iss with safe := true } }) (State.modCur_modCur_of_same hf _)
    · refine ⟨fun s => rfl, fun s f hf => ?_⟩
      exact congrArg (fun t : State => ({ t with
        iss := { t.iss with halts := true }
        agenda := t.agenda ++ [{ at_ := t.now + 1, ev := .contextDone, due := { ctx := s.iss.ctx } }] } : State))
        (State.modCur_modCur_of_same hf _)
  refine ⟨fun s hwb i does h => ?_, fun s i does h => ?_⟩
  · obtain ⟨hrelease, hsame⟩ := hexec i does h
    have hok : s.walksNeeded s.cur.wb = [] ∧ s.releaseFault s.cur.wb = none := by
      rw [hwb]
      exact ⟨rfl, rfl⟩
    have hcur : ({ s.cur with wb := [] } : Ctx) = s.cur := by rw [← hwb]
    rw [hrelease, State.release_performs does (.inr hok), State.letGo_nothing hwb, hsame s _ hcur]
  · obtain ⟨hrelease, -⟩ := hexec i does h
    intro es gone
    rw [hrelease]
    exact ⟨fun hheld hw => congrArg _ (State.release_waits does hheld hw),
      fun t hheld hw ht => congrArg _ (State.release_traps does hheld hw ht), fun hok => congrArg _ (State.release_performs does hok)⟩

end Sys2Proof.Machine
end


section
/-! Atomics and fences at issue: what they need, and the place they take in the release of their bundle (O24). -/

namespace Sys2Proof.Machine

/-! ### An element of an atomic (R194, R205, R211) -/

/-- ea names bytes of the issuing context's scratchpad that an atomic of n bytes may act on at issue. -/
abbrev State.atomLocal (s : State) (n : Nat) (ea : Word) : Prop :=
  ∃ a, spaceOf ea = .localSp a ∧ ea.toNat % n = 0 ∧ s.storeTrap 2 n ea = none

/-- ea names bytes of a SYNC page, present in L1, that an atomic of n bytes may act on at issue. -/
abbrev State.atomSync (s : State) (n : Nat) (ea : Word) : Prop :=
  ∃ m e, s.nameable { win := false } n ea = true ∧ spaceOf ea = .global ea.toNat ∧
    s.translate (s.who s.iss.ctx) ea.toNat .rw = .ok m e ∧ e.sync = true ∧ s.storeWindow n ea 2 = none ∧
    (s.iss.held = true ∨ s.inL1 s.iss.ctx (m / 64) = true)

/-- Nothing of the granule of a local address has an error that an atomic on it finds (R427). -/
abbrev State.atomSound (s : State) (ea : Word) : Prop :=
  ∀ a, spaceOf ea = .localSp a → s.sound (spKey (clOf s.iss.ctx) (a / 64 * 64))

theorem fld_tag_of_global {ea : Word} {va : Nat} (h : spaceOf ea = .global va) : Machine.fld ea 56 8 = 0 := by
  by_contra hne
  simp only [spaceOf, if_neg hne] at h
  split_ifs at h

theorem fld_tag_of_local {ea : Word} {a : Nat} (h : spaceOf ea = .localSp a) : Machine.fld ea 56 8 ≠ 0 := by
  intro heq
  simp only [spaceOf, if_pos heq] at h
  cases h

section
variable {s : State} {n : Nat} {ea : Word} {ret : Bool}

theorem State.nameable_of_atomLocal (h : s.atomLocal n ea) : s.nameable { win := false } n ea = true := by
  obtain ⟨a, hsp, hal, -⟩ := h
  simp [State.nameable, hsp, hal]

/-- An atomic on sound scratchpad bytes needs nothing and raises nothing, but for a value returned in deterministic mode. -/
theorem State.atomGran_local {a : Nat} (hsp : spaceOf ea = .localSp a) (ht : s.storeTrap 2 n ea = none)
    (hdet : (ret && s.detOf s.iss.ctx) = false) (hs : s.poisoned (spKey (clOf s.iss.ctx) (a / 64 * 64)) 64 = none) :
    s.atomGran ret n ea = { lat := 8, sp := [spKey (clOf s.iss.ctx) (a / 64 * 64)] } := by
  simp only [State.atomGran, hsp, ht, hdet, hs, Bool.false_eq_true, if_false, Option.map_none]

/-- R211: a value-returning atomic in deterministic mode. -/
theorem State.atomGran_det (hdet : s.detOf s.iss.ctx = true) (h : s.atomLocal n ea ∨ s.atomSync n ea) :
    (s.atomGran true n ea).trap = some (s.issTrap 0x07 ea 0 2) ∧ (s.atomGran true n ea).line = none := by
  obtain ⟨a, hsp, -, ht⟩ | ⟨m, e, -, hsp, htr, hsync, hw, hline⟩ := h
  · simp only [State.atomGran, hsp, ht, hdet, Bool.true_and, if_true, and_self]
  · have hhere : (s.iss.held || s.inL1 s.iss.ctx (lineOf m)) = true := by simpa [lineOf] using hline
    simp only [State.atomGran, hsp, htr, hsync, hw, hdet, hhere, Bool.true_and, if_true, Option.none_or, and_self]

/-- An atomic that returns no value, on a sound SYNC page in L1. -/
theorem State.atomGran_sync {m : Nat} {e : Tlb} (hsp : spaceOf ea = .global ea.toNat)
    (htr : s.translate (s.who s.iss.ctx) ea.toNat .rw = .ok m e) (hw : s.storeWindow n ea 2 = none)
    (hline : s.iss.held = true ∨ s.inL1 s.iss.ctx (m / 64) = true) (hs : s.poisoned (m / 64 * 64) 64 = none) :
    (s.atomGran false n ea).trap = none ∧ (s.atomGran false n ea).line = none := by
  have hhere : (s.iss.held || s.inL1 s.iss.ctx (lineOf m)) = true := by simpa [lineOf] using hline
  simp only [State.atomGran, hsp, htr, hw, hs, hhere, Bool.false_and, Bool.false_eq_true, if_false, if_true, Option.none_or,
    Option.map_none, and_self]

end

/-! ### The elements of an atomic -/

theorem foldl_max_replicate (n k : Nat) : (List.replicate n k).foldl max 0 = if n = 0 then 0 else k := by
  have hself : ∀ m, (List.replicate m k).foldl max k = k := by
    intro m
    induction m with
    | zero => rfl
    | succ m ih => rw [List.replicate_succ, List.foldl_cons, max_self, ih]
  cases n with
  | zero => rfl
  | succ n => rw [List.replicate_succ, List.foldl_cons, Nat.zero_max, hself, if_neg n.succ_ne_zero]

/-- What granules without translations, reads and lines register, where none has a correctable error: nothing. -/
theorem State.loaded_of_local {s : State} {gs : List GLoad} (h : ∀ g ∈ gs, ∃ k lat, g = { lat := lat, sp := [k] } ∧
    ∀ x ∈ s.corr, x < k ∨ k + 64 ≤ x) : s.loaded gs = s := by
  have hnil : gs.flatMap (·.tlb) = [] ∧ gs.flatMap (·.reg) = [] ∧ gs.flatMap (·.used) = [] := by
    simp only [List.flatMap_eq_nil_iff]
    refine ⟨fun g hg => ?_, fun g hg => ?_, fun g hg => ?_⟩ <;> obtain ⟨k, lat, rfl, -⟩ := h g hg <;> rfl
  simp only [State.loaded, hnil, List.foldl_nil]
  have hclear : ∀ k ∈ gs.flatMap (·.sp), ∀ x ∈ s.corr, x < k ∨ k + 64 ≤ x := by
    intro k hk
    obtain ⟨g, hg, hmem⟩ := List.mem_flatMap.1 hk
    obtain ⟨k', lat, rfl, hx⟩ := h g hg
    obtain rfl := List.mem_singleton.1 hmem
    exact hx
  generalize gs.flatMap (·.sp) = ks at hclear
  induction ks with
  | nil => rfl
  | cons k ks ih =>
    obtain ⟨hk, hks⟩ := List.forall_mem_cons.1 hclear
    rw [List.foldl_cons, State.corrected_of_clear hk]
    exact ih hks

section
variable {s : State} {ret : Bool} {n : Nat} {eas : List Word} {rel : Bool}

section
variable (hfree : s.iss.held = true ∨ s.atomFenced s.iss.ctx rel = false)
  (hname : ∀ ea ∈ eas, s.nameable { win := false } n ea = true) (hline : ∀ ea ∈ eas, (s.atomGran ret n ea).line = none)
include hfree hname hline

/-- An atomic that waits for nothing, on addresses that it may name, ends by its first trap or goes on. -/
theorem State.atomAt_issues : s.atomAt ret n eas rel = ((eas.map (s.atomGran ret n)).findSome? (·.trap)).elim
    (.ok (((eas.map (s.atomGran ret n)).map (·.lat)).foldl max 0) (s.loaded (eas.map (s.atomGran ret n)))) .trap := by
  have hgood : eas.filter (s.nameable { win := false } n) = eas := List.filter_eq_self.2 hname
  have hlines : (eas.map (s.atomGran ret n)).filterMap (·.line) = [] :=
    List.filterMap_eq_nil_iff.2 fun g hg => by
      obtain ⟨ea, hea, rfl⟩ := List.mem_map.1 hg
      exact hline ea hea
  have hfenced : (!s.iss.held && decide (eas ≠ []) && s.atomFenced s.iss.ctx rel) = false := by
    obtain h | h := hfree <;> simp [h]
  have hbad : eas.find? (fun ea => !s.nameable { win := false } n ea) = none :=
    List.find?_eq_none.2 fun ea hea => by simp [hname ea hea]
  simp only [State.atomAt, hgood, hlines, hfenced, hbad, List.dedup_nil, ne_eq, not_true_eq_false, Bool.false_eq_true, or_self,
    if_false]
  cases (eas.map (s.atomGran ret n)).findSome? (·.trap) <;> rfl

/-- One whose elements raise nothing goes on. -/
theorem State.atomAt_ok (ht : ∀ ea ∈ eas, (s.atomGran ret n ea).trap = none) : s.atomAt ret n eas rel =
    .ok (((eas.map (s.atomGran ret n)).map (·.lat)).foldl max 0) (s.loaded (eas.map (s.atomGran ret n))) := by
  have hnone : (eas.map (s.atomGran ret n)).findSome? (·.trap) = none :=
    List.findSome?_eq_none_iff.2 (List.forall_mem_map.2 ht)
  rw [State.atomAt_issues hfree hname hline, hnone]
  rfl

end

/-- An atomic on the context's own sound scratchpad bytes issues at 8 cy, and nothing is read. -/
theorem State.atomAt_local (hfree : s.iss.held = true ∨ s.atomFenced s.iss.ctx rel = false) (hdet : (ret && s.detOf s.iss.ctx) = false)
    (hok : ∀ ea ∈ eas, s.atomLocal n ea ∧ s.atomSound ea) : s.atomAt ret n eas rel = .ok (if eas = [] then 0 else 8) s := by
  have hgran : ∀ ea ∈ eas, ∃ k, s.atomGran ret n ea = { lat := 8, sp := [k] } ∧ ∀ x ∈ s.corr, x < k ∨ k + 64 ≤ x := by
    intro ea hea
    obtain ⟨⟨a, hsp, -, ht⟩, hsound⟩ := hok ea hea
    exact ⟨_, State.atomGran_local hsp ht hdet (hsound a hsp).1, (hsound a hsp).2⟩
  have hlat : ((eas.map (s.atomGran ret n)).map (·.lat)) = List.replicate eas.length 8 := by
    rw [List.map_map, List.map_eq_replicate_iff]
    intro ea hea
    obtain ⟨k, hg, -⟩ := hgran ea hea
    rw [Function.comp_apply, hg]
  have hloaded : s.loaded (eas.map (s.atomGran ret n)) = s := State.loaded_of_local (List.forall_mem_map.2 fun ea hea => by
    obtain ⟨k, hg, hk⟩ := hgran ea hea
    exact ⟨k, 8, hg, hk⟩)
  rw [State.atomAt_ok hfree (fun ea hea => State.nameable_of_atomLocal (hok ea hea).1), hlat, hloaded]
  · simp only [foldl_max_replicate, List.length_eq_zero_iff]
  · intro ea hea
    obtain ⟨k, hg, -⟩ := hgran ea hea
    rw [hg]
  · intro ea hea
    obtain ⟨k, hg, -⟩ := hgran ea hea
    rw [hg]

/-- R211: in deterministic mode the first element of a value-returning atomic raises the memory-model exception. -/
theorem State.atomAt_det {ea : Word} (hfree : s.iss.held = true ∨ s.atomFenced s.iss.ctx rel = false) (hdet : s.detOf s.iss.ctx = true)
    (h : ∀ x ∈ ea :: eas, s.atomLocal n x ∨ s.atomSync n x) :
    s.atomAt true n (ea :: eas) rel = .trap (s.issTrap 0x07 ea 0 2) := by
  have hfirst := (State.atomGran_det hdet (h ea List.mem_cons_self)).1
  rw [State.atomAt_issues hfree (fun x hx => ?_) fun x hx => (State.atomGran_det hdet (h x hx)).2, List.map_cons, List.findSome?_cons, hfirst]
  · rfl
  · obtain hl | ⟨m, e, hn, -⟩ := h x hx
    · exact State.nameable_of_atomLocal hl
    · exact hn

end

/-! ### What an atomic orders (R206, R212) -/

/-- Later loads and atomics put behind the atomics so far, those of the bundle's later slots too. -/
def State.acquired (s : State) : State :=
  ({ s with iss := { s.iss with acq := true } } : State).modCur fun x => { x with acqAt := x.ents }

theorem State.withhold_eq (s : State) (k : EntryK) : s.withhold k = s.withheld k := rfl

theorem State.acquires_of_ne {sc : Scope} (s : State) (h : sc ≠ .ctx) : s.acquires true sc = s.acquired := by
  have hsc : (true && sc != .ctx) = true := by simpa using h
  rw [State.acquires, if_pos hsc]
  rfl

theorem releases_iff (o : Ord) : Ord.releases o = true ↔ o = .rel ∨ o = .ar := by cases o <;> simp [Ord.releases]

theorem acquires_iff (o : Ord) : Ord.acquires o = true ↔ o = .acq ∨ o = .ar := by cases o <;> simp [Ord.acquires]

theorem fences_eq (o : Ord) (sc : Scope) : Ord.fences o sc = decide ((o = .rel ∨ o = .ar) ∧ sc ≠ .ctx) := by
  rw [Bool.eq_iff_iff, decide_eq_true_iff, Ord.fences, Bool.and_eq_true, releases_iff, bne_iff_ne]

theorem State.ordered_eq (s : State) (o : Ord) (sc : Scope) : s.ordered (Ord.releases o) sc =
    if (o = .rel ∨ o = .ar) ∧ sc ≠ .ctx then s.withheld .fence else s := by
  simp only [State.ordered, Bool.and_eq_true, releases_iff, bne_iff_ne]
  rfl

theorem State.atomAcquires_eq (s : State) (o : Ord) (sc : Scope) : s.atomAcquires (Ord.acquires o) sc =
    if (o = .acq ∨ o = .ar) ∧ sc ≠ .ctx then { s.acquired with iss := { s.acquired.iss with late := true } } else s := by
  simp only [State.atomAcquires, Bool.and_eq_true, acquires_iff, bne_iff_ne]
  split
  · next h => rw [State.acquires_of_ne s h.2]
  · rfl

/-- What a fence makes reach its home, and what it puts behind it (R212). -/
theorem exec_fence (s : State) (k : FKind) (sc : Scope) : exec (.fence k sc) s = .next (
    let gone := (s.making fun s => s.famoLandAll s.iss.ctx).acquired
    if sc = .ctx then s
    else if k = .acq then gone
    else if k = .rel then s.withheld .fence
    else ((gone.making fun s => s.landAll s.iss.ctx).modCur fun x =>
      { x with fullAt := (x.wb.head?.map (·.ord)).getD x.ents }).withheld .fence) := by
  change execFence k sc s = _
  by_cases hsc : sc = .ctx
  · subst hsc
    cases k <;> simp [execFence, State.fullFence, State.acquireFence, State.ordered]
  · have hbeyond : (true && sc != .ctx) = true := by simpa using hsc
    cases k <;> simp only [execFence, State.fullFence, State.acquireFence, State.ordered, if_neg hsc, if_pos hbeyond,
      State.acquires_of_ne _ hsc, if_true, reduceCtorEq, if_false, State.withhold_eq]

/-- The bundle's own record with more bytes in view; with none it is the same. -/
theorem State.view_append (t : State) (new : List (Nat × Byte)) :
    (if new = [] then t else { t with iss := { t.iss with view := t.iss.view ++ new } }) =
      { t with iss := { t.iss with view := t.iss.view ++ new } } := by
  split
  · next hnil =>
    subst hnil
    rw [List.append_nil]
  · rfl

/-- The bytes that a fence makes visible to the rest of its bundle: those under way that it has changed (R86, R212). -/
theorem State.making_view (s : State) (f : State → State) : ∃ new : List (Nat × Byte),
    s.making f = { f s with iss := { (f s).iss with view := (f s).iss.view ++ new } } ∧
    ∀ p, p ∈ new ↔ p.1 ∈ s.underWayKeys ∧ s.byteNow p.1 ≠ (f s).byteNow p.1 ∧ p.2 = (f s).byteNow p.1 := by
  refine ⟨_, (f s).view_append (((s.underWayKeys).filter fun k => s.byteNow k ≠ (f s).byteNow k).map fun k => (k, (f s).byteNow k)), ?_⟩
  rintro ⟨k, b⟩
  simp only [List.mem_map, List.mem_filter, decide_eq_true_eq, Prod.mk.injEq]
  constructor
  · rintro ⟨k, ⟨hk, hne⟩, rfl, rfl⟩
    exact ⟨hk, hne, rfl⟩
  · rintro ⟨hk, hne, rfl⟩
    exact ⟨k, ⟨hk, hne⟩, rfl, rfl⟩

/-! ### The instructions -/

theorem fTy_bytes (ty : FTy) : FTy.bytes ty = if ty = .f32 then 4 else 2 := by cases ty <;> rfl

section
variable (s : State)

theorem exec_amo (d a b : BitVec 5) (o : Ord) (sc : Scope) (z : Bool) (f : AmoOp) : exec (.amo d a b o sc z f) s =
    s.loading (s.atomAt true (if z then 8 else 4) [s.rs a] (decide ((o = .rel ∨ o = .ar) ∧ sc ≠ .ctx))) fun lat t =>
      (((if (o = .rel ∨ o = .ar) ∧ sc ≠ .ctx then t.withheld .fence else t).withheld (.amo f z (s.rs a) (s.rs b) d lat)).atomAcquires
        (Ord.acquires o) sc) := by
  rw [← fences_eq]
  simp only [← State.ordered_eq]
  rfl

theorem exec_cas (d a b c : BitVec 5) (o : Ord) (sc : Scope) (z : Bool) : exec (.cas d a b c sc o z) s =
    s.loading (s.atomAt true (if z then 8 else 4) [s.rs a] (decide ((o = .rel ∨ o = .ar) ∧ sc ≠ .ctx))) fun lat t =>
      (((if (o = .rel ∨ o = .ar) ∧ sc ≠ .ctx then t.withheld .fence else t).withheld
        (.cas z (s.rs a) (s.rs b) (s.rs c) d lat)).atomAcquires (Ord.acquires o) sc) := by
  rw [← fences_eq]
  simp only [← State.ordered_eq]
  rfl

/-- The `famo` once its location has been checked (R209). -/
theorem exec_famo {lat : Nat} {t : State} {a b c : BitVec 5} {ty : FTy}
    (hat : s.atomAt false (if ty = .f32 then 4 else 2) [s.rs a] = .ok lat t) (hbar : s.barOk (s.rs c) = true) :
    exec (.famo a b c ty) s = .next (
      if s.detOf s.iss.ctx = true ∧ (Machine.fld (s.rs a) 56 8 = 0 ∨ 476 ≤ s.gathering) then s.raise (s.issTrap 0x07 (s.rs a) 0 2)
      else (t.nameBarrier (clOf s.iss.ctx) ((s.rs c).toNat % 2 ^ 23)).withheld
        (.famo ty (s.rs a) ((s.rs b).extractLsb' 0 32) (s.rs c))) := by
  change execFamo a b c ty s = _
  rw [execFamo, fTy_bytes, hat, State.loading, fld_low, extractLsb'_low _ (by decide)]
  simp only [hbar, Bool.not_true, Bool.false_eq_true, if_false, Bool.and_eq_true, Bool.or_eq_true, decide_eq_true_eq, ge_iff_le]
  rfl

theorem exec_vamo (t ix : BitVec 4) (b p : BitVec 5) (sz : Sz) (z : Bool) (f : AmoOp) : exec (.vamo t b ix p sz z f) s =
    let w := 8 * Sz.bytes sz
    let act := activeLanes w (s.rp p)
    let at_ := fun k => s.rs b + BitVec.ofInt 64 ((laneN w (s.rv ix) k : Int) * (Sz.bytes sz : Int))
    s.loading (s.atomAt z (Sz.bytes sz) (act.map at_)) fun lat u => u.withheld
      (.vamo f (decide (w = 64)) z (act.map fun k => (k, at_ k, BitVec.ofNat 64 (laneN w (s.rv t) k))) (s.vix t) lat) := by
  change execVamo t b ix p sz z f s = _
  simp only [execVamo, State.indexEls, List.map_map, Function.comp_def, if_true, Bool.false_eq_true, if_false]
  rfl

end

/-! ### The obligation -/

/-- Settles O24: an atomic's element by `State.atomGran_local`, `State.atomGran_det` and `State.atomGran_sync`, its issue by
`State.atomAt_local` and `State.atomAt_det`; the fences by `exec_fence` and `State.making_view`. -/
theorem atomicsEnterTheReleaseOfTheirBundle : Obligations.AtomicsEnterTheReleaseOfTheirBundle := by
  unfold Obligations.AtomicsEnterTheReleaseOfTheirBundle
  refine ⟨fun s d a b c t ix p oo sc z f sz fk => ?_, State.making_view⟩
  intro det key mine ok synced traps w at_ act rel free behind mark ahead
  have hahead : ∀ u : State, u.atomAcquires (Ord.acquires oo) sc = ahead u := fun u => u.atomAcquires_eq oo sc
  refine ⟨fun hfree hdet hok => ?_, fun hfree hdet h => ?_, fun hfree => ⟨fun ty hok hbar hal hg => ?_, fun ty hdet hbar hal h => ?_,
    fun hdet hok => ?_, fun k ks hdet hact hmine => ?_⟩, exec_fence s fk sc⟩
  · have hat : s.atomAt true (if z then 8 else 4) [s.rs a] (decide rel) = .ok 8 s :=
      State.atomAt_local hfree (by rw [Bool.true_and]; exact hdet) (List.forall_mem_singleton.2 hok)
    rw [exec_amo, exec_cas, hat]
    exact ⟨congrArg _ (hahead _), congrArg _ (hahead _)⟩
  · have hat : s.atomAt true (if z then 8 else 4) [s.rs a] (decide rel) = .trap (s.issTrap 0x07 (s.rs a) 0 2) :=
      State.atomAt_det hfree hdet (List.forall_mem_singleton.2 h)
    simp only [traps]
    rw [exec_amo, exec_cas, hat]
    exact ⟨rfl, rfl⟩
  · have hat : s.atomAt false (if ty = .f32 then 4 else 2) [s.rs a] = .ok 8 s :=
      State.atomAt_local hfree rfl (List.forall_mem_singleton.2 hok)
    obtain ⟨⟨x, hsp, -, -⟩, -⟩ := hok
    rw [exec_famo s hat ((s.barOk_iff _).2 ⟨hal, hbar⟩), if_neg]
    rintro ⟨hd, hglob | hfull⟩
    · exact fld_tag_of_local hsp hglob
    · exact absurd (hg hd) (not_lt.2 hfull)
  · have hbarOk := (s.barOk_iff (s.rs c)).2 ⟨hal, hbar⟩
    obtain ⟨hok, hfull⟩ | ⟨⟨m, e, hname, hsp, htr, -, hw, hline⟩, hsound⟩ := h
    · have hat : s.atomAt false (if ty = .f32 then 4 else 2) [s.rs a] = .ok 8 s :=
        State.atomAt_local hfree rfl (List.forall_mem_singleton.2 hok)
      exact (exec_famo s hat hbarOk).trans (by rw [if_pos ⟨hdet, .inr hfull⟩])
    · obtain ⟨htrap, hnone⟩ := State.atomGran_sync hsp htr hw hline (hsound m e htr)
      have hat := State.atomAt_ok (eas := [s.rs a]) hfree (List.forall_mem_singleton.2 hname) (List.forall_mem_singleton.2 hnone)
        (List.forall_mem_singleton.2 htrap)
      exact (exec_famo s hat hbarOk).trans (by rw [if_pos ⟨hdet, .inl (fld_tag_of_global hsp)⟩])
  · have hret : (z && s.detOf s.iss.ctx) = false := by
      rcases hdet with (hd : s.detOf s.iss.ctx = false) | hz
      · rw [hd, Bool.and_false]
      · rw [hz, Bool.false_and]
    have hat : s.atomAt z (Sz.bytes sz) (act.map at_) = .ok (if act = [] then 0 else 8) s := by
      rw [State.atomAt_local hfree hret (List.forall_mem_map.2 hok)]
      simp only [List.map_eq_nil_iff]
    exact (exec_vamo s t ix b p sz z f).trans (congrArg (State.loading s · _) hat)
  · have hat : s.atomAt true (Sz.bytes sz) (act.map at_) = .trap (s.issTrap 0x07 (at_ k) 0 2) := by
      have hlocal := List.forall_mem_map.2 hmine
      rw [hact, List.map_cons] at hlocal ⊢
      exact State.atomAt_det hfree hdet fun x hx => .inl (hlocal x hx)
    exact (exec_vamo s t ix b p sz true f).trans (congrArg (State.loading s · _) hat)

end Sys2Proof.Machine
end


section
/-! Integer lanes: what the forms post, and the lane operations as operations on integers (O4, O5). -/

namespace Sys2Proof.Machine

/-! ### Posted lanes -/

/-- Only the active lanes' results modulo 2^w and their flags are posted. -/
theorem LanesPosted.congr {s t : State} {d : BitVec 4} {p : PReg} {w lat : Nat} {zero : Bool} {f g : Nat → Nat × Nat}
    (h : LanesPosted s t d p w lat zero f)
    (hfg : ∀ i, i < 2048 / w → active w p i = true → (f i).1 % 2 ^ w = (g i).1 % 2 ^ w ∧ (f i).2 = (g i).2) :
    LanesPosted s t d p w lat zero g := by
  obtain ⟨x, m, rfl, hlanes⟩ := h
  have hflags : laneFlags w p f = laneFlags w p g := by
    refine congrArg orFlags (List.map_congr_left fun i hi => ?_)
    obtain ⟨hrange, hact⟩ := List.mem_filter.1 hi
    exact (hfg i (List.mem_range.1 hrange) hact).2
  refine ⟨x, m, by rw [hflags], fun v i hi => (hlanes v i hi).trans ?_⟩
  exact ite_congr rfl (fun ha => (hfg i hi ha).1) fun _ => rfl

section
variable (s : State) (d a b : BitVec 4) (sb p : BitVec 5) (t : Ty)

/-- The integer form of two lanes, whose results are g's. -/
theorem State.vint2_lanes {f : Nat → Nat → Nat → Nat} {g : Nat → Nat}
    (h : ∀ k, f t.width (laneN t.width (s.rv a) k) (laneN t.width (s.rv b) k) = g k) :
    ∃ u, s.vint2 d a b p t f = .next u ∧ LanesPosted s u d (s.rp p) t.width 2 false fun k => (g k, 0) := by
  obtain rfl := funext h
  exact ⟨_, rfl, s.vmap_lanes d p t.width 2 false _⟩

/-- The saturating form of two lanes, by whether they are signed. -/
theorem State.vsat2_lanes {f : Int → Int → Int} {signed : Bool} {g : Nat → Nat × Nat}
    (h : ∀ k, let num := fun v => if signed then laneI t.width v k else (laneN t.width v k : Int)
      satInt t.width signed (f (num (s.rv a)) (num (s.rv b))) = g k) :
    ∃ u, s.vsat2 d a b p t signed f = .next u ∧ LanesPosted s u d (s.rp p) t.width 2 false g := by
  obtain rfl := funext h
  exact ⟨_, rfl, s.vmap_lanes d p t.width 2 false _⟩

/-- The integer form of a lane and a scalar register's low bits. -/
theorem State.vsInt_lanes {f : Nat → Nat → Nat → Nat} {g : Nat → Nat}
    (h : ∀ k, f t.width (laneN t.width (s.rv a) k) ((s.rs sb).toNat % 2 ^ t.width) = g k) :
    ∃ u, s.vsInt d a sb p t f = .next u ∧ LanesPosted s u d (s.rp p) t.width 2 false fun k => (g k, 0) := by
  obtain rfl := funext h
  exact ⟨_, rfl, s.vmap_lanes d p t.width 2 false _⟩

/-- A shift by a whole scalar register. -/
theorem State.vsShift_lanes {f : Nat → Nat → Nat → Nat} {g : Nat → Nat}
    (h : ∀ k, f t.width (laneN t.width (s.rv a) k) (s.rs sb).toNat = g k) :
    ∃ u, s.vsShift d a sb p t f = .next u ∧ LanesPosted s u d (s.rp p) t.width 2 false fun k => (g k, 0) := by
  obtain rfl := funext h
  exact ⟨_, rfl, s.vmap_lanes d p t.width 2 false _⟩

end

/-! ### Integers modulo 2^w -/

theorem ofSigned_natCast (w n : Nat) : ofSigned w n = n % 2 ^ w := by
  rw [ofSigned, ← Int.natCast_mod, Int.toNat_natCast]

theorem ofSigned_of_lt {w n : Nat} (h : n < 2 ^ w) : ofSigned w n = n := by rw [ofSigned_natCast, Nat.mod_eq_of_lt h]

theorem ofSigned_lt (w : Nat) (z : Int) : ofSigned w z < 2 ^ w := by
  have hpos : (0 : Int) < (2 ^ w : Nat) := by positivity
  have := Int.emod_lt_of_pos z hpos
  have := Int.emod_nonneg z hpos.ne'
  rw [ofSigned]
  omega

/-- Only the remainder matters. -/
theorem ofSigned_eq_of_sub {w : Nat} {y z c : Int} (h : y = z + 2 ^ w * c) : ofSigned w y = ofSigned w z := by
  rw [ofSigned, ofSigned, h]
  push_cast
  rw [Int.add_mul_emod_self_left]

theorem ofSigned_toSigned {w x : Nat} (hx : x < 2 ^ w) : ofSigned w (toSigned w x) = x := by
  rw [toSigned, Nat.mod_eq_of_lt hx]
  split
  · exact ofSigned_of_lt hx
  · rw [ofSigned_eq_of_sub (z := x) (c := -1) (by ring), ofSigned_of_lt hx]

theorem ofSigned_natAbs (w : Nat) (z : Int) : ofSigned w z.natAbs = ofSigned w |z| := by rw [Int.natCast_natAbs]

/-- A number and its lowest bits have the same signed value. -/
theorem toSigned_mod (w x : Nat) : toSigned w (x % 2 ^ w) = toSigned w x := by
  rw [toSigned, toSigned, Nat.mod_mod]

/-! ### Lane operations as operations on integers (R140, R141) -/

section
variable {w x y : Nat}

theorem lAdd_eq : lAdd w x y = ofSigned w (x + y) := by rw [lAdd, ← ofSigned_natCast, Nat.cast_add]

theorem lMul_eq : lMul w x y = ofSigned w (x * y) := by rw [lMul, ← ofSigned_natCast, Nat.cast_mul]

theorem lSub_eq (hy : y < 2 ^ w) : lSub w x y = ofSigned w (x - y) := by
  rw [lSub, ← ofSigned_natCast, Nat.cast_sub (by omega)]
  exact ofSigned_eq_of_sub (c := 1) (by push_cast; ring)

theorem lRsub_eq (hx : x < 2 ^ w) : lRsub w x y = ofSigned w (y - x) := lSub_eq hx

theorem lMulhn_eq (hx : x < 2 ^ w) (hy : y < 2 ^ w) : lMulhn w x y = ofSigned w (x * y / 2 ^ w) := by
  have hlt : x * y / 2 ^ w < 2 ^ w := Nat.div_lt_of_lt_mul (Nat.mul_lt_mul'' hx hy)
  rw [lMulhn, ← ofSigned_of_lt hlt]
  push_cast
  rfl

theorem lMin_eq (hx : x < 2 ^ w) (hy : y < 2 ^ w) : lMin w x y = ofSigned w (min (toSigned w x) (toSigned w y)) := by
  rw [lMin, min_comm, min_def_lt, apply_ite (ofSigned w), ofSigned_toSigned hx, ofSigned_toSigned hy]

theorem lMax_eq (hx : x < 2 ^ w) (hy : y < 2 ^ w) : lMax w x y = ofSigned w (max (toSigned w x) (toSigned w y)) := by
  rw [lMax, max_def_lt, apply_ite (ofSigned w), ofSigned_toSigned hx, ofSigned_toSigned hy]

theorem lMinn_eq (hx : x < 2 ^ w) : lMinn w x y = ofSigned w (min (x : Int) y) := by
  rw [← Nat.cast_min, ofSigned_of_lt (min_lt_of_left_lt hx)]
  rfl

theorem lMaxn_eq (hx : x < 2 ^ w) (hy : y < 2 ^ w) : lMaxn w x y = ofSigned w (max (x : Int) y) := by
  rw [← Nat.cast_max, ofSigned_of_lt (max_lt hx hy)]
  rfl

theorem lAnd_eq (hx : x < 2 ^ w) : lAnd w x y = ofSigned w ((x &&& y : Nat) : Int) :=
  (ofSigned_of_lt (Nat.and_le_left.trans_lt hx)).symm

theorem lOr_eq (hx : x < 2 ^ w) (hy : y < 2 ^ w) : lOr w x y = ofSigned w ((x ||| y : Nat) : Int) :=
  (ofSigned_of_lt (Nat.or_lt_two_pow hx hy)).symm

theorem lXor_eq (hx : x < 2 ^ w) (hy : y < 2 ^ w) : lXor w x y = ofSigned w ((x ^^^ y : Nat) : Int) :=
  (ofSigned_of_lt (Nat.xor_lt_two_pow hx hy)).symm

/-- A shift up, an amount of w or more leaving nothing. -/
theorem lShl_eq : lShl w x y = if y < w then x * 2 ^ y % 2 ^ w else 0 := by rw [lShl, Nat.shiftLeft_eq]

theorem lShr_eq : lShr w x y = if y < w then x / 2 ^ y else 0 := by rw [lShr, Nat.shiftRight_eq_div_pow]

theorem lShl_eq_ofSigned : lShl w x y = ofSigned w (if y < w then (x : Int) * 2 ^ y else 0) := by
  rw [lShl_eq, apply_ite (ofSigned w), ← ofSigned_natCast]
  push_cast
  rfl

theorem lShr_eq_ofSigned (hx : x < 2 ^ w) : lShr w x y = ofSigned w (if y < w then (x : Int) / 2 ^ y else 0) := by
  rw [lShr_eq, apply_ite (ofSigned w), ← ofSigned_of_lt ((Nat.div_le_self x (2 ^ y)).trans_lt hx)]
  push_cast
  rfl

end

/-- A signed sum or difference within the lane's range, or the nearest bound with SAT (R46). -/
theorem satInt_eq {w : Nat} {signed : Bool} {lo hi : Int} (z : Int) (hlo : (if signed then -(2 ^ (w - 1) : Nat) else 0 : Int) = lo)
    (hhi : (if signed then (2 ^ (w - 1) : Nat) - 1 else (2 ^ w : Nat) - 1 : Int) = hi) :
    satInt w signed z = (ofSigned w (min (max z lo) hi), if z < lo ∨ hi < z then 32 else 0) := by
  have hle : lo ≤ hi := by
    rw [← hlo, ← hhi]
    have := Nat.two_pow_pos (w - 1)
    have := Nat.two_pow_pos w
    split <;> omega
  simp only [satInt, hlo, hhi]
  rcases lt_or_ge z lo with hz | hz
  · rw [if_pos hz, if_pos (.inl hz), max_eq_right hz.le, min_eq_left hle]
    rfl
  rcases lt_or_ge hi z with hz' | hz'
  · rw [if_neg hz.not_gt, if_pos hz', if_pos (.inr hz'), max_eq_left hz, min_eq_right hz'.le]
    rfl
  · rw [if_neg hz.not_gt, if_neg hz'.not_gt, if_neg (not_or.2 ⟨hz.not_gt, hz'.not_gt⟩), max_eq_left hz, min_eq_left hz']

/-! ### Tables of forms -/

/-- What a table says of a form and its result, row by row. -/
theorem forall_of_rows {α β : Type} {P : α → β → Prop} {l : List (α × β)} (h : ∀ r ∈ l, P r.1 r.2) :
    ∀ a b, (a, b) ∈ l → P a b := fun a b hmem => h (a, b) hmem

/-- Settles O4: each form with its lane operation as an operation on integers. -/
theorem vectorIntegerLaneResults : Obligations.VectorIntegerLaneResults := by
  unfold Obligations.VectorIntegerLaneResults
  refine ⟨fun s d a b p t => ?_, fun s d a b p t => ?_⟩
  · intro w x y X Y
    have hx : ∀ k, x k < 2 ^ w := laneN_lt w (s.rv a)
    have hy : ∀ k, y k < 2 ^ w := laneN_lt w (s.rv b)
    refine forall_of_rows ?_
    simp only [List.forall_mem_cons, List.not_mem_nil, IsEmpty.forall_iff, implies_true, and_true]
    exact ⟨s.vint2_lanes d a b p t fun k => lAdd_eq, s.vint2_lanes d a b p t fun k => lSub_eq (hy k),
      s.vint2_lanes d a b p t fun k => lMul_eq, s.vint2_lanes d a b p t fun k => rfl,
      s.vint2_lanes d a b p t fun k => lMulhn_eq (hx k) (hy k), s.vint2_lanes d a b p t fun k => lMin_eq (hx k) (hy k),
      s.vint2_lanes d a b p t fun k => lMax_eq (hx k) (hy k), s.vint2_lanes d a b p t fun k => lMinn_eq (hx k),
      s.vint2_lanes d a b p t fun k => lMaxn_eq (hx k) (hy k),
      s.vint2_lanes d a a p t (f := fun w x _ => ofSigned w (toSigned w x).natAbs) fun _ => ofSigned_natAbs w _,
      s.vint2_lanes d a a p t (f := fun w x _ => ofSigned w (-(toSigned w x))) fun _ => rfl,
      _, rfl, (s.vmap_lanes d p t.width 2 false _).congr fun k _ _ => ⟨by rw [ofSigned_natCast], rfl⟩⟩
  · intro w clamp x y X Y lo hi
    refine forall_of_rows ?_
    simp only [List.forall_mem_cons, List.not_mem_nil, IsEmpty.forall_iff, implies_true, and_true]
    have hlo : (-(2 ^ (w - 1) : Nat) : Int) = lo := by push_cast; rfl
    have hhi : ((2 ^ (w - 1) : Nat) - 1 : Int) = hi := by push_cast; rfl
    have hnat : ((2 ^ w : Nat) - 1 : Int) = 2 ^ w - 1 := by push_cast; rfl
    exact ⟨s.vsat2_lanes d a b p t fun k => satInt_eq _ hlo hhi, s.vsat2_lanes d a b p t fun k => satInt_eq _ hlo hhi,
      s.vsat2_lanes d a b p t fun k => satInt_eq _ rfl hnat, s.vsat2_lanes d a b p t fun k => satInt_eq _ rfl hnat⟩

/-- Settles O5: bitwise forms as they are, shifts by what an amount below w and one of w or more leave. -/
theorem vectorLogicShiftAndScalarLaneResults : Obligations.VectorLogicShiftAndScalarLaneResults := by
  unfold Obligations.VectorLogicShiftAndScalarLaneResults
  refine ⟨fun s d a b p t => ?_, fun s d a sb p t => ?_⟩
  · intro w x y X
    have hform := fun f => s.vint2_lanes d a b p t (f := f) fun _ => rfl
    refine forall_of_rows ?_
    simp only [List.forall_mem_cons, List.not_mem_nil, IsEmpty.forall_iff, implies_true, and_true]
    obtain ⟨u, hshl, hlanes⟩ := s.vint2_lanes d a b p t fun _ => lShl_eq
    refine ⟨hform lAnd, hform lOr, hform lXor, hform lAndn, s.vint2_lanes d a a p t (f := fun w x _ => lNot w x) fun _ => rfl,
      ⟨u, hshl, hlanes.congr fun k _ _ => ⟨?_, rfl⟩⟩, s.vint2_lanes d a b p t fun _ => lShr_eq, hform lSra⟩
    split
    · exact Nat.mod_mod _ _
    · rfl
  · intro w x X n y Y
    have hx : ∀ k, x k < 2 ^ w := laneN_lt w (s.rv a)
    have hy : y < 2 ^ w := Nat.mod_lt _ (by positivity)
    have hY : toSigned w y = Y := toSigned_mod w n
    have hform := fun f => s.vsShift_lanes d a sb p t (f := f) fun _ => rfl
    refine forall_of_rows ?_
    simp only [List.forall_mem_cons, List.not_mem_nil, IsEmpty.forall_iff, implies_true, and_true, ← hY]
    exact ⟨s.vsInt_lanes d a sb p t fun _ => lAdd_eq, s.vsInt_lanes d a sb p t fun _ => lSub_eq hy,
      s.vsInt_lanes d a sb p t fun k => lRsub_eq (hx k), s.vsInt_lanes d a sb p t fun _ => lMul_eq,
      s.vsInt_lanes d a sb p t fun k => lMin_eq (hx k) hy, s.vsInt_lanes d a sb p t fun k => lMax_eq (hx k) hy,
      s.vsInt_lanes d a sb p t fun k => lMinn_eq (hx k), s.vsInt_lanes d a sb p t fun k => lMaxn_eq (hx k) hy,
      s.vsInt_lanes d a sb p t fun k => lAnd_eq (hx k), s.vsInt_lanes d a sb p t fun k => lOr_eq (hx k) hy,
      s.vsInt_lanes d a sb p t fun k => lXor_eq (hx k) hy, s.vsShift_lanes d a sb p t fun _ => lShl_eq_ofSigned,
      s.vsShift_lanes d a sb p t fun k => lShr_eq_ofSigned (hx k), hform lSra⟩

end Sys2Proof.Machine
end


section
/-! Floating-point lanes (O6). -/

namespace Sys2Proof.Machine

theorem firstNan_eq_none {f : Fmt} {xs : List FVal} : firstNan f xs = none ↔ ∀ x ∈ xs, x.isNan = false := by
  simp [firstNan]

@[simp] theorem FVal.isNan_neg (x : FVal) : x.neg.isNan = x.isNan := by cases x <;> rfl

theorem addF_of_no_nan {f : Fmt} {rm : Rm} {x y : FVal} (h : firstNan f [x, y] = none) : addF f rm x y = addNum f rm x y := by
  rw [addF, h]

theorem rsubF_of_nan {f : Fmt} {rm : Rm} {x y : FVal} {n : Nat} (h : firstNan f [x, y] = some n) :
    rsubF f rm x y = (n, snanFlag [x, y]) := by rw [rsubF, h]

/-- Without a NaN, the exchanged difference is the sum with the negated first operand. -/
theorem rsubF_of_no_nan {f : Fmt} {rm : Rm} {x y : FVal} (h : firstNan f [x, y] = none) : rsubF f rm x y = addF f rm y x.neg := by
  have hswap : firstNan f [y, x.neg] = none := by
    simp only [firstNan_eq_none, List.forall_mem_cons, FVal.isNan_neg] at h ⊢
    exact ⟨h.2.1, h.1, h.2.2⟩
  rw [rsubF, h, addF_of_no_nan hswap]

/-- The fused form: three lanes, the product and the addend negated as asked. -/
theorem State.vfused_lanes (s : State) (d a b c : BitVec 4) (p : BitVec 5) (t : Ty) (z np nc : Bool) {g : Nat → Nat × Nat}
    (h : ∀ k, let w := t.width
      let x := fun v => laneN w (s.rv v) k
      (if t.isFloat then fmaF (fmtOf t) s.fpMode np nc (decodeF (fmtOf t) (x a)) (decodeF (fmtOf t) (x b)) (decodeF (fmtOf t) (x c))
        else (ofSigned w ((if np then -((x a * x b : Nat) : Int) else (x a * x b : Nat)) + (if nc then -(x c : Int) else x c)), 0)) =
        g k) :
    ∃ u, s.vfused d a b c p t z np nc = .next u ∧ LanesPosted s u d (s.rp p) t.width 4 z g := by
  obtain rfl := funext h
  exact ⟨_, rfl, s.vmap_lanes d p t.width 4 z _⟩

/-- Settles O6: each form is the lane-by-lane form with the model's operation; the exchanged difference by whether an operand is
a NaN. -/
theorem vectorFloatLaneResults : Obligations.VectorFloatLaneResults := by
  unfold Obligations.VectorFloatLaneResults
  intro s d a b c sb p t z w g rm x y r X Y C R
  have hform := fun f => s.vmap_lanes d p w 4 false f
  refine ⟨forall_of_rows ?_, ⟨_, rfl, (hform fun k => rsubF g rm (X k) R).congr fun k _ _ => ?_⟩, ?_⟩
  · simp only [List.forall_mem_cons, List.not_mem_nil, IsEmpty.forall_iff, implies_true, and_true]
    exact ⟨⟨_, rfl, hform _⟩, ⟨_, rfl, hform _⟩, ⟨_, rfl, hform _⟩, ⟨_, rfl, hform _⟩, ⟨_, rfl, hform _⟩, ⟨_, rfl, hform _⟩,
      ⟨_, rfl, hform _⟩, ⟨_, rfl, hform _⟩, ⟨_, rfl, hform _⟩, ⟨_, rfl, hform _⟩, ⟨_, rfl, hform _⟩, ⟨_, rfl, hform _⟩⟩
  · split
    next n hnan => rw [rsubF_of_nan hnan]; exact ⟨rfl, rfl⟩
    next hnan => rw [rsubF_of_no_nan hnan]; exact ⟨rfl, rfl⟩
  · intro i np nc hi
    have hfused : exec i s = s.vfused d a b c p t z np nc := by
      simp only [List.mem_cons, List.not_mem_nil, or_false, Prod.mk.injEq] at hi
      obtain ⟨rfl, rfl, rfl⟩ | ⟨rfl, rfl, rfl⟩ | ⟨rfl, rfl, rfl⟩ := hi <;> rfl
    rw [hfused]
    exact s.vfused_lanes d a b c p t z np nc fun k => by simp only [Nat.cast_mul]; rfl

end Sys2Proof.Machine
end


section
/-! Moves and permutes: masks of some lanes, lanes moved by places, the active lanes in order (O7). -/

namespace Sys2Proof.Machine

/-! ### Part of the lanes written -/

/-- A masked result whose mask is full in the lanes of which q holds, and zero in the others. -/
theorem Eff.leavesLanes_of_mask {r w : Nat} {x m : VReg} (hr : r < 48) (q : Nat → Prop) [DecidablePred q]
    (hm : ∀ i, i < 2048 / w → laneN w m i = if q i then 2 ^ w - 1 else 0) :
    (Eff.vec r x m).leavesLanes r w fun i old => if q i then laneN w x i else old := by
  intro v i hi
  rw [Vis.v_apply_vec _ _ _ hr]
  by_cases hq : q i
  · rw [laneN_merge_of_full ((hm i hi).trans (if_pos hq))]
    exact (if_pos hq).symm
  · rw [laneN_merge_of_zero (lane_fits hi) ((hm i hi).trans (if_neg hq))]
    exact (if_neg hq).symm

/-- The lanes that a predicate enables. -/
theorem Eff.leavesLanes_laneMask {r : Nat} (hr : r < 48) (w : Nat) (x : VReg) (p : PReg) :
    (Eff.vec r x (laneMask w p)).leavesLanes r w fun i old => if active w p i = true then laneN w x i else old :=
  Eff.leavesLanes_of_mask hr _ fun _ hi => laneN_laneMask p hi

/-- Lanes moved up by k places leave k lanes of zeros below. -/
theorem packNat_shiftLeft (w k : Nat) (xs : List Nat) : packNat w xs <<< (k * w) = packNat w (List.replicate k 0 ++ xs) := by
  induction k with
  | zero => simp
  | succ k ih =>
    have hcons : packNat w (0 :: (List.replicate k 0 ++ xs)) = packNat w (List.replicate k 0 ++ xs) <<< w := by simp [packNat]
    rw [List.replicate_succ, List.cons_append, hcons, ← ih, ← Nat.shiftLeft_add, Nat.succ_mul]

/-- A lane of lanes moved up by k places. -/
theorem laneN_packNat_shiftLeft {w i : Nat} (k : Nat) (xs : List Nat) (hi : i < 2048 / w) :
    laneN w (BitVec.ofNat 2048 (packNat w xs <<< (k * w))) i = if k ≤ i then xs.getD (i - k) 0 % 2 ^ w else 0 := by
  rw [packNat_shiftLeft]
  refine (laneN_ofLanes _ (lane_fits hi)).trans ?_
  split
  next h => rw [List.getD_append_right _ _ _ _ (by simpa using h), List.length_replicate]
  next h => rw [List.getD_append _ _ _ _ (by simpa using h), List.getD_replicate _ (Nat.not_le.1 h), Nat.zero_mod]

theorem packNat_singleton {w x : Nat} (hx : x < 2 ^ w) : packNat w [x] = x := by simp [packNat, Nat.mod_eq_of_lt hx]

/-- A lane of the register in which one lane alone is set. -/
theorem laneN_single {w x e i : Nat} (hx : x < 2 ^ w) (hi : i < 2048 / w) :
    laneN w (BitVec.ofNat 2048 (x <<< (e * w))) i = if i = e then x else 0 := by
  have hlane := laneN_packNat_shiftLeft e [x] hi
  rw [packNat_singleton hx] at hlane
  rw [hlane]
  rcases lt_trichotomy i e with h | rfl | h
  · rw [if_neg h.not_ge, if_neg h.ne]
  · rw [if_pos le_rfl, if_pos rfl, Nat.sub_self, List.getD_cons_zero, Nat.mod_eq_of_lt hx]
  · rw [if_pos h.le, if_neg h.ne', List.getD_eq_default _ _ (show 1 ≤ i - e by omega), Nat.zero_mod]

/-- One lane inserted, the others kept. -/
theorem Eff.leavesLanes_single {r w x : Nat} (hr : r < 48) (hx : x < 2 ^ w) (e : Nat) :
    (Eff.vec r (BitVec.ofNat 2048 (x <<< (e * w))) (BitVec.ofNat 2048 ((2 ^ w - 1) <<< (e * w)))).leavesLanes r w
      fun i old => if i = e then x else old := by
  have hfull : 2 ^ w - 1 < 2 ^ w := Nat.sub_lt (Nat.two_pow_pos w) one_pos
  intro v i hi
  rw [Eff.leavesLanes_of_mask hr (· = e) (fun _ hi => laneN_single hfull hi) v i hi]
  exact ite_congr rfl (fun he => (laneN_single hx hi).trans (if_pos he)) fun _ => rfl

/-! ### Active lanes in order -/

theorem filter_range_lt {n k : Nat} (h : k ≤ n) : (List.range n).filter (· < k) = List.range k := by
  obtain ⟨m, rfl⟩ := Nat.exists_eq_add_of_le h
  rw [List.range_add, List.filter_append, List.filter_eq_self.2 (by simp), List.filter_eq_nil_iff.2 (by simp), List.append_nil]

/-- The active lanes below lane k. -/
theorem activeLanes_filter_lt {w k : Nat} (p : PReg) (h : k ≤ 2048 / w) :
    (activeLanes w p).filter (· < k) = (List.range k).filter (active w p) := by
  rw [activeLanes, List.filter_comm, filter_range_lt h]

theorem activeLanes_countP_lt {w k : Nat} (p : PReg) (h : k ≤ 2048 / w) :
    (activeLanes w p).countP (· < k) = (List.range k).countP (active w p) := by
  rw [List.countP_eq_length_filter, activeLanes_filter_lt p h, List.countP_eq_length_filter]

/-- The number of a group is at most 2. -/
theorem group_register_lt (g : Grp) (d : BitVec 4) : grpNo g * 16 + d.toNat < 48 := by
  have := d.isLt
  cases g <;> simp only [grpNo] <;> omega

/-- The form that writes every lane from a list. -/
theorem State.wv_ofLanes (s : State) (d : BitVec 4) (w lat : Nat) (xs : List Nat) :
    AllLanesPosted s (s.wv d lat (ofLanes w xs) (BitVec.allOnes 2048)) (s.vix d) w lat 0 fun i => xs.getD i 0 := by
  refine ⟨_, _, rfl, fun v i hi => ?_⟩
  rw [Vis.v_apply_vec _ _ _ (s.vix_lt d), laneN_merge_of_full (laneN_allOnes hi), laneN_ofLanes _ (lane_fits hi)]

/-- Settles O7: each form with the lanes its mask selects; the permutes are the lane-by-lane form. -/
theorem vectorMoveAndPermuteResults : Obligations.VectorMoveAndPermuteResults := by
  unfold Obligations.VectorMoveAndPermuteResults
  refine ⟨fun s d a b k j sb p t g => ?_, fun s d a b sb p t => ?_⟩
  · intro w e
    have hmod : (s.rs sb).toNat % 2 ^ w < 2 ^ w := Nat.mod_lt _ (Nat.two_pow_pos w)
    exact ⟨⟨_, rfl, s.vall_lanes d w 2 _⟩,
      ⟨_, rfl, (s.vmap_lanes d p w 2 false _).congr fun _ _ _ => ⟨Nat.mod_mod _ _, rfl⟩⟩,
      fun _ => ⟨_, _, rfl, Eff.leavesLanes_single (s.vix_lt d) hmod e⟩,
      fun _ => congrArg _ (s.ws_posted p 2 _), fun _ => congrArg _ (s.ws_posted p 2 _),
      ⟨_, _, rfl, Eff.leavesLanes_laneMask (group_register_lt g d) w _ _⟩⟩
  · intro w E x y k cat act
    have hform := fun f : Nat → Nat => s.vmap_lanes d p w 2 false fun i => (f i, 0)
    refine ⟨forall_of_rows ?_, _, rfl, ?_⟩
    · simp only [List.forall_mem_cons, List.not_mem_nil, IsEmpty.forall_iff, implies_true, and_true]
      refine ⟨⟨_, rfl, hform _⟩, ⟨_, rfl, hform _⟩, ⟨_, rfl, hform _⟩, ⟨_, rfl, hform _⟩, ⟨_, rfl, hform _⟩, ⟨_, rfl, hform _⟩,
        ⟨_, rfl, hform _⟩, ⟨_, rfl, hform _⟩, _, rfl, (hform _).congr fun i hi _ => ⟨?_, rfl⟩⟩
      exact congrArg (x · % 2 ^ w) (activeLanes_countP_lt (s.rp p) hi.le).symm
    · exact s.wv_ofLanes d w 2 _

end Sys2Proof.Machine
end


section
/-! Compares, the order of the values of bit patterns, classes, and predicate logic (O8). -/

namespace Sys2Proof.Machine

/-! ### Predicates (R149) -/

/-- A bit of an element of a predicate. -/
theorem getLsbD_mkPred {w i j : Nat} (f : Nat → Bool) (hi : i < 2048 / w) (hj : j < w / 8) :
    (mkPred w f).getLsbD (i * (w / 8) + j) = f i := by
  have hv : 0 < w / 8 := by omega
  have hfits : i * (w / 8) + j < 256 := calc
    i * (w / 8) + j < (i + 1) * (w / 8) := by rw [Nat.succ_mul]; omega
    _ ≤ 2048 / w * (w / 8) := Nat.mul_le_mul_right _ hi
    _ ≤ 2048 / w * w / 8 := Nat.mul_div_le_mul_div_assoc _ _ _
    _ ≤ 256 := by have := Nat.div_mul_le_self 2048 w; omega
  have hdiv : (i * (w / 8) + j) / (w / 8) = i := by
    rw [Nat.mul_comm, Nat.mul_add_div hv, Nat.div_eq_of_lt hj, Nat.add_zero]
  have hmod : (i * (w / 8) + j) % (w / 8) = j := by rw [Nat.mul_comm, Nat.mul_add_mod, Nat.mod_eq_of_lt hj]
  rw [mkPred, BitVec.getLsbD_ofNat, decide_eq_true hfits, Bool.true_and, testBit_packNat hv, hdiv, hmod, getD_map_range _ hi]
  cases f i
  · simp
  · simp [Nat.testBit_two_pow_sub_one, hj]

theorem orFlags_cons (x : Nat) (xs : List Nat) : orFlags (x :: xs) = x ||| orFlags xs := by
  rw [orFlags, orFlags, List.foldl_cons, Nat.or_comm, List.foldl_assoc]

/-- A flag is raised when some element raises it. -/
theorem orFlags_any (l : List Nat) (q : Nat → Bool) (n : Nat) :
    orFlags (l.map fun i => if q i then n else 0) = if l.any q then n else 0 := by
  induction l with
  | nil => rfl
  | cons i l ih =>
    rw [List.map_cons, orFlags_cons, ih, List.any_cons]
    cases q i <;> cases l.any q <;> simp

/-- A compare posts the predicate of the active elements for which its condition holds, and their flag. -/
theorem State.compare2_posted (s : State) (d : BitVec 5) (a b : BitVec 4) (p : BitVec 5) (t : Ty) (f : Nat → Nat → Bool)
    (flags : Nat → Nat → Nat) {c q : Nat → Bool} {n : Nat}
    (hc : ∀ k, f (laneN t.width (s.rv a) k) (laneN t.width (s.rv b) k) = c k)
    (hq : ∀ k, flags (laneN t.width (s.rv a) k) (laneN t.width (s.rv b) k) = if q k then n else 0) :
    ∃ u, s.compare2 d a b p t f flags = .next u ∧ PredicatePosted s u d t.width
      (if (activeLanes t.width (s.rp p)).any q then n else 0) fun k => active t.width (s.rp p) k && c k := by
  obtain rfl := funext hc
  refine ⟨_, rfl, _, ?_, fun i hi j hj => getLsbD_mkPred _ hi hj⟩
  rw [State.wf_posted, ← orFlags_any, ← funext hq]
  rfl

/-- A compare that raises nothing. -/
theorem State.compare2_quiet (s : State) (d : BitVec 5) (a b : BitVec 4) (p : BitVec 5) (t : Ty) (f : Nat → Nat → Bool)
    {c : Nat → Bool} (hc : ∀ k, f (laneN t.width (s.rv a) k) (laneN t.width (s.rv b) k) = c k) :
    ∃ u, s.compare2 d a b p t f (fun _ _ => 0) = .next u ∧
      PredicatePosted s u d t.width 0 fun k => active t.width (s.rp p) k && c k := by
  have h := s.compare2_posted d a b p t f (fun _ _ => 0) (q := fun _ => false) (n := 0) hc fun _ => rfl
  rwa [ite_self] at h

/-! ### The values of bit patterns in order (R151) -/

/-- A magnitude's value in multiples of the least subnormal number: its significand moved up by its exponent field. -/
def magValue (mb n : Nat) : Nat := (n - (n / 2 ^ mb - 1) * 2 ^ mb) * 2 ^ (n / 2 ^ mb - 1)

theorem magValue_zero (mb : Nat) : magValue mb 0 = 0 := by simp [magValue]

/-- A subnormal magnitude is its own value. -/
theorem magValue_subnormal {mb r : Nat} (hr : r < 2 ^ mb) : magValue mb r = r := by simp [magValue, Nat.div_eq_of_lt hr]

/-- A normal magnitude's significand has its leading bit set. -/
theorem magValue_normal {mb k r : Nat} (hr : r < 2 ^ mb) : magValue mb ((k + 1) * 2 ^ mb + r) = (2 ^ mb + r) * 2 ^ k := by
  have hdiv : ((k + 1) * 2 ^ mb + r) / 2 ^ mb - 1 = k := by
    rw [Nat.mul_comm, Nat.mul_add_div (Nat.two_pow_pos mb), Nat.div_eq_of_lt hr, Nat.add_zero, Nat.add_sub_cancel]
  rw [magValue, hdiv, Nat.succ_mul]
  congr 1
  omega

/-- A greater magnitude has a greater value. -/
theorem magValue_strictMono (mb : Nat) : StrictMono (magValue mb) := by
  refine strictMono_nat_of_lt_succ fun n => ?_
  obtain ⟨k, r, hr, rfl⟩ : ∃ k r, r < 2 ^ mb ∧ n = k * 2 ^ mb + r :=
    ⟨_, _, Nat.mod_lt n (Nat.two_pow_pos mb), (Nat.div_add_mod' n _).symm⟩
  rcases Nat.lt_or_ge (r + 1) (2 ^ mb) with hr1 | hr1
  · cases k with
    | zero => rw [Nat.zero_mul, Nat.zero_add, magValue_subnormal hr, magValue_subnormal hr1]; omega
    | succ k =>
      rw [Nat.add_assoc, magValue_normal hr, magValue_normal hr1]
      exact Nat.mul_lt_mul_of_pos_right (by omega) (Nat.two_pow_pos k)
  · have hnext : k * 2 ^ mb + r + 1 = (k + 1) * 2 ^ mb + 0 := by rw [Nat.succ_mul]; omega
    rw [hnext, magValue_normal (Nat.two_pow_pos mb), Nat.add_zero]
    cases k with
    | zero => rw [Nat.zero_mul, Nat.zero_add, magValue_subnormal hr, pow_zero, Nat.mul_one]; exact hr
    | succ k =>
      rw [magValue_normal hr, pow_succ' 2 k, ← Nat.mul_assoc]
      exact Nat.mul_lt_mul_of_pos_right (by omega) (Nat.two_pow_pos k)

/-- A magnitude with a sign. -/
def signedMag (s : Bool) (m : Nat) : Int := if s then -m else m

theorem numKey_eq (f : Fmt) (x : Nat) : numKey f x = signedMag (tst x (f.eb + f.mb)) (bits x 0 (f.eb + f.mb)) := rfl

/-- Values are in the order of the magnitudes they belong to, signs included. -/
theorem signedMag_lt_iff {M : Nat → Nat} (hM : StrictMono M) (h0 : M 0 = 0) (s t : Bool) (m n : Nat) :
    signedMag s (M m) < signedMag t (M n) ↔ signedMag s m < signedMag t n := by
  have hmn := hM.lt_iff_lt (a := m) (b := n)
  have hnm := hM.lt_iff_lt (a := n) (b := m)
  have hm := hM.lt_iff_lt (a := 0) (b := m)
  have hn := hM.lt_iff_lt (a := 0) (b := n)
  rw [h0] at hm hn
  cases s <;> cases t <;> simp only [signedMag, if_true, if_false, Bool.false_eq_true] <;> omega

/-- Finite values are compared at any exponent not above theirs. -/
theorem FVal.below_fin {s t : Bool} {m n : Nat} {e f q : Int} (he : q ≤ e) (hf : q ≤ f) :
    (FVal.fin s m e).below (.fin t n f) =
      decide (signedMag s (m * 2 ^ (e - q).toNat) < signedMag t (n * 2 ^ (f - q).toNat)) := by
  have hpow : (0 : Int) < 2 ^ (min e f - q).toNat := by positivity
  have hscale : ∀ (u : Bool) (k : Nat) (g : Int), min e f ≤ g →
      signedMag u (k * 2 ^ (g - q).toNat) = signedMag u k * 2 ^ (g - min e f).toNat * 2 ^ (min e f - q).toNat := by
    intro u k g hg
    rw [show (g - q).toNat = (g - min e f).toNat + (min e f - q).toNat by omega, pow_add]
    cases u <;> simp [signedMag, mul_assoc]
  rw [hscale s m e (min_le_left _ _), hscale t n f (min_le_right _ _)]
  exact decide_eq_decide.2 (Int.mul_lt_mul_right hpow).symm

/-- What a pattern stands for: a NaN, an infinity of the greatest magnitude, or a finite value, which is its magnitude's value
in multiples of the least subnormal number. -/
theorem decodeF_cases {f : Fmt} (he4 : f.e4 = false) (x : Nat) :
    (decodeF f x).isNan = true ∨
    (decodeF f x = .inf (tst x (f.eb + f.mb)) ∧ bits x 0 (f.eb + f.mb) = f.infMag) ∨
    ∃ m e, decodeF f x = .fin (tst x (f.eb + f.mb)) m e ∧ bits x 0 (f.eb + f.mb) < f.infMag ∧ 1 - (f.bias : Int) - f.mb ≤ e ∧
      m * 2 ^ (e - (1 - (f.bias : Int) - f.mb)).toNat = magValue f.mb (bits x 0 (f.eb + f.mb)) := by
  have hmag : bits x f.mb f.eb * 2 ^ f.mb + bits x 0 f.mb = bits x 0 (f.eb + f.mb) := by
    rw [bits_magnitude, bits_eq, pow_zero, Nat.div_one]
  have hfrac := bits_lt x 0 f.mb
  have hfield := bits_lt x f.mb f.eb
  cases h : decodeF f x with
  | nan s m => exact .inl rfl
  | inf s =>
    refine .inr (.inl ?_)
    simp only [decodeF, he4, Bool.false_eq_true, if_false] at h
    split at h
    next hmax =>
      split at h
      next hzero =>
        refine ⟨h.symm, ?_⟩
        rw [← hmag, hmax, hzero, Fmt.infMag, Nat.shiftLeft_eq, Nat.add_zero]
      · cases h
    · split at h <;> cases h
  | fin s m e =>
    obtain ⟨rfl, hmax, hval⟩ := decodeF_fin he4 h
    refine .inr (.inr ⟨m, e, rfl, ?_, ?_⟩)
    · rw [← hmag, Fmt.infMag, Nat.shiftLeft_eq]
      calc bits x f.mb f.eb * 2 ^ f.mb + bits x 0 f.mb < (bits x f.mb f.eb + 1) * 2 ^ f.mb := by rw [Nat.succ_mul]; omega
        _ ≤ (2 ^ f.eb - 1) * 2 ^ f.mb := Nat.mul_le_mul_right _ (by omega)
    · obtain ⟨hzero, rfl, rfl⟩ | ⟨hpos, rfl, rfl⟩ := hval
      · refine ⟨le_rfl, ?_⟩
        rw [← hmag, hzero, Nat.zero_mul, Nat.zero_add, magValue_subnormal hfrac, Int.sub_self, Int.toNat_zero, pow_zero, Nat.mul_one]
      · obtain ⟨k, hk⟩ := Nat.exists_eq_succ_of_ne_zero hpos
        refine ⟨by omega, ?_⟩
        rw [← hmag, hk, magValue_normal hfrac]
        congr 2
        omega

/-- Of two patterns that are no NaN, the one with the smaller key holds the smaller value. -/
theorem below_decodeF {f : Fmt} (he4 : f.e4 = false) (heb : 0 < f.eb) {x y : Nat} (hx : (decodeF f x).isNan = false)
    (hy : (decodeF f y).isNan = false) : (decodeF f x).below (decodeF f y) = decide (numKey f x < numKey f y) := by
  have hinf : 0 < f.infMag := by
    have := Nat.one_lt_two_pow heb.ne'
    rw [Fmt.infMag, Nat.shiftLeft_eq]
    exact Nat.mul_pos (by omega) (Nat.two_pow_pos _)
  rw [numKey_eq, numKey_eq]
  obtain hn | ⟨hdx, hmx⟩ | ⟨m, e, hdx, hmx, hex, hvx⟩ := decodeF_cases he4 x
  · rw [hn] at hx; cases hx
  all_goals obtain hn | ⟨hdy, hmy⟩ | ⟨n, g, hdy, hmy, hey, hvy⟩ := decodeF_cases he4 y
  · rw [hn] at hy; cases hy
  · rw [hdx, hdy, hmx, hmy]
    cases tst x (f.eb + f.mb) <;> cases tst y (f.eb + f.mb) <;> simp [FVal.below, signedMag]
    omega
  · rw [hdx, hdy, hmx]
    cases tst x (f.eb + f.mb) <;> cases tst y (f.eb + f.mb) <;> simp [FVal.below, signedMag] <;> omega
  · rw [hn] at hy; cases hy
  · rw [hdx, hdy, hmy]
    cases tst x (f.eb + f.mb) <;> cases tst y (f.eb + f.mb) <;> simp [FVal.below, signedMag] <;> omega
  · rw [hdx, hdy, FVal.below_fin hex hey, hvx, hvy, decide_eq_decide]
    exact signedMag_lt_iff (magValue_strictMono f.mb) (magValue_zero f.mb) _ _ _ _

/-- No value is below a NaN, and a NaN below no value. -/
theorem FVal.below_of_nan {x y : FVal} (h : (x.isNan || y.isNan) = true) : x.below y = false := by
  cases x <;> cases y <;> simp_all [FVal.below, FVal.isNan]

/-- Patterns of which one is a NaN are unordered: the conditions `ne` and `un` hold of them, the others do not. -/
theorem fccHolds_of_nan {f : Fmt} {c : FCc} {x y : Nat} (h : ((decodeF f x).isNan || (decodeF f y).isNan) = true) :
    fccHolds f c x y = decide (c = .ne ∨ c = .un) := by
  cases c <;> simp [fccHolds, h]

/-- The conditions by the values that two patterns hold (R151). -/
theorem fccHolds_of_mem {f : Fmt} (he4 : f.e4 = false) (heb : 0 < f.eb) {x y : Nat} {c : FCc} {r : Bool}
    (h : let a := decodeF f x
      let b := decodeF f y
      let un := a.isNan || b.isNan
      (c, r) ∈ [(FCc.eq, !un && !a.below b && !b.below a), (.ne, un || a.below b || b.below a), (.lt, a.below b),
        (.le, !un && !b.below a), (.gt, b.below a), (.ge, !un && !a.below b), (.un, un), (.ord, !un)]) :
    fccHolds f c x y = r := by
  simp only [List.mem_cons, List.not_mem_nil, or_false, Prod.mk.injEq] at h
  cases hun : (decodeF f x).isNan || (decodeF f y).isNan with
  | true =>
    rw [fccHolds_of_nan hun]
    rw [hun, FVal.below_of_nan hun, FVal.below_of_nan (by rwa [Bool.or_comm])] at h
    obtain ⟨rfl, rfl⟩ | ⟨rfl, rfl⟩ | ⟨rfl, rfl⟩ | ⟨rfl, rfl⟩ | ⟨rfl, rfl⟩ | ⟨rfl, rfl⟩ | ⟨rfl, rfl⟩ | ⟨rfl, rfl⟩ := h <;> rfl
  | false =>
    obtain ⟨hx, hy⟩ := Bool.or_eq_false_iff.1 hun
    simp only [fccHolds, hun]
    rw [hun, below_decodeF he4 heb hx hy, below_decodeF he4 heb hy hx] at h
    obtain ⟨rfl, rfl⟩ | ⟨rfl, rfl⟩ | ⟨rfl, rfl⟩ | ⟨rfl, rfl⟩ | ⟨rfl, rfl⟩ | ⟨rfl, rfl⟩ | ⟨rfl, rfl⟩ | ⟨rfl, rfl⟩ := h <;>
      grind

/-! ### Classes (R152) -/

/-- What the formats of the floating-point lane types have in common. -/
theorem fmtOf_spec {t : Ty} (h : t.isFloat = true) :
    (fmtOf t).e4 = false ∧ 0 < (fmtOf t).eb ∧ 0 < (fmtOf t).mb ∧ (fmtOf t).mb ≤ 23 ∧ t.width = 1 + (fmtOf t).eb + (fmtOf t).mb := by
  revert h
  cases t <;> decide

/-- A NaN's payload is a signalling one's below half of the fractions. -/
theorem shiftLeft_lt_quiet_iff {mb m : Nat} (hpos : 0 < mb) (hle : mb ≤ 23) : m <<< (23 - mb) < 2 ^ 22 ↔ m < 2 ^ (mb - 1) := by
  rw [Nat.shiftLeft_eq, show 22 = mb - 1 + (23 - mb) by omega, pow_add]
  exact Nat.mul_lt_mul_right (Nat.two_pow_pos _)

/-- The sign bit is the greatest of a pattern. -/
theorem tst_top {n x : Nat} (hx : x < 2 ^ (n + 1)) : tst x n = decide (2 ^ n ≤ x) := by
  rw [tst, Nat.testBit_eq_decide_div_mod_eq, decide_eq_decide]
  have hpos := Nat.two_pow_pos n
  have hlt : x / 2 ^ n < 2 := Nat.div_lt_of_lt_mul (by rwa [← pow_succ])
  rw [Nat.mod_eq_of_lt hlt, ← Nat.one_le_div_iff hpos]
  omega

/-- The class of a pattern by its sign, exponent and fraction. -/
theorem classOf_eq {f : Fmt} (he4 : f.e4 = false) (heb : 0 < f.eb) (hmb : 0 < f.mb) (hle : f.mb ≤ 23) {x : Nat}
    (hx : x < 2 ^ (1 + f.eb + f.mb)) :
    classOf f x =
      if x / 2 ^ f.mb % 2 ^ f.eb = 2 ^ f.eb - 1 then
        (if x % 2 ^ f.mb = 0 then (if decide (2 ^ (f.eb + f.mb) ≤ x) then 0 else 6)
          else if x % 2 ^ f.mb < 2 ^ (f.mb - 1) then 7 else 8)
      else if x / 2 ^ f.mb % 2 ^ f.eb = 0 then
        (if x % 2 ^ f.mb = 0 then 3 else if decide (2 ^ (f.eb + f.mb) ≤ x) then 2 else 4)
      else if decide (2 ^ (f.eb + f.mb) ≤ x) then 1 else 5 := by
  have hsign : tst x (f.eb + f.mb) = decide (2 ^ (f.eb + f.mb) ≤ x) := tst_top (by rwa [add_assoc, add_comm 1] at hx)
  have hfrac : bits x 0 f.mb = x % 2 ^ f.mb := by rw [bits_eq, pow_zero, Nat.div_one]
  have hnormal : 2 ^ f.mb + x % 2 ^ f.mb ≠ 0 := by positivity
  have hfield : (0 : Nat) ≠ 2 ^ f.eb - 1 := by have := Nat.one_lt_two_pow heb.ne'; omega
  simp only [classOf, decodeF, he4, Bool.false_eq_true, if_false, hsign, hfrac, bits_eq x f.mb f.eb]
  by_cases hmax : x / 2 ^ f.mb % 2 ^ f.eb = 2 ^ f.eb - 1
  · by_cases hzero : x % 2 ^ f.mb = 0
    · simp only [hmax, hzero, if_true]
    · simp only [hmax, hzero, if_true, if_false, shiftLeft_lt_quiet_iff hmb hle]
  · by_cases hsub : x / 2 ^ f.mb % 2 ^ f.eb = 0
    · simp only [hsub, hfield, if_true, if_false]
    · simp only [hmax, hsub, hnormal, if_false]

/-! ### The lowest set bit (R153) -/

/-- Of a predicate and its negation both, the lowest set bit alone is left. -/
theorem getLsbD_and_neg {n : Nat} (x : BitVec n) {i : Nat} (hi : i < n) :
    (x &&& -x).getLsbD i = true ↔ x.getLsbD i = true ∧ ∀ k, k < i → x.getLsbD k = false := by
  rw [BitVec.getLsbD_and, BitVec.getLsbD_neg, decide_eq_true hi, Bool.true_and]
  cases x.getLsbD i <;> simp

/-- Settles O8: the compares post the predicate of their condition; the orders of values by `fccHolds_of_mem`, the classes by
`classOf_eq`. -/
theorem vectorCompareAndPredicateResults : Obligations.VectorCompareAndPredicateResults := by
  unfold Obligations.VectorCompareAndPredicateResults
  refine ⟨fun s d a b m p t n q => ?_, fun s d a b c => ?_⟩
  · intro w g A x y X Y nan snan fl
    refine ⟨fun c f hcf => ?_, fun c => ⟨?_, ?_⟩, fun ht i j _ _ => ?_, fun ht i hi => ?_, ?_⟩
    · have hf : ∀ u v, vccHolds c u v = f u v := by
        simp only [List.mem_cons, List.not_mem_nil, or_false, Prod.mk.injEq] at hcf
        obtain ⟨rfl, rfl⟩ | ⟨rfl, rfl⟩ | ⟨rfl, rfl⟩ | ⟨rfl, rfl⟩ | ⟨rfl, rfl⟩ | ⟨rfl, rfl⟩ := hcf <;> exact fun _ _ => rfl
      exact ⟨s.compare2_quiet d a b p t (fun x y => vccHolds c (toSigned w x) (toSigned w y)) fun k => hf (X k) (Y k),
        s.compare2_quiet d a b p t (fun x y => vccHolds c x y) fun k => hf (x k) (y k)⟩
    · refine s.compare2_posted d a b p t (fccHolds g c) (fun x y => snanFlag [decodeF g x, decodeF g y]) (q := snan)
        (fun k => rfl) fun k => ?_
      simp only [snanFlag, List.any_cons, List.any_nil, Bool.or_false]
      rfl
    · exact s.compare2_posted d a b p t (fccHolds g c) (fun x y => if (decodeF g x).isNan || (decodeF g y).isNan then fNV else 0)
        (fun k => rfl) fun k => rfl
    · obtain ⟨he4, heb, -⟩ := fmtOf_spec ht
      exact fun c r h => fccHolds_of_mem he4 heb h
    · obtain ⟨he4, heb, hmb, hle, hw⟩ := fmtOf_spec ht
      have hclass := classOf_eq he4 heb hmb hle (hi.trans_eq (congrArg (2 ^ ·) hw))
      rwa [show (fmtOf t).eb + (fmtOf t).mb = t.width - 1 by omega] at hclass
    · exact s.compare2_quiet d a a p t (fun x _ => tst (m.toNat + n.toNat * 2 ^ 4 + q.toNat * 2 ^ 7) (classOf g x)) fun k => rfl
  · intro A B C
    refine ⟨rfl, rfl, rfl, rfl, rfl, ⟨_, rfl, fun i hi => ?_⟩, _, rfl, fun i hi => getLsbD_and_neg A hi⟩
    rw [BitVec.getLsbD_or, BitVec.getLsbD_and, BitVec.getLsbD_and, BitVec.getLsbD_not, decide_eq_true hi]
    cases C.getLsbD i <;> simp [A, B]

end Sys2Proof.Machine
end


section
/-! Reductions and scans: the tree over the lanes, and the lanes in ascending order (O9). -/

namespace Sys2Proof.Machine

/-! ### The tree (R158) -/

section
variable {op : Nat → Nat → Nat × Nat}

/-- One level of the tree keeps the combination of the lanes. -/
theorem foldl_pairUp (hassoc : ∀ x y z, (op (op x y).1 z).1 = (op x (op y z).1).1) : ∀ (xs : List Nat) (a : Nat),
    (pairUp op xs).1.foldl (fun x y => (op x y).1) a = xs.foldl (fun x y => (op x y).1) a
  | [], _ => rfl
  | [_], _ => rfl
  | x :: y :: r, a => by simp only [pairUp, List.foldl_cons, foldl_pairUp hassoc r, hassoc]

theorem length_pairUp : ∀ xs : List Nat, (pairUp op xs).1.length = (xs.length + 1) / 2
  | [] => rfl
  | [_] => by simp [pairUp]
  | x :: y :: r => by
    simp only [pairUp, List.length_cons, length_pairUp r]
    omega

theorem pairUp_flags (hquiet : ∀ x y, (op x y).2 = 0) : ∀ xs : List Nat, (pairUp op xs).2 = 0
  | [] => rfl
  | [_] => rfl
  | x :: y :: r => by simp only [pairUp, hquiet, pairUp_flags hquiet r, Nat.or_self]

theorem foldl_treeFold (hassoc : ∀ x y z, (op (op x y).1 z).1 = (op x (op y z).1).1) (n : Nat) (xs : List Nat) (a : Nat) :
    (treeFold op n xs).1.foldl (fun x y => (op x y).1) a = xs.foldl (fun x y => (op x y).1) a := by
  induction n generalizing xs with
  | zero => rfl
  | succ n ih => rw [treeFold, ih, foldl_pairUp hassoc]

/-- n levels bring up to 2^n lanes to one. -/
theorem treeFold_singleton {n : Nat} {xs : List Nat} (h0 : 0 < xs.length) (hn : xs.length ≤ 2 ^ n) :
    ∃ r, (treeFold op n xs).1 = [r] := by
  induction n generalizing xs with
  | zero => exact List.length_eq_one_iff.1 (le_antisymm hn h0)
  | succ n ih =>
    refine ih (xs := (pairUp op xs).1) ?_ ?_
    · rw [length_pairUp]; omega
    · rw [length_pairUp]; omega

/-- The root of the tree with a first operand in front of it combines that operand with every lane, in order. -/
theorem op_treeFold (hassoc : ∀ x y z, (op (op x y).1 z).1 = (op x (op y z).1).1) {n : Nat} {xs : List Nat}
    (h0 : 0 < xs.length) (hn : xs.length ≤ 2 ^ n) (a d : Nat) :
    (op a ((treeFold op n xs).1.headD d)).1 = xs.foldl (fun x y => (op x y).1) a := by
  obtain ⟨r, hr⟩ := treeFold_singleton (op := op) h0 hn
  rw [← foldl_treeFold hassoc n, hr]
  rfl

/-- A tree of nodes without flags raises none. -/
theorem treeFold_flags (hquiet : ∀ x y, (op x y).2 = 0) (n : Nat) (xs : List Nat) : (treeFold op n xs).2 = 0 := by
  induction n generalizing xs with
  | zero => rfl
  | succ n ih => simp only [treeFold, pairUp_flags hquiet, ih, Nat.or_self]

end

/-! ### Integer reductions -/

/-- The reduction posts lane 0 of vb in front of the tree's root, and the flags of every node. -/
theorem State.vred_posted (s : State) (d a b : BitVec 4) (p : BitVec 5) (t : Ty) (lat ident : Nat) (op : Nat → Nat → Nat × Nat) :
    let ls := (List.range (2048 / t.width)).map fun i => if active t.width (s.rp p) i then laneN t.width (s.rv a) i else ident
    let r := treeFold op 8 ls
    let z := op (laneN t.width (s.rv b) 0) (r.1.headD ident)
    s.vred d a b p t lat ident op = .next (s.posted
      ((lat, .vec (s.vix d) (BitVec.ofNat 2048 z.1) (BitVec.allOnes 2048)) :: flagResult lat (r.2 ||| z.2))) :=
  congrArg _ (State.wf_posted _ lat _)

/-- An operation on lanes of width w by which lanes are combined in any grouping, with an identity on its right. -/
structure LaneMonoid (w : Nat) (f : Nat → Nat → Nat) (ident : Nat) : Prop where
  lt : ∀ {x y}, x < 2 ^ w → y < 2 ^ w → f x y < 2 ^ w
  assoc : ∀ x y z, f (f x y) z = f x (f y z)
  right_ident : ∀ {x}, x < 2 ^ w → f x ident = x

section
variable {w ident : Nat} {f : Nat → Nat → Nat} (hf : LaneMonoid w f ident)
include hf

theorem LaneMonoid.foldl_lt {xs : List Nat} (hxs : ∀ x ∈ xs, x < 2 ^ w) {y : Nat} (hy : y < 2 ^ w) : xs.foldl f y < 2 ^ w := by
  induction xs generalizing y with
  | nil => exact hy
  | cons x xs ih =>
    rw [List.forall_mem_cons] at hxs
    exact ih hxs.2 (hf.lt hy hxs.1)

/-- The inactive lanes, which hold the identity, take no part. -/
theorem LaneMonoid.foldl_active {act : Nat → Bool} {x : Nat → Nat} (hx : ∀ i, x i < 2 ^ w) (l : List Nat) {y : Nat} (hy : y < 2 ^ w) :
    (l.map fun i => if act i then x i else ident).foldl f y = ((l.filter act).map x).foldl f y := by
  induction l generalizing y with
  | nil => rfl
  | cons i l ih =>
    rw [List.map_cons, List.foldl_cons]
    cases ha : act i with
    | true =>
      rw [if_pos rfl, List.filter_cons_of_pos ha, List.map_cons, List.foldl_cons]
      exact ih (hf.lt hy (hx i))
    | false =>
      rw [if_neg Bool.false_ne_true, hf.right_ident hy, List.filter_cons_of_neg (by rw [ha]; exact Bool.false_ne_true)]
      exact ih hy

end

theorem Ty.lanes_pos (t : Ty) : 0 < 2048 / t.width := by cases t <;> decide
theorem Ty.lanes_le (t : Ty) : 2048 / t.width ≤ 2 ^ 8 := by cases t <;> decide

/-- A number below 2^w in lane 0 alone. -/
theorem State.wv_lane_zero (s : State) (d : BitVec 4) {w z : Nat} (lat : Nat) (hz : z < 2 ^ w) :
    AllLanesPosted s (s.wv d lat (BitVec.ofNat 2048 z) (BitVec.allOnes 2048)) (s.vix d) w lat 0 fun k => if k = 0 then z else 0 := by
  have hlanes := s.wv_ofLanes d w lat [z]
  rw [ofLanes, packNat_singleton hz] at hlanes
  have hfun : (fun i => [z].getD i 0) = fun k => if k = 0 then z else 0 := funext fun k => by cases k <;> rfl
  rwa [hfun] at hlanes

/-- An exact integer reduction: lane 0 of vb combined with every active lane. -/
theorem State.vred_lanes (s : State) (d a b : BitVec 4) (p : BitVec 5) (t : Ty) {f : Nat → Nat → Nat → Nat} {ident r : Nat}
    (hf : LaneMonoid t.width (f t.width) ident)
    (hr : ((activeLanes t.width (s.rp p)).map (laneN t.width (s.rv a))).foldl (f t.width) (laneN t.width (s.rv b) 0) = r) :
    ∃ u, s.vred d a b p t 4 ident (quiet f t.width) = .next u ∧
      AllLanesPosted s u (s.vix d) t.width 4 0 fun k => if k = 0 then r else 0 := by
  have hlanes : ∀ v i, laneN t.width v i < 2 ^ t.width := laneN_lt t.width
  have hroot : ∀ ls : List Nat, ls.length = 2048 / t.width → ∀ y e,
      quiet f t.width y ((treeFold (quiet f t.width) 8 ls).1.headD e) = (ls.foldl (f t.width) y, 0) := fun ls hlen y e =>
    congrArg (·, 0) <| op_treeFold (op := quiet f t.width) hf.assoc (hlen ▸ Ty.lanes_pos t) (hlen ▸ Ty.lanes_le t) y e
  subst hr
  have hlt := hf.foldl_lt (List.forall_mem_map.2 fun i (_ : i ∈ activeLanes t.width (s.rp p)) => hlanes (s.rv a) i) (hlanes (s.rv b) 0)
  refine ⟨_, s.vred_posted d a b p t 4 ident (quiet f t.width), ?_⟩
  rw [treeFold_flags (fun _ _ => rfl), hroot _ (by rw [List.length_map, List.length_range]),
    hf.foldl_active (hlanes (s.rv a)) _ (hlanes _ 0), Nat.or_self]
  exact s.wv_lane_zero d 4 hlt

/-! ### The integer operations of reductions -/

theorem toSigned_bounds {w : Nat} (hw : 0 < w) (x : Nat) : -(2 ^ (w - 1) : Nat) ≤ toSigned w x ∧ toSigned w x < (2 ^ (w - 1) : Nat) := by
  have hlt : x % 2 ^ w < 2 ^ w := Nat.mod_lt _ (Nat.two_pow_pos w)
  have hhalf : 2 ^ w = 2 * 2 ^ (w - 1) := by rw [← pow_succ', Nat.sub_add_cancel hw]
  have hcast : (2 : Int) ^ w = 2 * (2 ^ (w - 1) : Nat) := by exact_mod_cast hhalf
  rw [toSigned, hcast]
  split <;> omega

theorem toSigned_typeMax {w : Nat} (hw : 0 < w) : toSigned w (typeMax w) = (2 ^ (w - 1) : Nat) - 1 := by
  have hhalf : 2 ^ w = 2 * 2 ^ (w - 1) := by rw [← pow_succ', Nat.sub_add_cancel hw]
  have hpos := Nat.two_pow_pos (w - 1)
  rw [toSigned, typeMax, Nat.mod_eq_of_lt (by omega), if_pos (by omega)]
  omega

theorem toSigned_typeMin {w : Nat} (hw : 0 < w) : toSigned w (typeMin w) = -(2 ^ (w - 1) : Nat) := by
  have hhalf : 2 ^ w = 2 * 2 ^ (w - 1) := by rw [← pow_succ', Nat.sub_add_cancel hw]
  have hcast : (2 : Int) ^ w = 2 * (2 ^ (w - 1) : Nat) := by exact_mod_cast hhalf
  have hpos := Nat.two_pow_pos (w - 1)
  rw [toSigned, typeMin, Nat.mod_eq_of_lt (by omega), if_neg (by omega), hcast]
  omega

section
variable (w : Nat)

theorem laneMonoid_lAdd : LaneMonoid w (lAdd w) 0 where
  lt _ _ := Nat.mod_lt _ (Nat.two_pow_pos w)
  assoc x y z := by simp only [lAdd, Nat.mod_add_mod, Nat.add_mod_mod, Nat.add_assoc]
  right_ident := Nat.mod_eq_of_lt

theorem laneMonoid_lMin (hw : 0 < w) : LaneMonoid w (lMin w) (typeMax w) where
  lt hx hy := by rw [lMin]; split <;> assumption
  assoc x y z := by simp only [lMin]; grind
  right_ident {x} _ := by
    have hx := toSigned_bounds hw x
    rw [lMin, toSigned_typeMax hw, if_neg (by omega)]

theorem laneMonoid_lMax (hw : 0 < w) : LaneMonoid w (lMax w) (typeMin w) where
  lt hx hy := by rw [lMax]; split <;> assumption
  assoc x y z := by simp only [lMax]; grind
  right_ident {x} _ := by
    have hx := toSigned_bounds hw x
    rw [lMax, toSigned_typeMin hw, if_neg (by omega)]

theorem laneMonoid_lMinn : LaneMonoid w (lMinn w) (2 ^ w - 1) where
  lt hx _ := min_lt_of_left_lt hx
  assoc := min_assoc
  right_ident hx := min_eq_left (Nat.le_sub_one_of_lt hx)

theorem laneMonoid_lMaxn : LaneMonoid w (lMaxn w) 0 where
  lt := max_lt
  assoc := max_assoc
  right_ident _ := Nat.max_zero _

theorem laneMonoid_lAnd : LaneMonoid w (lAnd w) (2 ^ w - 1) where
  lt hx _ := Nat.and_le_left.trans_lt hx
  assoc := Nat.and_assoc
  right_ident hx := (Nat.and_two_pow_sub_one_eq_mod _ w).trans (Nat.mod_eq_of_lt hx)

theorem laneMonoid_lOr : LaneMonoid w (lOr w) 0 where
  lt := Nat.or_lt_two_pow
  assoc := Nat.or_assoc
  right_ident _ := Nat.or_zero _

theorem laneMonoid_lXor : LaneMonoid w (lXor w) 0 where
  lt := Nat.xor_lt_two_pow
  assoc := Nat.xor_assoc
  right_ident _ := Nat.xor_zero _

end

/-- A sum reduced at every step is the sum reduced. -/
theorem foldl_lAdd {w : Nat} (xs : List Nat) {y : Nat} (hy : y < 2 ^ w) : xs.foldl (lAdd w) y = (y + xs.sum) % 2 ^ w := by
  induction xs generalizing y with
  | nil => exact (Nat.mod_eq_of_lt hy).symm
  | cons x xs ih =>
    rw [List.foldl_cons, ih (y := lAdd w y x) (Nat.mod_lt _ (Nat.two_pow_pos w)), lAdd, Nat.mod_add_mod, List.sum_cons, Nat.add_assoc]

theorem toSigned_lMin (w x y : Nat) : toSigned w (lMin w x y) = min (toSigned w x) (toSigned w y) := by
  rw [lMin, min_comm, min_def_lt, apply_ite (toSigned w)]

theorem toSigned_lMax (w x y : Nat) : toSigned w (lMax w x y) = max (toSigned w x) (toSigned w y) := by
  rw [lMax, max_def_lt, apply_ite (toSigned w)]

/-- The lane left of a fold is that of the integers' fold. -/
theorem LaneMonoid.foldl_eq_ofSigned {w ident : Nat} {f : Nat → Nat → Nat} (hf : LaneMonoid w f ident) {g : Int → Int → Int}
    (hg : ∀ x y, toSigned w (f x y) = g (toSigned w x) (toSigned w y)) {xs : List Nat} (hxs : ∀ x ∈ xs, x < 2 ^ w) {y : Nat}
    (hy : y < 2 ^ w) : xs.foldl f y = ofSigned w ((xs.map (toSigned w)).foldl g (toSigned w y)) := by
  have hhom : (xs.map (toSigned w)).foldl g (toSigned w y) = toSigned w (xs.foldl f y) := by
    rw [List.foldl_map]
    exact List.foldl_hom (toSigned w) fun x y => (hg x y).symm
  rw [hhom, ofSigned_toSigned (hf.foldl_lt hxs hy)]

/-! ### Scans (R159) -/

/-- What a scan has combined before lane k: the first operand and the active lanes below, in ascending order. -/
def scanBefore (act : Nat → Bool) (op : Nat → Nat → Nat × Nat) (x : Nat → Nat) (y k : Nat) : Nat :=
  (((List.range k).filter act).map x).foldl (fun acc z => (op acc z).1) y

theorem scanBefore_succ (act : Nat → Bool) (op : Nat → Nat → Nat × Nat) (x : Nat → Nat) (y k : Nat) :
    scanBefore act op x y (k + 1) = if act k then (op (scanBefore act op x y k) (x k)).1 else scanBefore act op x y k := by
  rw [scanBefore, List.range_succ, List.filter_append]
  cases h : act k <;> simp [h, scanBefore]

/-- One lane of a scan: the value carried on, the flags so far, the lanes so far. -/
def scanStep (act : Nat → Bool) (op : Nat → Nat → Nat × Nat) (x : Nat → Nat) (acc : Nat × Nat × List Nat) (i : Nat) :
    Nat × Nat × List Nat :=
  if act i then ((op acc.1 (x i)).1, acc.2.1 ||| (op acc.1 (x i)).2, acc.2.2 ++ [(op acc.1 (x i)).1])
  else (acc.1, acc.2.1, acc.2.2 ++ [0])

/-- An active lane of a scan with its flags. -/
def scanLane (act : Nat → Bool) (op : Nat → Nat → Nat × Nat) (x : Nat → Nat) (y i : Nat) : Nat × Nat :=
  if act i then op (scanBefore act op x y i) (x i) else (0, 0)

/-- What n lanes of a scan come to. -/
theorem foldl_scanStep (act : Nat → Bool) (op : Nat → Nat → Nat × Nat) (x : Nat → Nat) (y n : Nat) :
    let lanes := (List.range n).map (scanLane act op x y)
    (List.range n).foldl (scanStep act op x) (y, 0, []) =
      (scanBefore act op x y n, orFlags (lanes.map (·.2)), lanes.map (·.1)) := by
  induction n with
  | zero => rfl
  | succ n ih =>
    rw [List.range_succ, List.foldl_append, ih, scanBefore_succ]
    by_cases h : act n = true
    · simp [scanStep, scanLane, h, orFlags]
    · simp [scanStep, scanLane, h, orFlags]

/-- A scan is the lane-by-lane form in which an active lane is combined with what came before it. -/
theorem State.vscan_eq_vmap (s : State) (d a b : BitVec 4) (p : BitVec 5) (t : Ty) (lat : Nat) (op : Nat → Nat → Nat × Nat) :
    let w := t.width
    let x := laneN w (s.rv a)
    s.vscan d a b p t lat op =
      .next (s.vmap d p w lat false fun i => op (scanBefore (active w (s.rp p)) op x (laneN w (s.rv b) 0) i) (x i)) := by
  intro w x
  let r := (List.range (2048 / w)).foldl (scanStep (active w (s.rp p)) op x) (laneN w (s.rv b) 0, 0, [])
  show Host.Outcome.next ((s.wv d lat (ofLanes w r.2.2) (laneMask w (s.rp p))).wf lat (BitVec.ofNat 6 r.2.1)) = _
  rw [show r = _ from foldl_scanStep _ op x _ _]
  rfl

/-- The active lanes up to an active lane are those below it and itself. -/
theorem activeLanes_filter_le {w k : Nat} {p : PReg} (hk : k < 2048 / w) (ha : active w p k = true) :
    (activeLanes w p).filter (· ≤ k) = (List.range k).filter (active w p) ++ [k] := by
  have hle : (fun i => decide (i ≤ k)) = fun i => decide (i < k + 1) := by simp only [Nat.lt_succ_iff]
  rw [hle, activeLanes_filter_lt p hk, List.range_succ, List.filter_append, List.filter_cons_of_pos ha, List.filter_nil]

/-- Settles O9: the integer reductions by the monoid of their operation, the floating-point ones as the tree is; the scans by
`State.vscan_eq_vmap`. -/
theorem vectorReductionAndScanResults : Obligations.VectorReductionAndScanResults := by
  unfold Obligations.VectorReductionAndScanResults
  refine ⟨fun s d a b p t => ?_, fun s d a b p t => ?_, fun s d a b p t => ?_⟩
  · intro w xs Xs y Y
    have hxs : ∀ x ∈ xs, x < 2 ^ w := List.forall_mem_map.2 fun i _ => laneN_lt w _ i
    have hy : y < 2 ^ w := laneN_lt w _ 0
    have hXs : xs.map (toSigned w) = Xs := List.map_map
    have hlen : xs.length = (activeLanes w (s.rp p)).length := List.length_map _
    refine ⟨forall_of_rows ?_, _, rfl, hlen ▸ s.wv_lane_zero (w := 64) d 4 ?_⟩
    · simp only [List.forall_mem_cons, List.not_mem_nil, IsEmpty.forall_iff, implies_true, and_true, ← hXs]
      have hmin := laneMonoid_lMin w (Ty.width_pos t)
      have hmax := laneMonoid_lMax w (Ty.width_pos t)
      exact ⟨s.vred_lanes d a b p t (laneMonoid_lAdd w) (foldl_lAdd xs hy),
        s.vred_lanes d a b p t hmin (hmin.foldl_eq_ofSigned (toSigned_lMin w) hxs hy),
        s.vred_lanes d a b p t hmax (hmax.foldl_eq_ofSigned (toSigned_lMax w) hxs hy),
        s.vred_lanes d a b p t (laneMonoid_lMinn w) rfl, s.vred_lanes d a b p t (laneMonoid_lMaxn w) rfl,
        s.vred_lanes d a b p t (laneMonoid_lAnd w) rfl, s.vred_lanes d a b p t (laneMonoid_lOr w) rfl,
        s.vred_lanes d a b p t (laneMonoid_lXor w) rfl⟩
    · have hle : (activeLanes w (s.rp p)).length ≤ 2048 / w := (List.length_filter_le _ _).trans_eq List.length_range
      rw [hlen]
      exact (hle.trans (Ty.lanes_le t)).trans_lt (show 2 ^ 8 < 2 ^ 64 by decide)
  · intro w g ls i ident op hi
    have hform := fun ident op => s.vred_posted d a b p t 8 ident op
    simp only [List.mem_cons, List.not_mem_nil, or_false, Prod.mk.injEq] at hi
    obtain ⟨rfl, rfl, rfl⟩ | ⟨rfl, rfl, rfl⟩ | ⟨rfl, rfl, rfl⟩ := hi
    · exact hform (g.signed true 0) (onBits addF g s.fpMode)
    · exact hform g.infMag (minF g)
    · exact hform (g.signed true g.infMag) (maxF g)
  · intro w g upTo i lat op hi
    have hscan : exec i s = s.vscan d a b p t lat op := by
      simp only [List.mem_cons, List.not_mem_nil, or_false, Prod.mk.injEq] at hi
      obtain ⟨rfl, rfl, rfl⟩ | ⟨rfl, rfl, rfl⟩ | ⟨rfl, rfl, rfl⟩ | ⟨rfl, rfl, rfl⟩ | ⟨rfl, rfl, rfl⟩ | ⟨rfl, rfl, rfl⟩ |
        ⟨rfl, rfl, rfl⟩ | ⟨rfl, rfl, rfl⟩ := hi <;> rfl
    refine ⟨_, hscan.trans (s.vscan_eq_vmap d a b p t lat op), (s.vmap_lanes d p w lat false _).congr fun k hk ha => ?_⟩
    have hup : upTo k = ((List.range k).filter (active w (s.rp p))).map (laneN w (s.rv a)) ++ [laneN w (s.rv a) k] := by
      simp only [upTo, activeLanes_filter_le hk ha, List.map_append, List.map_cons, List.map_nil]
    simp only [hup, List.dropLast_concat, List.getLastD_concat]
    exact ⟨rfl, rfl⟩

end Sys2Proof.Machine
end


section
/-! Conversions between lane types (O10). -/

namespace Sys2Proof.Machine

/-! ### One element (R161) -/

theorem convF_nonzero {g : Fmt} {rm : Rm} {rnd m : Nat} (s : Bool) (e : Int) (h : m ≠ 0) :
    convF g rm rnd (.fin s m e) = roundQ g rm rnd s m 1 e := if_neg h

/-! ### Part of a register (R164) -/

theorem getD_map_range_ite {n : Nat} (f : Nat → Nat) (i : Nat) : ((List.range n).map f).getD i 0 = if i < n then f i else 0 := by
  split
  next h => exact getD_map_range f h
  next h => exact List.getD_eq_default _ _ (by simpa using h)

/-- The register whose n lanes of width w from lane k on are g's where an element is active, and whose other bits are zero. -/
def partLanes (w n k : Nat) (act : Nat → Bool) (g : Nat → Nat) : VReg :=
  BitVec.ofNat 2048 (packNat w ((List.range n).map fun i => if act i then g i else 0) <<< (k * w))

theorem laneN_partLanes {w j : Nat} (n k : Nat) (act : Nat → Bool) (g : Nat → Nat) (hj : j < 2048 / w) :
    laneN w (partLanes w n k act g) j = if k ≤ j ∧ j < k + n ∧ act (j - k) = true then g (j - k) % 2 ^ w else 0 := by
  rw [partLanes, laneN_packNat_shiftLeft k _ hj, getD_map_range_ite]
  by_cases hk : k ≤ j
  · by_cases hn : j < k + n
    · rw [if_pos hk, if_pos (by omega)]
      simp only [hk, hn, true_and]
      split <;> simp
    · rw [if_pos hk, if_neg (by omega), if_neg fun h => hn h.2.1, Nat.zero_mod]
  · rw [if_neg hk, if_neg fun h => hk h.1]

/-- A part of a register written under the mask of its active elements. -/
theorem Eff.leavesLanes_part {r : Nat} (hr : r < 48) (w n k : Nat) (act : Nat → Bool) (g : Nat → Nat) :
    (Eff.vec r (partLanes w n k act g) (partLanes w n k act fun _ => 2 ^ w - 1)).leavesLanes r w fun j old =>
      if k ≤ j ∧ j < k + n ∧ act (j - k) = true then g (j - k) % 2 ^ w else old := by
  have hfull : (2 ^ w - 1) % 2 ^ w = 2 ^ w - 1 := Nat.mod_eq_of_lt (Nat.sub_lt (Nat.two_pow_pos w) one_pos)
  intro v j hj
  rw [Eff.leavesLanes_of_mask hr (fun j => k ≤ j ∧ j < k + n ∧ act (j - k) = true)
    (fun j hj => by rw [laneN_partLanes n k act _ hj, hfull]) v j hj]
  exact ite_congr rfl (fun h => (laneN_partLanes n k act g hj).trans (if_pos h)) fun _ => rfl

/-- The narrowing conversion posts the part of vd that it writes, and the flags of the active elements. -/
theorem State.vnarrow_lanes (s : State) (d a b : BitVec 4) (p : BitVec 5) (r : Rm) (q : BitVec 2) (n : BitVec 4) :
    let c := narrowPair n.toNat
    let w := c.1.width
    let v := c.2.width
    let k := q.toNat * (2048 / w)
    let y := fun i => convert c.1 c.2 (s.cvtMode r) (srWord w (s.rv b) i) (laneN w (s.rv a) i)
    ∃ x m : VReg, exec (.vnarrow d a b p r q n) s =
        .next (s.posted ((4, .vec (s.vix d) x m) :: flagResult 4 (laneFlags w (s.rp p) y))) ∧
      (Eff.vec (s.vix d) x m).leavesLanes (s.vix d) v fun j old =>
        if k ≤ j ∧ j < k + 2048 / w ∧ active w (s.rp p) (j - k) then (y (j - k)).1 % 2 ^ v else old := by
  intro c w v k y
  let xs := (List.range (2048 / w)).map fun i => if active w (s.rp p) i = true then y i else (0, 0)
  have hpart : partLanes v (2048 / w) k (active w (s.rp p)) (fun i => (y i).1) =
      BitVec.ofNat 2048 (packNat v (xs.map (·.1)) <<< (k * v)) := by
    rw [partLanes, List.map_map]
    refine congrArg (fun l => BitVec.ofNat 2048 (packNat v l <<< (k * v))) (List.map_congr_left fun i _ => ?_)
    exact (apply_ite Prod.fst (active w (s.rp p) i = true) (y i) (0, 0)).symm
  have hflags : orFlags (xs.map (·.2)) = laneFlags w (s.rp p) y := by
    rw [List.map_map, ← orFlags_active rfl]
    rfl
  refine ⟨_, _, ?_, Eff.leavesLanes_part (s.vix_lt d) v (2048 / w) k (active w (s.rp p)) fun i => (y i).1⟩
  rw [hpart, ← hflags]
  exact congrArg _ (State.wf_posted _ 4 _)

/-- Settles O10: one element by the model's conversions, the pairs by their tables, and the forms lane by lane. -/
theorem conversionResults : Obligations.ConversionResults := by
  unfold Obligations.ConversionResults
  refine ⟨⟨fun f g rm rnd x => ?_, fun f sg v rm rnd x => ?_, fun _ _ _ _ _ _ => rfl, fun _ _ _ _ _ _ _ => rfl⟩, ⟨rfl, rfl, rfl⟩,
    fun s d a b p r f q n => ?_⟩
  · intro c
    exact ⟨fun q m h => congrArg (convF g rm rnd) h, fun q h => congrArg (convF g rm rnd) h, fun q e h => congrArg (convF g rm rnd) h,
      fun q m e h hm => (congrArg (convF g rm rnd) h).trans (convF_nonzero q e hm)⟩
  · intro c lo hi
    exact ⟨fun q m h => congrArg (convI sg v rm rnd) h, fun q h => congrArg (convI sg v rm rnd) h,
      fun q m e h => congrArg (convI sg v rm rnd) h⟩
  · intro rm
    have hrm : s.cvtMode r = rm := by cases r <;> rfl
    rw [← hrm]
    refine ⟨⟨_, rfl, s.vmap_lanes d p _ 4 false _⟩, ?_, _, rfl, s.vmap_lanes d p _ 4 false _⟩
    intro c w v E y _
    rw [Nat.succ_mul]
    exact s.vnarrow_lanes d a b p r q n

end Sys2Proof.Machine
end


section
/-! The functions of the X slot: special operands, exact powers of two, the odd tangent (O16). -/

namespace Sys2Proof.Machine

/-! ### Powers of two (R169) -/

/-- A dyadic is exact at any quantum up to its own. -/
theorem roundAt_exact (rm : Rm) (rnd : Nat) (s : Bool) (m : Nat) {e q : Int} (h : q ≤ e) :
    roundAt rm rnd s m 1 e q = (m * 2 ^ (e - q).toNat, false) := by
  have hscale : scaleQ m 1 (e - q) = (m * 2 ^ (e - q).toNat, 1) := by rw [scaleQ, if_pos (by omega), Nat.shiftLeft_eq]
  simp only [roundAt, hscale, Nat.mod_one, Nat.div_one, roundsUp_exact, Bool.false_eq_true, if_false, ne_eq, not_true,
    decide_false]

/-- The magnitude of 2^n in a format: its exponent field above a zero fraction, or one bit of the fraction. -/
def Fmt.powerMag (f : Fmt) (n : Int) : Nat :=
  if 1 - (f.bias : Int) ≤ n then (n + f.bias).toNat * 2 ^ f.mb else 2 ^ (n + f.bias + f.mb - 1).toNat

/-- A power of two between the least subnormal and the largest finite number rounds to itself, with no flag. -/
theorem roundQ_power {f : Fmt} {n : Int} (hlo : 1 - (f.bias : Int) - f.mb ≤ n) (hle : f.powerMag n ≤ f.maxMag)
    (rm : Rm) (rnd : Nat) (s : Bool) : roundQ f rm rnd s 1 1 n = (f.signed s (f.powerMag n), 0) := by
  have htop : log2Q 1 1 + n = n := by rw [log2Q_one one_ne_zero, show Nat.log2 1 = 0 from by decide, Nat.cast_zero, zero_add]
  have hmag : (if 1 - (f.bias : Int) ≤ n then ((n + f.bias).toNat <<< f.mb) + 1 * 2 ^ (n - (max n (1 - f.bias) - f.mb)).toNat - 2 ^ f.mb
      else 1 * 2 ^ (n - (max n (1 - f.bias) - f.mb)).toNat) = f.powerMag n := by
    unfold Fmt.powerMag
    split
    next h =>
      rw [show (n - (max n (1 - f.bias) - f.mb)).toNat = f.mb by omega, Nat.shiftLeft_eq]
      omega
    next h => rw [show (n - (max n (1 - f.bias) - f.mb)).toNat = (n + f.bias + f.mb - 1).toNat by omega, one_mul]
  unfold roundQ
  simp only [htop, roundAt_exact rm rnd s 1 (show max n (1 - f.bias) - f.mb ≤ n by omega), hmag, Nat.not_lt.2 hle, if_false,
    Bool.false_and, Bool.false_eq_true, Nat.or_self]

/-- A result without flags gets none. -/
theorem xFlags_exact (f : Fmt) (n : Nat) : xFlags f (n, 0) = (n, 0) := by simp [xFlags]

/-- The number of a sign, a significand and an exponent is the integer n. -/
abbrev IsInteger (s : Bool) (m : Nat) (e n : Int) : Prop :=
  (0 ≤ e → (if s then -(m : Int) else m) * 2 ^ e.toNat = n) ∧ (e < 0 → (if s then -(m : Int) else m) = n * 2 ^ (-e).toNat)

section
variable {s : Bool} {m : Nat} {e n : Int}

theorem natAbs_significand : (if s then -(m : Int) else m).natAbs = m := by cases s <;> simp

theorem IsInteger.fixOf (h : IsInteger s m e n) : fixOf 0 (if s then -(m : Int) else m) e = n := by
  obtain ⟨hpos, hneg⟩ := h
  unfold Machine.fixOf
  simp only [Nat.cast_zero, add_zero]
  split
  next he => exact hpos he
  next he =>
    rw [hneg (by omega)]
    exact Int.mul_ediv_cancel _ (by positivity)

/-- No bit of it lies below the point. -/
theorem IsInteger.whole (h : IsInteger s m e n) : 0 ≤ e ∨ m % 2 ^ (-e).toNat = 0 := by
  obtain ⟨-, hneg⟩ := h
  refine or_iff_not_imp_left.2 fun he => ?_
  have hm := congrArg Int.natAbs (hneg (by omega))
  rw [natAbs_significand, Int.natAbs_mul, Int.natAbs_pow] at hm
  exact hm ▸ Nat.mul_mod_left _ _

theorem IsInteger.log2_lt {k : Nat} (h : IsInteger s m e n) (hn : n.natAbs < 2 ^ k) (hm : m ≠ 0) : (m.log2 : Int) + e < k := by
  obtain ⟨hpos, hneg⟩ := h
  have hself := Nat.log2_self_le hm
  obtain he | he := le_or_gt 0 e
  · have habs := congrArg Int.natAbs (hpos he)
    rw [Int.natAbs_mul, natAbs_significand, Int.natAbs_pow] at habs
    have hlt : 2 ^ (m.log2 + e.toNat) < 2 ^ k := by
      rw [pow_add]
      exact (Nat.mul_le_mul_right _ hself).trans_lt (habs.trans_lt hn)
    have := (Nat.pow_lt_pow_iff_right (by decide)).1 hlt
    omega
  · have habs := congrArg Int.natAbs (hneg he)
    rw [natAbs_significand, Int.natAbs_mul, Int.natAbs_pow] at habs
    have hlt : 2 ^ m.log2 < 2 ^ (k + (-e).toNat) := by
      rw [pow_add]
      exact (hself.trans_eq habs).trans_lt (Nat.mul_lt_mul_of_pos_right hn (by positivity))
    have := (Nat.pow_lt_pow_iff_right (by decide)).1 hlt
    omega

/-- R169: the exponential to base 2 of an integer whose power the format holds is that power. -/
theorem tEval_exp2_integer {f : Fmt} {x : Nat} (hdec : decodeF f x = .fin s m e) (hm : m ≠ 0)
    (hn : n.natAbs < 2 ^ 10) (h : IsInteger s m e n) (hlo : 1 - (f.bias : Int) - f.mb ≤ n) (hle : f.powerMag n ≤ f.maxMag) :
    tEval f .exp2 x = (f.powerMag n, 0) := by
  have htop : ¬(9 : Int) < m.log2 + e := by
    have := h.log2_lt hn hm
    omega
  have hfin : tFinite f .exp2 s m e x = (f.powerMag n, 0) := by
    simp only [tFinite, if_neg htop, if_pos h.whole, h.fixOf, near, roundQ_power hlo hle]
    simp [Fmt.signed, bit]
  simp only [tEval, hdec, if_neg hm, hfin, xFlags_exact]

end

/-! ### The sign bit (R169) -/

section
variable {f : Fmt} {x : Nat}

theorem bits_add_sign_exponent (f : Fmt) (x : Nat) : bits (x + 2 ^ (f.eb + f.mb)) f.mb f.eb = bits x f.mb f.eb := by
  rw [bits_eq, bits_eq, pow_add, Nat.add_mul_div_right _ _ (Nat.two_pow_pos _), Nat.add_mod_right]

theorem bits_add_sign_fraction (f : Fmt) (x : Nat) : bits (x + 2 ^ (f.eb + f.mb)) 0 f.mb = bits x 0 f.mb := by
  rw [bits_eq, bits_eq, pow_add, pow_zero, Nat.div_one, Nat.div_one, Nat.add_mul_mod_self_right]

/-- The sign bit set in a positive number is its negation (R47). -/
theorem decodeF_add_sign (hx : x < 2 ^ (f.eb + f.mb)) (hnan : (decodeF f x).isNan = false) :
    (decodeF f x).sign = false ∧ decodeF f (x + 2 ^ (f.eb + f.mb)) = (decodeF f x).neg := by
  have hclear : tst x (f.eb + f.mb) = false := Nat.testBit_lt_two_pow hx
  have hset : tst (x + 2 ^ (f.eb + f.mb)) (f.eb + f.mb) = true := by
    rw [tst, Nat.add_comm, Nat.testBit_two_pow_add_eq, Nat.testBit_lt_two_pow hx, Bool.not_false]
  revert hnan
  simp only [decodeF, hclear, hset, bits_add_sign_exponent, bits_add_sign_fraction]
  split_ifs <;> simp [FVal.sign, FVal.neg, FVal.isNan]

theorem Fmt.signed_true (f : Fmt) (n : Nat) : f.signed true n = f.signed false n + 2 ^ (f.eb + f.mb) := by
  simp [Fmt.signed, bit, Nat.shiftLeft_eq, Nat.add_comm]

/-- A result's flags do not depend on its sign. -/
theorem xFlags_add_sign (f : Fmt) (r : Nat × Nat) :
    xFlags f (r.1 + 2 ^ (f.eb + f.mb), r.2) = ((xFlags f r).1 + 2 ^ (f.eb + f.mb), (xFlags f r).2) := by
  simp only [xFlags, bits_add_sign_exponent]

theorem tFinite_tanh_add_sign (f : Fmt) (m : Nat) (e : Int) (x : Nat) : tFinite f .tanh true m e (x + 2 ^ (f.eb + f.mb)) =
    ((tFinite f .tanh false m e x).1 + 2 ^ (f.eb + f.mb), (tFinite f .tanh false m e x).2) := by
  have hor : ∀ n, n % 2 ^ (f.eb + f.mb) ||| bit true <<< (f.eb + f.mb) = n % 2 ^ (f.eb + f.mb) + 2 ^ (f.eb + f.mb) := by
    intro n
    rw [Nat.or_comm, ← Nat.shiftLeft_add_eq_or_of_lt (Nat.mod_lt _ (Nat.two_pow_pos _)), bit, if_pos rfl, Nat.one_shiftLeft, Nat.add_comm]
  simp only [tFinite, Nat.add_mod_right, hor]
  simp [bit]

/-- R169: the tangent of the opposite operand is the opposite result, with the same flags. -/
theorem tEval_tanh_odd (hx : x < 2 ^ (f.eb + f.mb)) (hnan : (decodeF f x).isNan = false) :
    tEval f .tanh (x + 2 ^ (f.eb + f.mb)) = ((tEval f .tanh x).1 + 2 ^ (f.eb + f.mb), (tEval f .tanh x).2) := by
  obtain ⟨hsign, hneg⟩ := decodeF_add_sign hx hnan
  simp only [tEval, hneg]
  generalize decodeF f x = v at hsign hnan
  cases v with
  | nan s m => cases hnan
  | inf s =>
    obtain rfl : s = false := hsign
    exact Prod.ext (f.signed_true _) rfl
  | fin s m e =>
    obtain rfl : s = false := hsign
    by_cases hm : m = 0
    · simp only [FVal.neg, hm, if_true]
      exact Prod.ext (f.signed_true _) rfl
    · simp only [FVal.neg, hm, if_false, Bool.not_false, tFinite_tanh_add_sign, xFlags_add_sign]

end

/-! ### Special operands and exact quotients (R170, R171) -/

/-- A quotient of finite nonzero numbers is the rational rounded once. -/
theorem divF_finite (f : Fmt) (rm : Rm) (sx sy : Bool) {mx my : Nat} (ex ey : Int) (hx : mx ≠ 0) (hy : my ≠ 0) :
    divF f rm (.fin sx mx ex) (.fin sy my ey) = roundQ f rm 0 (sx ^^ sy) mx my (ex - ey) := by
  have hnan : firstNan f [.fin sx mx ex, .fin sy my ey] = none := rfl
  simp only [divF, hnan, if_neg hx, if_neg hy]
  rfl

/-- An invalid operand's NaN keeps its flag. -/
theorem xFlags_invalid (f : Fmt) (n : Nat) : xFlags f (n, fNV) = (n, 1) := by simp [xFlags, fNV, fUF, fNX]

theorem Fmt.signed_false (f : Fmt) (n : Nat) : f.signed false n = n := by simp [Fmt.signed, bit]

section
variable {f : Fmt} {x : Nat}

theorem special_of_zero {s : Bool} {e : Int} (h : decodeF f x = .fin s 0 e) :
    tEval f .exp2 x = (f.one, 0) ∧ tEval f .exp x = (f.one, 0) ∧ tEval f .log2 x = (f.signed true f.infMag, 2) ∧
    tEval f .log x = (f.signed true f.infMag, 2) ∧ rcpEval f x = (f.signed s f.infMag, 2) ∧
    rsqrtEval f x = (f.signed s f.infMag, 2) ∧ (∀ rm, sqrtF f rm (decodeF f x) = (f.signed s 0, 0)) ∧
    tEval f .tanh x = (f.signed s 0, 0) ∧ tEval f .sig x = (f.half, 0) := by
  simp only [tEval, rcpEval, rsqrtEval, sqrtF, h, if_true, fDZ, implies_true, and_self]

theorem special_of_infinity {s : Bool} (h : decodeF f x = .inf s) :
    let zero := fun s => f.signed s 0
    let inf := fun s => f.signed s f.infMag
    tEval f .exp2 x = (if s then zero false else inf false, 0) ∧ tEval f .exp x = (if s then zero false else inf false, 0) ∧
    tEval f .log2 x = (if s then (f.cnan, 1) else (inf false, 0)) ∧ tEval f .log x = (if s then (f.cnan, 1) else (inf false, 0)) ∧
    rcpEval f x = (zero s, 0) ∧ rsqrtEval f x = (if s then (f.cnan, 1) else (zero false, 0)) ∧
    (∀ rm, sqrtF f rm (decodeF f x) = if s then (f.cnan, 1) else (inf false, 0)) ∧
    tEval f .tanh x = (f.signed s f.one, 0) ∧ tEval f .sig x = (if s then zero false else f.one, 0) := by
  simp only [tEval, rcpEval, rsqrtEval, sqrtF, h, Fmt.signed_false, fNV, implies_true]
  cases s <;> simp

theorem special_of_negative {m : Nat} {e : Int} (h : decodeF f x = .fin true m e) (hm : m ≠ 0) :
    tEval f .log2 x = (f.cnan, 1) ∧ tEval f .log x = (f.cnan, 1) ∧ rsqrtEval f x = (f.cnan, 1) ∧
    ∀ rm, sqrtF f rm (decodeF f x) = (f.cnan, 1) := by
  simp only [tEval, tFinite, rsqrtEval, sqrtF, h, if_neg hm, if_true, xFlags_invalid]
  simp only [fNV, implies_true, and_self]

end

/-- Settles O16: the forms lane by lane, the special operands by their tables, the exact powers by `tEval_exp2_integer` and the odd
tangent by `tEval_tanh_odd`. -/
theorem specialFunctionResults : Obligations.SpecialFunctionResults := by
  unfold Obligations.SpecialFunctionResults
  refine ⟨?_, ?_, ?_, fun g _ x => tEval_tanh_odd⟩
  · intro s d a b p t w g x y
    have hform := fun f => s.vmap_lanes d p w 8 false f
    refine ⟨forall_of_rows ?_, fun k sx mx ex hx hmx => ⟨?_, fun sy my ey hy hmy => ?_⟩⟩
    · simp only [List.forall_mem_cons, List.not_mem_nil, IsEmpty.forall_iff, implies_true, and_true]
      exact ⟨⟨_, rfl, hform _⟩, ⟨_, rfl, hform _⟩, ⟨_, rfl, hform _⟩, ⟨_, rfl, hform _⟩, ⟨_, rfl, hform _⟩,
        ⟨_, rfl, hform _⟩, ⟨_, rfl, hform _⟩, ⟨_, rfl, hform _⟩, ⟨_, rfl, hform _⟩, ⟨_, rfl, hform _⟩⟩
    · simp only [rcpEval, hx, if_neg hmx]
    · rw [hx, hy, divF_finite g _ sx sy ex ey hmx hmy]
  · intro g _ x inf zero
    exact ⟨fun s e => special_of_zero, fun s => special_of_infinity, fun m e => special_of_negative⟩
  · intro x m s e n hdec hm hlo hhi hpos hneg
    have hmag : fmtF32.powerMag n = if -126 ≤ n then (n + 127).toNat * 2 ^ 23 else 2 ^ (n + 149).toNat := by
      have hexp : (n + 127 + 23 - 1 : Int).toNat = (n + 149).toNat := by omega
      simp [Fmt.powerMag, fmtF32, hexp]
    rw [tEval_exp2_integer hdec hm (by omega) ⟨hpos, hneg⟩, hmag]
    · simpa [fmtF32] using hlo
    · rw [hmag]
      have hmax : fmtF32.maxMag = 254 * 2 ^ 23 + (2 ^ 23 - 1) := by decide
      split
      · omega
      · have := Nat.pow_le_pow_right (show 0 < 2 by decide) (show (n + 149).toNat ≤ 22 by omega)
        omega

end Sys2Proof.Machine
end


section
/-! Loads of the context's own scratchpad: what each granule needs, what the whole load registers, and when its value is taken. -/

namespace Sys2Proof.Machine

/-! ### Runs of bytes inside a granule (R14, R318) -/

/-- A local address, by its number. -/
theorem toNat_of_localSp {ea : Word} {a : Nat} (h : spaceOf ea = .localSp a) : ea.toNat = 2 ^ 56 + a ∧ a < 2 ^ 23 := by
  have hlt := ea.isLt
  simp only [spaceOf, fld, bits_eq] at h
  split_ifs at h with h0 h1 h2
  obtain rfl := Space.localSp.inj h
  constructor <;> omega

theorem spaceOf_localSp {ea : Word} {a : Nat} (h : ea.toNat = 2 ^ 56 + a) (ha : a < 2 ^ 23) : spaceOf ea = .localSp a := by
  have hlo : ea.toNat / 2 ^ 0 % 2 ^ 56 = a := by omega
  have hhi : ea.toNat / 2 ^ 56 % 2 ^ 8 = 1 := by omega
  simp only [spaceOf, fld, bits_eq, hlo, hhi, if_pos ha]
  rfl

/-- The bytes of an aligned local access lie side by side in one granule. -/
theorem localSp_add {ea : Word} {a n i : Nat} (h : spaceOf ea = .localSp a) (hdvd : n ∣ 64) (hal : ea.toNat % n = 0) (hi : i < n) :
    spaceOf (ea + BitVec.ofNat 64 i) = .localSp (a + i) ∧ (ea + BitVec.ofNat 64 i).toNat / 64 = ea.toNat / 64 := by
  obtain ⟨hea, ha⟩ := toNat_of_localSp h
  have hfit : ea.toNat % 64 + n ≤ 64 := by
    obtain ⟨q, hq⟩ := hdvd
    obtain ⟨j, hj⟩ := Nat.dvd_of_mod_eq_zero hal
    have hlt : j % q < q := Nat.mod_lt _ (by by_contra h0; simp [Nat.eq_zero_of_not_pos h0] at hq)
    rw [hj, hq, Nat.mul_mod_mul_left, ← Nat.mul_succ]
    exact Nat.mul_le_mul_left n hlt
  have hadd : (ea + BitVec.ofNat 64 i).toNat = ea.toNat + i := by
    rw [BitVec.toNat_add, BitVec.toNat_ofNat]
    omega
  exact ⟨spaceOf_localSp (by omega) (by omega), by omega⟩

/-! ### The first of each granule -/

section
variable {α : Type} (same : α → α → Bool)

/-- An element kept where none like it has been. -/
def keepFirst (acc : List α) (x : α) : List α := if acc.any fun y => same y x then acc else acc ++ [x]

variable {same}

/-- Elements like one that stands already change nothing. -/
theorem foldl_keepFirst_of_like {acc xs : List α} (h : ∀ x ∈ xs, ∃ y ∈ acc, same y x = true) :
    xs.foldl (keepFirst same) acc = acc := by
  induction xs with
  | nil => rfl
  | cons x xs ih =>
    obtain ⟨hx, hxs⟩ := List.forall_mem_cons.1 h
    rw [List.foldl_cons, keepFirst, if_pos (List.any_eq_true.2 hx)]
    exact ih hxs

/-- A run of elements that are all like its first. -/
theorem foldl_keepFirst_run {acc xs : List α} {x : α} (hself : same x x = true) (hxs : ∀ y ∈ xs, ∀ z, same z y = same z x) :
    (x :: xs).foldl (keepFirst same) acc = keepFirst same acc x := by
  rw [List.foldl_cons]
  refine foldl_keepFirst_of_like fun y hy => ?_
  simp only [hxs y hy]
  unfold keepFirst
  split
  next h => exact List.any_eq_true.1 h
  next => exact ⟨x, by simp, hself⟩

theorem mem_foldl_keepFirst {acc xs : List α} {y : α} (h : y ∈ xs.foldl (keepFirst same) acc) : y ∈ acc ∨ y ∈ xs := by
  induction xs generalizing acc with
  | nil => exact .inl h
  | cons x xs ih =>
    obtain h | h := ih h
    · unfold keepFirst at h
      split at h
      · exact .inl h
      · obtain h | h := List.mem_append.1 h
        · exact .inl h
        · exact .inr (List.mem_singleton.1 h ▸ List.mem_cons_self)
    · exact .inr (List.mem_cons_of_mem _ h)

theorem subset_foldl_keepFirst (acc xs : List α) : acc ⊆ xs.foldl (keepFirst same) acc := by
  induction xs generalizing acc with
  | nil => exact List.Subset.refl _
  | cons x xs ih =>
    refine List.Subset.trans ?_ (ih _)
    unfold keepFirst
    split
    · exact List.Subset.refl _
    · exact List.subset_append_left _ _

end

section
variable (s : State) (c : Nat)

/-- Whether two addresses lie in one granule, SYNC bytes apart from RD bytes. -/
def State.sameGranule (x y : Word) : Bool := x.toNat / 64 = y.toNat / 64 && s.syncByte c x == s.syncByte c y

theorem State.granules_eq (eas : List Word) : s.granules c eas = eas.foldl (keepFirst (s.sameGranule c)) [] := rfl

variable {s c}

theorem State.mem_of_mem_granules {eas : List Word} {ea : Word} (h : ea ∈ s.granules c eas) : ea ∈ eas := by
  obtain h | h := mem_foldl_keepFirst h
  · cases h
  · exact h

/-- The first address is the first of its granule. -/
theorem State.mem_granules_cons (ea : Word) (eas : List Word) : ea ∈ s.granules c (ea :: eas) :=
  subset_foldl_keepFirst [ea] eas List.mem_cons_self

/-- Whether the n bytes at an address are of its granule, and of one kind. -/
abbrev State.inOneGranule (s : State) (c n : Nat) (ea : Word) : Prop :=
  ∀ i, i < n → (ea + BitVec.ofNat 64 i).toNat / 64 = ea.toNat / 64 ∧ s.syncByte c (ea + BitVec.ofNat 64 i) = s.syncByte c ea

theorem State.foldl_eaRun {n : Nat} (hn : 0 < n) {ea : Word} (h : s.inOneGranule c n ea) (acc : List Word) :
    (eaRun ea n).foldl (keepFirst (s.sameGranule c)) acc = keepFirst (s.sameGranule c) acc ea := by
  obtain ⟨m, rfl⟩ := Nat.exists_eq_succ_of_ne_zero hn.ne'
  have hrun : eaRun ea (m + 1) = ea :: (List.range m).map fun i => ea + BitVec.ofNat 64 (i + 1) := by
    rw [eaRun, List.range_succ_eq_map, List.map_cons, List.map_map]
    simp [Function.comp_def]
  rw [hrun]
  refine foldl_keepFirst_run (by simp [State.sameGranule]) (List.forall_mem_map.2 fun i hi z => ?_)
  obtain ⟨hline, hsync⟩ := h (i + 1) (by have := List.mem_range.1 hi; omega)
  simp only [State.sameGranule, hline, hsync]

/-- The granules of elements that each lie in one are those of their first bytes. -/
theorem State.granules_eaRuns {n : Nat} (hn : 0 < n) {eas : List Word} (h : ∀ ea ∈ eas, s.inOneGranule c n ea) :
    s.granules c (eas.flatMap fun ea => eaRun ea n) = s.granules c eas := by
  rw [s.granules_eq, s.granules_eq]
  generalize ([] : List Word) = acc
  induction eas generalizing acc with
  | nil => rfl
  | cons ea eas ih =>
    obtain ⟨hea, heas⟩ := List.forall_mem_cons.1 h
    rw [List.flatMap_cons, List.foldl_append, State.foldl_eaRun hn hea, List.foldl_cons, ih heas]

theorem State.granules_eaRun {n : Nat} (hn : 0 < n) {ea : Word} (h : s.inOneGranule c n ea) : s.granules c (eaRun ea n) = [ea] :=
  State.foldl_eaRun hn h []

end

/-! ### The granules of the context's own scratchpad (R190, R222, R318, R427) -/

section
variable {s : State} {n : Nat} {ea : Word} {a : Nat}

/-- The granule that the load of a local byte reads and registers. -/
def State.localReads (s : State) (a : Nat) : List (Party × Gran) :=
  if s.plainAt (clOf s.iss.ctx) a then [(s.party s.iss.ctx, s.spGran (clOf s.iss.ctx) a)] else []

/-- What the load of a local granule from byte a on comes to, where nothing stands before it. -/
def State.localLoad (s : State) (a : Nat) : GLoad :=
  { lat := 6, sp := [spKey (clOf s.iss.ctx) (a / 64 * 64)], reg := s.localReads a }

/-- A load of a local byte that the context may load waits for nothing and raises nothing. -/
theorem State.loadGran_of_loadsLocal (hn : 0 < n) (h : s.loadsLocal n ea a) : s.loadGran ea = s.localLoad a := by
  obtain ⟨hsp, -, -, ⟨hpois, -⟩, b, hsync, hmay⟩ := h
  have hb : s.syncAt (clOf s.iss.ctx) a = b := hsync 0 hn
  simp only [State.loadGran, hsp, hpois, State.loadLocal, State.localLoad, State.localReads, State.plainAt, hb]
  cases hplat : s.platAt (clOf s.iss.ctx) a with
  | some pn =>
    have hpub : (s.platNow (clOf s.iss.ctx) pn).published a = true := by simpa [hplat] using hmay
    simp [State.frontTrap, hplat, hpub]
  | none =>
    cases b with
    | true =>
      have hdet : s.detOf s.iss.ctx = false := by simpa [hplat] using hmay
      simp [State.loadTagged, hb, hdet]
    | false =>
      have hfree : s.conflict (s.party s.iss.ctx) .load [s.spGran (clOf s.iss.ctx) a] = none := by simpa [hplat] using hmay
      simp [State.loadTagged, hb, hfree]

theorem State.inOneGranule_of_loadsLocal (hdvd : n ∣ 64) (h : s.loadsLocal n ea a) : s.inOneGranule s.iss.ctx n ea := by
  obtain ⟨hsp, hal, -, -, b, hsync, -⟩ := h
  intro i hi
  obtain ⟨hspi, hline⟩ := localSp_add hsp hdvd hal hi
  refine ⟨hline, ?_⟩
  simp only [State.syncByte, hsp, hspi, hsync i hi]
  exact (hsync 0 (by omega)).symm

theorem State.nameable_of_loadsLocal {acc : Accepts} (hacc : acc.loc = true) (h : s.loadsLocal n ea a) : s.nameable acc n ea = true := by
  obtain ⟨hsp, hal, -⟩ := h
  simp [State.nameable, hsp, hal, hacc]

theorem State.elementTrap_of_loadsLocal (hn : 0 < n) (hdvd : n ∣ 64) (h : s.loadsLocal n ea a) : s.elementTrap n ea = none := by
  have hgran := State.loadGran_of_loadsLocal hn h
  have hrun := State.granules_eaRun hn (State.inOneGranule_of_loadsLocal hdvd h)
  obtain ⟨-, -, ⟨hacc, -⟩, -⟩ := h
  simp [State.elementTrap, hacc, hrun, hgran, State.localLoad]

end

/-! ### What the granules register -/

/-- The granule whose read a load from an address registers. -/
def State.readGran (s : State) (ea : Word) : Option Gran :=
  match spaceOf ea with
  | .localSp a => if s.plainAt (clOf s.iss.ctx) a then some (s.spGran (clOf s.iss.ctx) a) else none
  | .window w a =>
    let x := s.win s.iss.ctx w
    if x.mod = s.modNo ∧ s.plainAt x.peer a then some (s.spGran x.peer a) else none
  | _ => none

theorem State.readGrans_eq (s : State) (eas : List Word) : s.readGrans eas = (s.granules s.iss.ctx eas).filterMap s.readGran := rfl

theorem State.foldl_corrected_of_clear {s : State} {d : Nat} {ks : List Nat} (h : ∀ k ∈ ks, ∀ x ∈ s.corr, x < k ∨ k + 64 ≤ x) :
    ks.foldl (fun s k => s.corrected d k 64) s = s := by
  induction ks with
  | nil => rfl
  | cons k ks ih =>
    obtain ⟨hk, hks⟩ := List.forall_mem_cons.1 h
    rw [List.foldl_cons, State.corrected_of_clear hk]
    exact ih hks

/-- Reads registered one by one are registered together. -/
theorem State.foldl_register (s : State) (x : Party) (gs : List Gran) :
    (gs.map fun g => (x, g)).foldl (fun s r => s.register r.1 .load [r.2]) s = s.register x .load gs := by
  rw [List.foldl_map]
  rfl

theorem State.register_corr (s : State) (x : Party) (k : AccKind) (gs : List Gran) : (s.register x k gs).corr = s.corr :=
  (congrArg State.corr (s.register_offTags x k gs) :)

section
variable {s : State} {n : Nat} {eas : List Word}

/-- The granules of a load of local addresses that the context may load. -/
theorem State.loaded_of_loadsLocal (hn : 0 < n) (h : ∀ ea ∈ eas, ∃ a, s.loadsLocal n ea a) :
    s.loaded ((s.granules s.iss.ctx eas).map s.loadGran) = s.readAll eas := by
  have hgran : ∀ ea ∈ s.granules s.iss.ctx eas, ∃ a, spaceOf ea = .localSp a ∧ s.loadGran ea = s.localLoad a ∧
      ∀ k ∈ (s.localLoad a).sp, ∀ x ∈ s.corr, x < k ∨ k + 64 ≤ x := by
    intro ea hea
    obtain ⟨a, ha⟩ := h ea (State.mem_of_mem_granules hea)
    have hg := State.loadGran_of_loadsLocal hn ha
    obtain ⟨hsp, -, -, ⟨-, hcorr⟩, -⟩ := ha
    exact ⟨a, hsp, hg, List.forall_mem_singleton.2 hcorr⟩
  rw [State.readAll, State.readGrans_eq]
  generalize s.granules s.iss.ctx eas = gs at hgran
  have hnil : ∀ {β : Type} (f : GLoad → List β), (∀ a, f (s.localLoad a) = []) → (gs.map s.loadGran).flatMap f = [] :=
    fun f hf => List.flatMap_eq_nil_iff.2 (List.forall_mem_map.2 fun ea hea => by
      obtain ⟨a, -, hg, -⟩ := hgran ea hea
      rw [hg, hf])
  have hreg : (gs.map s.loadGran).flatMap (·.reg) = (gs.filterMap s.readGran).map fun g => (s.party s.iss.ctx, g) := by
    clear hnil
    induction gs with
    | nil => rfl
    | cons ea gs ih =>
      obtain ⟨⟨a, hsp, hg, -⟩, hgs⟩ := List.forall_mem_cons.1 hgran
      rw [List.map_cons, List.flatMap_cons, ih hgs, hg, List.filterMap_cons, State.readGran, hsp, State.localLoad, State.localReads]
      by_cases hplain : s.plainAt (clOf s.iss.ctx) a = true
      · simp [hplain]
      · simp [hplain]
  have hsp : ∀ k ∈ (gs.map s.loadGran).flatMap (·.sp), ∀ x ∈ s.corr, x < k ∨ k + 64 ≤ x := by
    intro k hk
    obtain ⟨g, hg, hkg⟩ := List.mem_flatMap.1 hk
    obtain ⟨ea, hea, rfl⟩ := List.mem_map.1 hg
    obtain ⟨a, -, hgr, hcorr⟩ := hgran ea hea
    exact hcorr k (hgr ▸ hkg)
  simp only [State.loaded, hnil (·.tlb) fun _ => rfl, hnil (·.used) fun _ => rfl, hreg, List.foldl_nil, State.foldl_register]
  exact State.foldl_corrected_of_clear (by rwa [State.register_corr])

/-- A load of local addresses that the context may load issues at 6 cy, its reads registered (R87, R197, R198). -/
theorem State.loadAt_of_loadsLocal {acc : Accepts} (hn : 0 < n) (hdvd : n ∣ 64) (hloc : acc.loc = true) (hnow : acc.now = false)
    (hne : eas ≠ []) (h : ∀ ea ∈ eas, ∃ a, s.loadsLocal n ea a) : s.loadAt acc n eas = .ok 6 (s.readAll eas) := by
  have hname : ∀ ea ∈ eas, s.nameable acc n ea = true := fun ea hea => (h ea hea).elim fun a ha => State.nameable_of_loadsLocal hloc ha
  have hgood : eas.filter (s.nameable acc n) = eas := List.filter_eq_self.2 hname
  have hbad : eas.find? (fun ea => !s.nameable acc n ea) = none := List.find?_eq_none.2 fun ea hea => by simp [hname ea hea]
  have hgrans : s.granules s.iss.ctx (eas.flatMap fun ea => eaRun ea n) = s.granules s.iss.ctx eas :=
    State.granules_eaRuns hn fun ea hea => (h ea hea).elim fun a ha => State.inOneGranule_of_loadsLocal hdvd ha
  have hgran : ∀ ea ∈ s.granules s.iss.ctx eas, ∃ a, s.loadGran ea = s.localLoad a := fun ea hea =>
    (h ea (State.mem_of_mem_granules hea)).imp fun a ha => State.loadGran_of_loadsLocal hn ha
  have htrap : eas.findSome? (s.elementTrap n) = none := List.findSome?_eq_none_iff.2 fun ea hea =>
    (h ea hea).elim fun a ha => State.elementTrap_of_loadsLocal hn hdvd ha
  have hloaded := State.loaded_of_loadsLocal hn h
  obtain ⟨hfence, hpaid⟩ : s.loadFenced s.iss.ctx = false ∧ s.iss.paid = none := by
    obtain ⟨ea, hea⟩ := List.exists_mem_of_ne_nil eas hne
    obtain ⟨a, -, -, ⟨-, hfence, hpaid⟩, -⟩ := h ea hea
    exact ⟨hfence, hpaid⟩
  have hnone : s.granules s.iss.ctx eas ≠ [] := by
    obtain ⟨ea, rest, rfl⟩ := List.exists_cons_of_ne_nil hne
    exact List.ne_nil_of_mem (State.mem_granules_cons ea rest)
  unfold State.loadAt
  rw [hpaid]
  simp only [hnow, hgood, hgrans, hbad, hfence, hloaded, Bool.false_eq_true, if_false, Bool.and_false]
  generalize s.granules s.iss.ctx eas = gs at hgran hnone
  have hnil : ∀ f : GLoad → Option Nat, (∀ a, f (s.localLoad a) = none) → (gs.map s.loadGran).filterMap f = [] :=
    fun f hf => List.filterMap_eq_nil_iff.2 (List.forall_mem_map.2 fun ea hea => by
      obtain ⟨a, hg⟩ := hgran ea hea
      rw [hg, hf])
  have hlat : (gs.map s.loadGran).map (·.lat) = List.replicate gs.length 6 := by
    rw [List.map_map, List.map_eq_replicate_iff]
    intro ea hea
    obtain ⟨a, hg⟩ := hgran ea hea
    rw [Function.comp_apply, hg]
    rfl
  simp only [hnil (·.line) fun _ => rfl, hnil (·.gran) fun _ => rfl, hnil (·.check) fun _ => rfl, hlat, htrap, List.dedup_nil,
    List.map_nil, ne_eq, not_true_eq_false, or_self, if_false, foldl_max_replicate, List.length_eq_zero_iff, hnone]

end

/-! ### When the value is taken (R89, R212, R222) -/

/-- A load that issues posts what its continuation does, or is withheld in a bundle that stalls or behind an acquiring atomic. -/
theorem State.loadingOf_done {s u : State} {i : Instr} {lat : Nat} {k : Nat → State → State} {posts : State → Prop}
    (hpaid : s.iss.paid = none) (hposts : posts (k lat u)) :
    ∃ v, s.loadingOf i (.ok lat u) k = .next v ∧ LoadDone s u v i lat posts := by
  have hload : s.loadingOf i (.ok lat u) k = if (s.iss.stall || s.iss.late) = true
      then .next (u.withheld (.load i s.cur.vis lat s.iss.late)) else .next (k lat u) := by
    simp only [State.loadingOf, hpaid, Option.isNone_none, Bool.true_and]
    rfl
  rw [hload]
  by_cases hlater : (s.iss.stall || s.iss.late) = true
  · rw [if_pos hlater]
    refine ⟨_, rfl, fun hstall hlate => ?_, fun _ => rfl⟩
    rw [hstall, hlate] at hlater
    cases hlater
  · rw [if_neg hlater]
    exact ⟨_, rfl, fun _ _ => hposts, fun h => absurd (by simpa using h) hlater⟩

/-- The number that a load takes is the one whose bytes the context reads (R5, R195). -/
theorem State.readsAt_loadNat (s : State) (ea : Word) (n : Nat) : s.readsAt ea n (s.loadNat (s.own s.iss.ctx) ea n) := by
  have hlen : ((List.range n).map fun (i : Nat) => s.loadByte (s.own s.iss.ctx) (ea + BitVec.ofNat 64 i)).length = n := by simp
  refine ⟨?_, fun i hi => ?_⟩
  · have := leNat_lt ((List.range n).map fun (i : Nat) => s.loadByte (s.own s.iss.ctx) (ea + BitVec.ofNat 64 i))
    rwa [hlen] at this
  · rw [State.loadNat, leNat_byte]
    simp [List.getD_eq_getElem?_getD, hi]

end Sys2Proof.Machine
end


section
/-! The Skink: its points, its scrambling matrices, its tables from memory (O17). -/

namespace Sys2Proof.Machine

/-! ### Points (R174) -/

theorem popNat_toNat (x : BitVec 32) : popNat 32 x.toNat = (List.range 32).countP fun b => x.getLsbD b := rfl

/-- R174: bit k of a point, by row k of the matrix, the direction numbers that the index selects, and the shift. -/
theorem SkinkDim.getLsbD_point (dm : SkinkDim) (i : BitVec 32) {k : Nat} (hk : k < 32) :
    (dm.point i).getLsbD k = (decide (((List.range 32).countP fun b => (dm.l[k] &&& (List.range 32).foldl
      (fun y b => if i.getLsbD b then y ^^^ dm.v.getD b 0 else y) (0 : BitVec 32)).getLsbD b) % 2 = 1) ^^ dm.h.getLsbD k) := by
  have hrow : dm.l.getD k 0 = dm.l[k] := by simp [Vector.getD, hk]
  have hparity : ∀ n : Nat, (n % 2).testBit 0 = decide (n % 2 = 1) := by
    intro n
    simp [Nat.testBit_zero]
  rw [SkinkDim.point, BitVec.getLsbD_xor, BitVec.getLsbD_ofNat, testBit_packNat one_pos, Nat.div_one, Nat.mod_one,
    getD_map_range _ hk, hparity, hrow, popNat_toNat]
  simp [hk]

/-! ### Results of several dimensions (R176, R177) -/

/-- The results of dimensions d to d + n are posted in their order. -/
theorem State.eachDim_posted (s : State) (n d : BitVec 5) (lat : Nat) (f : Nat → Eff) :
    s.eachDim n d lat f = s.posted ((List.range (n.toNat + 1)).map fun i => (lat, f (d.toNat + i))) := by
  rw [State.posted, List.foldl_map]
  rfl

section
variable {k j : Nat}

theorem getLsbD_one_shiftLeft (hj : j < 32) : (1#32 <<< k).getLsbD j = decide (j = k) := by
  rw [BitVec.getLsbD_shiftLeft, BitVec.getLsbD_one]
  by_cases h : j = k
  · simp [h, h ▸ hj]
  · simp only [h, hj]
    simp
    omega

theorem getLsbD_one_shiftLeft_sub_one (hk : k < 32) : (1#32 <<< k - 1).getLsbD j = decide (j < k) := by
  have hpow : 2 ^ k < 2 ^ 32 := Nat.pow_lt_pow_right (by decide) hk
  have hone : (1#32 <<< k).toNat = 2 ^ k := by
    rw [BitVec.toNat_shiftLeft, BitVec.toNat_ofNat, Nat.shiftLeft_eq, Nat.mod_eq_of_lt (by omega)]
    omega
  have hle : (1#32 <<< k - 1).toNat = 2 ^ k - 1 := by
    have := Nat.two_pow_pos k
    rw [BitVec.toNat_sub, hone]
    simp
    omega
  rw [BitVec.getLsbD, hle, Nat.testBit_two_pow_sub_one]

/-- R173: nothing below the diagonal bit of a canonical row, one on it, the word above. -/
theorem getLsbD_canonRow (w : BitVec 32) (hk : k < 32) (hj : j < 32) :
    (canonRow k w).getLsbD j = if j < k then false else if j = k then true else w.getLsbD j := by
  rw [canonRow, BitVec.getLsbD_and, BitVec.getLsbD_or, BitVec.getLsbD_not, getLsbD_one_shiftLeft_sub_one hk, getLsbD_one_shiftLeft hj]
  by_cases hlt : j < k
  · simp [hlt]
  · by_cases heq : j = k
    · simp [heq, hk]
    · simp [hlt, heq, hj]

end

/-! ### Tables from memory (R172, R176) -/

/-- The words of one dimension, its rows made canonical. -/
theorem SkinkDim.ofWords_map_range {n : Nat} (W : Nat → BitVec 32) {m : Nat} (hm : 65 * (m + 1) ≤ n) :
    SkinkDim.ofWords ((((List.range n).map W).drop (65 * m)).take 65) =
      { v := Vector.ofFn fun b => W (65 * m + b.val)
        l := Vector.ofFn fun r => canonRow r.val (W (65 * m + 32 + r.val))
        h := W (65 * m + 64) } := by
  have hword : ∀ j, j < 65 → ((((List.range n).map W).drop (65 * m)).take 65).getD j 0 = W (65 * m + j) := by
    intro j hj
    simp [List.getD_eq_getElem?_getD, hj, show 65 * m + j < n by omega]
  generalize (((List.range n).map W).drop (65 * m)).take 65 = ws at hword
  have hv : (fun b : Fin 32 => ws.getD b.val 0) = fun b => W (65 * m + b.val) := funext fun b => hword b.val (by omega)
  have hl : (fun r : Fin 32 => canonRow r.val (ws.getD (32 + r.val) 0)) = fun r => canonRow r.val (W (65 * m + 32 + r.val)) :=
    funext fun r => by rw [hword _ (by omega), Nat.add_assoc]
  rw [SkinkDim.ofWords, hv, hl, hword 64 (by decide)]

/-- R176: the tables loaded from local words. -/
theorem exec_qrload {s : State} {a n d : BitVec 5} :
    let word := fun (i : Nat) => s.rs a + BitVec.ofNat 64 (4 * i)
    let u := s.readAll ((List.range (65 * (n.toNat + 1))).map word)
    (∀ i, i < 65 * (n.toNat + 1) → ∃ x, s.loadsLocal 4 (word i) x) →
    ∃ v, exec (.qrload a n d) s = .next v ∧ LoadDone s u v (.qrload a n d) 6 fun v =>
      ∃ W : Nat → BitVec 32, (∀ i, i < 65 * (n.toNat + 1) → s.readsAt (word i) 4 (W i).toNat) ∧
        v = u.posted ((List.range (n.toNat + 1)).map fun m => (130, .skinkDim (d.toNat + m)
          { v := Vector.ofFn fun b => W (65 * m + b.val)
            l := Vector.ofFn fun r => canonRow r.val (W (65 * m + 32 + r.val))
            h := W (65 * m + 64) })) := by
  intro word u hlocal
  let W : Nat → BitVec 32 := fun i => BitVec.ofNat 32 (s.loadNat (s.own s.iss.ctx) (word i) 4)
  have hread : ∀ i, s.readsAt (word i) 4 (W i).toNat := by
    intro i
    have h := s.readsAt_loadNat (word i) 4
    rwa [show (W i).toNat = s.loadNat (s.own s.iss.ctx) (word i) 4 from Nat.mod_eq_of_lt h.1]
  obtain ⟨-, -, -, ⟨-, -, hpaid⟩, -⟩ := hlocal 0 (by omega)
  have hload : s.loadAt { win := false } 4 (skinkWords (s.rs a) n) = .ok 6 u :=
    State.loadAt_of_loadsLocal (by decide) (by decide) rfl rfl (by simp [skinkWords])
      (List.forall_mem_map.2 fun i hi => hlocal i (List.mem_range.1 hi))
  change ∃ v, execQrload a n d s = .next v ∧ _
  rw [execQrload, hload]
  refine State.loadingOf_done hpaid ⟨W, fun i _ => hread i, ?_⟩
  rw [State.eachDim_posted, skinkWords, List.map_map]
  refine congrArg u.posted (List.map_congr_left fun m hm => ?_)
  rw [Nat.add_sub_cancel_left, ← SkinkDim.ofWords_map_range W (Nat.mul_le_mul_left 65 (List.mem_range.1 hm))]
  rfl

theorem ofNat_fld_add (a : Word) (k : Nat) : BitVec.ofNat 32 (Machine.fld a 0 32 + k) = BitVec.ofNat 32 (a.toNat + k) := by
  rw [fld_low]
  exact BitVec.eq_of_toNat_eq (by simp)

/-- Settles O17: the points by `SkinkDim.getLsbD_point`, the scrambles by `getLsbD_canonRow`, the loaded tables by `exec_qrload`. -/
theorem skinkPointsScramblesAndTables : Obligations.SkinkPointsScramblesAndTables := by
  unfold Obligations.SkinkPointsScramblesAndTables
  refine ⟨⟨fun dm i k hk => dm.getLsbD_point i hk, ?_, fun s a n d => ⟨?_, ?_⟩⟩, ?_⟩
  · intro s d b p t m o A d0 pt
    refine ⟨_, rfl, (s.vmap_lanes d p 32 6 false _).congr fun j _ _ => ⟨?_, rfl⟩⟩
    have hd0 : Machine.fld (s.rs b) 32 5 = d0 := bits_eq _ _ _
    have hi0 : ∀ k, BitVec.ofNat 32 (Machine.fld (s.rs b) 0 32 + k) = BitVec.ofNat 32 (A + k) := ofNat_fld_add (s.rs b)
    cases m
    · simp only [hd0, hi0, Bool.false_eq_true, if_false, pt]
    · simp only [hd0, hi0, if_true, pt]
  · refine ⟨fun i => Vector.ofFn fun r => canonRow r.val (scrambleWord (s.rs a) (d.toNat + i) r.val), ?_, fun i k hk j hj => ?_⟩
    · exact congrArg _ (s.eachDim_posted n d 36 _)
    · rw [Vector.getElem_ofFn, getLsbD_canonRow _ hk hj]
  · refine ⟨identityRows, congrArg _ (s.eachDim_posted n d 36 _), fun k hk j hj => ?_⟩
    rw [identityRows, Vector.getElem_ofFn, getLsbD_one_shiftLeft hj]
  · exact fun s a n d => exec_qrload

end Sys2Proof.Machine
end


section
/-! The histogram: the counter of an element, saturating counts, the base in force, the reads (O18). -/

namespace Sys2Proof.Machine

theorem satAdd32_toNat (c : BitVec 32) (n : Nat) : (satAdd32 c n).toNat = min (c.toNat + n) (2 ^ 32 - 1) := by
  rw [satAdd32, BitVec.toNat_ofNat]
  exact Nat.mod_eq_of_lt (by omega)

/-- One count more, where the counts so far saturate too. -/
theorem min_satAdd32 (c : BitVec 32) (n : Nat) : min ((satAdd32 c 1).toNat + n) (2 ^ 32 - 1) = min (c.toNat + (n + 1)) (2 ^ 32 - 1) := by
  rw [satAdd32_toNat]
  omega

section
variable (h : Hist) (a k : Nat) (hk : k < 64)

theorem Hist.bins_count : (h.count a).bins[k] = if a = k then satAdd32 h.bins[k] 1 else h.bins[k] := by
  unfold Hist.count
  split
  next ha =>
    by_cases hak : a = k
    · subst hak
      simp [Vector.getD, hk]
    · simp [hak]
  next ha =>
    rw [if_neg (show a ≠ k by omega)]
    split <;> rfl

theorem Hist.under_count : (h.count a).under = if a = 64 then satAdd32 h.under 1 else h.under := by
  unfold Hist.count
  split
  next ha => rw [if_neg (show a ≠ 64 by omega)]
  next ha => split <;> rfl

/-- R180: a bin counts the elements that name it, and stays at its greatest value. -/
theorem Hist.bins_foldl_count (ks : List Nat) :
    ((ks.foldl Hist.count h).bins[k]).toNat = min ((h.bins[k]).toNat + ks.count k) (2 ^ 32 - 1) := by
  induction ks generalizing h with
  | nil =>
    have := (h.bins[k]).isLt
    simp only [List.foldl_nil, List.count_nil, Nat.add_zero]
    omega
  | cons a ks ih =>
    rw [List.foldl_cons, ih, Hist.bins_count, List.count_cons]
    by_cases ha : a = k
    · simp only [ha, if_true, beq_self_eq_true, min_satAdd32]
    · simp [ha]

theorem Hist.under_foldl_count (ks : List Nat) :
    (ks.foldl Hist.count h).under.toNat = min (h.under.toNat + ks.count 64) (2 ^ 32 - 1) := by
  induction ks generalizing h with
  | nil =>
    have := h.under.isLt
    simp only [List.foldl_nil, List.count_nil, Nat.add_zero]
    omega
  | cons a ks ih =>
    rw [List.foldl_cons, ih, Hist.under_count, List.count_cons]
    by_cases ha : a = 64
    · simp only [ha, if_true, beq_self_eq_true, min_satAdd32]
    · simp [ha]

end

/-! ### The base that stands when the counts arrive (R182) -/

/-- The base after an arriving result. -/
def Eff.baseAfter (b : BitVec 9) : Eff → BitVec 9
  | .histClear b' => b'
  | _ => b

/-- The base after the results in flight. -/
def baseAfter (ps : List Pending) (b : BitVec 9) : BitVec 9 := ps.foldl (fun b q => q.eff.baseAfter b) b

theorem exec_hist (s : State) (a : BitVec 4) (p : BitVec 5) (t : Ty) : exec (.hist a p t) s = .next (s.posted [(2, .histAdd
    ((activeLanes t.width (s.rp p)).filterMap fun i =>
      histSlot (baseAfter s.cur.pend s.cur.vis.hist.base).toInt (decodeF (fmtOf t) (laneN t.width (s.rv a) i))))]) := rfl

theorem Eff.baseAfter_of_not_clear {e : Eff} (h : ¬∃ b', e = .histClear b') (b : BitVec 9) : e.baseAfter b = b := by
  unfold Eff.baseAfter
  split
  next b' => exact absurd ⟨b', rfl⟩ h
  next => rfl

theorem baseAfter_of_no_clear {ps : List Pending} (h : ∀ q ∈ ps, ¬∃ b', q.eff = .histClear b') (b : BitVec 9) :
    baseAfter ps b = b := by
  induction ps with
  | nil => rfl
  | cons q ps ih =>
    obtain ⟨hq, hps⟩ := List.forall_mem_cons.1 h
    rw [baseAfter, List.foldl_cons, Eff.baseAfter_of_not_clear hq]
    exact ih hps

/-- The newest clear in flight decides. -/
theorem baseAfter_of_last_clear (pre : List Pending) {post : List Pending} {q : Pending} {b' : BitVec 9} (hq : q.eff = .histClear b')
    (h : ∀ q ∈ post, ¬∃ b', q.eff = .histClear b') (b : BitVec 9) : baseAfter (pre ++ q :: post) b = b' := by
  rw [baseAfter, List.foldl_append, List.foldl_cons, hq]
  exact baseAfter_of_no_clear h b'

/-- The counters outside the bins, in four lanes (R182). -/
theorem exec_histRdx (s : State) (d : BitVec 4) : exec (.histRdx d) s =
    let h := s.cur.vis.hist
    let sum := h.under.toNat + h.above.toNat + (h.bins.toList.map (·.toNat)).sum
    .next (s.vall d 32 2 fun k => [h.under.toNat, h.above.toNat, ofSigned 32 h.base.toInt, min sum (2 ^ 32 - 1)].getD k 0) := by
  refine congrArg (fun f => Host.Outcome.next (s.vall d 32 2 f)) (funext fun k => ?_)
  match k with
  | 0 | 1 | 2 | 3 | _ + 4 => rfl

/-- Settles O18: the base in force by `baseAfter`, the counters by `Hist.bins_foldl_count` and `Hist.under_foldl_count`. -/
theorem histogramResults : Obligations.HistogramResults := by
  unfold Obligations.HistogramResults
  intro s a d b p t h sum slot counts clears
  have hslot : ∀ base x, histSlot base.toInt x = slot base x := by
    intro base x
    cases x with
    | nan s m => rfl
    | inf s => rfl
    | fin s m e =>
      simp only [histSlot, slot]
      by_cases hm : m = 0
      · simp [hm]
      · simp [hm]
  have hcounts : counts (baseAfter s.cur.pend h.base) := by
    simp only [counts, ← hslot]
    exact exec_hist s a p t
  refine ⟨fun hno => ?_, fun pre q post b' hpend hq hpost => ?_, ⟨_, rfl, s.vall_lanes d 32 2 _⟩,
    ⟨_, exec_histRdx s d, s.vall_lanes d 32 2 _⟩, ?_, fun v ks b' => ⟨?_, ?_, rfl⟩⟩
  · rwa [baseAfter_of_no_clear hno] at hcounts
  · rwa [hpend, baseAfter_of_last_clear pre hq hpost] at hcounts
  · rw [extractLsb'_low _ (by decide)]
    rfl
  · exact fun k hk => v.hist.bins_foldl_count k hk ks
  · exact v.hist.under_foldl_count ks

end Sys2Proof.Machine
end


section
/-! The scale that a running count chooses, and a packed block (O19). -/

namespace Sys2Proof.Machine

/-! ### The scale (R183) -/

theorem ceilDiv_le_iff {a b : Nat} (hb : 0 < b) (n : Nat) : ceilDiv a b ≤ n ↔ a ≤ b * n := by
  rw [ceilDiv, ← Nat.lt_succ_iff, Nat.div_lt_iff_lt_mul hb, Nat.succ_mul, Nat.mul_comm b]
  omega

/-- The exponent that the running count chooses, of which the scale is made. -/
def scaleExponent (beta : Int) (bins : List Nat) (under need : Nat) : Int :=
  if need ≤ under then beta - 1 else chooseScale.find beta need under 0 bins

theorem chooseScale_eq (beta : Int) (bins : List Nat) (under total p : Nat) : chooseScale beta bins under total p =
    (min (max (scaleExponent beta bins under (ceilDiv (p * total) 256) - 2 + 127) 0) 254).toNat := rfl

section
variable {beta : Int} {need : Nat}

/-- The first bin at which the running count reaches the need. -/
theorem chooseScale_find_of_first {bins : List Nat} {k : Nat} (hk : k < bins.length) (acc b : Nat)
    (hhit : need ≤ acc + (bins.take (k + 1)).sum) (hmiss : ∀ j, j < k → ¬need ≤ acc + (bins.take (j + 1)).sum) :
    chooseScale.find beta need acc b bins = beta + (b + k : Nat) := by
  induction bins generalizing k acc b with
  | nil => cases hk
  | cons n bins ih =>
    rw [chooseScale.find]
    cases k with
    | zero =>
      rw [if_pos (by simpa using hhit), Nat.add_zero]
    | succ k =>
      rw [if_neg (by simpa using hmiss 0 k.succ_pos), ih (Nat.lt_of_succ_lt_succ hk) (acc + n) (b + 1)]
      · rw [Nat.add_right_comm, Nat.add_assoc]
      · simpa [Nat.add_assoc] using hhit
      · intro j hj
        simpa [Nat.add_assoc] using hmiss (j + 1) (Nat.succ_lt_succ hj)

/-- No bin at which it does. -/
theorem chooseScale_find_of_none {bins : List Nat} (acc b : Nat)
    (hmiss : ∀ j, j < bins.length → ¬need ≤ acc + (bins.take (j + 1)).sum) : chooseScale.find beta need acc b bins = beta + 64 := by
  induction bins generalizing acc b with
  | nil => rfl
  | cons n bins ih =>
    rw [chooseScale.find, if_neg (by simpa using hmiss 0 bins.length.succ_pos)]
    refine ih (acc + n) (b + 1) fun j hj => ?_
    simpa [Nat.add_assoc] using hmiss (j + 1) (Nat.succ_lt_succ hj)

end

/-! ### The packed block (R184) -/

/-- What a layout of r rows of w elements gives where it fits into a block, and what it gives otherwise. -/
theorem unless_layout_fits (r w x y : Nat) : (if r = 0 ∨ 124 < w ∨ 62 < r * ((w + 1) / 2) then x else y) =
    if 0 < r ∧ w ≤ 124 ∧ r * ((w + 1) / 2) ≤ 62 then y else x := by
  have hfits : (r = 0 ∨ 124 < w ∨ 62 < r * ((w + 1) / 2)) ↔ ¬(0 < r ∧ w ≤ 124 ∧ r * ((w + 1) / 2) ≤ 62) := by omega
  rw [if_congr hfits rfl rfl, ite_not]

/-- What a packed block posts: its part of the register, its flags and its saturations, none where there are none. -/
theorem State.packed_posted (s : State) (d : BitVec 4) (q : BitVec 2) (e : Encoded) :
    (let t := (s.wv d 4 (BitVec.ofNat 2048 (e.blk <<< (512 * q.toNat))) (BitVec.ofNat 2048 ((2 ^ 512 - 1) <<< (512 * q.toNat)))).wf 4
        (BitVec.ofNat 6 e.flags)
      if e.sats = 0 then t else t.push 4 (.sat e.sats)) =
    s.posted ((4, .vec (s.vix d) (BitVec.ofNat 2048 (e.blk <<< (q.toNat * 512))) (BitVec.ofNat 2048 ((2 ^ 512 - 1) <<< (q.toNat * 512)))) ::
      flagResult 4 e.flags ++ if e.sats = 0 then [] else [(4, .sat e.sats)]) := by
  rw [Nat.mul_comm 512, State.wf_posted, List.cons_append, ← List.singleton_append, State.posted_append, State.posted_append]
  split <;> rfl

/-- Settles O19: the scale by `chooseScale_find_of_first` and `chooseScale_find_of_none`, the block with the layout of `unless_layout_fits`
in its part of the register alone. -/
theorem scaleChoiceAndPackedBlock : Obligations.ScaleChoiceAndPackedBlock := by
  unfold Obligations.ScaleChoiceAndPackedBlock
  refine ⟨?_, ?_⟩
  · intro s d b p h base bins total upTo enough
    let need := ceilDiv (min (s.rs b).toNat 256 * total) 256
    have hneed : ∀ n, enough n ↔ need ≤ n := fun n => (ceilDiv_le_iff (by decide) n).symm
    have hlen : bins.length = 64 := by simp [bins]
    refine ⟨scaleExponent base bins h.under.toNat need, ⟨_, rfl, s.vmap_lanes d p 32 4 false _⟩, fun hu => ?_,
      fun hu => ⟨?_, ?_⟩⟩
    · exact if_pos ((hneed _).1 hu)
    · intro k hk hhit hmiss
      rw [scaleExponent, if_neg (mt (hneed _).2 hu),
        chooseScale_find_of_first (by omega) _ _ ((hneed _).1 hhit) fun j hj => mt (hneed _).2 (hmiss j hj), Nat.zero_add]
    · intro hmiss
      rw [scaleExponent, if_neg (mt (hneed _).2 hu), chooseScale_find_of_none _ _ fun j hj => mt (hneed _).2 (hmiss j (by omega))]
  · intro s d a b p t q w lay rw0 n0 fits rw n elem e
    refine ⟨_, _, ?_, fun hblk => Eff.leavesLanes_single (s.vix_lt d) hblk q.toNat⟩
    rw [← State.packed_posted]
    change execQpack d a b p t q s = _
    simp only [execQpack, bits_eq, pow_zero, Nat.div_one, unless_layout_fits]
    rfl

end Sys2Proof.Machine
end


section
/-! Store forms at issue: one entry in the withholding buffer (O22). -/

namespace Sys2Proof.Machine

/-- A run of bytes, each at its place from the first. -/
theorem runAt_eq_zipIdx (a : Nat) (bs : List Byte) : runAt a bs = bs.zipIdx.map fun b => (a + b.2, b.1) := by
  suffices h : ∀ k, runAt (a + k) bs = (bs.zipIdx k).map fun b => (a + b.2, b.1) from h 0
  induction bs with
  | nil => exact fun _ => rfl
  | cons b bs ih =>
    intro k
    rw [runAt, List.zipIdx_cons, List.map_cons, ← ih (k + 1), Nat.add_assoc]

section
variable {s : State} {acc : Accepts} {align : Nat}

/-- A store form whose elements are all accepted withholds one entry with their bytes (R194, R357). -/
theorem State.storeAt_of_storable {els : List (Word × List Byte)} (unit : Nat) (h : ∀ e ∈ els, s.storable acc align e.2.length e.1) :
    s.storeAt acc align els unit = .next (s.withheld (.store (storedBytes els) s.cur.vis.batch unit)) := by
  have hfull : (els.any fun e => s.windowFull e.1) = false := List.any_eq_false.2 fun e he => by simp [(h e he).2.1]
  have hname : els.find? (fun e => !s.nameable acc align e.1) = none := List.find?_eq_none.2 fun e he => by simp [(h e he).1]
  have htrap : (els.findSome? fun e => s.storeTrap 1 e.2.length e.1) = none :=
    List.findSome?_eq_none_iff.2 fun e he => (h e he).2.2
  simp only [State.storeAt, hfull, hname, htrap, runAt_eq_zipIdx, Bool.false_eq_true, if_false]
  rfl

/-- The copy aperture is no place that a store instruction may name. -/
theorem spaceOf_ne_aperture_of_nameable {ea : Word} (h : s.nameable acc align ea = true) (x : Nat) : spaceOf ea ≠ .aperture x := by
  intro hx
  simp [State.nameable, hx] at h

end

/-! ### The forms -/

section
variable {s : State} (t : BitVec 5) (v ix : BitVec 4) (b p n d : BitVec 5)

/-- Outside the copy aperture a 64-bit store is a store. -/
theorem exec_st64 {o : BitVec 16} (h : ∀ x, spaceOf (s.scalarEa b o 8) ≠ .aperture x) : exec (.st64 t b o) s = s.st t b o 8 := by
  change execSt64 t b o s = _
  simp only [execSt64]

theorem exec_vst {o : BitVec 12} (h : s.nameable {} 64 (s.vectorEa b o) = true) : exec (.vst v b p o) s =
    s.storeAt {} 1 ((activeLanes 8 (s.rp p)).map fun k => (s.vectorEa b o + BitVec.ofNat 64 k, [BitVec.ofNat 8 (laneN 8 (s.rv v) k)])) := by
  change execVst v b p o s = _
  simp only [execVst, State.vectorOk, if_pos h, State.vstore, State.byteEls, List.map_map]
  rfl

theorem exec_vscat (z : Sz) (sg sc : Bool) : exec (.vscat v b ix p z sg sc) s =
    let wz := 8 * Sz.bytes z
    s.storeAt {} (Sz.bytes z) ((activeLanes wz (s.rp p)).map fun k => (s.rs b + BitVec.ofInt 64
      ((if sg then laneI wz (s.rv ix) k else (laneN wz (s.rv ix) k : Int)) * (if sc then (Sz.bytes z : Int) else 1)),
      leBytes (Sz.bytes z) (laneN wz (s.rv v) k))) (Sz.bytes z) := by
  change execVscat v b ix p z sg sc s = _
  simp only [execVscat, State.vstore, State.indexEls, List.map_map, Nat.mul_div_cancel_left _ (show 0 < 8 by decide)]
  rfl

theorem zipIdx_map_range {α : Type} (f : Nat → α) (k : Nat) : ((List.range k).map f).zipIdx = (List.range k).map fun i => (f i, i) :=
  List.ext_getElem (by simp) (by simp)

/-- The tables' bytes, word after word (R176). -/
theorem exec_qrsave : exec (.qrsave b n d) s =
    s.storeAt { win := false } 4 ((List.range (65 * (n.toNat + 1))).map fun k => (s.rs b + BitVec.ofNat 64 (4 * k),
      (((List.range (n.toNat + 1)).flatMap fun m =>
        (s.cur.vis.skink.getD (d.toNat + m) SkinkDim.reset).bytes).drop (4 * k)).take 4)) := by
  change execQrsave b n d s = _
  rw [execQrsave, skinkWords, zipIdx_map_range, List.map_map]
  rfl

/-- The described store withholds its block and posts the flags of the encoding (R202). -/
theorem exec_vstd (f : BitVec 3) (sc : BitVec 8) (t : BitVec 4) (hsig : s.iss.sig = .ok) :
    let e := encodeBlock f.toNat sc.toNat (blkElems f.toNat) [fun i =>
      if i < 64 ∧ active 32 (s.rp p) i then decodeF fmtF32 (laneN 32 (s.rv t) i) else intVal 0]
    s.storable { win := false } 64 64 (s.rs b) → exec (.vstd t b p f sc) s =
      .next ((s.withheld (.store (storedBytes [(s.rs b, leBytes 64 e.blk)]) s.cur.vis.batch 0)).posted (flagResult 4 e.flags)) := by
  intro e hok
  have hst := State.storeAt_of_storable (els := [(s.rs b, leBytes 64 e.blk)]) 0 (List.forall_mem_singleton.2 (by rwa [leBytes_length]))
  have hsig' : (s.withheld (.store (storedBytes [(s.rs b, leBytes 64 e.blk)]) s.cur.vis.batch 0)).iss.sig = .ok := hsig
  change execVstd t b p f sc s = _
  simp only [execVstd, e] at hst hsig' ⊢
  simp only [hst, hsig', State.wf_posted]

end

/-- Settles O22: each form is `State.storeAt` of its elements; the described store posts its flags besides. -/
theorem storesAreWithheldUntilRelease : Obligations.StoresAreWithheldUntilRelease := by
  unfold Obligations.StoresAreWithheldUntilRelease
  refine ⟨?_, fun s t b p f sc hok hsig => exec_vstd b p f sc t hsig hok⟩
  intro s t v ix b p n d o16 o12 z sg sc i acc align els unit near a0 wz tab hi hvst hok
  suffices hexec : exec i s = s.storeAt acc align els unit from hexec.trans (State.storeAt_of_storable unit hok)
  simp only [List.mem_cons, List.not_mem_nil, or_false, Prod.mk.injEq] at hi
  obtain ⟨rfl, rfl, rfl, rfl, rfl⟩ | ⟨rfl, rfl, rfl, rfl, rfl⟩ | ⟨rfl, rfl, rfl, rfl, rfl⟩ | ⟨rfl, rfl, rfl, rfl, rfl⟩ |
    ⟨rfl, rfl, rfl, rfl, rfl⟩ | ⟨rfl, rfl, rfl, rfl, rfl⟩ | ⟨rfl, rfl, rfl, rfl, rfl⟩ := hi
  · exact exec_st64 t b (spaceOf_ne_aperture_of_nameable (hok _ List.mem_cons_self).1)
  · rfl
  · rfl
  · rfl
  · exact exec_vst v b p (hvst rfl)
  · exact exec_vscat v ix b p z sg sc
  · exact exec_qrsave b n d

end Sys2Proof.Machine
end

section
/-! Every step keeps memory canonical (O55): each operation of the model hands memory on, or changes it by `State.put` or
`State.clearScratch` alone. One lemma for each operation, in the order of the model's files. -/

namespace Sys2Proof.Machine

/-! ### The invariant under the machine's elementary changes -/

/-- The memory of the state that an instruction or an event leaves is canonical. -/
def CanonicalNext (r : Res) : Prop := ∀ t, r = .next t → MemoryCanonical t

/-- The memory of the state that a load which goes on leaves is canonical. -/
def CanonicalLoad (r : LRes) : Prop := ∀ lat t, r = .ok lat t → MemoryCanonical t

/-- The state that a read of a matrix operand's rows leaves. -/
def MxRead.state : MxRead → State
  | .ok _ _ s => s
  | .bad _ _ _ _ s => s

/-- The state that the read of a copied row leaves. -/
def CopyRow.state : CopyRow → State
  | .row _ _ s => s
  | .bad _ _ s => s

section
variable {s : State}

namespace MemoryCanonical

theorem next {t : State} (h : MemoryCanonical t) : CanonicalNext (.next t) := by
  rintro _ ⟨rfl⟩
  exact h

/-- The state inside an answer, when the answer is known. -/
theorem of_eq {α : Type} {f : α → State} {a b : α} (h : MemoryCanonical (f a)) (e : a = b) : MemoryCanonical (f b) := e ▸ h

theorem foldl {α : Type} {f : State → α → State} {l : List α} (hf : ∀ t a, MemoryCanonical t → MemoryCanonical (f t a))
    {s : State} (h : MemoryCanonical s) : MemoryCanonical (l.foldl f s) :=
  List.foldlRecOn _ _ h fun t ht a _ => hf t a ht

/-- A fold that carries a value beside the state. -/
theorem foldl_snd {α β : Type} {f : β × State → α → β × State} {l : List α}
    (hf : ∀ p a, MemoryCanonical p.2 → MemoryCanonical (f p a).2) {p : β × State} (h : MemoryCanonical p.2) :
    MemoryCanonical (l.foldl f p).2 :=
  List.foldlRecOn (motive := fun p => MemoryCanonical p.2) _ _ h fun p hp a _ => hf p a hp

/-- A fold that carries a value after the state. -/
theorem foldl_fst {α β : Type} {f : State × β → α → State × β} {l : List α}
    (hf : ∀ p a, MemoryCanonical p.1 → MemoryCanonical (f p a).1) {p : State × β} (h : MemoryCanonical p.1) :
    MemoryCanonical (l.foldl f p).1 :=
  List.foldlRecOn (motive := fun p => MemoryCanonical p.1) _ _ h fun p hp a _ => hf p a hp

/-- A fold over the rows of a matrix operand. -/
theorem foldl_state {α : Type} {f : MxRead → α → MxRead} {l : List α}
    (hf : ∀ r a, MemoryCanonical r.state → MemoryCanonical (f r a).state) {r : MxRead} (h : MemoryCanonical r.state) :
    MemoryCanonical (l.foldl f r).state :=
  List.foldlRecOn (motive := fun r => MemoryCanonical r.state) _ _ h fun r hr a _ => hf r a hr

/-- One of two states, as a condition says. -/
theorem branch {c : Prop} {_ : Decidable c} {t u : State} (ht : MemoryCanonical t) (hu : MemoryCanonical u) :
    MemoryCanonical (if c then t else u) := by
  split
  · exact ht
  · exact hu

theorem branchNext {c : Prop} {_ : Decidable c} {q r : Res} (hq : CanonicalNext q) (hr : CanonicalNext r) :
    CanonicalNext (if c then q else r) := by
  split
  · exact hq
  · exact hr

/-- A change of other fields than the memories. -/
theorem upd {now agenda turns due iss free nextId ctxs cores clusters dies sys depots guest opened pubs banked farSums l2q fixed claims
    tags tlb access parts bounds pop retired regions poison corr corrCnt cmds jobs upds msgs unexpPrev migs invals hot sketches
    launches queues lastQ gangsOut consists luvex guestq fatal out} (h : MemoryCanonical s) :
    MemoryCanonical ⟨now, agenda, turns, due, iss, free, nextId, ctxs, cores, clusters, dies, sys, depots, guest, s.mem, s.memPrev,
      s.memCyc, opened, pubs, banked, farSums, l2q, fixed, claims, tags, tlb, access, parts, bounds, pop, retired, regions, poison,
      corr, corrCnt, cmds, jobs, upds, msgs, unexpPrev, migs, invals, hot, sketches, launches, queues, lastQ, gangsOut, consists,
      luvex, guestq, fatal, out⟩ := h

/-! ### Elementary changes of the state -/

theorem reset : MemoryCanonical State.reset := ⟨rfl, rfl, rfl⟩

/-! ### Registers, memory and traps -/

theorem put {bs} (h : MemoryCanonical s) : MemoryCanonical (s.put bs) :=
  ⟨memPut_wf _ h.1, h.2.1, h.2.2⟩

theorem putNat {a n x} (h : MemoryCanonical s) : MemoryCanonical (s.putNat a n x) := h.put

theorem setCtx {c x} (h : MemoryCanonical s) : MemoryCanonical (s.setCtx c x) := h

theorem modCtx {c f} (h : MemoryCanonical s) : MemoryCanonical (s.modCtx c f) := h.setCtx

theorem setCore {q x} (h : MemoryCanonical s) : MemoryCanonical (s.setCore q x) := h

theorem modCore {q f} (h : MemoryCanonical s) : MemoryCanonical (s.modCore q f) := h.setCore

theorem setCluster {k x} (h : MemoryCanonical s) : MemoryCanonical (s.setCluster k x) := h

theorem modCluster {k f} (h : MemoryCanonical s) : MemoryCanonical (s.modCluster k f) := h.setCluster

theorem setDie {d x} (h : MemoryCanonical s) : MemoryCanonical (s.setDie d x) := h

theorem modDie {d f} (h : MemoryCanonical s) : MemoryCanonical (s.modDie d f) := h.setDie

theorem modPlat {k pn f} (h : MemoryCanonical s) : MemoryCanonical (s.modPlat k pn f) := h.modCluster

theorem modLaunch {l f} (h : MemoryCanonical s) : MemoryCanonical (s.modLaunch l f) := h

theorem draw {bound} (h : MemoryCanonical s) : MemoryCanonical (s.draw bound).2 := h

theorem choose (h : MemoryCanonical s) : MemoryCanonical s.choose.2 := h

theorem fresh (h : MemoryCanonical s) : MemoryCanonical s.fresh.2 := h

theorem schedule {at_ ev d} (h : MemoryCanonical s) : MemoryCanonical (s.schedule at_ ev d) := h

theorem later {bound ev d} (h : MemoryCanonical s) : MemoryCanonical (s.later bound ev d) := h.upd.schedule

theorem hasten {p} (h : MemoryCanonical s) : MemoryCanonical (s.hasten p) := h

theorem emit {m} (h : MemoryCanonical s) : MemoryCanonical (s.emit m) := h

theorem write {bs} (h : MemoryCanonical s) : MemoryCanonical (s.write bs) := (branch h.emit h).put

theorem push {lat e} (h : MemoryCanonical s) : MemoryCanonical (s.push lat e) := h.modCtx

theorem ws {d lat x} (h : MemoryCanonical s) : MemoryCanonical (s.ws d lat x) := branch h h.push

theorem wv {r lat x mask} (h : MemoryCanonical s) : MemoryCanonical (s.wv r lat x mask) := h.push

theorem wp {r lat x} (h : MemoryCanonical s) : MemoryCanonical (s.wp r lat x) := h.push

theorem wf {lat f} (h : MemoryCanonical s) : MemoryCanonical (s.wf lat f) := branch h h.push

theorem modCur {f} (h : MemoryCanonical s) : MemoryCanonical (s.modCur f) := h.modCtx

theorem modVis {f} (h : MemoryCanonical s) : MemoryCanonical (s.modVis f) := h.modCur

theorem blocked {r lines grans checks walks} (h : MemoryCanonical s) : MemoryCanonical (s.blocked r lines grans checks walks) := h

theorem postRecord {c r} (h : MemoryCanonical s) : MemoryCanonical (s.postRecord c r) := h.modCtx

theorem loadImage {c bs} (h : MemoryCanonical s) : MemoryCanonical (s.loadImage c bs) := h.modCtx.modCtx.modCore

theorem fatalError {cause ctxid} (h : MemoryCanonical s) : MemoryCanonical (s.fatalError cause ctxid) := (branch h h.put).upd

theorem claim {r reraised} (h : MemoryCanonical s) : MemoryCanonical (s.claim r reraised) := branch h.fatalError h.write.upd

theorem record {r} (h : MemoryCanonical s) : MemoryCanonical (s.record r).2 := by
  dsimp only [State.record]
  split
  · exact h.claim.upd
  · exact h.upd

theorem rasLog {unit type addr count} (h : MemoryCanonical s) : MemoryCanonical (s.rasLog unit type addr count) :=
  (branch h h.write).upd

theorem retireFrame {frame cause} (h : MemoryCanonical s) : MemoryCanonical (s.retireFrame frame cause) :=
  branch h (branch h.upd.upd h.upd.write.upd)

theorem memError {die key} (h : MemoryCanonical s) : MemoryCanonical (s.memError die key) := branch h.rasLog.retireFrame h.rasLog

theorem corrected {die key n} (h : MemoryCanonical s) : MemoryCanonical (s.corrected die key n) :=
  foldl (fun _ _ ht => branch ht.upd.rasLog.retireFrame ht.upd.rasLog) h

theorem wakePrels {k} (h : MemoryCanonical s) : MemoryCanonical (s.wakePrels k) := foldl (fun _ _ ht => branch ht ht.schedule) h

theorem cancelWithheld {c} (h : MemoryCanonical s) : MemoryCanonical (s.cancelWithheld c) :=
  branch h.upd.upd.modCtx.modCore h.upd.upd.modCtx.modCore.modCluster.wakePrels

theorem rollback {c} (h : MemoryCanonical s) : MemoryCanonical (s.rollback c) := h.cancelWithheld.modCtx

theorem dropCurrent {c} (h : MemoryCanonical s) : MemoryCanonical (s.dropCurrent c) := h.modCore

theorem park {c ts} (h : MemoryCanonical s) : MemoryCanonical (s.park c ts) := by
  refine (foldl_snd (fun p t hp => ?_) h).modCtx.dropCurrent
  dsimp only
  split
  · next e => exact hp.record.of_eq e
  · next e => exact hp.record.of_eq e

theorem trimLog {c} (h : MemoryCanonical s) : MemoryCanonical (s.trimLog c) := by
  dsimp only [State.trimLog]
  split
  · exact h
  · exact h.upd

theorem rollAll {c} (h : MemoryCanonical s) : MemoryCanonical (s.rollAll c) :=
  (foldl (fun _ _ ht => ht.modCtx.rollback) h).trimLog

theorem beatAnew {c} (h : MemoryCanonical s) : MemoryCanonical (s.beatAnew c) := by
  dsimp only [State.beatAnew]
  split
  · exact h
  · exact h.upd

theorem examined {c ts} (h : MemoryCanonical s) : MemoryCanonical (s.examined c ts) :=
  foldl (fun _ _ ht => ht.corrected) (foldl (fun _ _ ht => (branch ht.memError ht).modCtx) h).upd

theorem takeTrap {c ts} (h : MemoryCanonical s) : MemoryCanonical (s.takeTrap c ts) := by
  have he := h.examined (c := c) (ts := ts)
  exact branch he.fatalError (branch he.fatalError (branch
    (foldl (fun _ _ ht => ht.modCtx.dropCurrent) he.rollAll.beatAnew)
    (foldl (fun _ _ ht => ht.modCtx.dropCurrent) he.rollAll).park))

theorem raise {t} (h : MemoryCanonical s) : MemoryCanonical (s.raise t) := h.takeTrap.upd

theorem transfer {target pops} (h : MemoryCanonical s) : MemoryCanonical (s.transfer target pops) := h

theorem returnFromTrap (h : MemoryCanonical s) : MemoryCanonical s.returnFromTrap := branch h.modCur.transfer h.raise

/-! ### Scalar operations -/

theorem sr2 {d a b l lat f} (h : MemoryCanonical s) : CanonicalNext (s.sr2 d a b l lat f) := h.ws.next

theorem sr1 {d a f} (h : MemoryCanonical s) : CanonicalNext (s.sr1 d a f) := h.ws.next

theorem si {d a i f} (h : MemoryCanonical s) : CanonicalNext (s.si d a i f) := h.ws.next

theorem siShift {d a i f} (h : MemoryCanonical s) : CanonicalNext (s.siShift d a i f) := h.ws.next

/-! ### Control -/

theorem compare {outcome k} (h : MemoryCanonical s) (hk : ∀ t, MemoryCanonical t → MemoryCanonical (k t)) :
    MemoryCanonical (s.compare outcome k) := by
  dsimp only [State.compare]
  split
  · exact hk _ h
  · exact branch h.raise ((hk _ (branch h.upd h).modCur))

theorem afterBr {o} (h : MemoryCanonical s) : CanonicalNext (execBr o s) := (h.compare (fun _ ht => ht.transfer)).next

theorem afterBcc {a c o} (h : MemoryCanonical s) : CanonicalNext (execBcc a c o s) :=
  (h.compare (fun _ ht => branch ht.transfer ht)).next

theorem afterJmp {o} (h : MemoryCanonical s) : CanonicalNext (execJmp o s) := (h.compare (fun _ ht => ht.transfer)).next

theorem afterCall {o} (h : MemoryCanonical s) : CanonicalNext (execCall o s) := (h.compare (fun _ ht => ht.ws.transfer)).next

theorem toRegister {t pops link} (h : MemoryCanonical s) (hlink : ∀ t, MemoryCanonical t → MemoryCanonical (link t)) :
    MemoryCanonical (s.toRegister t pops link) :=
  h.compare (fun _ ht => branch ((hlink _ ht).transfer) ht.raise)

theorem afterJr {d a} (h : MemoryCanonical s) : CanonicalNext (execJr d a s) := (h.toRegister (fun _ ht => ht.ws)).next

theorem afterRet {a} (h : MemoryCanonical s) : CanonicalNext (execRet a s) := (h.toRegister fun _ ht => ht).next

theorem setLoops {ls steps} (h : MemoryCanonical s) : MemoryCanonical (s.setLoops ls steps) := h

theorem afterLoop {a o} (h : MemoryCanonical s) : CanonicalNext (execLoop a o s) :=
  (h.compare (fun _ ht => branch ht.raise (branch ht.setLoops.transfer (branch ht.raise ht.setLoops)))).next

theorem afterLstep {d b l} (h : MemoryCanonical s) : CanonicalNext (execLstep d b l s) := (branch h.raise h.setLoops).next

theorem passControl (h : MemoryCanonical s) : MemoryCanonical s.passControl := by
  dsimp only [State.passControl]
  split
  · refine .modCur ?_
    split
    · exact h
    · exact h.modVis
  · refine .modCur ?_
    refine .foldl (fun _ _ hu => ?_) ?_
    · exact hu.ws
    · split
      · exact h
      · exact h.modVis

theorem afterYield (h : MemoryCanonical s) : CanonicalNext (execYield s) := h.modCur.upd.next

theorem dealCard {d idx words} (h : MemoryCanonical s) : MemoryCanonical (s.dealCard d idx words) :=
  foldl (fun _ _ ht => ht.ws) h.ws

theorem afterCnext {d} (h : MemoryCanonical s) : CanonicalNext (execCnext d s) := by
  dsimp only [execCnext]
  refine .next ?_
  split
  · split
    · exact h.blocked
    · split
      · exact h.raise
      · exact h.dealCard.modCur
  · exact branch h.dealCard.modVis h.ws

/-! ### Translation -/

theorem walkCorrected {asid va} (h : MemoryCanonical s) : MemoryCanonical (s.walkCorrected asid va) :=
  foldl (fun _ _ ht => ht.corrected) h

theorem walkSeen {w va} (h : MemoryCanonical s) : MemoryCanonical (s.walkSeen w va) := by
  dsimp only [State.walkSeen]
  split
  · exact h.walkCorrected.memError
  · exact h.walkCorrected

theorem learn {e} (h : MemoryCanonical s) : MemoryCanonical (s.learn e) := branch h h.upd.walkCorrected

theorem access1 {a va n} (h : MemoryCanonical s) : MemoryCanonical (s.access1 a va n).2 := by
  dsimp only [State.access1]
  split
  · exact h.learn
  · exact h

theorem heat {m leaf} (h : MemoryCanonical s) : MemoryCanonical (s.heat m leaf) := branch h (branch h.upd h.upd.write)

/-! ### Race tracking -/

theorem register {x k gs} (h : MemoryCanonical s) : MemoryCanonical (s.register x k gs) := by
  dsimp only [State.register]
  refine .foldl (fun _ _ ht => ?_) h
  split
  · exact branch ht ht.upd
  · exact ht

/-! ### Accesses -/

theorem touch {c line} (h : MemoryCanonical s) : MemoryCanonical (s.touch c line) := h.modCore

theorem refresh {c bs} (h : MemoryCanonical s) : MemoryCanonical (s.refresh c bs) := h.put

theorem recheck {c bs} (h : MemoryCanonical s) : MemoryCanonical (s.recheck c bs) := branch h h.modCtx

theorem loaded {gs} (h : MemoryCanonical s) : MemoryCanonical (s.loaded gs) :=
  foldl (fun _ _ ht => ht.corrected) (foldl (fun _ _ ht => ht.touch.corrected)
    (foldl (fun _ _ ht => ht.register) (foldl (fun _ _ ht => ht.learn) h)))

theorem loadPaid {align eas lat} (h : MemoryCanonical s) : CanonicalLoad (s.loadPaid align eas lat) := by
  intro n t e
  dsimp only [State.loadPaid] at e
  split at e
  · cases e
  · cases e; exact h

theorem branchLoad {c : Prop} {_ : Decidable c} {q r : LRes} (hq : CanonicalLoad q) (hr : CanonicalLoad r) :
    CanonicalLoad (if c then q else r) := by
  split
  · exact hq
  · exact hr

theorem loadAt {acc align eas} (h : MemoryCanonical s) : CanonicalLoad (s.loadAt acc align eas) := by
  unfold State.loadAt
  split
  · exact h.loadPaid
  · refine branchLoad (fun _ _ e => nomatch e) (branchLoad (fun _ _ e => nomatch e) ?_)
    split
    · exact fun _ _ e => nomatch e
    · split
      · exact fun _ _ e => nomatch e
      · rintro _ _ ⟨⟩
        exact h.loaded

theorem loading {r k} (h : MemoryCanonical s) (hr : CanonicalLoad r)
    (hk : ∀ n t, MemoryCanonical t → MemoryCanonical (k n t)) : CanonicalNext (s.loading r k) := by
  dsimp only [State.loading]
  split
  · exact h.blocked.next
  · exact h.raise.next
  · exact (hk _ _ (hr _ _ rfl)).next

theorem withhold {k} (h : MemoryCanonical s) : MemoryCanonical (s.withhold k) := h.modCur

theorem loadingOf {i r k} (h : MemoryCanonical s) (hr : CanonicalLoad r)
    (hk : ∀ n t, MemoryCanonical t → MemoryCanonical (k n t)) : CanonicalNext (s.loadingOf i r k) := by
  dsimp only [State.loadingOf]
  split
  · exact branchNext (hr _ _ rfl).withhold.next (hk _ _ (hr _ _ rfl)).next
  · exact h.loading hr hk

theorem storeAt {acc align els unit} (h : MemoryCanonical s) : CanonicalNext (s.storeAt acc align els unit) := by
  dsimp only [State.storeAt]
  split
  · exact h.blocked.next
  · split
    · exact h.raise.next
    · split
      · exact h.raise.next
      · exact h.withhold.next

/-! ### Platforms and commands -/

theorem defer {c t} (h : MemoryCanonical s) : MemoryCanonical (s.defer c t) := h.modCtx

theorem barAdd {k r} (h : MemoryCanonical s) : MemoryCanonical (s.barAdd k r) := branch h.modCluster h.modCluster.schedule

theorem nameBarrier {k a} (h : MemoryCanonical s) : MemoryCanonical (s.nameBarrier k a) :=
  branch h (foldl (fun _ _ ht => ht.barAdd) ((foldl (fun _ _ ht => ht.put) h).modCluster.upd))

theorem takeSeq (h : MemoryCanonical s) : MemoryCanonical s.takeSeq.2 := h.modVis

theorem refuse {code cls put} (h : MemoryCanonical s) (hput : ∀ w t, MemoryCanonical t → MemoryCanonical (put w t)) :
    MemoryCanonical (s.refuse code cls put) := branch h.raise (hput _ _ h.modVis)

/-- A refusal whose word goes to a register. -/
theorem refuseTo {code cls d} (h : MemoryCanonical s) :
    MemoryCanonical (s.refuse code cls fun w t => t.ws d 1 w) := h.refuse fun _ _ ht => ht.ws

theorem accept {k kind cls bound pn bar put} (h : MemoryCanonical s)
    (hput : ∀ w t, MemoryCanonical t → MemoryCanonical (put w t)) :
    MemoryCanonical (s.accept k kind cls bound pn bar put) := by
  refine hput _ _ (.withhold ?_)
  split
  · exact h.modVis.upd.upd
  · exact h.modVis.upd.upd.modPlat

/-- An acceptance whose word goes to a register. -/
theorem acceptTo {k kind cls bound pn bar d} (h : MemoryCanonical s) :
    MemoryCanonical (s.accept k kind cls bound pn bar fun w t => t.ws d 1 w) := h.accept fun _ _ ht => ht.ws

theorem modCmd {id f} (h : MemoryCanonical s) : MemoryCanonical (s.modCmd id f) := h

theorem finish {id r} (h : MemoryCanonical s) : MemoryCanonical (s.finish id r) := by
  dsimp only [State.finish]
  split
  · exact h
  · split
    · exact h.modCmd.schedule
    · exact h.modCmd.barAdd

theorem writeShadow {k bs} (h : MemoryCanonical s) : MemoryCanonical (s.writeShadow k bs) := h.put

theorem completeFill {k pn bs} (h : MemoryCanonical s) : MemoryCanonical (s.completeFill k pn bs).2 := h.writeShadow.modPlat

theorem failFill {k pn addrs} (h : MemoryCanonical s) : MemoryCanonical (s.failFill k pn addrs) := h.writeShadow.modPlat

theorem applyPrel {r} (h : MemoryCanonical s) : MemoryCanonical (s.applyPrel r) := by
  dsimp only [State.applyPrel]
  split
  · exact h.modPlat.modCluster
  · split
    · exact h.defer
    · exact h.modCluster.defer

theorem engGran {c w ea n} (h : MemoryCanonical s) : MemoryCanonical (s.engGran c w ea n).state := by
  dsimp only [State.engGran]
  split
  · split
    · exact h.memError
    · split
      · split
        · exact h.corrected
        · exact h.corrected
      · split
        · exact h.corrected
        · split
          · exact h.corrected
          · exact h.corrected.register
  · split
    · split
      · exact h.memError
      · split
        · exact h.learn.heat.corrected
        · split
          · exact h.learn.heat.corrected
          · split
            · exact h.learn.heat.corrected
            · split
              · exact h.learn.heat.corrected
              · exact h.learn.heat.corrected.register
    · exact h.memError
    · exact h.walkCorrected
  · exact h

theorem engReadAux {c w fuel ea n acc} (h : MemoryCanonical s) : MemoryCanonical (s.engReadAux c w fuel ea n acc).state := by
  induction fuel generalizing s ea n acc with
  | zero => exact h
  | succ fuel ih =>
    dsimp only [State.engReadAux]
    split
    · exact h
    · split
      · next e => exact ih (h.engGran.of_eq e)
      · next e => exact h.engGran.of_eq e

theorem engRead {c w ea n} (h : MemoryCanonical s) : MemoryCanonical (s.engRead c w ea n).state := h.engReadAux

theorem waiting {r done bound k} (h : MemoryCanonical s) (hk : ∀ t, MemoryCanonical t → MemoryCanonical (k t)) :
    MemoryCanonical (s.waiting r done bound k) :=
  branch (hk _ h) h.blocked

theorem afterPrel {n} (h : MemoryCanonical s) : CanonicalNext (execPrel n s) :=
  (branch h.raise (branch h.blocked h.withhold)).next

theorem afterPstat {d n} (h : MemoryCanonical s) : CanonicalNext (execPstat d n s) := (branch h.raise h.ws).next

/-! ### Copies and scheduling of fills -/

theorem copyStart {ea data} (h : MemoryCanonical s) : MemoryCanonical (s.copyStart ea data) := by
  refine branch h.blocked (branch h.blocked (branch h.raise ?_))
  dsimp only
  split
  · exact (refuse h.upd fun _ _ ht => ht.push).withhold
  · exact h.accept fun _ _ ht => ht.push

theorem cmdRead {x ea n} (h : MemoryCanonical s) : MemoryCanonical (s.cmdRead x ea n).state := by
  dsimp only [State.cmdRead]
  split
  · next e =>
      have ht := h.engRead.of_eq e
      exact ht
  · exact h.engRead

theorem copyRow {x t a0 r} (h : MemoryCanonical s) : MemoryCanonical (s.copyRow x t a0 r).state := by
  dsimp only [State.copyRow]
  split
  · next e =>
      have ht := h.cmdRead.of_eq e
      exact ht
  · next e =>
      have ht := h.cmdRead.of_eq e
      exact ht

/-! ### Vector operations -/

theorem vmap {d p w lat zero f} (h : MemoryCanonical s) : MemoryCanonical (s.vmap d p w lat zero f) := h.wv.wf

theorem vall {d w lat f} (h : MemoryCanonical s) : MemoryCanonical (s.vall d w lat f) := h.wv

theorem vint2 {d a b p t f} (h : MemoryCanonical s) : CanonicalNext (s.vint2 d a b p t f) := h.vmap.next

theorem vsat2 {d a b p t signed f} (h : MemoryCanonical s) : CanonicalNext (s.vsat2 d a b p t signed f) := h.vmap.next

theorem vflt2 {d a b p t f} (h : MemoryCanonical s) : CanonicalNext (s.vflt2 d a b p t f) := h.vmap.next

theorem vfused {d a b c p t z negP negC} (h : MemoryCanonical s) : CanonicalNext (s.vfused d a b c p t z negP negC) := h.vmap.next

theorem vsInt {d a b p t f} (h : MemoryCanonical s) : CanonicalNext (s.vsInt d a b p t f) := h.vmap.next

theorem vsShift {d a b p t f} (h : MemoryCanonical s) : CanonicalNext (s.vsShift d a b p t f) := h.vmap.next

theorem vsFlt {d a b p t f} (h : MemoryCanonical s) : CanonicalNext (s.vsFlt d a b p t f) := h.vmap.next

theorem compare2 {d a b p t f flags} (h : MemoryCanonical s) : CanonicalNext (s.compare2 d a b p t f flags) := h.wp.wf.next

theorem afterVclass {d a m p t n k} (h : MemoryCanonical s) : CanonicalNext (execVclass d a m p t n k s) := by
  unfold execVclass
  exact h.compare2

theorem vperm2 {d a b p t f} (h : MemoryCanonical s) : CanonicalNext (s.vperm2 d a b p t f) := h.vmap.next

theorem afterVrot {d a b p t} (h : MemoryCanonical s) : CanonicalNext (execVrot d a b p t s) := by
  unfold execVrot
  exact h.vperm2

theorem afterVslideDn {d a b p t} (h : MemoryCanonical s) : CanonicalNext (execVslideDn d a b p t s) := by
  unfold execVslideDn
  exact h.vperm2

theorem afterVslideUp {d a b p t} (h : MemoryCanonical s) : CanonicalNext (execVslideUp d a b p t s) := by
  unfold execVslideUp
  exact h.vperm2

theorem afterVexpd {d a p t} (h : MemoryCanonical s) : CanonicalNext (execVexpd d a p t s) := by
  unfold execVexpd
  exact h.vperm2

theorem vred {d a b p t lat ident op} (h : MemoryCanonical s) : CanonicalNext (s.vred d a b p t lat ident op) := h.wv.wf.next

theorem vscan {d a b p t lat op} (h : MemoryCanonical s) : CanonicalNext (s.vscan d a b p t lat op) := h.wv.wf.next

/-! ### Special vector units -/

theorem vfun {d a p t f} (h : MemoryCanonical s) : CanonicalNext (s.vfun d a p t f) := h.vmap.next

theorem eachDim {n d lat f} (h : MemoryCanonical s) : MemoryCanonical (s.eachDim n d lat f) := foldl (fun _ _ ht => ht.push) h

theorem afterQpack {d a b p t q} (h : MemoryCanonical s) : CanonicalNext (execQpack d a b p t q s) :=
  (branch h.wv.wf h.wv.wf.push).next

/-! ### Loads, load-blocks and lines -/

theorem ld {i t b o n sg} (h : MemoryCanonical s) : CanonicalNext (s.ld i t b o n sg) :=
  h.loadingOf h.loadAt (fun _ _ ht => ht.ws)

theorem st {t b o n} (h : MemoryCanonical s) : CanonicalNext (s.st t b o n) := h.storeAt

theorem afterSt64 {t b o} (h : MemoryCanonical s) : CanonicalNext (execSt64 t b o s) := by
  dsimp only [execSt64]
  split
  · exact h.copyStart.next
  · exact h.st

theorem vload {i t w els} (h : MemoryCanonical s) : CanonicalNext (s.vload i t w els) :=
  h.loadingOf h.loadAt (fun _ _ ht => branch ht ht.wv)

theorem vstore {t w els unit} (h : MemoryCanonical s) : CanonicalNext (s.vstore t w els unit) := h.storeAt

theorem vectorOk {acc a k} (h : MemoryCanonical s) (hk : CanonicalNext k) : CanonicalNext (s.vectorOk acc a k) :=
  branchNext hk h.raise.next

theorem vldd {t b p o hi} (h : MemoryCanonical s) : CanonicalNext (s.vldd t b p o hi) :=
  h.loadingOf h.loadAt (fun _ _ ht => branch ht.wv.wf ht.wv.wf.push)

theorem afterVstd {t b p f sc} (h : MemoryCanonical s) : CanonicalNext (execVstd t b p f sc s) := by
  dsimp only [execVstd]
  split
  · next e =>
      have ht := h.storeAt _ e
      refine .next ?_
      split
      · exact ht.wf
      · exact ht
  · exact h.storeAt

theorem afterQrload {a n d} (h : MemoryCanonical s) : CanonicalNext (execQrload a n d s) :=
  h.loadingOf h.loadAt (fun _ _ ht => ht.eachDim)

theorem releaseBlock {c g} (h : MemoryCanonical s) : MemoryCanonical (s.releaseBlock c g) :=
  foldl (fun _ _ ht => ht.modCore) h.modCtx

theorem declareBlock {c g a n} (h : MemoryCanonical s) : MemoryCanonical (s.declareBlock c g a n) :=
  foldl (fun _ _ ht => ht.later) (h.upd.modCtx)

theorem afterLdblk {a d g n} (h : MemoryCanonical s) : CanonicalNext (execLdblk a d g n s) :=
  (branch h.raise (branch h.declareBlock.ws (branch h.releaseBlock.declareBlock.ws h.ws))).next

theorem afterLdblkQ {d g} (h : MemoryCanonical s) : CanonicalNext (execLdblkQ d g s) := (branch h.raise h.ws).next

theorem lineAt {ea k} (h : MemoryCanonical s) (hk : ∀ n t, MemoryCanonical t → MemoryCanonical (k n t)) :
    MemoryCanonical (s.lineAt ea k) := by
  dsimp only [State.lineAt]
  split
  · exact h.raise
  · split
    · next e =>
        have ht := h.access1.of_eq e
        exact hk _ _ ht
    · next e =>
        have ht := h.access1.of_eq e
        exact ht.raise

theorem afterLock {a d} (h : MemoryCanonical s) : CanonicalNext (execLock a d s) :=
  (h.lineAt (fun _ _ ht => branch ht.ws (branch ht.ws (branch ht.blocked ht.modVis.ws)))).next

theorem afterUnlock {a} (h : MemoryCanonical s) : CanonicalNext (execUnlock a s) := (h.lineAt (fun _ _ ht => ht.modVis)).next

theorem evictBlock {c b} (h : MemoryCanonical s) : MemoryCanonical (s.evictBlock c b) :=
  foldl (fun _ _ ht => branch ht ht.modCore) h.modCtx

theorem evictUntil {q fuel t} (h : MemoryCanonical s) (e : s.evictUntil q fuel = some t) : MemoryCanonical t := by
  induction fuel generalizing s with
  | zero => cases e
  | succ fuel ih =>
    dsimp only [State.evictUntil] at e
    split at e
    · cases e
    · split at e
      · cases e; exact h.evictBlock
      · exact ih h.evictBlock e

theorem makeRoom {q t} (h : MemoryCanonical s) (e : s.makeRoom q = some t) : MemoryCanonical t := by
  dsimp only [State.makeRoom] at e
  split at e
  · cases e; exact h
  · split at e
    · cases e; exact h.setCore
    · exact h.evictUntil e

theorem addLine {q l} (h : MemoryCanonical s) : MemoryCanonical (s.addLine q l) := h.modCore

theorem afterLoad {i} (h : MemoryCanonical s) : CanonicalNext (execLoad i s) := by
  dsimp only [execLoad]
  split
  case h_1 | h_2 | h_3 | h_4 | h_5 | h_6 | h_7 => exact h.ld
  case h_8 => exact h.vectorOk h.vload
  case h_9 | h_10 => exact h.vload
  case h_11 | h_12 => exact h.vldd
  case h_13 => exact h.afterQrload
  case h_14 => exact h.next

theorem afterLineArrival (h : MemoryCanonical s) : CanonicalNext (execLineArrival s) := by
  refine .next (branch ?_ ?_)
  · refine branch h.modCore ?_
    dsimp only
    split
    · exact h.schedule
    · next e => exact (h.makeRoom e).addLine.modCore.heat
  · dsimp only
    split
    · exact h
    · have settle {t : State} {decl : Nat} (ht : MemoryCanonical t) :
          MemoryCanonical (match (t.ctx s.due.ctx).blocks.find? (·.decl = decl) with
            | none => t
            | some b =>
              if b.want = [] then b.lines.foldl (fun t l => t.addLine (t.l1Of s.due.ctx l) l) t else t) := by
        split
        · exact ht
        · exact branch (foldl (fun _ _ hu => hu.addLine) ht) ht
      split
      · exact settle h.modCtx
      · split
        · next e =>
            have hu := h.access1.of_eq e
            split
            · exact hu.schedule
            · next e' => exact (settle (MemoryCanonical.makeRoom hu e').modCtx).heat
        · next e => exact settle (modCtx (h.access1.of_eq e))

theorem afterRemoteGranuleArrival (h : MemoryCanonical s) : CanonicalNext (execRemoteGranuleArrival s) :=
  (branch h h.put.modCtx).next

theorem farLoad {k a rank l mask det} (h : MemoryCanonical s) : MemoryCanonical (s.farLoad k a rank l mask det) := by
  dsimp only [State.farLoad]
  split
  · exact branch h.emit h.emit
  · split
    · exact h.emit
    · split
      · exact h.emit
      · split
        · exact h.emit
        · exact h.register.emit

theorem afterRaceCheckAnswer (h : MemoryCanonical s) : CanonicalNext (execRaceCheckAnswer s) := by
  dsimp only [execRaceCheckAnswer]
  refine .next ?_
  split
  · exact h.farLoad
  · split
    · exact h
    · split
      · exact (branch h.modCtx h.modCtx.register).modCtx
      · exact h.modCtx.modCtx

/-! ### Atomics, barriers and windows -/

theorem atomAt {ret align eas rel} (h : MemoryCanonical s) : CanonicalLoad (s.atomAt ret align eas rel) := by
  intro n t e
  dsimp only [State.atomAt] at e
  split at e
  · cases e
  · split at e
    · cases e
    · split at e
      · cases e
      · cases e; exact h.loaded

theorem ordered {rel sc} (h : MemoryCanonical s) : MemoryCanonical (s.ordered rel sc) := branch h.withhold h

theorem acquires {acq sc} (h : MemoryCanonical s) : MemoryCanonical (s.acquires acq sc) := branch h.upd.modCur h

theorem atomAcquires {acq sc} (h : MemoryCanonical s) : MemoryCanonical (s.atomAcquires acq sc) := branch h.acquires.upd h

theorem afterAmo {d a b o sc z f} (h : MemoryCanonical s) : CanonicalNext (execAmo d a b o sc z f s) :=
  h.loading h.atomAt fun _ _ ht => ht.ordered.withhold.atomAcquires

theorem afterCas {d a b c sc o z} (h : MemoryCanonical s) : CanonicalNext (execCas d a b c sc o z s) :=
  h.loading h.atomAt fun _ _ ht => ht.ordered.withhold.atomAcquires

theorem afterFamo {a b c t} (h : MemoryCanonical s) : CanonicalNext (execFamo a b c t s) :=
  h.loading h.atomAt fun _ _ ht => branch h.raise (branch h.raise ht.nameBarrier.withhold)

theorem afterVamo {t b i p z r f} (h : MemoryCanonical s) : CanonicalNext (execVamo t b i p z r f s) :=
  h.loading h.atomAt fun _ _ ht => ht.withhold

theorem onBarrier {ea k} (h : MemoryCanonical s) (hk : ∀ n t, MemoryCanonical t → MemoryCanonical (k n t)) :
    CanonicalNext (s.onBarrier ea k) :=
  (branch (hk _ _ h.nameBarrier) h.raise).next

theorem afterBarArr {a k} (h : MemoryCanonical s) : CanonicalNext (execBarArr a k s) := h.onBarrier (fun _ _ ht => ht.withhold)

theorem afterBarExp {a b} (h : MemoryCanonical s) : CanonicalNext (execBarExp a b s) := h.onBarrier (fun _ _ ht => ht.withhold)

theorem notePast {c keys} (h : MemoryCanonical s) : MemoryCanonical (s.notePast c keys) := branch h.upd h

theorem famoApply {key ty x} (h : MemoryCanonical s) : MemoryCanonical (s.famoApply key ty x) := h.write

theorem famoFlush {k sel} (h : MemoryCanonical s) : MemoryCanonical (s.famoFlush k sel) :=
  foldl (fun _ _ ht => ht.notePast.famoApply) h.modCluster

theorem phaseDone {k a w} (h : MemoryCanonical s) : MemoryCanonical (s.phaseDone k a w) := by
  dsimp only [State.phaseDone]
  split
  · exact h.famoFlush.putNat.modCluster
  · exact h.famoFlush.putNat

theorem barApply {k a r} (h : MemoryCanonical s) : MemoryCanonical (s.barApply k a r) := by
  obtain ⟨_, _, op⟩ := r
  cases op with
  | arrive n => exact branch h.putNat.defer (branch h.phaseDone h.putNat)
  | expect x => exact branch h.putNat.defer h.putNat
  | deliver id => exact branch h.putNat.modCmd.schedule (branch h.phaseDone h.putNat).schedule
  | store bs => exact h.put.refresh

theorem afterBarrierUnitApply (h : MemoryCanonical s) : CanonicalNext (execBarrierUnitApply s) := by
  dsimp only [execBarrierUnitApply]
  refine .next ?_
  split
  · exact h
  · exact branch h.modCluster.barApply h.modCluster.barApply.schedule

theorem atHome {c k pc slot ord eas act} (h : MemoryCanonical s) (hact : ∀ t, MemoryCanonical t → MemoryCanonical (act t)) :
    MemoryCanonical (s.atHome c k pc slot ord eas act) := by
  dsimp only [State.atHome]
  split
  · exact h.defer
  · exact hact _ h.register

theorem heatAll {c eas} (h : MemoryCanonical s) : MemoryCanonical (s.heatAll c eas) := by
  dsimp only [State.heatAll]
  refine .foldl (fun _ _ ht => ?_) h
  split
  · split
    · exact ht.heat
    · exact ht
  · exact ht

theorem famoHome {c pc slot ord ty ea x bar key} (h : MemoryCanonical s) :
    MemoryCanonical (s.famoHome c pc slot ord ty ea x bar key) :=
  (h.atHome (fun _ ht => by
      split
      · exact ht.modCluster
      · split
        · exact branch ht.heatAll.notePast.famoApply.refresh.recheck.modCtx ht.heatAll.notePast.famoApply.refresh.recheck
        · exact ht))

theorem under {maps k} (h : MemoryCanonical s) (hk : ∀ t, MemoryCanonical t → MemoryCanonical (k t)) :
    MemoryCanonical (s.under maps k) :=
  branch (hk _ h) ((hk _ h.upd).upd)

theorem famoLand {d} (h : MemoryCanonical s) : MemoryCanonical (s.famoLand d) := h.under (fun _ ht => ht.famoHome)

theorem famoLandAll {c} (h : MemoryCanonical s) : MemoryCanonical (s.famoLandAll c) :=
  branch (foldl (fun _ _ ht => ht.famoLand) h.upd) h

theorem afterEventRecordArrival (h : MemoryCanonical s) : CanonicalNext (execEventRecordArrival s) := by
  dsimp only [execEventRecordArrival]
  refine .next ?_
  split
  · exact h
  · exact h.upd.postRecord

theorem afterEvpop {d} (h : MemoryCanonical s) : CanonicalNext (execEvpop d s) := by
  dsimp only [execEvpop]
  refine .next ?_
  split
  · exact branch (foldl (fun _ _ hu => hu.ws) h) h.blocked
  · exact foldl (fun _ _ hu => hu.ws) h
  · exact branch h.raise (branch (branch ((foldl (fun _ _ hu => hu.ws) h.modCur).wf.push) ((foldl
      (fun _ _ hu => hu.ws) h.modCur).wf.push.push)) ((branch ((foldl (fun _ _ hu => hu.ws) h.modCur).wf.push) ((foldl
      (fun _ _ hu => hu.ws) h.modCur).wf.push.push)).push))

theorem afterEvpeek {d} (h : MemoryCanonical s) : CanonicalNext (execEvpeek d s) := (branch h.raise h.ws).next

theorem afterBclose {t} (h : MemoryCanonical s) : CanonicalNext (execBclose t s) := (branch h.blocked h.upd.withhold).next

theorem afterBwait {b t} (h : MemoryCanonical s) : CanonicalNext (execBwait b t s) := (h.waiting fun _ ht => ht).next

theorem postBatches {c t} (h : MemoryCanonical s) : MemoryCanonical (s.postBatches c t) :=
  foldl (fun _ _ ht => ht.modCtx.postRecord) h

theorem modBatch {c id f} (h : MemoryCanonical s) : MemoryCanonical (s.modBatch c id f) := h.modCtx

theorem summarise {c id w} (h : MemoryCanonical s) : MemoryCanonical (s.summarise c id w) := by
  dsimp only [State.summarise]
  split
  · exact h
  · split
    · exact h
    · exact branch h.later h

theorem askSummary {c id w} (h : MemoryCanonical s) : MemoryCanonical (s.askSummary c id w) := branch h h.emit

theorem farSum {rank l batch f} (h : MemoryCanonical s) : MemoryCanonical (s.farSum rank l batch f) := branch h.upd.emit h.upd.upd

theorem afterBatchSummary (h : MemoryCanonical s) : CanonicalNext (execBatchSummary s) := by
  dsimp only [execBatchSummary]
  refine .next ?_
  split
  · exact h.farSum
  · split
    · exact h
    · exact h.modBatch.postBatches

theorem afterBatchSummaryBoundExpiry (h : MemoryCanonical s) : CanonicalNext (execBatchSummaryBoundExpiry s) := by
  dsimp only [execBatchSummaryBoundExpiry]
  refine .next ?_
  split
  · exact h
  · exact h.modBatch.postBatches

theorem afterWindowWriteAccept (h : MemoryCanonical s) : CanonicalNext (execWindowWriteAccept s) := by
  dsimp only [execWindowWriteAccept]
  refine .next ?_
  split
  · exact h
  · exact h.modCtx.later

theorem overtake {c k ord addrs} (h : MemoryCanonical s) : MemoryCanonical (s.overtake c k ord addrs) := branch h h.modCtx

theorem noteBanked {k r bs} (h : MemoryCanonical s) : MemoryCanonical (s.noteBanked k r bs) := branch h h.upd

theorem writeLocal {k c l pc slot ord bs} (h : MemoryCanonical s) : MemoryCanonical (s.writeLocal k c l pc slot ord bs) :=
  foldl (fun _ _ ht => ht.barAdd) (h.notePast.overtake.noteBanked.write.refresh)

theorem landRejected {c e a acc arg far} (h : MemoryCanonical s) : MemoryCanonical (s.landRejected c e a acc arg far) :=
  h.modBatch.defer

theorem landWrite {c e} (h : MemoryCanonical s) : MemoryCanonical (s.landWrite c e) := by
  dsimp only [State.landWrite]
  split
  · exact h.modCtx.emit
  · refine .summarise ?_
    split
    · exact h.modCtx.landRejected
    · exact h.modCtx.register.writeLocal

theorem landAll {c} (h : MemoryCanonical s) : MemoryCanonical (s.landAll c) := by
  dsimp only [State.landAll]
  refine .foldl (fun _ _ ht => ?_) h
  split
  · exact ht.landWrite
  · exact ht

theorem farWrite {k a rank l batch data det} (h : MemoryCanonical s) :
    MemoryCanonical (s.farWrite k a rank l batch data det) := by
  dsimp only [State.farWrite]
  split
  · exact h.emit.farSum
  · exact (foldl (fun _ _ hu => hu.barAdd) (h.register.noteBanked.write)).emit.farSum

theorem afterWindowWriteLand (h : MemoryCanonical s) : CanonicalNext (execWindowWriteLand s) := by
  dsimp only [execWindowWriteLand]
  refine .next ?_
  split
  · split
    · exact h
    · exact h.landWrite
  · exact h.farWrite
  · split
    · exact h
    · exact branch h.modCtx.landRejected h.modCtx.refresh

theorem making {f} (h : MemoryCanonical s) (hf : ∀ t, MemoryCanonical t → MemoryCanonical (f t)) : MemoryCanonical (s.making f) :=
  branch (hf _ h) ((hf _ h).upd)

theorem acquireFence {sc} (h : MemoryCanonical s) : MemoryCanonical (s.acquireFence sc) :=
  branch h (h.making fun _ ht => ht.famoLandAll).acquires

theorem fullFence {sc} (h : MemoryCanonical s) : MemoryCanonical (s.fullFence sc) :=
  branch h (h.acquireFence.making fun _ ht => ht.landAll).modCur

theorem afterFence {k sc} (h : MemoryCanonical s) : CanonicalNext (execFence k sc s) := by
  dsimp only [execFence]
  refine .next ?_
  split
  · exact h.acquireFence
  · exact h.ordered
  · exact h.fullFence.ordered

theorem afterBarWait {a b k} (h : MemoryCanonical s) : CanonicalNext (execBarWait a b k s) :=
  h.onBarrier fun _ _ ht => ht.waiting fun _ hu => hu.acquireFence

theorem afterBarTry {a d} (h : MemoryCanonical s) : CanonicalNext (execBarTry a d s) :=
  branchNext h.raise.next ((h.onBarrier (fun _ _ ht => ht.ws.acquireFence)))

theorem afterPwait {b c n} (h : MemoryCanonical s) : CanonicalNext (execPwait b c n s) :=
  (branch h.raise (h.waiting fun _ ht => ht.acquireFence)).next

/-! ### Matrix operations -/

theorem mxBytes {o a n} (h : MemoryCanonical s) : MemoryCanonical (s.mxBytes o a n).state := by
  dsimp only [State.mxBytes]
  split
  · next e =>
      have ht := h.engRead.of_eq e
      exact ht
  · exact h.engRead

theorem plainRow {o ty a} (h : MemoryCanonical s) : MemoryCanonical (s.plainRow o ty a).state := by
  dsimp only [State.plainRow]
  split
  · next e =>
      have ht := h.mxBytes.of_eq e
      exact ht
  · next e =>
      have ht := h.mxBytes.of_eq e
      exact ht

theorem descRow {o fuel a k acc mal} (h : MemoryCanonical s) : MemoryCanonical (State.descRow o fuel s a k acc mal).state := by
  induction fuel generalizing s a k acc mal with
  | zero => exact h
  | succ fuel ih =>
    dsimp only [State.descRow]
    split
    · exact h
    · split
      · next e =>
          have ht := h.mxBytes.of_eq e
          exact ht
      · next e =>
          have ht := h.mxBytes.of_eq e
          split
          · exact ht
          · exact ih ht

theorem mxRows {o ty base stride n} (h : MemoryCanonical s) : MemoryCanonical (State.mxRows o ty base stride s n).state := by
  refine foldl_state (fun r i hr => ?_) h
  dsimp only
  split
  · exact hr
  · next rows m t =>
      have hrow : MemoryCanonical (if o.desc then State.descRow o (o.k / 31 + 1) t (base + 64 * stride * i) o.k [] 0
          else t.plainRow o ty (base + 64 * stride * i)).state := by
        split
        · exact descRow hr
        · exact plainRow hr
      split
      · next e =>
          have ht := hrow.of_eq e
          exact ht
      · next e =>
          have ht := hrow.of_eq e
          exact ht

theorem modMx {q id f} (h : MemoryCanonical s) : MemoryCanonical (s.modMx q id f) := h.modCore

theorem mxMal {q o n} (h : MemoryCanonical s) : MemoryCanonical (s.mxMal q o n) := h.modCore

theorem afterMatrixOperationStart (h : MemoryCanonical s) : CanonicalNext (execMatrixOperationStart s) := by
  refine .next ?_
  dsimp only
  split
  · exact h
  · next o _ =>
      have hd {t : State} (ht : MemoryCanonical t) : MemoryCanonical (if o.sparse then t.draw 32 else (0, t)).2 := by
        split
        · exact ht.draw
        · exact ht
      have hmask {t : State} (ht : MemoryCanonical t) :
          MemoryCanonical (if o.sparse then t.mxBytes o (t.plat (clOf o.ctx) o.plats.2.2).frontAt 1024 else .ok [] t).state := by
        split
        · exact ht.mxBytes
        · exact ht
      split
      · next e => exact later (modMx (mxMal ((hmask (hd h.schedule).schedule).of_eq e)))
      · next e =>
          have hm := (hmask (hd h.schedule).schedule).of_eq e
          split
          · next e' => exact later (modMx (mxMal ((mxRows hm).of_eq e')))
          · next e' =>
              have ha := (mxRows hm).of_eq e'
              split
              · next e'' => exact later (modMx (mxMal ((mxRows ha).of_eq e'')))
              · next e'' => exact modMx (mxMal ((mxRows ha).of_eq e''))

theorem afterMatrixStreamFault (h : MemoryCanonical s) : CanonicalNext (execMatrixStreamFault s) := by
  dsimp only [execMatrixStreamFault]
  refine .next ?_
  split
  · split
    · exact h.defer
    · exact h
  · exact h

theorem mxComplete {q o} (h : MemoryCanonical s) : MemoryCanonical (s.mxComplete q o) :=
  branch h.modCore h.modCore.modCluster.wakePrels

theorem afterMatrixResult (h : MemoryCanonical s) : CanonicalNext (execMatrixResult s) := by
  dsimp only [execMatrixResult]
  refine .next ?_
  split
  · exact h
  · exact foldl (fun _ _ hu => hu.mxComplete) h

theorem afterPrelHoldApply (h : MemoryCanonical s) : CanonicalNext (execPrelHoldApply s) :=
  (branch h (foldl (fun _ _ ht => ht.applyPrel) h.modCluster)).next

theorem mxAccept {o condense} (h : MemoryCanonical s) : MemoryCanonical (s.mxAccept o condense) := h.modVis.modCore.push.withhold

theorem afterMxgo {z a} (h : MemoryCanonical s) : CanonicalNext (execMxgo z a s) :=
  (branch h.blocked (branch h.raise h.upd.mxAccept)).next

theorem afterMxsgo {z a} (h : MemoryCanonical s) : CanonicalNext (execMxsgo z a s) := by
  dsimp only [execMxsgo]
  refine .next ?_
  split
  · exact h.blocked
  · split
    · exact h.blocked
    · split
      · exact h.raise
      · split
        · exact h.raise
        · exact (foldl (fun _ _ hu => hu.modPlat) h.upd).mxAccept

theorem mxRelease {q id} (h : MemoryCanonical s) : MemoryCanonical (s.mxRelease q id) := h.modMx.schedule

theorem afterEpgo {a} (h : MemoryCanonical s) : CanonicalNext (execEpgo a s) := by
  dsimp only [execEpgo]
  refine .next ?_
  split
  · exact h.blocked
  · split
    · exact h.blocked
    · split
      · exact h.raise
      · split
        · exact h.raise
        · split
          · exact h.refuse (fun _ _ hu => hu.push)
          · exact h.accept (fun _ _ hu => hu.push)

theorem epSnapshot {x q acc vec} (h : MemoryCanonical s) : MemoryCanonical (s.epSnapshot x q acc vec).2 := by
  have read {t : State} {on : Bool} {a : Nat} (ht : MemoryCanonical t) :
      MemoryCanonical (if !on then ((none : Option (BitVec 8)), ([] : List (BitVec 32)), t)
        else match t.cmdRead x (localEa a) 256 with
          | .ok bs t => (none, f32s bs, t)
          | .fail st _ _ t => (some st, [], t)).2.2 := by
    split
    · exact ht
    · split
      · next e =>
          have hu := (cmdRead ht).of_eq e
          exact hu
      · next e =>
          have hu := (cmdRead ht).of_eq e
          exact hu
  exact modCmd (read (read h.modCore))

/-! ### Lookups and updates -/

theorem tableRead {die w va n} (h : MemoryCanonical s) : MemoryCanonical (s.tableRead die w va n).2 := by
  dsimp only [State.tableRead]
  split
  · exact h
  · split
    · split
      · exact h.memError
      · exact h.learn.heat.corrected
    · exact h.memError
    · exact h.walkCorrected

theorem rowBlk {die w va} (h : MemoryCanonical s) : MemoryCanonical (s.rowBlk die w va).2 := by
  dsimp only [State.rowBlk]
  split
  · next e =>
      have ht := h.tableRead.of_eq e
      exact ht
  · next e =>
      have ht := h.tableRead.of_eq e
      exact ht

theorem hotSync {place set i} (h : MemoryCanonical s) : MemoryCanonical (s.hotSync place set i) := by
  dsimp only [State.hotSync]
  split
  · exact h
  · exact branch h h.write

theorem hotBlk {die place set i} (h : MemoryCanonical s) : MemoryCanonical (s.hotBlk die place set i).2 := by
  dsimp only [State.hotBlk]
  split
  · exact h
  · split
    · exact h.memError
    · exact h.corrected

theorem readRow {t row get} (h : MemoryCanonical s) (hget : ∀ i t, MemoryCanonical t → MemoryCanonical (get i t).2) :
    MemoryCanonical (s.readRow t row get).2 := by
  refine foldl_snd (fun p i hp => ?_) h
  dsimp only
  split
  · exact hp
  · split
    · exact hp
    · split
      · next e => exact (hget _ _ hp).of_eq e
      · next e => exact (hget _ _ hp).of_eq e

theorem withBlock {ea k} (h : MemoryCanonical s) (hk : ∀ n t, MemoryCanonical t → MemoryCanonical (k n t)) :
    CanonicalNext (s.withBlock ea k) :=
  h.loading h.loadAt (fun _ _ ht => (hk _ _ ht))

theorem afterPool {a d i o m c p} (h : MemoryCanonical s) : CanonicalNext (execPool a d i o m c p s) :=
  branchNext h.blocked.next (branchNext h.blocked.next (h.withBlock fun _ _ ht => by
    refine branch ht.refuseTo (branch ht.refuseTo ?_)
    split
    · exact ht.refuseTo
    · exact branch ht.refuseTo (branch ht.refuseTo (branch ht.refuseTo (branch ht.refuseTo (branch ht.refuseTo ht.acceptTo))))))

theorem afterUpd {a d i g c} (h : MemoryCanonical s) : CanonicalNext (execUpd a d i g c s) :=
  branchNext h.blocked.next (h.withBlock fun _ _ ht => by
    refine branch ht.raise (branch ht.refuseTo ?_)
    split
    · exact ht.refuseTo
    · exact branch ht.refuseTo (branch ht.refuseTo (branch ht.refuseTo (branch ht.refuseTo (branch ht.refuseTo ht.acceptTo)))))

theorem readArrays {x b n64} (h : MemoryCanonical s) : MemoryCanonical (s.readArrays x b n64).2 := by
  dsimp only [State.readArrays]
  split
  · next e => exact h.cmdRead.of_eq e
  · next e =>
      have ht := h.cmdRead.of_eq e
      split
      · next e' => exact (cmdRead ht).of_eq e'
      · next e' => exact (cmdRead ht).of_eq e'

theorem beginJob {x j} (h : MemoryCanonical s) : MemoryCanonical (s.beginJob x j) :=
  branch h.upd.later (foldl (fun _ _ ht => ht.later) h.upd)

theorem afterLookupDispatch (h : MemoryCanonical s) : CanonicalNext (execLookupDispatch s) := by
  refine .next ?_
  split
  · exact h
  · split
    · dsimp only
      split
      · next e => exact (h.readArrays.of_eq e).beginJob
      · next e _ => exact (h.readArrays.of_eq e).schedule
    · exact h

theorem setSketch {k} (h : MemoryCanonical s) : MemoryCanonical (s.setSketch k) := h

theorem promote {d grp t what} (h : MemoryCanonical s) : MemoryCanonical (s.promote d grp t what) := by
  dsimp only [State.promote]
  split
  · exact h
  · split
    · exact h.upd.later
    · split
      · exact h
      · exact branch h.upd.later h.upd

theorem giveEntry {e n} (h : MemoryCanonical s) : MemoryCanonical (s.giveEntry e n) := h.upd.later

theorem afterPromotionEviction (h : MemoryCanonical s) : CanonicalNext (execPromotionEviction s) := by
  refine .next ?_
  split
  · exact h
  · split
    · exact h.giveEntry
    · exact h

theorem afterPromotionPublish (h : MemoryCanonical s) : CanonicalNext (execPromotionPublish s) := by
  refine .next ?_
  dsimp only
  split
  · exact h
  · next x _ =>
      refine branch h (branch h.later ?_)
      generalize hr : List.foldl _ (some ([] : List Byte), s) (List.range x.what.nblk) = r
      have ht : MemoryCanonical r.2 := by
        rw [← hr]
        refine foldl_snd (fun p i hp => ?_) h
        split
        · exact hp
        · split
          · next e =>
              have hu := hp.rowBlk.of_eq e
              exact hu
          · next e =>
              have hu := hp.rowBlk.of_eq e
              exact hu
      split
      · split
        · exact giveEntry ht
        · exact upd ht
      · exact branch ht.write.upd.upd.schedule ht.write.upd.upd

theorem modJob {id f} (h : MemoryCanonical s) : MemoryCanonical (s.modJob id f) := h

theorem sendPartial {x j src} (h : MemoryCanonical s) : MemoryCanonical (s.sendPartial x j src) := h.later

theorem afterDepotGather (h : MemoryCanonical s) : CanonicalNext (execDepotGather s) := by
  refine .next ?_
  split
  · exact h
  · split
    · exact h
    · split
      · exact h
      · refine sendPartial (foldl (fun _ _ ht => ht.later) (modJob ?_))
        refine foldl_fst (fun p r hp => ?_) h
        dsimp only
        split
        · exact hp
        · exact readRow hp fun _ _ ht => ht.rowBlk

theorem afterSidingPartial (h : MemoryCanonical s) : CanonicalNext (execSidingPartial s) := by
  refine .next ?_
  split
  · exact h
  · split
    · exact h
    · split
      · exact h
      · refine sendPartial (modJob ?_)
        exact foldl_fst (fun p r hp => readRow hp fun _ _ ht => ht.hotSync.hotBlk) h

theorem countEntry {x t tid r} (h : MemoryCanonical s) : MemoryCanonical (s.countEntry x t tid r) :=
  branch h.setSketch.promote h.setSketch

theorem countServed {x t tid bad rs} (h : MemoryCanonical s) : MemoryCanonical (s.countServed x t tid bad rs).2 := by
  induction rs generalizing s with
  | nil => exact h
  | cons r rs ih =>
    dsimp only [State.countServed]
    split
    · exact ih h
    · split
      · exact h
      · exact ih (branch h.countEntry.schedule h.countEntry)

theorem afterMergePartialArrival (h : MemoryCanonical s) : CanonicalNext (execMergePartialArrival s) := by
  refine .next ?_
  dsimp only
  split
  · exact h
  · refine branch h.modJob ?_
    split
    · exact h.modJob
    · split
      · refine branch h.modJob.countServed.modJob.schedule ?_
        split
        · exact h.modJob.countServed.modJob.later
        · exact h.modJob.countServed.modJob.upd.later
      · refine branch h.modJob.modJob.schedule ?_
        split
        · exact h.modJob.modJob.later
        · exact h.modJob.modJob.upd.later

theorem afterUpdateDispatch (h : MemoryCanonical s) : CanonicalNext (execUpdateDispatch s) := by
  refine .next ?_
  dsimp only
  split
  · exact h
  · split
    · split
      · next e =>
          have ht := h.cmdRead.of_eq e
          generalize hr : List.foldl _ _ (List.range _) = r
          have hu : MemoryCanonical r.2.2 := by
            rw [← hr]
            refine List.foldlRecOn
              (motive := fun p : Option (List (List (BitVec 32))) × BitVec 8 × State => MemoryCanonical p.2.2) _ _ ht
                fun p hp i _ => ?_
            split
            · exact hp
            · split
              · next e =>
                  have hv := (cmdRead hp).of_eq e
                  exact hv
              · next e =>
                  have hv := (cmdRead hp).of_eq e
                  exact hv
          split
          · exact finish hu
          · exact branch hu.upd.later (foldl (fun _ _ hv => hv.later) hu.upd)
      · next e => exact finish (h.cmdRead.of_eq e)
      · exact h.finish
    · exact h

theorem updBlocks {x t row} (h : MemoryCanonical s) : MemoryCanonical (s.updBlocks x t row).2 := by
  refine foldl_snd (fun p i hp => ?_) h
  split
  · exact hp
  · split
    · exact hp
    · split
      · next e =>
          have hu := (tableRead hp).of_eq e
          exact hu
      · next e =>
          have hu := (tableRead hp).of_eq e
          exact hu

theorem optimise {x t row g} (h : MemoryCanonical s) : MemoryCanonical (s.optimise x t row g).2 := by
  dsimp only [State.optimise]
  split
  · exact h
  · split
    · exact h.walkSeen
    · next e _ => exact h.tableRead.of_eq e
    · next e => exact h.tableRead.of_eq e

theorem updateRow {x t tid step row gs} (h : MemoryCanonical s) : MemoryCanonical (s.updateRow x t tid step row gs).2 := by
  dsimp only [State.updateRow]
  split
  · next e =>
      have ht := h.updBlocks.of_eq e
      exact ht
  · next e =>
      have ht := h.updBlocks.of_eq e
      split
      · exact ht
      · split
        · exact ht
        · split
          · next e =>
              have hv := ht.optimise.of_eq e
              exact hv
          · next e =>
              have hv := ht.optimise.of_eq e
              split
              · exact hv
              · exact foldl (fun _ _ hw => hw.learn.heat) hv.write

theorem afterTurntableRowUpdate (h : MemoryCanonical s) : CanonicalNext (execTurntableRowUpdate s) := by
  unfold execTurntableRowUpdate
  refine .next ?_
  extract_lets
  split
  · split
    · extract_lets b
      split
      · exact h
      · refine branch h.hasten.schedule ?_
        extract_lets r w
        have hr : MemoryCanonical r.2 := by
          unfold r
          split
          · exact h
          · split
            · next e => exact h.updateRow.of_eq e
            · next e => exact h.updateRow.of_eq e
            · next e => exact h.updateRow.of_eq e
        exact branch hr.upd hr.upd.upd.finish
    · exact h
  · exact h

/-! ### Messages and exchanges -/

theorem overloaded (h : MemoryCanonical s) : MemoryCanonical s.overloaded.2 := by
  dsimp only [State.overloaded]
  split
  · exact h
  · exact h.choose

theorem afterMsend {a d c} (h : MemoryCanonical s) : CanonicalNext (execMsend a d c s) :=
  branchNext h.blocked.next (h.withBlock fun _ _ ht =>
    branch ht.refuseTo (branch ht.refuseTo (branch ht.refuseTo (branch ht.refuseTo
      (branch ht.overloaded.refuseTo ht.overloaded.acceptTo)))))

theorem afterRpost {a d c p} (h : MemoryCanonical s) : CanonicalNext (execRpost a d c p s) :=
  branchNext h.blocked.next (branchNext h.blocked.next ((h.withBlock (fun _ _ ht => branch ht.raise (branch ht.refuseTo
    (branch ht.refuseTo (branch ht.refuseTo (branch ht.refuseTo (branch ht.refuseTo ((ht.modCur.accept
    (fun _ _ hu => hu.ws))))))))))))

theorem afterRcancel {a d} (h : MemoryCanonical s) : CanonicalNext (execRcancel a d s) :=
  (branch h.raise (branch h.refuseTo h.acceptTo)).next

theorem afterRprobe {a d} (h : MemoryCanonical s) : CanonicalNext (execRprobe a d s) :=
  branchNext h.raise.next ((h.withBlock (fun _ _ ht => foldl (fun _ _ hu => hu.ws) ht)))

theorem sendRelease {x blk} (h : MemoryCanonical s) : MemoryCanonical (s.sendRelease x blk) := h.upd.later

theorem toJunction {ev x} (h : MemoryCanonical s) : MemoryCanonical (s.toJunction ev x) := h.upd.schedule

theorem postRelease {x blk} (h : MemoryCanonical s) : MemoryCanonical (s.postRelease x blk) := h.toJunction.schedule

theorem modMsg {id f} (h : MemoryCanonical s) : MemoryCanonical (s.modMsg id f) := h

theorem postOutcome {x r} (h : MemoryCanonical s) : MemoryCanonical (s.postOutcome x r) := h.modCtx

theorem sendEnd {m status} (h : MemoryCanonical s) : MemoryCanonical (s.sendEnd m status) := by
  dsimp only [State.sendEnd]
  split
  · exact h.emit
  · split
    · exact branch h h.finish
    · exact h

theorem dropMsg {id} (h : MemoryCanonical s) : MemoryCanonical (s.dropMsg id) := h

theorem payload {m} (h : MemoryCanonical s) : MemoryCanonical (s.payload m).2 := by
  dsimp only [State.payload]
  split
  · exact h
  · split
    · split
      · next e => exact h.cmdRead.of_eq e
      · next e => exact h.cmdRead.of_eq e
    · exact h

theorem matchUp {m p via} (h : MemoryCanonical s) : MemoryCanonical (s.matchUp m p via) :=
  branch h.modMsg.postOutcome.modDie.emit.schedule (branch h.modMsg.postOutcome.modDie.later h.modMsg.postOutcome.modDie.later)

theorem inOrder {ev k} (h : MemoryCanonical s) (hk : ∀ t, MemoryCanonical t → MemoryCanonical (k t)) :
    CanonicalNext (s.inOrder ev k) := by
  dsimp only [State.inOrder]
  refine .next ?_
  split
  · exact h.upd
  · exact hk _ h

theorem farEnd {m} (h : MemoryCanonical s) : MemoryCanonical (s.farEnd m) :=
  branch h.emit.upd.upd.upd.sendEnd.dropMsg (branch h.emit.upd.upd.upd.sendEnd.dropMsg
    (branch h.emit.upd.upd.upd.modMsg.schedule h.emit.upd.upd.upd.modMsg.later))

theorem afterMessageHeaderArrival (h : MemoryCanonical s) : CanonicalNext (execMessageHeaderArrival s) :=
  h.inOrder fun t ht => by
    dsimp only
    split
    · exact ht
    · next m _ =>
        refine branch ht.schedule (branch ht.hasten.schedule ?_)
        have hp {u : State} (hu : MemoryCanonical u) :
            MemoryCanonical (if m.pulled then ((.inr m.data : Sum (BitVec 8) (List Byte)), u) else u.payload m).2 := by
          split
          · exact hu
          · exact hu.payload
        split
        · next e => exact dropMsg (sendEnd ((hp (branch ht.upd ht)).of_eq e))
        · next e =>
            have hu := (hp (branch ht.upd ht)).of_eq e
            split
            · exact farEnd hu
            · refine branch (dropMsg (sendEnd hu)) ?_
              split
              · exact matchUp (modMsg hu)
              · exact branch (modMsg hu).sendEnd.dropMsg
                  (branch (modMsg hu).modMsg.modDie.sendEnd (modMsg hu).modMsg.modDie.schedule)

theorem afterPostArrival (h : MemoryCanonical s) : CanonicalNext (execPostArrival s) :=
  h.inOrder fun t ht => by
    dsimp only
    split
    · exact ht
    · split
      · split
        · exact ht.matchUp
        · exact ht.modDie
      · exact ht

theorem withdraw {x status} (h : MemoryCanonical s) : MemoryCanonical (s.withdraw x status) := h.modDie.postOutcome.schedule

theorem afterPostTimeout (h : MemoryCanonical s) : CanonicalNext (execPostTimeout s) := (h.inOrder (fun _ ht => by
      split
      · exact branch ht.withdraw ht
      · exact ht))

theorem afterCancelArrival (h : MemoryCanonical s) : CanonicalNext (execCancelArrival s) := (h.inOrder (fun _ ht => by
      split
      · exact ht
      · split
        · refine .finish ?_
          split
          · exact ht.withdraw
          · exact ht
        · exact ht))

theorem afterHeaderLifetimeExpiry (h : MemoryCanonical s) : CanonicalNext (execHeaderLifetimeExpiry s) :=
  (h.inOrder (fun _ ht => by
      split
      · exact ht
      · split
        · exact branch ht ht.modDie.sendEnd.dropMsg
        · exact ht.sendEnd.dropMsg))

theorem afterPullComplete (h : MemoryCanonical s) : CanonicalNext (execPullComplete s) := by
  refine .next ?_
  split
  · exact h
  · split
    · split
      · exact h
      · exact branch h.schedule h.modMsg.schedule
    · split
      · next e _ => exact branch (dropMsg (sendEnd (h.payload.of_eq e))) (h.payload.of_eq e)
      · next e _ => exact branch (dropMsg (sendEnd (emit (h.payload.of_eq e)))) (h.payload.of_eq e)
      · next e _ => exact schedule (sendEnd (h.payload.of_eq e))
      · next e _ => exact schedule (modMsg (h.payload.of_eq e))

theorem afterA2a {a d i o m c p} (h : MemoryCanonical s) : CanonicalNext (execA2a a d i o m c p s) :=
  branchNext h.blocked.next (branchNext h.blocked.next (h.loading h.loadAt fun _ _ ht => by
    refine branch ht.refuseTo (branch ht.refuseTo ?_)
    split
    · exact ht.refuseTo
    · refine branch ht.refuseTo ?_
      dsimp only
      split
      · exact ht.raise
      · exact ht.blocked
      · next e =>
          have hu := ht.loadAt _ _ e
          exact branch hu.refuseTo (branch hu.refuseTo (branch hu.refuseTo (branch hu.refuseTo (branch hu.refuseTo
            (branch hu.refuseTo hu.acceptTo)))))))

theorem a2aRelease {x blk} (h : MemoryCanonical s) : MemoryCanonical (s.a2aRelease x blk) := h.later.schedule

theorem afterMarshalDispatch (h : MemoryCanonical s) : CanonicalNext (execMarshalDispatch s) := by
  refine .next ?_
  split
  · exact h
  · split
    · dsimp only
      split
      · next e =>
          have ht := h.readArrays.of_eq e
          exact branch (upd ht).later (foldl (fun _ _ hu => branch hu.emit hu.upd.beginJob) (upd ht))
      · next e _ => exact schedule (h.readArrays.of_eq e)
    · exact h

theorem roundDone {x j} (h : MemoryCanonical s) : MemoryCanonical (s.roundDone x j) := branch h.modJob.later h.modJob

theorem afterOwnerPartialArrival (h : MemoryCanonical s) : CanonicalNext (execOwnerPartialArrival s) := by
  dsimp only [execOwnerPartialArrival]
  refine .next ?_
  split
  · exact branch h (branch h.roundDone h.roundDone)
  · exact h

theorem afterRoundDeadline (h : MemoryCanonical s) : CanonicalNext (execRoundDeadline s) := by
  dsimp only [execRoundDeadline]
  refine .next ?_
  split
  · exact branch h (branch h.schedule h.upd.roundDone)
  · exact h

theorem loseCmd {status id} (h : MemoryCanonical s) : MemoryCanonical (s.loseCmd status id) := by
  dsimp only [State.loseCmd]
  split
  · exact h
  · split
    · exact h
    · split
      · split
        · exact h.sendEnd.dropMsg
        · exact h
      · exact branch h.schedule h.finish

theorem loseWindow {c w} (h : MemoryCanonical s) : MemoryCanonical (s.loseWindow c w) := by
  dsimp only [State.loseWindow]
  split
  · exact h
  · exact h.modCtx.modBatch.summarise

theorem afterUncorrectableLinkError (h : MemoryCanonical s) : CanonicalNext (execUncorrectableLinkError s) :=
  (branch ((foldl (fun _ _ ht => ht.loseCmd) h.rasLog).loseWindow) (foldl (fun _ _ ht => ht.loseCmd) h.rasLog)).next

theorem afterUecTransportFailure (h : MemoryCanonical s) : CanonicalNext (execUecTransportFailure s) :=
  (branch h.loseWindow h.loseCmd).next

theorem fillWork {x} (h : MemoryCanonical s) : MemoryCanonical (s.fillWork x).2 := by
  dsimp only [State.fillWork]
  split <;> exact h

theorem fillOver {x st} (h : MemoryCanonical s) : MemoryCanonical (s.fillOver x st) := by
  dsimp only [State.fillOver]
  split
  · exact (branch h.upd h.upd.sendEnd).dropMsg
  · exact h.upd

theorem failed {x extent r} (h : MemoryCanonical s) : MemoryCanonical (s.failed x extent r) := h.failFill.finish.fillOver

theorem fillEnds {x f} (h : MemoryCanonical s) : MemoryCanonical (s.fillEnds x f) := by
  dsimp only [State.fillEnds]
  split
  · exact h.failed
  · split
    · exact h.failed
    · exact h.writeShadow.modPlat.finish.fillOver

theorem copyStep {x ch tidx t a0 r} (h : MemoryCanonical s) : MemoryCanonical (s.copyStep x ch tidx t a0 r) := by
  dsimp only [State.copyStep]
  split
  · next e => exact fillEnds (h.copyRow.of_eq e)
  · next e => exact branch (fillEnds (h.copyRow.of_eq e)) (draw (h.copyRow.of_eq e)).modCmd.schedule

theorem afterFillComplete (h : MemoryCanonical s) : CanonicalNext (execFillComplete s) := by
  refine .next ?_
  dsimp only
  split
  · exact h
  · refine branch h ?_
    split
    · exact h.copyStep
    · exact h.fillWork.fillEnds

theorem afterFillFail (h : MemoryCanonical s) : CanonicalNext (execFillFail s) := by
  dsimp only [execFillFail]
  refine .next ?_
  split
  · exact h
  · split
    · exact h
    · split
      · exact h.failed
      · exact h.failed
      · exact h.failed
      · exact h.failed
      · exact h.failed

/-! ### The guest -/

theorem guestFault {cause c} (h : MemoryCanonical s) : MemoryCanonical (s.guestFault cause c) := by
  have hr : MemoryCanonical (match s.record (s.guestRec cause c) with
      | (true, t) => t
      | (false, t) => { t with guest := { t.guest with pend := t.guest.pend ++ [s.guestRec cause c] } }) := by
    split
    · next e => exact h.record.of_eq e
    · next e => exact (h.record.of_eq e).upd
  exact branch hr.upd.schedule hr

theorem afterGsub {a d c} (h : MemoryCanonical s) : CanonicalNext (execGsub a d c s) := by
  unfold execGsub
  refine h.withBlock fun _ t ht => ?_
  have hp : MemoryCanonical (if t.packets = [] then (false, t) else t.choose).2 := by
    split
    · exact ht
    · exact ht.choose
  refine branch ht.refuseTo ?_
  refine branch ht.refuseTo ?_
  refine branch ht.refuseTo ?_
  refine branch ht.refuseTo ?_
  exact branch hp.refuseTo hp.acceptTo

theorem gsubRelease {x blk} (h : MemoryCanonical s) : MemoryCanonical (s.gsubRelease x blk) := by
  dsimp only [State.gsubRelease]
  split
  · exact h.upd.emit.schedule
  · exact branch h.upd.emit.schedule.schedule h.upd.emit.schedule

theorem packetDone {x status flags gres} (h : MemoryCanonical s) : MemoryCanonical (s.packetDone x status flags gres) :=
  h.upd.postRecord

theorem afterGuestCompletion (h : MemoryCanonical s) : CanonicalNext (execGuestCompletion s) := by
  dsimp only [execGuestCompletion]
  refine .next ?_
  split
  · exact h.guestFault
  · split
    · exact branch h.packetDone h.guestFault
    · exact branch h.upd h.guestFault

theorem afterGuestCompletionTimeout (h : MemoryCanonical s) : CanonicalNext (execGuestCompletionTimeout s) := by
  dsimp only [execGuestCompletionTimeout]
  refine .next ?_
  split
  · exact h
  · exact branch h.schedule h.packetDone.guestFault.upd

theorem afterAtsTranslationRequest (h : MemoryCanonical s) : CanonicalNext (execAtsTranslationRequest s) := by
  dsimp only [execAtsTranslationRequest]
  refine .next ?_
  split
  · exact h.emit
  · split
    · exact h.emit
    · exact branch h.learn.emit h.emit

theorem outerAccess {p master m n wr bytes} (h : MemoryCanonical s) :
    MemoryCanonical (s.outerAccess p master m n wr bytes).2 := by
  unfold State.outerAccess
  dsimp only
  generalize (if wr then AccKind.store else AccKind.load) = k
  generalize (if wr then Need.w else Need.r) = need
  split
  · exact h
  · split
    · exact h
    · split
      · exact h
      · split
        · exact h.register.write
        · split
          · exact h.register.memError
          · exact h.register.corrected

theorem afterGuestCacheRequest (h : MemoryCanonical s) : CanonicalNext (execGuestCacheRequest s) := by
  refine .next (branch h.guestFault ?_)
  split
  · next e =>
      refine emit ?_
      split
      · exact heat (h.outerAccess.of_eq e)
      · exact h.outerAccess.of_eq e
  · next e => exact emit (h.outerAccess.of_eq e)

theorem applyInval {id asid lo hi} (h : MemoryCanonical s) : MemoryCanonical (s.applyInval id asid lo hi) :=
  branch h.upd.upd.later.emit.schedule h.upd.upd.later

theorem modInval {id f} (h : MemoryCanonical s) : MemoryCanonical (s.modInval id f) := h

theorem moveHeat {a b n} (h : MemoryCanonical s) : MemoryCanonical (s.moveHeat a b n) :=
  foldl (fun _ _ ht => branch ht (branch ht.write ht.write)) h

theorem endInval {id} (h : MemoryCanonical s) : MemoryCanonical (s.endInval id) := by
  dsimp only [State.endInval]
  split
  · exact h
  · split
    · exact h.upd
    · refine .finish ?_
      split
      · exact h.upd.moveHeat.upd
      · exact h.upd

theorem afterInvalidationDrainComplete (h : MemoryCanonical s) : CanonicalNext (execInvalidationDrainComplete s) :=
  (branch h.schedule h.modInval.endInval).next

theorem afterGuestInvalidationCompletion (h : MemoryCanonical s) : CanonicalNext (execGuestInvalidationCompletion s) :=
  h.modInval.endInval.next

theorem afterGuestInvalidationTimeout (h : MemoryCanonical s) : CanonicalNext (execGuestInvalidationTimeout s) :=
  (branch h (branch h.schedule h.upd.guestFault.modInval.endInval)).next

theorem quiesce {asid id} (h : MemoryCanonical s) : MemoryCanonical (s.quiesce asid id) := branch h h.emit.schedule

theorem unquiesce {id} (h : MemoryCanonical s) : MemoryCanonical (s.unquiesce id) := h

theorem afterGuestQuiesceTimeout (h : MemoryCanonical s) : CanonicalNext (execGuestQuiesceTimeout s) :=
  (branch h.schedule (foldl (fun _ _ ht => ht.packetDone.guestFault) h)).next

/-! ### Launches and the scheduler -/

theorem cpSees {m n} (h : MemoryCanonical s) : MemoryCanonical (s.cpSees m n) := by
  dsimp only [State.cpSees]
  split
  · exact h
  · split
    · exact h.memError
    · exact h.corrected

theorem cpPut {bs} (h : MemoryCanonical s) : MemoryCanonical (s.cpPut bs) := h.write

theorem cpPutNat {a n x} (h : MemoryCanonical s) : MemoryCanonical (s.cpPutNat a n x) := h.cpPut

theorem cpZero {lo hi} (h : MemoryCanonical s) : MemoryCanonical (s.cpZero lo hi) := h.cpPut

theorem cpReads {asid va n} (h : MemoryCanonical s) : MemoryCanonical (s.cpReads asid va n) := by
  dsimp only [State.cpReads]
  refine .foldl (fun _ _ ht => ?_) h
  split
  · exact ht.walkSeen
  · exact (foldl (fun _ _ hv => hv.heat) ht.walkCorrected).cpSees

theorem modQueue {q f} (h : MemoryCanonical s) : MemoryCanonical (s.modQueue q f) := h

theorem entryPut {q ix off n x} (h : MemoryCanonical s) : MemoryCanonical (s.entryPut q ix off n x) := branch h h.cpPutNat

theorem entryDone {q ix code lseq} (h : MemoryCanonical s) : MemoryCanonical (s.entryDone q ix code lseq) :=
  h.entryPut.entryPut.modQueue.cpPutNat.modQueue

theorem entryRefused {q ix code} (h : MemoryCanonical s) : MemoryCanonical (s.entryRefused q ix code) := h.entryPut.entryDone

theorem wakeSched (h : MemoryCanonical s) : MemoryCanonical s.wakeSched := branch h h.later

theorem readLseq {q} (h : MemoryCanonical s) : MemoryCanonical (s.readLseq q) := h.modQueue

theorem doorbell {q} (h : MemoryCanonical s) : MemoryCanonical (s.doorbell q) :=
  branch h.cpSees ((branch h.cpSees h.cpSees.upd).modQueue.readLseq.wakeSched)

theorem packetSeen {p wins} (h : MemoryCanonical s) : MemoryCanonical (s.packetSeen p wins) :=
  foldl (fun _ _ ht => branch ht ht.cpReads) h

theorem abandon {l} (h : MemoryCanonical s) : MemoryCanonical (s.abandon l) := (foldl (fun _ _ ht => ht.emit) h).upd

theorem giveUp {l} (h : MemoryCanonical s) : MemoryCanonical (s.giveUp l) := branch h.abandon h

theorem considerQueue {q} (h : MemoryCanonical s) : MemoryCanonical (s.considerQueue q) := by
  have hr := h.readLseq (q := q)
  unfold State.considerQueue
  split
  · exact h
  · refine branch h (branch (foldl (fun _ _ ht => ht.giveUp) hr).upd.cpPutNat.entryRefused.modQueue
      (branch hr (branch hr.cpSees ?_)))
    extract_lets pkt bs p free code seen seen'
    have hs : MemoryCanonical seen' := branch hr.cpSees.cpSees.cpSees hr.cpSees.cpSees.cpSees.packetSeen
    clear_value seen' code free
    refine branch hr ?_
    split
    · exact hs.entryRefused.modQueue.wakeSched
    · exact hs.upd.upd

theorem heatCword {l} (h : MemoryCanonical s) : MemoryCanonical (s.heatCword l) := by
  dsimp only [State.heatCword]
  split
  · exact h.heat
  · exact h

theorem registerSkink {l c} (h : MemoryCanonical s) : MemoryCanonical (s.registerSkink l c) := branch h h.register

theorem extend {i d} (h : MemoryCanonical s) : MemoryCanonical (s.extend i d) := h

theorem dropEager {l} (h : MemoryCanonical s) : MemoryCanonical (s.dropEager l) := foldl (fun _ _ ht => ht.modDie.dropMsg) h

theorem preemptClear {k} (h : MemoryCanonical s) : MemoryCanonical (s.preemptClear k) := h.modDie

theorem preemptCarried {k} (h : MemoryCanonical s) : MemoryCanonical (s.preemptCarried k) := h.modDie

theorem retire {l} (h : MemoryCanonical s) : MemoryCanonical (s.retire l) :=
  (branch (foldl (fun _ _ ht => ht.preemptCarried) (foldl (fun _ _ ht => ht.modCluster) (foldl
    (fun _ _ ht => branch ht.setCtx.dropCurrent ht) (h.dropEager.entryDone.modLaunch)))) (foldl (fun _ _ ht => ht.modCluster)
    (foldl (fun _ _ ht => branch ht.setCtx.dropCurrent ht) (h.dropEager.entryDone.modLaunch)))).upd.schedule

theorem refuseLaunch {l code} (h : MemoryCanonical s) : MemoryCanonical (s.refuseLaunch l code) :=
  h.upd.giveUp.entryRefused.modQueue.wakeSched

theorem clearScratch {k} (h : MemoryCanonical s) : MemoryCanonical (s.clearScratch k) :=
  ⟨memZero_wf _ _ h.1, h.2.1, h.2.2⟩

theorem startContexts {l d} (h : MemoryCanonical s) : MemoryCanonical (s.startContexts l d) :=
  foldl (fun _ _ ht => branch ht ht.later) (foldl (fun _ _ ht => foldl (fun _ _ hu => foldl
    (fun _ _ hv => hv.setCtx.registerSkink) hu) ht) (foldl (fun _ _ ht => ht.upd.upd) h))

theorem beginLaunch {l d} (h : MemoryCanonical s) : MemoryCanonical (s.beginLaunch l d) := by
  dsimp only [State.beginLaunch]
  split
  · refine .retire (.entryPut (.modLaunch ?_))
    split
    · exact (branch h.modQueue.cpPutNat.upd.extend h.modQueue.cpPutNat.upd).cpPutNat.heatCword
    · exact branch h.modQueue.cpPutNat.upd.extend h.modQueue.cpPutNat.upd
  · refine .wakeSched (.startContexts ?_)
    refine .foldl (fun _ _ ht => ?_) ?_
    · exact foldl (fun _ _ hu => hu.modCore) ht
    · refine .foldl (fun _ _ ht => ?_) ?_
      · exact ht.setCluster
      · refine .modLaunch (.entryPut (.entryPut ?_))
        refine .foldl (fun _ _ ht => ?_) ?_
        · exact ht.clearScratch
        · refine .cpZero ?_
          split
          · exact (branch h.modQueue.cpPutNat.upd.extend h.modQueue.cpPutNat.upd).cpPutNat.heatCword
          · exact branch h.modQueue.cpPutNat.upd.extend h.modQueue.cpPutNat.upd

theorem startLaunch {l} (h : MemoryCanonical s) : MemoryCanonical (s.startLaunch l) := h.packetSeen.upd.beginLaunch

theorem preemptReq {d mask} (h : MemoryCanonical s) : MemoryCanonical (s.preemptReq d mask) := h.modDie

theorem preemptLaunch {l} (h : MemoryCanonical s) : MemoryCanonical (s.preemptLaunch l) :=
  (foldl (fun _ _ ht => ht.preemptReq) h).modLaunch.quiesce.schedule

theorem carryPoison {src dst n} (h : MemoryCanonical s) : MemoryCanonical (s.carryPoison src dst n) := h

theorem saveCluster {l k} (h : MemoryCanonical s) : MemoryCanonical (s.saveCluster l k) := h.cpZero.cpPut.carryPoison

theorem afterClusterSave (h : MemoryCanonical s) : CanonicalNext (execClusterSave s) := by
  dsimp only [execClusterSave]
  refine .next ?_
  split
  · exact h
  · split
    · exact h
    · split
      · exact h.schedule
      · split
        · exact h.fatalError
        · exact (foldl (fun _ _ hv => hv.setCluster.preemptCarried) (foldl (fun _ _ hv => hv.setCtx.dropCurrent) ((foldl
            (fun _ _ hv => hv.saveCluster) h).modLaunch))).upd.schedule

theorem restoreCluster {l k} (h : MemoryCanonical s) : MemoryCanonical (s.restoreCluster l k) :=
  h.clearScratch.setCluster.put.upd.carryPoison

theorem restoreContext {l c x} (h : MemoryCanonical s) : MemoryCanonical (s.restoreContext l c x) := by
  dsimp only [State.restoreContext]
  split
  · exact branch h.setCtx.loadImage h.setCtx.loadImage.modCtx
  · exact h.setCtx

theorem resumeLaunch {l} (h : MemoryCanonical s) : MemoryCanonical (s.resumeLaunch l) :=
  branch h (branch h.fatalError ((foldl (fun _ _ ht => ht.schedule) (foldl (fun _ _ ht => ht.preemptClear) (foldl
    (fun _ _ ht => ht.restoreContext) (foldl (fun _ _ ht => foldl (fun _ _ hu => hu.modCore) ht) (foldl
    (fun _ _ ht => ht.restoreCluster) h.unquiesce))))).modLaunch.wakeSched))

theorem waits {l} (h : MemoryCanonical s) : MemoryCanonical (s.waits l) := branch h h.upd.modLaunch

theorem gangSelect {l} (h : MemoryCanonical s) : MemoryCanonical (s.gangSelect l) :=
  branch h.modLaunch.schedule.schedule h.modLaunch.emit

theorem schedOne {kept l} (h : MemoryCanonical s) : MemoryCanonical (s.schedOne kept l).1 := by
  dsimp only [State.schedOne]
  split
  · exact h.waits
  · split
    · exact branch h.modLaunch.resumeLaunch (branch h.modLaunch.startLaunch h.modLaunch.gangSelect)
    · split
      · refine foldl (fun t i ht => ?_) h.waits
        split
        · exact ht.preemptLaunch
        · exact ht
      · exact h.waits

theorem retireDone (h : MemoryCanonical s) : MemoryCanonical s.retireDone := by
  dsimp only [State.retireDone]
  refine .foldl (fun _ _ ht => ?_) h
  split
  · exact branch ht (branch ht.retire ht)
  · exact ht

theorem refuseDown (h : MemoryCanonical s) : MemoryCanonical s.refuseDown := foldl (fun _ _ ht => ht.refuseLaunch) h

theorem afterSchedulingStep (h : MemoryCanonical s) : CanonicalNext (execSchedulingStep s) :=
  .next (branch h (foldl_fst (fun _ _ hp => hp.schedOne) (foldl (fun _ _ ht => ht.considerQueue) h.retireDone.refuseDown)))

theorem afterGangReady (h : MemoryCanonical s) : CanonicalNext (execGangReady s) := by
  dsimp only [execGangReady]
  refine .next ?_
  split
  · exact h
  · split
    · exact h.schedule
    · exact branch h (branch ((foldl (fun _ _ hu => hu.emit) (h.modLaunch.modLaunch)).schedule) h.modLaunch)

theorem gangDrop {l} (h : MemoryCanonical s) : MemoryCanonical (s.gangDrop l) := h.modLaunch.modQueue.schedule.schedule

theorem afterGangLimitExpiry (h : MemoryCanonical s) : CanonicalNext (execGangLimitExpiry s) := by
  dsimp only [execGangLimitExpiry]
  refine .next ?_
  split
  · exact h
  · exact branch h (branch h.schedule h.abandon.gangDrop)

theorem afterGangGo (h : MemoryCanonical s) : CanonicalNext (execGangGo s) := by
  dsimp only [execGangGo]
  refine .next ?_
  split
  · exact h
  · exact branch h h.modLaunch.schedule

theorem afterGangStart (h : MemoryCanonical s) : CanonicalNext (execGangStart s) := by
  dsimp only [execGangStart]
  refine .next ?_
  split
  · exact h
  · exact branch h (branch h.refuseLaunch h.startLaunch)

theorem afterGangAbandon (h : MemoryCanonical s) : CanonicalNext (execGangAbandon s) := by
  dsimp only [execGangAbandon]
  refine .next ?_
  split
  · exact h
  · exact branch h h.gangDrop

theorem setUnit {u x} (h : MemoryCanonical s) : MemoryCanonical (s.setUnit u x) := branch h.modDie (branch h.upd h.upd)

theorem repairDrain {u} (h : MemoryCanonical s) : MemoryCanonical (s.repairDrain u) := branch h.setUnit.schedule.wakeSched h

theorem afterUnitOffline (h : MemoryCanonical s) : CanonicalNext (execUnitOffline s) :=
  (branch h (branch h.setUnit h.schedule)).next

theorem clearDie {u} (h : MemoryCanonical s) : MemoryCanonical (s.clearDie u) :=
  foldl (fun _ _ ht => foldl (fun _ _ hu => hu.modCore) (ht.clearScratch.setCluster)) h.setDie

theorem clearUnit {u} (h : MemoryCanonical s) : MemoryCanonical (s.clearUnit u) := branch h.clearDie (branch h.upd h.upd)

theorem afterRepairReload (h : MemoryCanonical s) : CanonicalNext (execRepairReload s) :=
  (branch h h.extend.clearUnit.setUnit.wakeSched).next

theorem republish {u eng} (h : MemoryCanonical s) : MemoryCanonical (s.republish u eng) := h

theorem repairRetire {u} (h : MemoryCanonical s) : MemoryCanonical (s.repairRetire u) :=
  branch (branch (foldl (fun _ _ ht => ht.schedule) (h.setUnit.upd)) h.setUnit.upd) h

theorem afterRepairRetire (h : MemoryCanonical s) : CanonicalNext (execRepairRetire s) :=
  (branch h.repairRetire (branch h.schedule h.republish)).next

theorem repairReturn {u} (h : MemoryCanonical s) : MemoryCanonical (s.repairReturn u) := branch h.setUnit.wakeSched h

theorem repair {x} (h : MemoryCanonical s) : MemoryCanonical (s.repair x).2 := by
  dsimp only [State.repair]
  split
  · exact h
  · split
    · exact h.repairDrain
    · exact h.later
    · exact h.repairRetire
    · exact h.repairReturn
    · exact h

theorem ended {c} (h : MemoryCanonical s) : MemoryCanonical (s.ended c) := by
  dsimp only [State.ended]
  split
  · exact branch h.modCtx.dropCurrent.famoFlush h.modCtx.dropCurrent
  · exact (branch h.modCtx.dropCurrent.famoFlush h.modCtx.dropCurrent).schedule

theorem afterContextDone (h : MemoryCanonical s) : CanonicalNext (execContextDone s) := by
  dsimp only [execContextDone]
  refine .next ?_
  split
  · exact branch h.modCtx.takeTrap (branch h.schedule h.ended)
  · exact h

theorem afterDieCompletion (h : MemoryCanonical s) : CanonicalNext (execDieCompletion s) := by
  dsimp only [execDieCompletion]
  refine .next ?_
  split
  · exact h
  · split
    · exact h
    · split
      · exact h.schedule
      · split
        · exact h.modLaunch
        · split
          · exact h.modLaunch.memError.heatCword
          · exact branch h.modLaunch.corrected.write.heatCword.retire h.modLaunch.corrected.write.heatCword

theorem afterCardPrefetch (h : MemoryCanonical s) : CanonicalNext (execCardPrefetch s) := by
  refine .next ?_
  dsimp only
  split
  · exact h
  · refine branch h ?_
    split
    · next e =>
        have ht := h.access1.of_eq e
        split
        · exact modCtx (heat ht)
        · refine branch (modCtx (corrected (heat ht))) (branch (modCtx (corrected (heat ht))) ?_)
          split
          · exact modCtx (corrected (heat ht))
          · exact modCtx (register (corrected (heat ht)))
    · next e => exact modCtx (h.access1.of_eq e)

theorem askCard {c pos} (h : MemoryCanonical s) : MemoryCanonical (s.askCard c pos) := branch h h.later

theorem claimPending {r} (h : MemoryCanonical s) : MemoryCanonical (s.claimPending r) := by
  dsimp only [State.claimPending]
  split
  · exact h.claim.upd
  · exact h.claim.modCtx
  · exact h.claim.modLaunch

theorem reraise (h : MemoryCanonical s) : MemoryCanonical s.reraise := foldl (fun _ _ ht => branch ht.claimPending ht.upd) h.upd

/-! ### System registers and migrations -/

theorem writeSys {c n w} (h : MemoryCanonical s) : MemoryCanonical (s.writeSys c n w) := by
  dsimp only [State.writeSys]
  split
  · exact h.modCtx
  · exact h.modCtx
  · exact h.modCtx
  · exact h.modCtx
  · exact h.modCtx
  · exact branch h h.upd
  · exact branch h.upd.reraise h.upd
  · exact h.upd
  · exact h.modDie
  · exact h.modDie
  · exact h.preemptReq
  · exact h.modDie
  · split
    · exact h.modCtx
    · exact h
  · exact h.upd
  · exact h.upd
  · exact h.doorbell
  · exact h

theorem afterRegisterWrite (h : MemoryCanonical s) : CanonicalNext (execRegisterWrite s) :=
  .next (branch (branch h.repair h.repair.modCtx) h.writeSys)

theorem unsubmit {x} (h : MemoryCanonical s) : MemoryCanonical (s.unsubmit x) := h.upd.modCtx

theorem submit {ea d} (h : MemoryCanonical s) : CanonicalNext (s.submit ea d) :=
  h.loading h.loadAt fun _ _ ht => by
    refine branch ht.refuseTo (branch ht.refuseTo ?_)
    split
    · exact ht.walkSeen.refuseTo
    · exact branch ht.refuseTo (branch ht.refuseTo (branch ht.refuseTo
        ((foldl (fun _ _ hu => hu.unsubmit) ht).accept fun _ _ hu => hu.upd.ws)))

theorem afterSysw {d a i} (h : MemoryCanonical s) : CanonicalNext (execSysw d a i s) :=
  branchNext h.submit ((branch h h.ws).schedule.next)

theorem migAbandon {id status} (h : MemoryCanonical s) : MemoryCanonical (s.migAbandon id status) := by
  dsimp only [State.migAbandon]
  split
  · split
    · exact h.upd
    · exact h.upd.write.upd
  · refine .finish ?_
    split
    · exact h.upd
    · exact h.upd.write.upd

theorem migRelease {x va size asid dst} (h : MemoryCanonical s) : MemoryCanonical (s.migRelease x va size asid dst) := by
  dsimp only [State.migRelease]
  split
  · exact h.modCmd.upd.later
  · exact h.modCmd.walkSeen.migAbandon

theorem afterMigrationGranuleCopy (h : MemoryCanonical s) : CanonicalNext (execMigrationGranuleCopy s) := by
  dsimp only [execMigrationGranuleCopy]
  refine .next ?_
  split
  · exact h
  · exact branch ((branch h.memError h).migAbandon) (branch h.upd.write.corrected.upd.schedule h.upd.write.corrected.upd.schedule)

theorem migTags {g} (h : MemoryCanonical s) : MemoryCanonical (s.migTags g) := h

theorem afterMigrationSwitch (h : MemoryCanonical s) : CanonicalNext (execMigrationSwitch s) := by
  dsimp only [execMigrationSwitch]
  refine .next ?_
  split
  · split
    · exact h.migAbandon
    · split
      · exact h.migAbandon
      · split
        · exact h.migTags.write.applyInval
        · exact h.migTags.write
  · exact h.migAbandon
  · exact h

theorem afterTlbir {a b asid} (h : MemoryCanonical s) : CanonicalNext (execTlbir a b asid s) :=
  (branch h.blocked (branch h.raise ((h.accept (fun _ _ ht => ht))))).next

theorem tlbirRelease {x lo hi asid} (h : MemoryCanonical s) : MemoryCanonical (s.tlbirRelease x lo hi asid) := h.modCmd.applyInval

theorem status {d n} (h : MemoryCanonical s) : MemoryCanonical (s.status d n) := h.ws

theorem readImage {ea k} (h : MemoryCanonical s) (hk : ∀ b t, MemoryCanonical t → MemoryCanonical (k b t)) :
    CanonicalNext (s.readImage ea k) :=
  h.loading h.upd.loadAt fun _ t ht => by
    dsimp only
    generalize ((imageAddrs ea).filter _).findSome? _ = bad
    split
    · exact h.raise
    · exact hk _ _ ht.upd.register.heatAll

theorem writeImage {ea bytes} (h : MemoryCanonical s) : MemoryCanonical (s.writeImage ea bytes) :=
  h.register.heatAll.writeLocal.notePast.write

theorem afterCtxsave {a b d} (h : MemoryCanonical s) : CanonicalNext (execCtxsave a b d s) := by
  dsimp only [execCtxsave]
  split
  · split
    · exact h.blocked.next
    · split
      · exact h.raise.next
      · split
        · exact h.blocked.next
        · split
          · exact h.fatalError.next
          · split
            · exact h.raise.next
            · exact h.writeImage.modCtx.status.next
  · exact h.status.next

theorem resume {t} (h : MemoryCanonical s) : MemoryCanonical (s.resume t) := by
  dsimp only [State.resume]
  split
  · exact h.fatalError
  · exact foldl (fun _ _ hu => hu.preemptClear) ((foldl (fun _ _ hu => hu.modCtx) h).upd)

theorem afterCtxres {a d} (h : MemoryCanonical s) : CanonicalNext (execCtxres a d s) := by
  dsimp only [execCtxres]
  split
  · exact h.resume.status.next
  · exact h.status.next

theorem restoreImage {a b d k} (h : MemoryCanonical s) (hk : ∀ n t, MemoryCanonical t → MemoryCanonical (k n t)) :
    CanonicalNext (s.restoreImage a b d k) := by
  dsimp only [State.restoreImage]
  split
  · split
    · exact h.blocked.next
    · split
      · exact h.raise.next
      · exact branchNext h.blocked.next ((h.readImage (fun _ _ hv => branch ((hk _ _ hv.loadImage.upd).status) hv.status)))
  · exact h.status.next

theorem afterCtxresImg {a b d} (h : MemoryCanonical s) : CanonicalNext (execCtxresImg a b d s) :=
  h.restoreImage (fun _ _ ht => ht.resume)

theorem afterCtxresLd {a b d} (h : MemoryCanonical s) : CanonicalNext (execCtxresLd a b d s) := h.restoreImage (fun _ _ ht => ht)

theorem afterCtxkill {a d} (h : MemoryCanonical s) : CanonicalNext (execCtxkill a d s) := by
  dsimp only [execCtxkill]
  split
  · exact (foldl (fun _ _ hu => hu.cancelWithheld.ended) h).status.next
  · exact h.status.next

/-! ### Boot and resets -/

theorem cleared {warm} (h : MemoryCanonical s) : MemoryCanonical (s.cleared warm) := by
  have hm : Memory.wf (s.cleared warm).mem = true := by
    dsimp only [State.cleared]
    split
    · exact Memory.filter_wf _ h.1
    · rfl
  exact ⟨hm, hm, hm⟩

theorem mail {m} (h : MemoryCanonical s) : MemoryCanonical (s.mail m) := h

theorem bootFails {step} (h : MemoryCanonical s) : MemoryCanonical (s.bootFails step) := h.upd.upd.mail

theorem bootMemory (h : MemoryCanonical s) : MemoryCanonical s.bootMemory := foldl (fun _ _ ht => ht.modDie) h.upd

theorem bootGuest (h : MemoryCanonical s) : MemoryCanonical s.bootGuest := branch h.upd.extend h

theorem bootLinks (h : MemoryCanonical s) : MemoryCanonical s.bootLinks := h

theorem bootTables {placed} (h : MemoryCanonical s) : MemoryCanonical (s.bootTables placed) := h.upd.put.put.put

theorem boot (h : MemoryCanonical s) : MemoryCanonical s.boot := by
  dsimp only [State.boot]
  split
  · exact h.extend.bootFails
  · split
    · exact h.extend.extend.bootFails
    · split
      · exact h.extend.extend.bootMemory.bootLinks.bootGuest.bootFails
      · exact h.extend.extend.bootMemory.bootLinks.bootGuest.bootTables.upd.mail

theorem afterColdReset (h : MemoryCanonical s) : CanonicalNext (execColdReset s) := h.cleared.boot.next

theorem afterWarmReset (h : MemoryCanonical s) : CanonicalNext (execWarmReset s) := h.cleared.boot.next

theorem afterAttestationRequest (h : MemoryCanonical s) : CanonicalNext (execAttestationRequest s) :=
  (branch h.schedule h.mail).next

theorem afterThermalTrip (h : MemoryCanonical s) : CanonicalNext (execThermalTrip s) := h.rasLog.fatalError.next

theorem afterHostAccess (h : MemoryCanonical s) : CanonicalNext (execHostAccess s) := by
  dsimp only [execHostAccess]
  refine .next ?_
  split
  · exact h
  · split
    · exact branch h.doorbell (branch h.emit.upd h)
    · split
      · next e =>
          have ht := h.outerAccess.of_eq e
          exact ht.emit
      · next e =>
          have ht := h.outerAccess.of_eq e
          exact ht.emit

/-! ### Conversions -/

theorem afterVnarrow {d a b p r q n} (h : MemoryCanonical s) : CanonicalNext (execVnarrow d a b p r q n s) := h.wv.wf.next

/-! ### Releases -/

theorem learnAll {es} (h : MemoryCanonical s) : MemoryCanonical (s.learnAll es) := by
  dsimp only [State.learnAll]
  refine .foldl (fun _ _ ht => ?_) h
  refine .foldl (fun _ _ hu => ?_) ht
  split
  · exact hu.access1
  · exact hu

theorem openBatch {c tag} (h : MemoryCanonical s) : MemoryCanonical (s.openBatch c tag).2 := by
  dsimp only [State.openBatch]
  split
  · exact h
  · exact h.upd.modCtx

theorem sendWrite {c e tag w bytes} (h : MemoryCanonical s) : MemoryCanonical (s.sendWrite c e tag w bytes) :=
  h.openBatch.modBatch.modCtx.later

theorem sendWindow {c e tag w unit bytes} (h : MemoryCanonical s) : MemoryCanonical (s.sendWindow c e tag w unit bytes) :=
  branch h.sendWrite (foldl (fun _ _ ht => ht.sendWrite) h)

theorem writeGlobal {c bs} (h : MemoryCanonical s) : MemoryCanonical (s.writeGlobal c bs) := h.notePast.write.recheck

theorem performStore {c e bs tag unit} (h : MemoryCanonical s) : MemoryCanonical (s.performStore c e bs tag unit) :=
  foldl (fun _ _ ht => ht.sendWindow) (branch h (branch h.defer ((h.atHome (fun _ ht => ht.heatAll.writeLocal.writeGlobal)))))

theorem deal {c ord at_ e} (h : MemoryCanonical s) : MemoryCanonical (s.deal c ord at_ e) := h.modCtx

theorem dealS {c ord at_ d x} (h : MemoryCanonical s) : MemoryCanonical (s.dealS c ord at_ d x) := branch h h.deal

theorem atomWrite {c e k bs} (h : MemoryCanonical s) : MemoryCanonical (s.atomWrite c e k bs) :=
  branch h.notePast.overtake.write.refresh h.notePast.write.recheck

theorem performAtomic {c e ea n new put} (h : MemoryCanonical s) (hput : ∀ n t, MemoryCanonical t → MemoryCanonical (put n t)) :
    MemoryCanonical (s.performAtomic c e ea n new put) :=
  (h.atHome (fun _ ht => by
      split
      · exact ht
      · refine hput _ _ ?_
        split
        · exact ht.heatAll.atomWrite
        · exact ht.heatAll))

theorem performVamo {c e op w64 ret lanes r at_} (h : MemoryCanonical s) :
    MemoryCanonical (s.performVamo c e op w64 ret lanes r at_) :=
  h.atHome fun t ht => by
    dsimp only
    generalize hr : List.foldl _ (t, ([] : List (Nat × Nat))) lanes = out
    have hu : MemoryCanonical out.1 := by
      rw [← hr]
      refine foldl_fst (fun p l hp => ?_) ht
      split
      · exact hp
      · exact hp.heatAll.atomWrite
    exact branch hu.deal hu

theorem performFamo {c e ty ea x bar} (h : MemoryCanonical s) : MemoryCanonical (s.performFamo c e ty ea x bar) :=
  branch h.famoLand (branch h.upd.schedule h.upd.famoLand)

theorem performClose {c tag key} (h : MemoryCanonical s) : MemoryCanonical (s.performClose c tag key) :=
  foldl (fun _ _ ht => ht.askSummary.summarise)
    (branch h.openBatch.modBatch h.openBatch.modBatch.schedule).postBatches

theorem performPrel {c e pn} (h : MemoryCanonical s) : MemoryCanonical (s.performPrel c e pn) := branch h.modCluster h.applyPrel

theorem fillStarts {x} (h : MemoryCanonical s) : MemoryCanonical (s.fillStarts x) := by
  dsimp only [State.fillStarts]
  split
  · exact h.modPlat
  · exact h

theorem performCmd {c id} (h : MemoryCanonical s) : MemoryCanonical (s.performCmd c id) := by
  dsimp only [State.performCmd]
  split
  · exact h.mxRelease
  · split
    · exact h.modCmd.fillStarts.later
    · exact h.modCmd.epSnapshot.modCmd.fillStarts.later
    · exact h.modCmd.fillStarts.later
    · exact h.modCmd.later
    · exact h.modCmd.sendRelease
    · exact h.modCmd.fillStarts.postRelease
    · exact h.modCmd.toJunction
    · exact h.modCmd.fillStarts.a2aRelease
    · exact h.modCmd.gsubRelease
    · exact h.modCmd.tlbirRelease
    · exact h.modCmd.migRelease

theorem performLoad {c cyc e} (h : MemoryCanonical s) : MemoryCanonical (s.performLoad c cyc e) := h.modCtx

theorem performNow {c cyc e} (h : MemoryCanonical s) : MemoryCanonical (s.performNow c cyc e) :=
  (h.famoLandAll.under (fun _ ht => by
      split
      · exact ht.performStore
      · exact ht.performAtomic (fun _ _ hv => hv.dealS)
      · exact ht.performAtomic (fun _ _ hv => hv.dealS)
      · exact ht.performVamo
      · exact ht.performFamo
      · exact ht.landAll.barAdd
      · exact ht.barAdd
      · exact ht.landAll.performPrel
      · exact ht.performClose
      · exact ht.landAll.performCmd
      · exact ht.postRecord
      · exact ht.landAll
      · exact ht.performLoad))

theorem leave {c cyc e} (h : MemoryCanonical s) : MemoryCanonical (s.leave c cyc e) := branch h.upd.modCtx h.upd

theorem enter {c cyc e} {acc : Nat × State} (h : MemoryCanonical acc.2) : MemoryCanonical (State.enter c cyc acc e).2 := by
  dsimp only [State.enter]
  split
  · exact h.leave
  · split
    · exact h.leave
    · exact h.performNow

theorem perform {c cyc es} (h : MemoryCanonical s) : MemoryCanonical (s.perform c cyc es) :=
  foldl_snd (fun _ _ hp => hp.enter) h

theorem release {k} (h : MemoryCanonical s) (hk : ∀ t, MemoryCanonical t → MemoryCanonical (k t)) :
    MemoryCanonical (s.release k) := by
  refine branch h.blocked ?_
  split
  · exact h.raise
  · exact hk _ h.learnAll.modCur.perform

theorem capture (h : MemoryCanonical s) : MemoryCanonical s.capture := h.modCur

theorem afterCkpt (h : MemoryCanonical s) : CanonicalNext (execCkpt s) := (h.release (fun _ ht => ht.capture)).next

theorem afterSafe (h : MemoryCanonical s) : CanonicalNext (execSafe s) := (h.release (fun _ ht => ht.capture.upd)).next

theorem afterHalt (h : MemoryCanonical s) : CanonicalNext (execHalt s) := (h.release (fun _ ht => ht.modCur.upd.schedule)).next

theorem afterTranslationWalkComplete (h : MemoryCanonical s) : CanonicalNext (execTranslationWalkComplete s) := by
  dsimp only [execTranslationWalkComplete]
  refine .next ?_
  split
  · exact h
  · refine .modCtx ?_
    split
    · exact h.learn
    · exact h

/-! ### Other instructions -/

theorem raiseDeferred {c} (h : MemoryCanonical s) : MemoryCanonical (s.raiseDeferred c) := by
  dsimp only [State.raiseDeferred]
  split
  · exact h
  · exact h.modCtx.takeTrap

theorem raiseWatchdog {c} (h : MemoryCanonical s) : MemoryCanonical (s.raiseWatchdog c) := h.takeTrap

/-! ### Every instruction and event -/

theorem exec {i} (h : MemoryCanonical s) : CanonicalNext (Machine.exec i s) := by
  unfold Machine.exec
  cases i with
  | literal => exact h.next
  | add | sub | min | max | minn | maxn | and | or | xor | andn | shl | shr | sra | rot => exact h.sr2
  | mov | clz | ctz | popc | bswap16 | bswap32 | bswap64 | sext8 | sext16 | sext32 | zext8 | zext16 | zext32 => exact h.sr1
  | mul | mulh | mulhn | div | divn | rem | remn | scmp | sel => exact h.sr2
  | addi | andi | ori | xori => exact h.si
  | shli | shri | srai => exact h.siShift
  | movl => exact h.ws.next
  | br => exact h.afterBr
  | bcc => exact h.afterBcc
  | jmp => exact h.afterJmp
  | call => exact h.afterCall
  | jr => exact h.afterJr
  | ret => exact h.afterRet
  | loop => exact h.afterLoop
  | lstep => exact h.afterLstep
  | trap => exact h.raise.next
  | cnext => exact h.afterCnext
  | csrr => exact h.ws.next
  | csrw => exact h.ws.push.next
  | ewr => exact h.push.next
  | erd => exact h.ws.next
  | mxgo => exact h.afterMxgo
  | mxsgo => exact h.afterMxsgo
  | epgo => exact h.afterEpgo
  | pwait => exact h.afterPwait
  | prel => exact h.afterPrel
  | pstat => exact h.afterPstat
  | sysr => exact h.ws.next
  | sysw => exact h.afterSysw
  | tlbir => exact h.afterTlbir
  | ctxsave => exact h.afterCtxsave
  | ctxres => exact h.afterCtxres
  | ctxresImg => exact h.afterCtxresImg
  | ctxresLd => exact h.afterCtxresLd
  | ctxkill => exact h.afterCtxkill
  | vaddI | vsubI | vmulI | vmulh | vmulhn | vminI | vmaxI | vminn | vmaxn => exact h.vint2
  | vadds | vaddsn | vsubs | vsubsn => exact h.vsat2
  | vabsI | vnegI => exact h.vint2
  | vidx => exact h.vmap.next
  | vaddF | vsubF | vmulF | vminF | vmaxF | vabsF | vnegF => exact h.vflt2
  | vfma | vfms | vfnma => exact h.vfused
  | vand | vor | vxor | vandn | vnot | vshl | vshr | vsra => exact h.vint2
  | vsel => exact h.vall.next
  | vcmp | vcmpn | vfcmp | vfcmpSig => exact h.compare2
  | pand | por | pxor | pandn | pnot | psel | pfirst => exact h.wp.next
  | vbcst => exact h.vmap.next
  | vins => exact h.wv.next
  | vext | vextn => exact h.ws.next
  | vxc => exact h.push.next
  | vaddVsI | vsubVsI | vrsubVsI | vmulVsI | vminVsI | vmaxVsI | vminnVs | vmaxnVs | vandVs | vorVs | vxorVs => exact h.vsInt
  | vshlVs | vshrVs | vsraVs => exact h.vsShift
  | vaddVsF | vsubVsF | vrsubVsF | vmulVsF | vminVsF | vmaxVsF => exact h.vsFlt
  | vperm | vzipLo | vzipHi | vunzipEv | vunzipOd => exact h.vperm2
  | vcmpr => exact h.wv.next
  | vredAddI | vredMin | vredMax | vredMinn | vredMaxn | vredAnd | vredOr | vredXor | vredAddF | vredMinF
  | vredMaxF => exact h.vred
  | vredCnt => exact h.wv.next
  | vscanAddI | vscanMin | vscanMax | vscanMinn | vscanMaxn | vscanAddF | vscanMinF | vscanMaxF => exact h.vscan
  | vcvt => exact h.vmap.next
  | vnarrow => exact h.afterVnarrow
  | vwiden => exact h.vmap.next
  | fexp2 | flog2 | fexp | flog | frcp | frsqrt | fsqrt | ftanh | fsig => exact h.vfun
  | fdiv | qrgen => exact h.vmap.next
  | qrload => exact h.afterQrload
  | qrsave => exact h.storeAt
  | qrscr | qrscrId => exact h.eachDim.next
  | hist => exact h.push.next
  | histRd | histRdx => exact h.vall.next
  | hclr => exact h.push.next
  | qscale => exact h.vmap.next
  | qpack => exact h.afterQpack
  | ldI64 | ldI32 | ldN32 | ldI16 | ldN16 | ldI8 | ldN8 => exact h.ld
  | st64 => exact h.afterSt64
  | st32 | st16 | st8 => exact h.st
  | vld => exact h.vectorOk h.vload
  | vst => exact h.vectorOk h.vstore
  | vlds | vgath => exact h.vload
  | vscat => exact h.vstore
  | vlddLo | vlddHi => exact h.vldd
  | vstd => exact h.afterVstd
  | ldblk => exact h.afterLdblk
  | ldblkQ => exact h.afterLdblkQ
  | ldblkRel => exact h.releaseBlock.next
  | lock => exact h.afterLock
  | unlock => exact h.afterUnlock
  | amo => exact h.afterAmo
  | cas => exact h.afterCas
  | famo => exact h.afterFamo
  | vamo => exact h.afterVamo
  | fence => exact h.afterFence
  | barArr => exact h.afterBarArr
  | barWait => exact h.afterBarWait
  | barExp => exact h.afterBarExp
  | barTry => exact h.afterBarTry
  | evpop => exact h.afterEvpop
  | evpeek => exact h.afterEvpeek
  | bclose => exact h.afterBclose
  | bwait => exact h.afterBwait
  | pool => exact h.afterPool
  | upd => exact h.afterUpd
  | msend => exact h.afterMsend
  | rpost => exact h.afterRpost
  | rprobe => exact h.afterRprobe
  | rcancel => exact h.afterRcancel
  | a2a => exact h.afterA2a
  | gsub => exact h.afterGsub
  | nop => exact h.next
  | yield => exact h.afterYield
  | halt => exact h.afterHalt
  | ckpt => exact h.afterCkpt
  | safe => exact h.afterSafe
  | rte => exact h.returnFromTrap.next
  | registerWrite => exact h.afterRegisterWrite
  | copyStart => exact h.copyStart.next
  | resultArrival => exact h.modCtx.next
  | lineArrival => exact h.afterLineArrival
  | remoteGranuleArrival => exact h.afterRemoteGranuleArrival
  | raceCheckAnswer => exact h.afterRaceCheckAnswer
  | cardPrefetch => exact h.afterCardPrefetch
  | watchdogExpiry => exact h.raiseWatchdog.next
  | waitBoundExpiry => exact h.modCtx.next
  | deferredTrap => exact h.raiseDeferred.next
  | contextDone => exact h.afterContextDone
  | dieCompletion => exact h.afterDieCompletion
  | windowWriteAccept => exact h.afterWindowWriteAccept
  | windowWriteLand => exact h.afterWindowWriteLand
  | batchSummary => exact h.afterBatchSummary
  | barrierUnitApply => exact h.afterBarrierUnitApply
  | famoArrival => exact h.famoLand.next
  | fillComplete => exact h.afterFillComplete
  | fillFail => exact h.afterFillFail
  | prelHoldApply => exact h.afterPrelHoldApply
  | eventRecordArrival => exact h.afterEventRecordArrival
  | matrixOperationStart => exact h.afterMatrixOperationStart
  | matrixFeedEnd => exact h.modMx.next
  | matrixResult => exact h.afterMatrixResult
  | matrixStreamFault => exact h.afterMatrixStreamFault
  | lookupDispatch => exact h.afterLookupDispatch
  | depotGather => exact h.afterDepotGather
  | heatSketchDecay => exact h.setSketch.next
  | sidingPartial => exact h.afterSidingPartial
  | mergePartialArrival => exact h.afterMergePartialArrival
  | promotionEviction => exact h.afterPromotionEviction
  | promotionPublish => exact h.afterPromotionPublish
  | updateDispatch => exact h.afterUpdateDispatch
  | turntableRowUpdate => exact h.afterTurntableRowUpdate
  | messageHeaderArrival => exact h.afterMessageHeaderArrival
  | postArrival => exact h.afterPostArrival
  | cancelArrival => exact h.afterCancelArrival
  | postTimeout => exact h.afterPostTimeout
  | headerLifetimeExpiry => exact h.afterHeaderLifetimeExpiry
  | pullComplete => exact h.afterPullComplete
  | marshalDispatch => exact h.afterMarshalDispatch
  | ownerPartialArrival => exact h.afterOwnerPartialArrival
  | roundDeadline => exact h.afterRoundDeadline
  | uncorrectableLinkError => exact h.afterUncorrectableLinkError
  | uecTransportFailure => exact h.afterUecTransportFailure
  | invalidationDrainComplete => exact h.afterInvalidationDrainComplete
  | migrationSubmit => exact h.submit
  | migrationGranuleCopy => exact h.afterMigrationGranuleCopy
  | migrationSwitch => exact h.afterMigrationSwitch
  | preemptRequest => exact h.preemptReq.next
  | trapOverflowClear => exact h.reraise.next
  | queueDoorbell => exact h.doorbell.next
  | schedulingStep => exact h.afterSchedulingStep
  | clusterSave => exact h.afterClusterSave
  | gangReady => exact h.afterGangReady
  | gangLimitExpiry => exact h.afterGangLimitExpiry
  | gangGo => exact h.afterGangGo
  | gangStart => exact h.afterGangStart
  | gangAbandon => exact h.afterGangAbandon
  | repairDrain => exact h.repairDrain.next
  | repairReload => exact h.afterRepairReload
  | repairRetire => exact h.afterRepairRetire
  | repairReturn => exact h.repairReturn.next
  | unitOffline => exact h.afterUnitOffline
  | guestCompletion => exact h.afterGuestCompletion
  | guestCompletionTimeout => exact h.afterGuestCompletionTimeout
  | atsTranslationRequest => exact h.afterAtsTranslationRequest
  | guestCacheRequest => exact h.afterGuestCacheRequest
  | guestInvalidationCompletion => exact h.afterGuestInvalidationCompletion
  | guestInvalidationTimeout => exact h.afterGuestInvalidationTimeout
  | guestQuiesceTimeout => exact h.afterGuestQuiesceTimeout
  | hostAccess => exact h.afterHostAccess
  | coldReset => exact h.afterColdReset
  | warmReset => exact h.afterWarmReset
  | attestationRequest => exact h.afterAttestationRequest
  | powerCapSet => exact h.upd.next
  | luvexWatchdogExpiry => exact h.fatalError.next
  | thermalTrip => exact h.afterThermalTrip
  | translationWalkComplete => exact h.afterTranslationWalkComplete
  | batchSummaryBoundExpiry => exact h.afterBatchSummaryBoundExpiry
  | linkRetry => exact h.rasLog.next
  | vclass => exact h.afterVclass
  | vrot => exact h.afterVrot
  | vslideDn => exact h.afterVslideDn
  | vslideUp => exact h.afterVslideUp
  | vexpd => exact h.afterVexpd

/-! ### Bundles -/

/-- The slots of a bundle so far leave a canonical memory, and what stops them does. -/
def CanonicalRun (r : Run) : Prop := MemoryCanonical r.s ∧ ∀ q, r.stop = some q → CanonicalNext q

theorem slot {r ki} (h : CanonicalRun r) : CanonicalRun (r.slot ki) := by
  have hx : CanonicalNext (Sys2Proof.Machine.exec ki.2 { r.s with iss := { r.s.iss with slot := ki.1, sig := .ok } }) := exec
    h.1.upd
  dsimp only [Run.slot]
  split
  · next e =>
      split
      · exact ⟨hx _ e, h.2⟩
      · exact h
      · exact h
  · refine ⟨h.1, fun q hq => ?_⟩
    cases hs : r.stop with
    | none => rw [hs] at hq; cases hq; exact hx
    | some p => rw [hs] at hq; cases hq; exact h.2 _ hs

theorem slots {r is} (h : CanonicalRun r) : CanonicalRun (List.foldl Run.slot r is) := by
  induction is generalizing r with
  | nil => exact h
  | cons i is ih => exact ih (slot h)

theorem runEarly {is} (h : MemoryCanonical s) : CanonicalRun (s.runEarly is) := slots ⟨h, fun _ e => nomatch e⟩

theorem runSlots {is} (h : MemoryCanonical s) : CanonicalRun (s.runSlots is) := slots h.runEarly

theorem beginBundle {c words is held stall} (h : MemoryCanonical s) : MemoryCanonical (s.beginBundle c words is held stall) := h

theorem completed (h : MemoryCanonical s) : MemoryCanonical s.completed := branch h.passControl.capture h.passControl

theorem numbered {c x} (h : MemoryCanonical s) : MemoryCanonical (s.numbered c x) := branch h.modCtx.modCtx h

/-- Every state that a verdict on a bundle holds has a canonical memory. -/
def CanonicalVerdict : Verdict → Prop
  | .issue s => MemoryCanonical s
  | .hold s ran _ _ _ => MemoryCanonical s ∧ MemoryCanonical ran
  | .block s _ _ => MemoryCanonical s
  | .trap _ _ => True
  | .stop r => CanonicalNext r

theorem runBundle {c words is d g} (h : MemoryCanonical s) : CanonicalVerdict (s.runBundle c words is d g) := by
  have he := h.beginBundle (c := c) (words := words) (is := is) (held := false) (stall := decide (0 < d + g)) |>.runEarly
    (is := is)
  have hr := h.beginBundle (c := c) (words := words) (is := is) (held := false) (stall := decide (0 < d + g)) |>.runSlots
    (is := is)
  dsimp only [State.runBundle]
  split
  · next e => exact hr.2 _ e
  · split
    · exact h
    · split
      · trivial
      · split
        · trivial
        · split
          · trivial
          · split
            · trivial
            · split
              · exact hr.1.completed.numbered
              · exact ⟨h, he.1⟩

theorem fetched {c e} (h : MemoryCanonical s) : MemoryCanonical (s.fetched c e) := h.learn.heat.corrected.corrected.modCtx

theorem evaluate {c} (h : MemoryCanonical s) : CanonicalVerdict (s.evaluate c) := by
  dsimp only [State.evaluate]
  split
  · trivial
  · split
    · trivial
    · split
      · trivial
      · split
        · trivial
        · split
          · trivial
          · exact h.fetched.runBundle

theorem startHold {c words t} (h : MemoryCanonical s) : MemoryCanonical (s.startHold c words t) := by
  dsimp only [State.startHold]
  split
  · exact h
  · next is _ =>
      have hr : MemoryCanonical (State.runEarly { s.beginBundle c words is true true with
          iss := { (s.beginBundle c words is true true).iss with cyc := t } } is).s := (runEarly h.beginBundle.upd).1
      exact (branch hr hr.learnAll.modCur).modCtx

theorem finishHold {c x} (h : MemoryCanonical s) : CanonicalVerdict (s.finishHold c x) := by
  dsimp only [State.finishHold]
  split
  · trivial
  · split
    · trivial
    · have hr {is : List (Nat × Instr)} {t : State} (ht : MemoryCanonical t) : CanonicalRun (is.foldl Run.slot { s := t }) :=
        slots ⟨ht, fun _ e => nomatch e⟩
      split
      · next e => exact (hr h.upd.modCtx).2 _ e
      · exact (hr h.upd.modCtx).1.completed.numbered

theorem unhold {c x} (h : MemoryCanonical s) : MemoryCanonical (s.unhold c x) := h.modCtx.modCluster.upd

theorem unkeep {c} (h : MemoryCanonical s) : MemoryCanonical (s.unkeep c) := foldl (fun _ _ ht => branch ht.modCore ht) h

theorem afterIssue {c d g} (h : MemoryCanonical s) : MemoryCanonical (s.afterIssue c d g) :=
  (branch h.modCtx.modCtx h.modCtx).unkeep.modCore.askCard

theorem askLine {c vline} (h : MemoryCanonical s) : MemoryCanonical (s.askLine c vline) := by
  dsimp only [State.askLine]
  split
  · exact h
  · exact branch (branch h h.setCore) ((branch h h.setCore).modCore.later)

theorem ask {c b} (h : MemoryCanonical s) : MemoryCanonical (s.ask c b) := by
  dsimp only [State.ask]
  split
  · exact foldl (fun _ _ ht => ht.askCard) h
  · next lines grans checks walks =>
      refine foldl (fun _ _ ht => branch ht ht.modCtx.later) ?_
      generalize hg : List.foldl _ _ grans = t
      have ht : MemoryCanonical t := by
        rw [← hg]
        exact foldl (fun _ _ hu => branch hu (branch hu.modCtx.later hu.modCtx.emit)) (foldl (fun _ _ hu => hu.askLine) h)
      exact branch ht (branch ht ht.modCtx.later)
  · exact branch h h.schedule
  · exact h

theorem blockOn {c words b} (h : MemoryCanonical s) : MemoryCanonical (s.blockOn c words b) :=
  foldl (fun _ _ ht => ht.ask) (h.modCtx.dropCurrent)

theorem wake {c} (h : MemoryCanonical s) : MemoryCanonical (s.wake c) := by
  dsimp only [State.wake]
  split
  · exact h.modCtx
  · split
    · exact h.modCtx
    · exact branch h.modCtx h.blockOn
  · exact h

theorem trapOn {c ts} (h : MemoryCanonical s) : MemoryCanonical (s.trapOn c ts) :=
  (foldl (fun _ _ ht => branch ht.walkCorrected ht) (branch h.modCtx h)).takeTrap.modCtx.unkeep

/-- Every state in what a context's due bundle comes to has a canonical memory. -/
def CanonicalTurn : Turn → Prop
  | .over s => MemoryCanonical s
  | .on s => MemoryCanonical s
  | .trap _ => True
  | .stop r => CanonicalNext r

theorem tryContext {c} (h : MemoryCanonical s) : CanonicalTurn (s.tryContext c) := by
  have hv := h.evaluate (c := c)
  unfold State.tryContext
  cases e : s.evaluate c with
  | issue t => rw [e] at hv; exact afterIssue hv
  | hold t ran d g words => rw [e] at hv; exact (startHold hv.1).modCtx.modCore
  | block t b words => rw [e] at hv; exact blockOn hv
  | trap early ts => trivial
  | stop r => rw [e] at hv; exact hv

theorem trapAll {ts} (h : MemoryCanonical s) : MemoryCanonical (s.trapAll ts) := foldl (fun _ _ ht => ht.trapOn) h

theorem choose1 {ts cs} (h : MemoryCanonical s) : CanonicalNext (s.choose1 ts cs) := by
  induction cs generalizing s ts with
  | nil => exact h.trapAll.next
  | cons c r ih =>
    refine branchNext (ih h) ?_
    have hv := h.tryContext (c := c)
    split
    · next e => rw [e] at hv; exact (trapAll hv).next
    · next e => rw [e] at hv; exact ih hv
    · exact ih h
    · next e => rw [e] at hv; exact hv

theorem turnRes {c v} (h : MemoryCanonical s) (hv : CanonicalTurn v) : CanonicalNext (s.turnRes c v) := by
  unfold State.turnRes
  split
  · exact next hv
  · exact next hv
  · exact h.trapOn.next
  · exact hv

theorem coreCycle {q} (h : MemoryCanonical s) : CanonicalNext (s.coreCycle q) := by
  have hw : MemoryCanonical (((List.range 4).map (4 * q + ·)).foldl State.wake s) := foldl (fun _ _ ht => ht.wake) h
  dsimp only [State.coreCycle]
  split
  · next x _ =>
      refine branchNext hw.modCtx.next ?_
      have hv := (hw.modCtx (c := 4 * q + x.h) (f := Ctx.tickHeld)).finishHold (c := 4 * q + x.h) (x := x)
      split
      · next e => rw [e] at hv; exact (afterIssue hv).next
      · exact hw.modCtx.unhold.trapOn.next
      · next e => rw [e] at hv; exact (blockOn hv).next
      · next e => rw [e] at hv; exact next hv.1
      · next e => rw [e] at hv; exact hv
  · split
    · exact branchNext (hw.modCtx.turnRes hw.modCtx.tryContext) hw.setCore.choose1
    · exact hw.choose1

/-- The members' evaluations so far leave a canonical memory, and what stops them does. -/
def CanonicalTogether (t : Together) : Prop := MemoryCanonical t.s ∧ ∀ q, t.stop = some q → CanonicalNext q

theorem add {t : Together} {c v} (h : CanonicalTogether t) (hv : CanonicalVerdict v) :
    CanonicalTogether (t.add c v) := by
  cases v with
  | issue s => exact ⟨hv, h.2⟩
  | hold s ran d g words => exact ⟨hv.2, h.2⟩
  | block s b words => exact h
  | trap early ts => cases early <;> exact h
  | stop r =>
    refine ⟨h.1, fun q hq => ?_⟩
    cases hs : t.stop with
    | none => simp only [Together.add, hs, Option.none_or, Option.some.injEq] at hq; exact hq ▸ hv
    | some p => simp only [Together.add, hs, Option.some_or, Option.some.injEq] at hq; exact hq ▸ h.2 _ hs

theorem modConsist {i f} (h : MemoryCanonical s) : MemoryCanonical (s.modConsist i f) := h

theorem memberIssue {c d g v} (hv : CanonicalVerdict v) : CanonicalVerdict (memberIssue c d g v) := by
  cases v with
  | issue s => exact afterIssue hv
  | hold s ran d g words => exact hv
  | block s b words => exact hv
  | trap early ts => trivial
  | stop r => exact hv

theorem holdMembers {x due hs t} (h : MemoryCanonical s) : MemoryCanonical (s.holdMembers x due hs t) := by
  dsimp only [State.holdMembers]
  refine .modConsist ?_
  refine .foldl (fun _ _ ht => ?_) h
  refine .modCore (.startHold ?_)
  split
  · exact ht.fetched
  · exact ht

theorem unholdMembers {x} (h : MemoryCanonical s) : MemoryCanonical (s.unholdMembers x) := by
  dsimp only [State.unholdMembers]
  refine .foldl (fun _ _ ht => ?_) h
  split
  · exact ht.unhold
  · exact ht

theorem members {α : Type} {f : Together → α → Together} {l : List α}
    (hf : ∀ t a, CanonicalTogether t → CanonicalTogether (f t a)) {t : Together} (h : CanonicalTogether t) :
    CanonicalTogether (l.foldl f t) :=
  List.foldlRecOn _ _ h fun t ht a _ => hf t a ht

theorem consistCycle {x} (h : MemoryCanonical s) : CanonicalNext (s.consistCycle x) := by
  unfold State.consistCycle
  extract_lets lead woken ticked r due r2
  have ht : MemoryCanonical ticked := by
    unfold ticked
    split
    · exact modCtx (foldl (fun _ _ hu => hu.wake) h)
    · exact foldl (fun _ _ hu => hu.wake) h
  clear_value ticked
  split
  · refine branchNext ht.next ?_
    have hm : CanonicalTogether r := by
      refine members (fun t c hc => ?_) ⟨ht, fun _ e => nomatch e⟩
      split
      · exact hc
      · exact add hc (memberIssue hc.1.finishHold)
    split
    · next e => exact hm.2 _ e
    · exact ht.unholdMembers.trapOn.modConsist.next
    · exact hm.1.modConsist.next
  · have hm : CanonicalTogether r2 := 
      members (fun t c hc => add hc (memberIssue hc.1.evaluate)) ⟨ht, fun _ e => nomatch e⟩
    refine branchNext ht.next ?_
    split
    · next e => exact hm.2 _ e
    · exact ht.trapOn.next
    · refine branchNext (foldl (fun _ _ hu => hu.modCtx.blockOn) ht.modCtx.dropCurrent).next ?_
      split
      · exact ht.trapOn.next
      · exact branchNext hm.1.modConsist.next ht.holdMembers.next

theorem turn {q} (h : MemoryCanonical s) : CanonicalNext (s.turn q) := by
  dsimp only [State.turn]
  split
  · exact branchNext h.consistCycle h.next
  · exact h.coreCycle

/-! ### Cycles -/

theorem happen {a rest} (h : MemoryCanonical s) : CanonicalNext (s.happen a rest) := exec h.upd

theorem performHome {r} (h : MemoryCanonical s) : MemoryCanonical (s.performHome r) :=
  branch ((branch h.upd.performNow.modCtx h.upd.performNow).modCtx) (branch h.upd.performNow.modCtx h.upd.performNow)

theorem settle (h : MemoryCanonical s) : MemoryCanonical s.settle := h

theorem spill (h : MemoryCanonical s) : MemoryCanonical s.spill := foldl (fun _ _ ht => branch ht (branch ht.upd.write ht.upd)) h

theorem unclaim {r} (h : MemoryCanonical s) : MemoryCanonical (s.unclaim r) := branch h.upd h.modCtx

theorem nowClaimed {r} (h : MemoryCanonical s) : MemoryCanonical (s.nowClaimed r) := branch h.upd h.modCtx

theorem orderClaims (h : MemoryCanonical s) : MemoryCanonical s.orderClaims :=
  branch h.upd (foldl (fun _ _ ht => ht.unclaim) (foldl (fun _ _ ht => ht.nowClaimed) (foldl (fun _ _ ht => ht.write) h.upd)))

theorem endCycle (h : MemoryCanonical s) : MemoryCanonical s.endCycle := by
  have ht := h.orderClaims.settle.spill
  exact ⟨ht.1, ht.1, ht.2.2⟩

theorem openTurn {q rest} (h : MemoryCanonical s) : CanonicalNext (s.openTurn q rest) := by
  have ho : MemoryCanonical (if s.opened then s else { s with opened := true, memCyc := s.mem, pubs := s.cyclePubs }) := by
    split
    · exact h
    · exact ⟨h.1, h.2.1, h.1⟩
  exact turn (upd ho)

/-! ### One step -/

theorem step (h : MemoryCanonical s) : CanonicalNext (Sys2Proof.Machine.step s) := by
  unfold Sys2Proof.Machine.step
  split
  · split
    · exact h.happen
    · exact fun _ e => nomatch e
  · split
    · exact exec h.upd
    · split
      · exact h.happen
      · split
        · exact h.openTurn
        · split
          · exact h.performHome.next
          · exact h.happen
          · exact h.endCycle.next

end MemoryCanonical
end

/-- Settles O55: an operation at a time, every operation of the model keeps memory canonical. -/
theorem everyStepKeepsMemoryCanonical : Obligations.EveryStepKeepsMemoryCanonical := by
  unfold Obligations.EveryStepKeepsMemoryCanonical
  intro s t h e
  exact h.step t e

end Sys2Proof.Machine
end

section
/-! Load-blocks and locks (O25). -/

namespace Sys2Proof.Machine

/-! ### Load-blocks -/

theorem exec_ldblk (s : State) (a d : BitVec 5) (g : BitVec 4) (n : BitVec 6) : exec (.ldblk a d g n) s = .next (
    if !s.nameable { loc := false, win := false } 64 (s.rs a) then s.raise (s.issTrap 0x03 (s.rs a))
    else if (s.cur.block? g).isNone then (s.declareBlock s.iss.ctx g.toNat (s.rs a) (n.toNat + 1)).ws d 1 0
    else if s.detOf s.iss.ctx then
      ((s.releaseBlock s.iss.ctx g.toNat).declareBlock s.iss.ctx g.toNat (s.rs a) (n.toNat + 1)).ws d 1 0
    else s.ws d 1 1) := rfl

/-- What `ldblk.q` posts for a tag: FREE, FILLING or COMPLETE (R203). -/
def tagState : Option LoadBlock → Word
  | none => 0
  | some b => if b.want = [] then 2 else 1

theorem exec_ldblkQ (s : State) (d : BitVec 5) (g : BitVec 4) : exec (.ldblkQ d g) s = .next (
    if s.detOf s.iss.ctx then s.raise (s.issTrap 0x07)
    else s.ws d 1 (tagState (s.cur.block? g))) := rfl

/-- A tag is FREE when no block of the context has it. -/
theorem Ctx.block?_eq_none_iff {x : Ctx} {g : BitVec 4} : x.block? g = none ↔ ∀ b ∈ x.blocks, ¬b.tag = g.toNat := by
  simp [Ctx.block?]

/-- A release of a load-block touches that context's blocks and the L1s alone. -/
theorem State.releaseBlock_frame (s : State) (c g : Nat) : ∃ cores, s.releaseBlock c g =
    { s.modCtx c fun x => { x with blocks := x.blocks.filter fun b => b.tag ≠ g } with cores := cores } := by
  unfold State.releaseBlock
  dsimp only
  generalize ((s.ctx c).blocks.filter fun b => b.tag = g).flatMap LoadBlock.lines = ls
  refine List.foldlRecOn (motive := fun t : State => ∃ cores, t =
    { s.modCtx c fun x => { x with blocks := x.blocks.filter fun b => b.tag ≠ g } with cores := cores }) ls _ ⟨_, rfl⟩ ?_
  rintro _ ⟨cores, rfl⟩ l -
  exact ⟨_, rfl⟩

/-- What a list of requests adds to the agenda: one event for each, within its bound; beside it, only the free choices taken
(log 1). -/
theorem State.foldl_later (s : State) (bound : Nat) (ev : Instr) (mk : Nat → Due) (hb : 0 < bound) (ls : List Nat) :
    ∃ due free, ls.foldl (fun s v => s.later bound ev (mk v)) s = { s with agenda := s.agenda ++ due, free := free } ∧
      due.map (·.due) = ls.map mk ∧ ∀ x ∈ due, x.ev = ev ∧ s.now < x.at_ ∧ x.at_ ≤ s.now + bound := by
  induction ls generalizing s with
  | nil => exact ⟨[], s.free, by simp, rfl, by simp⟩
  | cons v ls ih =>
    obtain ⟨due, free, he, hm, hd⟩ := ih (s.later bound ev (mk v))
    have hn : 1 + Config.freeDelay s.free % max bound 1 ≤ bound := by
      have := Nat.mod_lt (Config.freeDelay s.free) (by omega : 0 < max bound 1)
      omega
    refine ⟨{ at_ := s.now + (1 + Config.freeDelay s.free % max bound 1), ev := ev, due := mk v } :: due, free, ?_, ?_, ?_⟩
    · rw [List.foldl_cons, he]
      simp [State.later, State.draw, State.schedule]
    · simp [hm]
    · rintro x (_ | ⟨_, hx⟩)
      · exact ⟨rfl, by dsimp only; omega, by dsimp only; omega⟩
      · exact hd x hx

/-- The block that a declaration of n lines from address a makes: every line asked for, none there (R203). -/
def State.newBlock (s : State) (g : Nat) (a : Word) (n : Nat) : LoadBlock :=
  { tag := g, want := (List.range n).map fun i => (a + BitVec.ofNat 64 (64 * i)).toNat, lines := [], bad := [], decl := s.nextId }

/-- A declared block: no line has come, each is asked for, and nothing else changes but the identity taken and the free choices
(R203). -/
theorem State.declareBlock_eq (s : State) (c g : Nat) (a : Word) (n : Nat) :
    let b := s.newBlock g a n
    ∃ due free, s.declareBlock c g a n = { s.modCtx c fun x => { x with blocks := x.blocks ++ [b] } with
        nextId := s.nextId + 1, agenda := s.agenda ++ due, free := free } ∧
      due.map (·.due.arg) = b.want ∧ ∀ x ∈ due, x.ev = .lineArrival ∧ x.due.ctx = c ∧ s.now < x.at_ ∧ x.at_ ≤ s.now + 1900 := by
  intro b
  obtain ⟨due, free, he, hm, hd⟩ := State.foldl_later
    (State.modCtx { s with nextId := s.nextId + 1 } c fun x => { x with blocks := x.blocks ++ [b] }) 1900 .lineArrival
    (fun v => { id := s.nextId + 1, ctx := c, arg := v }) (by omega) b.want
  refine ⟨due, free, he, ?_, fun x hx => ?_⟩
  · simpa [Function.comp_def] using congrArg (List.map Due.arg) hm
  · obtain ⟨hev, hlt, hle⟩ := hd x hx
    have hc : x.due ∈ b.want.map fun v => ({ id := s.nextId + 1, ctx := c, arg := v } : Due) :=
      hm ▸ List.mem_map_of_mem hx
    obtain ⟨v, -, hv⟩ := List.mem_map.1 hc
    exact ⟨hev, hv ▸ rfl, hlt, hle⟩

theorem State.ctx_declareBlock (s : State) (c g : Nat) (a : Word) (n j : Nat) : (s.declareBlock c g a n).ctx j =
    (s.modCtx c fun x => { x with blocks := x.blocks ++ [s.newBlock g a n] }).ctx j := by
  obtain ⟨due, free, he, -⟩ := s.declareBlock_eq c g a n
  rw [he]
  rfl

theorem State.ctx_releaseBlock (s : State) (c g j : Nat) : (s.releaseBlock c g).ctx j =
    (s.modCtx c fun x => { x with blocks := x.blocks.filter fun b => b.tag ≠ g }).ctx j := by
  obtain ⟨cores, he⟩ := s.releaseBlock_frame c g
  rw [he]
  rfl

/-! ### Locks -/

theorem fld_global {ea : Word} {va : Nat} (h : spaceOf ea = .global va) : Machine.fld ea 0 56 = va := by
  simp only [spaceOf, if_pos (fld_tag_of_global h)] at h
  cases h
  rfl

/-- The line at an aligned global address that is mapped, for `lock` and `unlock`. -/
theorem State.lineAt_of_ok {s : State} {ea : Word} {m : Nat} {e : Tlb} (k : Nat → State → State)
    (hsp : spaceOf ea = .global ea.toNat) (hal : ea.toNat % 64 = 0) (ht : s.translate (s.who s.iss.ctx) ea.toNat .r = .ok m e) :
    s.lineAt ea k = k (m / 64) (s.learn e) := by
  have hn : s.nameable { loc := false, win := false } 64 ea = true := by simp [State.nameable, hsp, hal]
  unfold State.lineAt State.access1
  simp only [hn, fld_global hsp, ht, Bool.not_true, Bool.false_eq_true, if_false]
  rfl

theorem exec_lock (s : State) (a d : BitVec 5) : exec (.lock a d) s = .next (s.lineAt (s.rs a) fun line t =>
    if t.cur.vis.locks.contains line then t.ws d 1 0
    else if t.cur.vis.locks.length ≥ (t.cluster (clOf t.iss.ctx)).lockq then t.ws d 1 1
    else if !(t.iss.held || t.inL1 t.iss.ctx line) then t.blocked .loadBlock [Machine.fld (t.rs a) 0 56 / 64] [] [] []
    else (t.modVis fun v => { v with locks := v.locks ++ [line] }).ws d 1 0) := rfl

theorem exec_unlock (s : State) (a : BitVec 5) : exec (.unlock a) s =
    .next (s.lineAt (s.rs a) fun line t => t.modVis fun v => { v with locks := v.locks.filter (· ≠ line) }) := rfl

/-- A change of the visible state depends on the visible state alone. -/
theorem State.modVis_congr {s : State} {f g : Vis → Vis} (h : f s.cur.vis = g s.cur.vis) : s.modVis f = s.modVis g := by
  have hf : { s.cur with vis := f s.cur.vis } = { s.cur with vis := g s.cur.vis } := by rw [h]
  exact congrArg (s.setCtx s.iss.ctx) hf

theorem State.learn_iss (s : State) (e : Tlb) : (s.learn e).iss = s.iss :=
  (congrArg State.iss (s.learn_offBooks e) :)

theorem State.learn_cur (s : State) (e : Tlb) : (s.learn e).cur = s.cur := by
  rw [State.cur, State.learn_iss, State.learn_ctx]
  rfl

theorem State.learn_clusters (s : State) (e : Tlb) : (s.learn e).clusters = s.clusters :=
  (congrArg State.clusters (s.learn_offBooks e) :)

theorem State.learn_inL1 (s : State) (e : Tlb) (c l : Nat) : (s.learn e).inL1 c l = s.inL1 c l := by
  rw [State.inL1, State.core_of_offBooks (s.learn_offBooks e), State.l1Of_of_offBooks (s.learn_offBooks e)]
  rfl

/-- Settles O25: a declaration and a release touch what they name alone, and a line instruction on a mapped line goes on in the
state that holds the translation. -/
theorem loadBlocksAndLocks : Obligations.LoadBlocksAndLocks := by
  unfold Obligations.LoadBlocksAndLocks
  refine ⟨fun s a d g n hdet => ?_, fun s a d m e => ?_⟩
  · dsimp only
    refine ⟨fun hn => ?_, fun hn => ⟨fun hb => ?_, fun hb => ?_⟩, ?_, ?_⟩
    · simp [exec_ldblk, hn]
    · obtain ⟨b, hmem, htag⟩ := hb
      have hsome : (s.cur.block? g).isNone = false := by
        rw [Option.isNone_eq_false_iff, Option.isSome_iff_ne_none, ne_eq, Ctx.block?_eq_none_iff]
        exact fun h => h b hmem htag
      simp [exec_ldblk, hn, hsome, hdet, State.ws_posted]
    · have hnone : s.cur.block? g = none := Ctx.block?_eq_none_iff.2 hb
      obtain ⟨due, free, he, hm, hd⟩ := s.declareBlock_eq s.iss.ctx g.toNat (s.rs a) (n.toNat + 1)
      refine ⟨s.declareBlock s.iss.ctx g.toNat (s.rs a) (n.toNat + 1), s.newBlock g.toNat (s.rs a) (n.toNat + 1), ?_, ?_,
        rfl, rfl, rfl, rfl, ?_, by rw [he]; rfl, by rw [he]; rfl, fun c' hc => ?_, due, by rw [he], hm, hd⟩
      · simp [exec_ldblk, hn, hnone, State.ws_posted]
      · rw [State.ctx_declareBlock, State.ctx_modCtx]
        rfl
      · rw [State.ctx_declareBlock, State.ctx_modCtx]
        rfl
      · rw [State.ctx_declareBlock, State.ctx_modCtx_ne _ _ hc]
    · refine ⟨tagState (s.cur.block? g), ?_, fun h => ?_, fun b hb => ?_⟩
      · simp [exec_ldblkQ, hdet, State.ws_posted]
      · rw [Ctx.block?_eq_none_iff.2 h]
        rfl
      · rw [Ctx.block?, hb]
        rfl
    · obtain ⟨cores, he⟩ := s.releaseBlock_frame s.iss.ctx g.toNat
      refine ⟨_, rfl, ?_, ?_, by rw [he]; rfl, fun c' hc => ?_⟩
      · rw [State.ctx_releaseBlock, State.ctx_modCtx]
        rfl
      · rw [State.ctx_releaseBlock, State.ctx_modCtx]
        rfl
      · rw [State.ctx_releaseBlock, State.ctx_modCtx_ne _ _ hc]
  · intro c ea ls quota hsp hal ht t
    have hquota : (t.cluster (clOf s.iss.ctx)).lockq = quota := by
      rw [State.cluster, State.learn_clusters]
      rfl
    rw [exec_lock, exec_unlock, State.lineAt_of_ok _ hsp hal ht, State.lineAt_of_ok _ hsp hal ht]
    simp only [State.learn_cur, State.learn_iss, State.learn_inL1, State.ws_posted]
    have hvis : (t.modVis fun v => { v with locks := v.locks ++ [m / 64] }) = t.modVis fun v => { v with locks := ls ++ [m / 64] } :=
      State.modVis_congr (by rw [State.learn_cur])
    have hrs : (s.learn e).rs a = ea := by rw [State.rs, State.learn_cur]; rfl
    rw [hrs, fld_global hsp]
    refine ⟨fun hin => ?_, fun hin hq => ?_, fun hin hq hh hl => ?_, fun hin hq hl => ?_, congrArg _ (State.modVis_congr ?_)⟩
    · rw [if_pos (List.contains_iff_mem.2 hin)]
    · rw [if_neg (by simpa using hin), if_pos (by rw [hquota]; exact hq)]
    · rw [if_neg (by simpa using hin), if_neg (by rw [hquota]; exact Nat.not_le.2 hq), if_pos (by simp [hh, c, hl])]
    · rw [if_neg (by simpa using hin), if_neg (by rw [hquota]; exact Nat.not_le.2 hq), if_neg (by simpa [c, or_iff_not_imp_left] using hl), hvis]
    · rw [State.learn_cur]

end Sys2Proof.Machine
end

section
/-! Batches, platform waits and releases, platform transitions (O28). -/

namespace Sys2Proof.Machine

section
variable {s : State} (hheld : s.iss.held = false)
include hheld

/-- A wait of a bundle in its first cycle goes on when what it waits for holds or its bound is reached, and otherwise blocks
(R36, R215). -/
theorem State.waiting_of_first {r : Block} {done : Bool} {bound : Word} {k : State → State} : s.waiting r done bound k =
    if done || s.boundReached bound then k s else s.blocked r [bound.toNat] [] [] [] := by
  rw [State.waiting, hheld, Bool.false_or]

theorem exec_bclose (g : BitVec 2) : exec (.bclose g) s = .next (if s.freeSlots s.iss.ctx = 0 then s.blocked .engineQueue [] [] [] []
    else ({ s with nextId := s.nextId + 1 } : State).withheld (.bclose g s.nextId)) := by
  have h : exec (.bclose g) s = .next (if !s.iss.held && s.freeSlots s.iss.ctx = 0 then s.blocked .engineQueue [] [] [] []
    else ({ s with nextId := s.nextId + 1 } : State).withheld (.bclose g s.nextId)) := rfl
  simp [h, hheld]

theorem exec_bwait (b : BitVec 5) (g : BitVec 2) : exec (.bwait b g) s = .next (
    if (!(s.cur.batches.any fun x => x.tag = g && x.closed) && !s.closingNow s.iss.ctx g && !s.closesHere g) ||
      s.boundReached (s.rs b) then s else s.blocked .barrier [(s.rs b).toNat] [] [] []) :=
  congrArg Host.Outcome.next (State.waiting_of_first hheld)

theorem exec_pwait (b : BitVec 5) (c : PCond) (n : BitVec 6) : exec (.pwait b c n) s =
    if !(s.prevPlat n.toNat).decl then .next (s.raise (s.issTrap 0x03))
    else if (s.prevPlat n.toNat).meets c || s.boundReached (s.rs b) then exec (.fence .acq .cl) s
    else .next (s.blocked .platform [(s.rs b).toNat] [] [] []) := by
  have h : exec (.pwait b c n) s = .next (if !(s.prevPlat n.toNat).decl then s.raise (s.issTrap 0x03)
    else s.waiting .platform ((s.prevPlat n.toNat).meets c) (s.rs b) (State.acquireFence .cl)) := rfl
  rw [h, State.waiting_of_first hheld]
  split
  · rfl
  · split <;> rfl

theorem exec_prel (n : BitVec 6) :
    let p := s.plat (clOf s.iss.ctx) n.toNat
    exec (.prel n) s = .next (if !p.decl then s.raise (s.issTrap 0x03)
      else if p.st = .filling || p.sparseHeld then s.blocked .platform [] [] [] []
      else s.withheld (.prel n)) := by
  intro p
  have h : exec (.prel n) s = .next (if !p.decl then s.raise (s.issTrap 0x03)
    else if !s.iss.held && (p.st = .filling || p.sparseHeld) then s.blocked .platform [] [] [] []
    else s.withheld (.prel n)) := rfl
  rw [h, hheld, Bool.not_false, Bool.true_and]

end

theorem Platform.meets_pub (p : Platform) : p.meets .pub = true ↔ p.st = .full ∨ p.st = .draining := by
  simp only [Platform.meets, Bool.or_eq_true, decide_eq_true_iff]

theorem Platform.meets_idle (p : Platform) : p.meets .idle = true ↔ (p.st = .free ∨ p.st = .full) ∧ p.resv = Option.none := by
  simp only [Platform.meets, Bool.or_eq_true, Bool.and_eq_true, decide_eq_true_iff, Option.isNone_iff_eq_none]

theorem Platform.meets_free (p : Platform) : p.meets .free = true ↔ p.st = .free ∧ p.resv = Option.none := by
  simp only [Platform.meets, Bool.and_eq_true, decide_eq_true_iff, Option.isNone_iff_eq_none]

theorem exec_pstat (s : State) (d : BitVec 5) (n : BitVec 6) : exec (.pstat d n) s =
    .next (if s.detOf s.iss.ctx then s.raise (s.issTrap 0x07) else s.ws d 2 (s.prevPlat n.toNat).word) := rfl

/-- Settles O28: each instruction by its one equation, each transition of a platform by the state that it starts from. -/
theorem batchesAndPlatforms : Obligations.BatchesAndPlatforms := by
  unfold Obligations.BatchesAndPlatforms
  refine ⟨fun s b d g c n hheld => ?_, fun p id => ?_⟩
  · intro k was p bound ok open_
    have hmeets : was.meets c = true ↔ ok := by
      cases c
      · exact was.meets_pub
      · exact was.meets_idle
      · exact was.meets_free
    have hopen : (s.cur.batches.any fun x => x.tag = g && x.closed) = true ↔ open_ := by simp [open_]
    have hbusy : (p.st = .filling || p.sparseHeld) = true ↔ p.st = .filling ∨ p.holds ≠ [] := by
      rw [Bool.or_eq_true, decide_eq_true_iff, Platform.sparseHeld, decide_eq_true_iff]
    have hwas : s.prevPlat n.toNat = was := rfl
    rw [exec_bclose hheld, exec_bwait hheld, exec_pwait hheld, exec_prel hheld, exec_pstat, hwas]
    refine ⟨fun h => ?_, fun h => ?_, fun hh hn ho => ?_, fun h hb => ?_, fun hb => ?_, fun hd => ?_, fun hd hok => ?_,
      fun hd hok hb => ?_, fun hd hb => ?_, fun hd => ?_, fun hd h => ?_, fun hd hst hh => ?_, fun h => ?_, fun h => ?_⟩
    · rw [if_pos h]
    · rw [if_neg h]
    · rw [← hopen, Bool.not_eq_true] at ho
      simp [hh, hn, ho]
    · rw [← hopen] at h
      rcases h with h | h <;> simp [h, hb, bound]
    · simp [hb]
    · simp [hd]
    · simp [hd, hmeets.2 hok]
    · rw [← hmeets, Bool.not_eq_true] at hok
      simp [hd, hok, hb, bound]
    · simp [hd, hb]
    · exact congrArg _ (if_pos (by rw [hd]; rfl))
    · exact congrArg _ ((if_neg (by rw [hd]; decide)).trans (if_pos (hbusy.2 h)))
    · exact congrArg _ ((if_neg (by rw [hd]; decide)).trans (if_neg fun h => (hbusy.1 h).elim hst fun h => h hh))
    · simp [h, State.ws_posted]
    · simp [h]
  · refine ⟨rfl, fun h => ?_, fun h => ?_, rfl, rfl, rfl, ?_, rfl, fun h => ?_, fun h hh => ?_, fun h hh => ?_, fun h => ?_, fun h => ?_⟩
    · simp [Platform.fillCompleted, Platform.publish, h]
    · simp [Platform.fillCompleted, h]
    · unfold Platform.fillCompleted
      dsimp only
      split <;> rfl
    · simp [Platform.released, h]
    · simp [Platform.released, h, hh]
    · simp [Platform.released, Platform.publish, h, hh]
    · rcases h with h | h <;> simp [Platform.released, h]
    · cases hf : p.front <;> simp [Platform.fillCompleted, Platform.publish, Platform.frontAt, Platform.shadowAt, h, hf]

end Sys2Proof.Machine
end

section
/-! Loads and stores that trap or wait (O23). -/

namespace Sys2Proof.Machine

/-! ### Loads of one element -/

/-- The address of a global byte is its number. -/
theorem toNat_of_global {ea : Word} {a : Nat} (h : spaceOf ea = .global a) : ea.toNat = a ∧ a < 2 ^ 56 := by
  have hlt := ea.isLt
  simp only [spaceOf, fld, bits_eq] at h
  split_ifs at h with h0 h1 h2
  obtain rfl := Space.global.inj h
  constructor <;> omega

theorem spaceOf_global {ea : Word} {a : Nat} (h : ea.toNat = a) (ha : a < 2 ^ 56) : spaceOf ea = .global a := by
  have htag : fld ea 56 8 = 0 := by
    simp only [fld, bits_eq]
    omega
  have hlow : fld ea 0 56 = a := by
    simp only [fld, bits_eq]
    omega
  simp only [spaceOf, htag, hlow, if_true]

/-- The bytes of an aligned run are of its line (R185). -/
theorem line_add {ea : Word} {n i : Nat} (hdvd : n ∣ 64) (hal : ea.toNat % n = 0) (hi : i < n) :
    (ea + BitVec.ofNat 64 i).toNat = ea.toNat + i ∧ (ea + BitVec.ofNat 64 i).toNat / 64 = ea.toNat / 64 := by
  have hlt := ea.isLt
  have hfit : ea.toNat % 64 + n ≤ 64 := by
    obtain ⟨q, hq⟩ := hdvd
    obtain ⟨j, hj⟩ := Nat.dvd_of_mod_eq_zero hal
    have hlt : j % q < q := Nat.mod_lt _ (by by_contra h0; simp [Nat.eq_zero_of_not_pos h0] at hq)
    rw [hj, hq, Nat.mul_mod_mul_left, ← Nat.mul_succ]
    exact Nat.mul_le_mul_left n hlt
  have hadd : (ea + BitVec.ofNat 64 i).toNat = ea.toNat + i := by
    rw [BitVec.toNat_add, BitVec.toNat_ofNat]
    omega
  exact ⟨hadd, by omega⟩

theorem global_add {ea : Word} {a n i : Nat} (h : spaceOf ea = .global a) (hdvd : n ∣ 64) (hal : ea.toNat % n = 0) (hi : i < n) :
    spaceOf (ea + BitVec.ofNat 64 i) = .global (a + i) := by
  obtain ⟨hea, ha⟩ := toNat_of_global h
  obtain ⟨hadd, hline⟩ := line_add hdvd hal hi
  exact spaceOf_global (by omega) (by omega)

section
variable {s : State} {c n : Nat} {ea : Word} {a : Nat}

theorem State.inOneGranule_of_global (h : spaceOf ea = .global a) (hdvd : n ∣ 64) (hal : ea.toNat % n = 0) : s.inOneGranule c n ea := by
  intro i hi
  refine ⟨(line_add hdvd hal hi).2, ?_⟩
  simp only [State.syncByte, h, global_add h hdvd hal hi]

theorem State.granules_eaRun_cons (hn : 0 < n) : ∃ rest, s.granules c (eaRun ea n) = ea :: rest := by
  obtain ⟨m, rfl⟩ := Nat.exists_eq_succ_of_ne_zero hn.ne'
  rw [eaRun, List.range_succ_eq_map, List.map_cons, s.granules_eq, List.foldl_cons]
  have hfirst : keepFirst (s.sameGranule c) [] (ea + BitVec.ofNat 64 0) = [ea] := by simp [keepFirst]
  rw [hfirst]
  generalize (List.map _ _ : List Word) = xs
  suffices h : ∀ acc : List Word, (∃ rest, acc = ea :: rest) → ∃ rest, xs.foldl (keepFirst (s.sameGranule c)) acc = ea :: rest from
    h _ ⟨[], rfl⟩
  induction xs with
  | nil => exact fun _ h => h
  | cons x xs ih =>
    rintro _ ⟨rest, rfl⟩
    refine ih _ ?_
    unfold keepFirst
    split
    · exact ⟨rest, rfl⟩
    · exact ⟨rest ++ [x], rfl⟩

/-- A load of a local granule asks for no line, no granule and no answer (R190). -/
theorem State.loadGran_asks_of_localSp (h : spaceOf ea = .localSp a) :
    (s.loadGran ea).line = none ∧ (s.loadGran ea).gran = none ∧ (s.loadGran ea).check = none := by
  have htag : (s.loadTagged (clOf s.iss.ctx) a ea).line = none ∧ (s.loadTagged (clOf s.iss.ctx) a ea).gran = none ∧
      (s.loadTagged (clOf s.iss.ctx) a ea).check = none := by
    unfold State.loadTagged
    split_ifs
    · exact ⟨rfl, rfl, rfl⟩
    · exact ⟨rfl, rfl, rfl⟩
    · dsimp only
      cases s.conflict (s.party s.iss.ctx) .load [s.spGran (clOf s.iss.ctx) a] <;> exact ⟨rfl, rfl, rfl⟩
  have hloc : (s.loadLocal (clOf s.iss.ctx) a ea).line = none ∧ (s.loadLocal (clOf s.iss.ctx) a ea).gran = none ∧
      (s.loadLocal (clOf s.iss.ctx) a ea).check = none := by
    unfold State.loadLocal
    split_ifs
    · exact htag
    · exact ⟨rfl, rfl, rfl⟩
    · exact ⟨rfl, rfl, rfl⟩
  simp only [State.loadGran, h]
  cases s.poisoned (spKey (clOf s.iss.ctx) (a / 64 * 64)) 64 <;> exact hloc

/-- A load of a global byte whose line is absent asks for the line (R190). -/
theorem State.loadGran_asks_of_absent {m : Nat} {e : Tlb} (h : spaceOf ea = .global a)
    (hx : s.translate (s.who s.iss.ctx) a .r = .ok m e) (hheld : s.iss.held = false) (hline : s.inL1 s.iss.ctx (m / 64) = false) :
    (s.loadGran ea).line = some (a / 64) ∧ (s.loadGran ea).gran = none := by
  have hhere : (s.iss.held || s.inL1 s.iss.ctx (lineOf m)) = false := by simp [hheld, lineOf, hline]
  simp only [State.loadGran, h, hx, hhere, Bool.false_eq_true, if_false]
  repeat' split
  all_goals exact ⟨rfl, rfl⟩

variable {acc : Accepts}

/-- The load of one element behind a load fence waits (R212). -/
theorem State.loadAt_of_fenced (hpaid : s.iss.paid = none) (hheld : s.iss.held = false) (hfence : s.loadFenced s.iss.ctx = true)
    (hname : s.nameable acc n ea = true) : ∃ lines, s.loadAt acc n [ea] = .block lines [] [] := by
  unfold State.loadAt
  rw [hpaid]
  simp only [List.filter_cons, hname, hheld, hfence, if_true]
  exact ⟨_, if_pos rfl⟩

section
variable (hpaid : s.iss.paid = none) (hnow : acc.now = false) (hname : s.nameable acc n ea = true) (hfence : s.loadFenced s.iss.ctx = false)
include hpaid hnow hname hfence

/-- The load of one element that waits for nothing raises what its element does. -/
theorem State.loadAt_of_elementTrap {t : TrapInfo}
    (hask : ∀ g ∈ s.granules s.iss.ctx (eaRun ea n), (s.loadGran g).line = none ∧ (s.loadGran g).gran = none ∧ (s.loadGran g).check = none)
    (htrap : s.elementTrap n ea = some t) : s.loadAt acc n [ea] = .trap t := by
  unfold State.loadAt
  rw [hpaid]
  have hgood : [ea].filter (s.nameable acc n) = [ea] := by simp [hname]
  have hbad : [ea].find? (fun ea => !s.nameable acc n ea) = none := by simp [hname]
  have hone : ([ea].flatMap fun ea => eaRun ea n) = eaRun ea n := by simp
  have hfirst : [ea].findSome? (s.elementTrap n) = some t := by simp [htrap]
  have hnil : ∀ f : GLoad → Option Nat, (∀ g ∈ s.granules s.iss.ctx (eaRun ea n), f (s.loadGran g) = none) →
      ((s.granules s.iss.ctx (eaRun ea n)).map s.loadGran).filterMap f = [] :=
    fun f hf => List.filterMap_eq_nil_iff.2 (List.forall_mem_map.2 hf)
  simp only [hnow, hgood, hone, hbad, hfirst, hfence, hnil (·.line) fun g hg => (hask g hg).1, hnil (·.gran) fun g hg => (hask g hg).2.1,
    hnil (·.check) fun g hg => (hask g hg).2.2, Bool.false_eq_true, if_false, Bool.and_false, List.dedup_nil, List.map_nil, ne_eq,
    not_true_eq_false, or_self]

/-- The load of one element of one granule whose line is absent waits for the line (R190). -/
theorem State.loadAt_of_line {l : Nat} (hrun : s.granules s.iss.ctx (eaRun ea n) = [ea]) (hl : (s.loadGran ea).line = some l)
    (hg : (s.loadGran ea).gran = none) : ∃ checks, s.loadAt acc n [ea] = .block [l] [] checks := by
  unfold State.loadAt
  rw [hpaid]
  have hgood : [ea].filter (s.nameable acc n) = [ea] := by simp [hname]
  have hone : ([ea].flatMap fun ea => eaRun ea n) = eaRun ea n := by simp
  have hlines : ([s.loadGran ea].filterMap (·.line)).dedup = [l] := by simp [hl]
  have hgrans : [s.loadGran ea].filterMap (·.gran) = [] := by simp [hg]
  simp only [hnow, hgood, hone, hrun, hfence, List.map_cons, List.map_nil, hlines, hgrans, Bool.false_eq_true, if_false, Bool.and_false]
  exact ⟨_, if_pos (.inl (by simp))⟩

end
end

theorem exec_ldI64 (s : State) (t b : BitVec 5) (o : BitVec 16) : exec (.ldI64 t b o) s =
    s.loadingOf (.ldI64 t b o) (s.loadAt {} 8 [s.rs b + BitVec.ofInt 64 (o.toInt * 8)]) fun lat s' =>
      s'.ws t lat (BitVec.ofNat 64 (s.loadNat (s.own s.iss.ctx) (s.rs b + BitVec.ofInt 64 (o.toInt * 8)) 8)) := rfl

/-- An element that a command does not write to raises first what its first granule does. -/
theorem State.elementTrap_of_first {s : State} {n : Nat} {ea : Word} {t : TrapInfo} (hn : 0 < n)
    (hacc : s.accumulates s.iss.ctx ea n = false) (htrap : (s.loadGran ea).trap = some t) : s.elementTrap n ea = some t := by
  obtain ⟨rest, hrun⟩ := State.granules_eaRun_cons (s := s) (c := s.iss.ctx) (ea := ea) hn
  simp only [State.elementTrap, hacc, Bool.false_eq_true, if_false, hrun, List.findSome?_cons, htrap]

section
variable {s : State} {n : Nat} {ea : Word} (hn : 0 < n) (hdvd : n ∣ 64) (hal : ea.toNat % n = 0) (hpaid : s.iss.paid = none)
  (hfence : s.loadFenced s.iss.ctx = false) (hacc : s.accumulates s.iss.ctx ea n = false)
include hn hdvd hal hpaid hfence hacc

/-- A load of global bytes that have no translation, or that the access table rejects, raises that trap (R318, R374). -/
theorem State.loadAt_of_untranslated (hsp : spaceOf ea = .global ea.toNat) {x : XRes}
    (hx : s.translate (s.who s.iss.ctx) ea.toNat .r = x) (hno : ∀ m e, x ≠ .ok m e) : s.loadAt {} n [ea] = .trap (s.xTrap x ea) := by
  have hname : s.nameable {} n ea = true := by simp [State.nameable, hsp, hal]
  have hgran : s.loadGran ea = { trap := some (s.xTrap x ea), lat := s.loadLat s.iss.ctx } := by
    simp only [State.loadGran, hsp, hx]
  refine State.loadAt_of_elementTrap hpaid rfl hname hfence (fun g hg => ?_) (State.elementTrap_of_first hn hacc (by rw [hgran]))
  rw [State.granules_eaRun hn (State.inOneGranule_of_global hsp hdvd hal), List.mem_singleton] at hg
  subst hg
  simp [hgran]

/-- A load of local bytes raises what its first granule does. -/
theorem State.loadAt_of_localTrap {a : Nat} (hsp : spaceOf ea = .localSp a) {t : TrapInfo} (htrap : (s.loadGran ea).trap = some t) :
    s.loadAt {} n [ea] = .trap t := by
  have hname : s.nameable {} n ea = true := by simp [State.nameable, hsp, hal]
  refine State.loadAt_of_elementTrap hpaid rfl hname hfence (fun g hg => ?_) (State.elementTrap_of_first hn hacc htrap)
  obtain ⟨i, hi, rfl⟩ := List.mem_map.1 (State.mem_of_mem_granules hg)
  exact State.loadGran_asks_of_localSp (localSp_add hsp hdvd hal (List.mem_range.1 hi)).1

end

/-! ### Stores of one element -/

section
variable {s : State} {acc : Accepts} {n : Nat} {ea : Word} {bs : List Byte}

/-- A store through a window at its allowance waits for the engine's queue (R216). -/
theorem State.storeAt_of_full (h : s.windowFull ea = true) : s.storeAt acc n [(ea, bs)] = .next (s.blocked .engineQueue [] [] [] []) := by
  simp [State.storeAt, h]

/-- A store at an address that it may not name raises that (R194). -/
theorem State.storeAt_of_not_nameable (hfull : s.windowFull ea = false) (h : s.nameable acc n ea = false) :
    s.storeAt acc n [(ea, bs)] = .next (s.raise (s.issTrap 0x03 ea)) := by
  simp [State.storeAt, hfull, h]

theorem State.storeAt_of_storeTrap (hfull : s.windowFull ea = false) (hname : s.nameable acc n ea = true) {t : TrapInfo}
    (h : s.storeTrap 1 bs.length ea = some t) : s.storeAt acc n [(ea, bs)] = .next (s.raise t) := by
  have hany : ([(ea, bs)].any fun e => s.windowFull e.1) = false := by simp [hfull]
  have hbad : [(ea, bs)].find? (fun e => !s.nameable acc n e.1) = none := by simp [hname]
  simp only [State.storeAt, hany, hbad, List.findSome?_cons, h, Bool.false_eq_true, if_false]

/-- A store to a byte of a consumption window or of a command's array raises a race (R222, R254). -/
theorem State.storeTrap_of_guarded {a : BitVec 8} (h : ∃ i, i < n ∧ s.guarded s.iss.ctx (ea + BitVec.ofNat 64 i) = true) :
    s.storeTrap a n ea = some (s.issTrap 0x07 ea 0 a) := by
  obtain ⟨i, hi, hg⟩ := h
  have hany : ((List.range n).any fun i => s.guarded s.iss.ctx (ea + BitVec.ofNat 64 i)) = true :=
    List.any_eq_true.2 ⟨i, List.mem_range.2 hi, hg⟩
  rw [State.storeTrap, State.storeWindow, if_pos hany, Option.some_or]

/-- A store to a platform raises a race with ACC 3 (R274). -/
theorem State.storeTrap_of_platform {b : BitVec 8} {a : Nat} (hsp : spaceOf ea = .localSp a)
    (hg : ∀ i, i < n → s.guarded s.iss.ctx (ea + BitVec.ofNat 64 i) = false) (hplat : (s.platAt (clOf s.iss.ctx) a).isSome = true) :
    s.storeTrap b n ea = some (s.issTrap 0x07 ea 0 3) := by
  have hany : ¬((List.range n).any fun i => s.guarded s.iss.ctx (ea + BitVec.ofNat 64 i)) = true := by
    rw [Bool.not_eq_true, List.any_eq_false]
    exact fun i hi => by simp [hg i (List.mem_range.1 hi)]
  rw [State.storeTrap, State.storeWindow, if_neg hany, Option.none_or, hsp]
  exact if_pos hplat

end

theorem exec_st32 (s : State) (t b : BitVec 5) (o : BitVec 16) : exec (.st32 t b o) s =
    s.storeAt {} 4 [(s.rs b + BitVec.ofInt 64 (o.toInt * 4), leBytes 4 (s.rs t).toNat)] := rfl

/-- Settles O23: a load waits or raises what its first granule does (`State.loadAt_of_elementTrap`), a store by the order of
its checks. -/
theorem accessesThatTrapOrWait : Obligations.AccessesThatTrapOrWait := by
  unfold Obligations.AccessesThatTrapOrWait
  refine ⟨?_, ?_⟩
  · intro s t b o c ea hal hacc hpaid
    have hblock : ∀ {ls gs cs}, s.loadAt {} 8 [ea] = .block ls gs cs →
        exec (.ldI64 t b o) s = .next (s.blocked .loadBlock ls gs cs []) := fun h => by
      rw [exec_ldI64, h]
      rfl
    have htrap : ∀ {x}, s.loadAt {} 8 [ea] = .trap x → exec (.ldI64 t b o) s = .next (s.raise x) := fun h => by
      rw [exec_ldI64, h]
      rfl
    refine ⟨fun hheld hfence hname => ?_, fun hfence => ⟨fun hsp => ⟨fun r lv hx => ?_, fun hx => ?_, fun m e hx hheld hline => ?_⟩,
      fun a hsp hpois => ⟨fun pn hplat hpub hstall => ?_, fun g tag hplat hsync hconf => ?_⟩⟩⟩
    · obtain ⟨lines, h⟩ := State.loadAt_of_fenced (acc := {}) hpaid hheld hfence hname
      exact ⟨lines, hblock h⟩
    · exact htrap (State.loadAt_of_untranslated (by decide) (by decide) hal hpaid hfence hacc hsp hx (by simp))
    · exact htrap (State.loadAt_of_untranslated (by decide) (by decide) hal hpaid hfence hacc hsp hx (by simp))
    · have hname : s.nameable {} 8 ea = true := by simp [State.nameable, hsp, hal]
      obtain ⟨hl, hg⟩ := State.loadGran_asks_of_absent hsp hx hheld hline
      obtain ⟨checks, h⟩ := State.loadAt_of_line hpaid rfl hname hfence
        (State.granules_eaRun (by decide) (State.inOneGranule_of_global hsp (by decide) hal)) hl hg
      exact ⟨checks, hblock h⟩
    · refine htrap (State.loadAt_of_localTrap (by decide) (by decide) hal hpaid hfence hacc hsp ?_)
      simp [State.loadGran, hsp, hpois, State.loadLocal, hplat, hstall, State.frontTrap, hpub, c]
    · refine htrap (State.loadAt_of_localTrap (by decide) (by decide) hal hpaid hfence hacc hsp ?_)
      simp [State.loadGran, hsp, hpois, State.loadLocal, hplat, State.loadTagged, hsync, hconf, c]
  · intro s t b o c ea out
    have hlen : (leBytes 4 (s.rs t).toNat).length = 4 := by simp
    rw [show out = s.storeAt {} 4 [(ea, leBytes 4 (s.rs t).toNat)] from exec_st32 s t b o]
    refine ⟨fun hfull => State.storeAt_of_full hfull, fun hfull => ⟨fun hname => State.storeAt_of_not_nameable hfull hname, fun hname =>
      ⟨fun hg => ?_, fun a hsp hg hplat => ?_⟩⟩⟩
    · exact State.storeAt_of_storeTrap hfull hname (hlen ▸ State.storeTrap_of_guarded hg)
    · exact State.storeAt_of_storeTrap hfull hname (hlen ▸ State.storeTrap_of_platform hsp hg hplat)

end Sys2Proof.Machine
end

section
/-! A released store rewrites the record of its context where a load of the context has been checked (R195): in a list of contexts that
is out of order the record is entered a second time (O47). -/

namespace Sys2Proof.Machine

/-- The records of contexts 1 and 0, in that order; the home has answered the check of a load of context 0, of no bytes. -/
def unorderedContexts : State :=
  { State.reset with ctxs := [(1, Ctx.idle), (0, { Ctx.idle with checked := [(0, [])] })] }

/-- A withheld store of one byte, 1, to the first byte of the scratchpad. -/
def firstByteStore : Entry := { pc := 0, slot := 6, k := .store [(2 ^ 56, 1)] 0 0, ord := 0 }

/-- The release puts a second record of context 0 in front. -/
theorem ctxs_perform_unorderedContexts :
    (unorderedContexts.perform 0 0 [firstByteStore]).ctxs.map (·.1) = [0, 1, 0] := by decide +kernel

/-- Refutes O47, in its clause that the release of a store leaves the list of contexts as it is: the statement takes states whose list
is not in ascending order, too. There `State.recheck`, which the release of every store comes to and which changes nothing of the
record when no global byte is stored, enters the unchanged record of the context before the greater one that stands first. In a list
in order it takes its own place again. -/
theorem not_releasedStoresAndAtomics : ¬ Obligations.ReleasedStoresAndAtomics := by
  unfold Obligations.ReleasedStoresAndAtomics
  rintro ⟨stores, -⟩
  have localByte : ∀ p ∈ [((2 ^ 56 : Nat), (1 : Byte))], p.1 < 2 ^ 64 ∧ ∃ a, spaceOf (BitVec.ofNat 64 p.1) = .localSp a ∧
      unorderedContexts.isBarrier 0 a = false ∧ unorderedContexts.syncAt 0 a = false := by
    rw [List.forall_mem_singleton]
    exact ⟨by decide, 0, by decide, rfl, rfl⟩
  have taken : unorderedContexts.homeCheck 0 .store 0 6 [BitVec.ofNat 64 (2 ^ 56)] = none := by decide +kernel
  obtain ⟨-, -, same, -⟩ := stores unorderedContexts firstByteStore [(2 ^ 56, 1)] 0 0 rfl rfl (List.cons_ne_nil _ _) localByte rfl
    ⟨by decide, rfl, by simp [unorderedContexts, State.reset], by decide +kernel, by simp [unorderedContexts, State.reset]⟩ taken
  have keys := ctxs_perform_unorderedContexts
  rw [show (unorderedContexts.perform 0 0 [firstByteStore]).ctxs = unorderedContexts.ctxs from same] at keys
  exact absurd keys (by decide)

end Sys2Proof.Machine
end

section
/-! Vector loads, strided, gathered and described: what each granule needs and leaves, and the lanes that a load writes (O21). -/

namespace Sys2Proof.Machine

/-! ### Loads whose granules are all ready -/

/-- Whether the load of a granule waits for nothing and raises nothing. -/
def GLoad.ready (g : GLoad) : Prop := g.line = none ∧ g.gran = none ∧ g.check = none ∧ g.trap = none

/-- Whether the n bytes at an address are an element that a load of any space takes now. -/
structure State.elementReady (s : State) (n : Nat) (ea : Word) : Prop where
  nameable : s.nameable {} n ea = true
  free : s.loadsFree n ea
  oneGranule : s.inOneGranule s.iss.ctx n ea
  ready : (s.loadGran ea).ready

/-- The same where the load does not take windows. -/
theorem State.loadAt_narrow {s : State} {n : Nat} {ea : Word} (h : s.nameable { win := false } n ea = true) :
    s.loadAt { win := false } n [ea] = s.loadAt {} n [ea] := by
  have hall : s.nameable {} n ea = true := by
    simp only [State.nameable, Bool.and_eq_true] at h ⊢
    refine ⟨h.1, ?_⟩
    revert h
    cases spaceOf ea <;> simp
  simp [State.loadAt, h, hall]

theorem foldl_max_le_iff {l : List Nat} {a b : Nat} : l.foldl max a ≤ b ↔ a ≤ b ∧ ∀ x ∈ l, x ≤ b := by
  induction l generalizing a with
  | nil => simp
  | cons x l ih =>
    rw [List.foldl_cons, ih, Nat.max_le, List.forall_mem_cons, and_assoc]

theorem foldl_max_eq_of_mem {l : List Nat} {b : Nat} (hb : b ∈ l) (h : ∀ x ∈ l, x ≤ b) : l.foldl max 0 = b :=
  le_antisymm (foldl_max_le_iff.2 ⟨Nat.zero_le b, h⟩) ((foldl_max_le_iff.1 le_rfl).2 b hb)

theorem exists_mem_foldl_keepFirst {α : Type} {same : α → α → Bool} (hself : ∀ x, same x x = true) {acc xs : List α} {x : α}
    (h : x ∈ xs) : ∃ y ∈ xs.foldl (keepFirst same) acc, same y x = true := by
  induction xs generalizing acc with
  | nil => cases h
  | cons y ys ih =>
    obtain rfl | h := List.mem_cons.1 h
    · have hin : ∃ z ∈ keepFirst same acc x, same z x = true := by
        unfold keepFirst
        split
        next hany => exact List.any_eq_true.1 hany
        next => exact ⟨x, by simp, hself x⟩
      obtain ⟨z, hz, hzx⟩ := hin
      exact ⟨z, subset_foldl_keepFirst _ ys hz, hzx⟩
    · exact ih h

section
variable {s : State} {n : Nat} {eas : List Word}

/-- The granules of ready elements are those of their first bytes. -/
theorem State.granules_of_elementReady (hn : 0 < n) (h : ∀ ea ∈ eas, s.elementReady n ea) :
    s.granules s.iss.ctx (eas.flatMap fun ea => eaRun ea n) = s.granules s.iss.ctx eas :=
  State.granules_eaRuns hn fun ea hea => (h ea hea).oneGranule

/-- Each address has its granule among those of a list. -/
theorem State.exists_granule {c : Nat} {ea : Word} (h : ea ∈ eas) : ∃ g ∈ s.granules c eas, g.toNat / 64 = ea.toNat / 64 := by
  rw [s.granules_eq]
  obtain ⟨g, hg, hsame⟩ := exists_mem_foldl_keepFirst (same := s.sameGranule c) (by simp [State.sameGranule]) (acc := []) h
  simp only [State.sameGranule, Bool.and_eq_true, decide_eq_true_eq] at hsame
  exact ⟨g, hg, hsame.1⟩

theorem State.elementTrap_of_ready {ea : Word} (hn : 0 < n) (h : s.elementReady n ea) : s.elementTrap n ea = none := by
  obtain ⟨-, -, -, htrap⟩ := h.ready
  simp [State.elementTrap, h.free.1, State.granules_eaRun hn h.oneGranule, htrap]

/-- A load of ready elements issues at the latency of its slowest granule (R87, R196). -/
theorem State.loadAt_of_elementReady (hn : 0 < n) (hne : eas ≠ []) (h : ∀ ea ∈ eas, s.elementReady n ea) :
    s.loadAt {} n eas = .ok (((s.granules s.iss.ctx eas).map fun ea => (s.loadGran ea).lat).foldl max 0)
      (s.loaded ((s.granules s.iss.ctx eas).map s.loadGran)) := by
  have hgood : eas.filter (s.nameable {} n) = eas := List.filter_eq_self.2 fun ea hea => (h ea hea).nameable
  have hbad : eas.find? (fun ea => !s.nameable {} n ea) = none := List.find?_eq_none.2 fun ea hea => by simp [(h ea hea).nameable]
  have htrap : eas.findSome? (s.elementTrap n) = none := List.findSome?_eq_none_iff.2 fun ea hea => State.elementTrap_of_ready hn (h ea hea)
  obtain ⟨-, hfence, hpaid⟩ : s.loadsFree n (eas.head hne) := (h _ (List.head_mem hne)).free
  have hnil : ∀ f : GLoad → Option Nat, (∀ ea ∈ eas, f (s.loadGran ea) = none) →
      ((s.granules s.iss.ctx eas).map s.loadGran).filterMap f = [] := fun f hf =>
    List.filterMap_eq_nil_iff.2 (List.forall_mem_map.2 fun ea hea => hf ea (State.mem_of_mem_granules hea))
  have hline := hnil (·.line) fun ea hea => (h ea hea).ready.1
  have hgran := hnil (·.gran) fun ea hea => (h ea hea).ready.2.1
  have hcheck := hnil (·.check) fun ea hea => (h ea hea).ready.2.2.1
  unfold State.loadAt
  rw [hpaid]
  simp only [hgood, State.granules_of_elementReady hn h, hbad, hfence, htrap, hline, hgran, hcheck, Bool.false_eq_true, if_false,
    Bool.and_false, List.dedup_nil, List.map_nil, ne_eq, not_true_eq_false, or_self, List.map_map]
  rfl

/-! ### Scratchpad granules, of the cluster or behind windows (R190, R196) -/

/-- An element in a scratchpad that a load takes now, in lat cycles, its read registered where its granule is plain. -/
structure State.scratchReady (s : State) (n : Nat) (ea : Word) (lat : Nat) : Prop extends s.elementReady n ea where
  lat_eq : (s.loadGran ea).lat = lat
  tlb : (s.loadGran ea).tlb = []
  used : (s.loadGran ea).used = []
  reg : (s.loadGran ea).reg = (s.readGran ea).toList.map fun g => (s.party s.iss.ctx, g)
  clear : ∀ k ∈ (s.loadGran ea).sp, ∀ x ∈ s.corr, x < k ∨ k + 64 ≤ x

theorem State.scratchReady_of_loadsLocal {ea : Word} {a : Nat} (hn : 0 < n) (hdvd : n ∣ 64) (h : s.loadsLocal n ea a) :
    s.scratchReady n ea 6 := by
  have hgran := State.loadGran_of_loadsLocal hn h
  have hone := State.inOneGranule_of_loadsLocal hdvd h
  have hname := State.nameable_of_loadsLocal (acc := {}) rfl h
  obtain ⟨hsp, -, hfree, ⟨-, hcorr⟩, -⟩ := h
  refine ⟨⟨hname, hfree, hone, ?_⟩, ?_, ?_, ?_, ?_, ?_⟩
  · rw [hgran]
    exact ⟨rfl, rfl, rfl, rfl⟩
  · rw [hgran, State.localLoad]
  · rw [hgran, State.localLoad]
  · rw [hgran, State.localLoad]
  · rw [hgran, State.localLoad, State.localReads, State.readGran, hsp]
    by_cases hplain : s.plainAt (clOf s.iss.ctx) a = true <;> simp [hplain]
  · rw [hgran]
    exact List.forall_mem_singleton.2 hcorr

/-- The address of a byte behind a window, by its number. -/
theorem toNat_of_window {ea : Word} {w a : Nat} (h : spaceOf ea = .window w a) :
    ea.toNat = (0x20 + w) * 2 ^ 56 + a ∧ a < 2 ^ 23 ∧ w < 32 := by
  have hlt := ea.isLt
  simp only [spaceOf, fld, bits_eq] at h
  split_ifs at h with h0 h1 h2 h3 h4
  obtain ⟨rfl, rfl⟩ := Space.window.inj h
  refine ⟨?_, ?_, ?_⟩ <;> omega

theorem spaceOf_window {ea : Word} {w a : Nat} (h : ea.toNat = (0x20 + w) * 2 ^ 56 + a) (ha : a < 2 ^ 23) (hw : w < 32) :
    spaceOf ea = .window w a := by
  have hlo : ea.toNat / 2 ^ 0 % 2 ^ 56 = a := by omega
  have hhi : ea.toNat / 2 ^ 56 % 2 ^ 8 = 0x20 + w := by omega
  have h0 : ¬0x20 + w = 0 := by omega
  have h1 : ¬0x20 + w = 1 := by omega
  have h2 : 0x20 ≤ 0x20 + w ∧ 0x20 + w ≤ 0x3F := by omega
  simp only [spaceOf, fld, bits_eq, hlo, hhi, if_neg h0, if_neg h1, if_pos h2, if_pos ha, Nat.add_sub_cancel_left]

theorem window_add {ea : Word} {w a i : Nat} (h : spaceOf ea = .window w a) (hdvd : n ∣ 64) (hal : ea.toNat % n = 0) (hi : i < n) :
    spaceOf (ea + BitVec.ofNat 64 i) = .window w (a + i) := by
  obtain ⟨hea, ha, hw⟩ := toNat_of_window h
  obtain ⟨hadd, hline⟩ := line_add hdvd hal hi
  exact spaceOf_window (by omega) (by omega) hw

/-- What the load of a fetched granule behind window w from byte a on comes to, where nothing stands before it. -/
def State.windowLoad (s : State) (w a : Nat) : GLoad :=
  let x := s.win s.iss.ctx w
  { lat := 10
    sp := if x.mod = s.modNo then [spKey x.peer (a / 64 * 64)] else []
    reg := if x.mod = s.modNo ∧ s.plainAt x.peer a then [(s.party s.iss.ctx, s.spGran x.peer a)] else [] }

/-- A load behind a window of a byte that the context may load waits for nothing and raises nothing. -/
theorem State.loadGran_of_loadsWindow {ea : Word} {w a : Nat} (hn : 0 < n) (h : s.loadsWindow n ea w a) :
    s.loadGran ea = s.windowLoad w a := by
  obtain ⟨hsp, -, -, hbuf, hans, -, hpeer⟩ := h
  have hfetched : (!(s.iss.held || s.cur.remote.contains (w * 2 ^ 23 + a / 64))) = false := by
    obtain hheld | hin := hbuf
    · simp [hheld]
    · rw [List.contains_iff_mem.2 hin, Bool.or_true, Bool.not_true]
  have hkept : s.cur.raceAns.find? (fun t => decide (t.1 = 2 ^ 60 + (w * 2 ^ 23 + a / 64))) = none :=
    List.find?_eq_none.2 fun t ht => by simpa using hans t ht
  simp only [State.loadGran, hsp, hfetched, hkept, Bool.false_eq_true, if_false, State.windowLoad]
  by_cases hmod : (s.win s.iss.ctx w).mod = s.modNo
  case neg => simp only [hmod, if_false, false_and]
  obtain ⟨⟨hpois, -⟩, b, hsync, hmay⟩ := hpeer hmod
  have hb : s.syncAt (s.win s.iss.ctx w).peer a = b := hsync 0 hn
  simp only [hmod, if_true, true_and, hpois, State.loadFetched, State.plainAt, hb]
  cases hplat : s.platAt (s.win s.iss.ctx w).peer a with
  | some pn => simp
  | none =>
    cases b with
    | true =>
      have hdet : s.detOf s.iss.ctx = false := by simpa [hplat] using hmay
      simp [State.loadTagged, hb, hdet]
    | false =>
      have hfree : s.conflict (s.party s.iss.ctx) .load [s.spGran (s.win s.iss.ctx w).peer a] = none := by simpa [hplat] using hmay
      simp [State.loadTagged, hb, hfree]

theorem State.scratchReady_of_loadsWindow {ea : Word} {w a : Nat} (hn : 0 < n) (hdvd : n ∣ 64) (h : s.loadsWindow n ea w a) :
    s.scratchReady n ea 10 := by
  have hgran := State.loadGran_of_loadsWindow hn h
  obtain ⟨hsp, hal, hvalid, -, -, hfree, hpeer⟩ := h
  refine ⟨⟨?_, hfree, fun i hi => ⟨(line_add hdvd hal hi).2, ?_⟩, ?_⟩, ?_, ?_, ?_, ?_, ?_⟩
  · simp [State.nameable, hsp, hal, hvalid]
  · simp only [State.syncByte, hsp, window_add hsp hdvd hal hi]
    by_cases hmod : (s.win s.iss.ctx w).mod = s.modNo
    case neg => simp [hmod]
    obtain ⟨-, b, hsync, -⟩ := hpeer hmod
    rw [hsync i hi, show s.syncAt (s.win s.iss.ctx w).peer a = b from hsync 0 hn]
  · rw [hgran]
    exact ⟨rfl, rfl, rfl, rfl⟩
  · rw [hgran, State.windowLoad]
  · rw [hgran, State.windowLoad]
  · rw [hgran, State.windowLoad]
  · simp only [hgran, State.windowLoad, State.readGran, hsp]
    split <;> rfl
  · simp only [hgran, State.windowLoad]
    split
    next hmod => exact List.forall_mem_singleton.2 (hpeer hmod).1.2
    next => simp

/-- What granules in scratchpads leave: their reads registered. -/
theorem State.loaded_of_scratchReady (h : ∀ ea ∈ eas, ∃ lat, s.scratchReady n ea lat) :
    s.loaded ((s.granules s.iss.ctx eas).map s.loadGran) = s.readAll eas := by
  have hgran : ∀ ea ∈ s.granules s.iss.ctx eas, ∃ lat, s.scratchReady n ea lat := fun ea hea => h ea (State.mem_of_mem_granules hea)
  rw [State.readAll, State.readGrans_eq]
  generalize s.granules s.iss.ctx eas = gs at hgran
  have hnil : ∀ {β : Type} (f : GLoad → List β), (∀ ea ∈ gs, f (s.loadGran ea) = []) → (gs.map s.loadGran).flatMap f = [] :=
    fun f hf => List.flatMap_eq_nil_iff.2 (List.forall_mem_map.2 hf)
  have htlb := hnil (·.tlb) fun ea hea => (hgran ea hea).elim fun _ hr => hr.tlb
  have hused := hnil (·.used) fun ea hea => (hgran ea hea).elim fun _ hr => hr.used
  have hreg : (gs.map s.loadGran).flatMap (·.reg) = (gs.filterMap s.readGran).map fun g => (s.party s.iss.ctx, g) := by
    clear hnil htlb hused
    induction gs with
    | nil => rfl
    | cons ea gs ih =>
      obtain ⟨⟨_, hr⟩, hgs⟩ := List.forall_mem_cons.1 hgran
      rw [List.map_cons, List.flatMap_cons, ih hgs, hr.reg, List.filterMap_cons]
      cases s.readGran ea <;> rfl
  have hclear : ∀ k ∈ (gs.map s.loadGran).flatMap (·.sp), ∀ x ∈ s.corr, x < k ∨ k + 64 ≤ x := by
    intro k hk
    obtain ⟨g, hg, hkg⟩ := List.mem_flatMap.1 hk
    obtain ⟨ea, hea, rfl⟩ := List.mem_map.1 hg
    exact (hgran ea hea).elim fun _ hr => hr.clear k hkg
  simp only [State.loaded, htlb, hused, hreg, List.foldl_nil, State.foldl_register]
  exact State.foldl_corrected_of_clear (by rwa [State.register_corr])

/-- A load of scratchpad addresses, one of them behind a window, issues at 10 cy (R196). -/
theorem State.loadAt_of_loadsWindow (hn : 0 < n) (hdvd : n ∣ 64) (hfar : ∃ ea ∈ eas, ∃ w a, s.loadsWindow n ea w a)
    (h : ∀ ea ∈ eas, (∃ w a, s.loadsWindow n ea w a) ∨ ∃ a, s.loadsLocal n ea a) : s.loadAt {} n eas = .ok 10 (s.readAll eas) := by
  have hready : ∀ ea ∈ eas, ∃ lat, s.scratchReady n ea lat := fun ea hea => (h ea hea).elim
    (fun ⟨_, _, hw⟩ => ⟨10, State.scratchReady_of_loadsWindow hn hdvd hw⟩)
    (fun ⟨_, hl⟩ => ⟨6, State.scratchReady_of_loadsLocal hn hdvd hl⟩)
  obtain ⟨ea, hea, w, a, hwin⟩ := hfar
  rw [State.loadAt_of_elementReady hn (List.ne_nil_of_mem hea) fun ea hea => (hready ea hea).elim fun _ hr => hr.toelementReady,
    State.loaded_of_scratchReady hready]
  have hmax : ((s.granules s.iss.ctx eas).map fun ea => (s.loadGran ea).lat).foldl max 0 = 10 := by
    refine foldl_max_eq_of_mem ?_ (List.forall_mem_map.2 fun g hg => ?_)
    · obtain ⟨g, hg, hline⟩ := State.exists_granule (s := s) (c := s.iss.ctx) hea
      refine List.mem_map.2 ⟨g, hg, ?_⟩
      obtain ⟨_, _, hw⟩ | ⟨_, hl⟩ := h g (State.mem_of_mem_granules hg)
      · exact (State.scratchReady_of_loadsWindow hn hdvd hw).lat_eq
      · obtain ⟨hfar, -, -⟩ := toNat_of_window hwin.1
        obtain ⟨hnear, hlow⟩ := toNat_of_localSp hl.1
        exact absurd hline (by omega)
    · obtain ⟨_, _, hw⟩ | ⟨_, hl⟩ := h g (State.mem_of_mem_granules hg)
      · exact (State.scratchReady_of_loadsWindow hn hdvd hw).lat_eq.le
      · exact (State.scratchReady_of_loadsLocal hn hdvd hl).lat_eq.le.trans (by decide)
  rw [hmax]

end

/-! ### Global granules (R190) -/

theorem State.rasLog_corr (s : State) (u ty a n : Nat) : (s.rasLog u ty a n).corr = s.corr := by
  unfold State.rasLog
  dsimp only
  split
  · rfl
  · obtain ⟨m, o, h⟩ := s.write_eq (bs := runAt ((s.region 13).1 + 32 * (s.luvex.rasPos % 4096)) (leBytes 8 s.ns ++ leBytes 2 u ++
      leBytes 1 ty ++ leBytes 1 0 ++ leBytes 8 a ++ leBytes 4 n ++ List.replicate 8 0))
    exact (congrArg State.corr h :)

theorem State.retireFrame_corr (s : State) (f n : Nat) : (s.retireFrame f n).corr = s.corr := by
  unfold State.retireFrame
  dsimp only
  split_ifs
  · rfl
  · rfl
  · exact (congrArg State.corr (State.write_eq _ _).choose_spec.choose_spec :)

/-- Reading corrects errors; it makes none (R427). -/
theorem State.corrected_corr_subset (s : State) (d k n : Nat) : (s.corrected d k n).corr ⊆ s.corr := by
  unfold State.corrected
  refine List.foldlRecOn (motive := fun t : State => t.corr ⊆ s.corr) _ _ (List.Subset.refl _) fun t ht a _ => ?_
  dsimp only
  split
  · rw [State.retireFrame_corr, State.rasLog_corr]
    exact List.Subset.trans List.erase_subset ht
  · rw [State.rasLog_corr]
    exact List.Subset.trans List.erase_subset ht

theorem State.learn_corr_subset (s : State) (e : Tlb) : (s.learn e).corr ⊆ s.corr := by
  unfold State.learn
  split
  · exact List.Subset.refl _
  · unfold State.walkCorrected
    exact List.foldlRecOn (motive := fun t : State => t.corr ⊆ s.corr) _ _ (List.Subset.refl _) fun t ht a _ =>
      List.Subset.trans (t.corrected_corr_subset _ _ _) ht

theorem State.foldl_learn_corr_subset (s : State) (es : List Tlb) : (es.foldl State.learn s).corr ⊆ s.corr :=
  List.foldlRecOn (motive := fun t : State => t.corr ⊆ s.corr) _ _ (List.Subset.refl _) fun t ht e _ =>
    List.Subset.trans (t.learn_corr_subset e) ht

theorem State.foldl_learn_iss (s : State) (es : List Tlb) : (es.foldl State.learn s).iss = s.iss :=
  List.foldlRecOn (motive := fun t : State => t.iss = s.iss) _ _ rfl fun t ht e _ => (t.learn_iss e).trans ht

theorem State.foldl_touch_iss (s : State) (c : Nat) (ls : List Nat) : (ls.foldl (fun u l => u.touch c l) s).iss = s.iss :=
  List.foldlRecOn (motive := fun t : State => t.iss = s.iss) _ _ rfl fun _ ht _ _ => ht

/-- The use of lines without errors corrects nothing. -/
theorem State.foldl_touch_of_clear {s : State} {c d : Nat} {ls : List Nat} (hc : s.iss.ctx = c)
    (h : ∀ l ∈ ls, ∀ x ∈ s.corr, x < 64 * l ∨ 64 * l + 64 ≤ x) :
    ls.foldl (fun u l => (u.touch u.iss.ctx l).corrected d (64 * l) 64) s = ls.foldl (fun u l => u.touch c l) s := by
  induction ls generalizing s with
  | nil => rfl
  | cons l ls ih =>
    obtain ⟨hl, hls⟩ := List.forall_mem_cons.1 h
    rw [List.foldl_cons, List.foldl_cons, State.corrected_of_clear (s := s.touch s.iss.ctx l) hl, hc]
    exact ih hc hls

section
variable {s : State} {n : Nat} {eas : List Word}

/-- Global bytes are all of one kind, so that their granules are their lines. -/
theorem State.granules_of_global {c : Nat} (h : ∀ ea ∈ eas, s.syncByte c ea = false) : s.granules c eas = firstOfGranule eas := by
  suffices hacc : ∀ acc : List Word, (∀ ea ∈ acc, s.syncByte c ea = false) →
      eas.foldl (fun acc ea => if acc.any fun e => e.toNat / 64 = ea.toNat / 64 && s.syncByte c e == s.syncByte c ea then acc
        else acc ++ [ea]) acc =
      eas.foldl (fun acc ea => if acc.any fun e => e.toNat / 64 = ea.toNat / 64 then acc else acc ++ [ea]) acc from
    hacc [] (by simp)
  induction eas with
  | nil => exact fun _ _ => rfl
  | cons ea eas ih =>
    obtain ⟨hea, heas⟩ := List.forall_mem_cons.1 h
    intro acc hacc
    have hany : (acc.any fun e => e.toNat / 64 = ea.toNat / 64 && s.syncByte c e == s.syncByte c ea) =
        acc.any fun e => e.toNat / 64 = ea.toNat / 64 := by
      rw [Bool.eq_iff_iff, List.any_eq_true, List.any_eq_true]
      exact exists_congr fun e => and_congr_right fun he => by simp [hacc e he, hea]
    rw [List.foldl_cons, List.foldl_cons, hany]
    refine ih heas _ ?_
    split
    · exact hacc
    · exact List.forall_mem_append.2 ⟨hacc, List.forall_mem_singleton.2 hea⟩

/-- A load of a global byte that the context may load waits for nothing and raises nothing. -/
theorem State.loadGran_of_loadsGlobal {ea : Word} {m : Nat} {e : Tlb} (h : s.loadsGlobal n ea m e) :
    s.loadGran ea = { tlb := [e], used := [m / 64], lat := s.loadLat s.iss.ctx } := by
  obtain ⟨hsp, -, hx, hline, hbad, ⟨hpois, -⟩, -, hmay⟩ := h
  have hhere : (s.iss.held || s.inL1 s.iss.ctx (lineOf m)) = true := (Bool.or_eq_true _ _).mpr hline
  have hkept : (s.cur.blocks.flatMap (·.bad)).find? (fun x => decide (x.1 = ea.toNat / 64 * 64)) = none :=
    List.find?_eq_none.2 fun x hx => by
      obtain ⟨b, hb, hxb⟩ := List.mem_flatMap.1 hx
      simpa using hbad b hb x hxb
  simp only [State.loadGran, hsp, hx, hhere, hkept, hpois, if_true]
  by_cases hsync : e.sync = true
  · have hdet : s.detOf s.iss.ctx = false := by simpa [hsync] using hmay
    simp [hsync, hdet, lineOf]
  · simp only [hsync, Bool.false_eq_true, if_false, Bool.and_eq_true] at hmay ⊢
    obtain ⟨hrd, hhome⟩ := hmay
    simp only [hrd, Bool.not_true, Bool.false_eq_true, if_false]
    cases hchk : s.cur.checked.find? (fun x => decide (x.1 = lineOf m)) with
    | none =>
      rw [show s.cur.checked.find? (fun x => decide (x.1 = m / 64)) = none from hchk] at hhome
      simp only [hhome, Bool.true_or, if_true]
      rfl
    | some x =>
      rw [show s.cur.checked.find? (fun x => decide (x.1 = m / 64)) = some x from hchk] at hhome
      obtain ⟨l, bs⟩ := x
      cases bs with
      | nil => cases hhome
      | cons b bs => rfl

theorem State.elementReady_of_loadsGlobal {ea : Word} {m : Nat} {e : Tlb} (hdvd : n ∣ 64) (h : s.loadsGlobal n ea m e) :
    s.elementReady n ea := by
  have hgran := State.loadGran_of_loadsGlobal h
  obtain ⟨hsp, hal, -, -, -, -, hfree, -⟩ := h
  refine ⟨?_, hfree, State.inOneGranule_of_global hsp hdvd hal, ?_⟩
  · simp [State.nameable, hsp, hal]
  · rw [hgran]
    exact ⟨rfl, rfl, rfl, rfl⟩

/-- A load of global addresses that the context may load issues at the latency of its cluster's L1, each page's translation held and
each line used (R87, R190, R378). -/
theorem State.loadAt_of_loadsGlobal {M : Word → Nat} {E : Word → Tlb} (hn : 0 < n) (hdvd : n ∣ 64) (hne : eas ≠ [])
    (h : ∀ ea ∈ eas, s.loadsGlobal n ea (M ea) (E ea)) :
    s.loadAt {} n eas = .ok (s.loadLat s.iss.ctx) (((firstOfGranule eas).map fun ea => M ea / 64).foldl (fun u l => u.touch s.iss.ctx l)
      (((firstOfGranule eas).map E).foldl State.learn s)) := by
  rw [State.loadAt_of_elementReady hn hne fun ea hea => State.elementReady_of_loadsGlobal hdvd (h ea hea)]
  have hne' : s.granules s.iss.ctx eas ≠ [] := by
    obtain ⟨ea, rest, rfl⟩ := List.exists_cons_of_ne_nil hne
    exact List.ne_nil_of_mem (State.mem_granules_cons ea rest)
  have hgs : s.granules s.iss.ctx eas = firstOfGranule eas := State.granules_of_global fun ea hea => by
    simp only [State.syncByte, (h ea hea).1]
  have hgran : ∀ ea ∈ s.granules s.iss.ctx eas, s.loadsGlobal n ea (M ea) (E ea) := fun ea hea => h ea (State.mem_of_mem_granules hea)
  rw [← hgs]
  generalize s.granules s.iss.ctx eas = gs at hgran hne'
  have hload : gs.map s.loadGran = gs.map fun ea => { tlb := [E ea], used := [M ea / 64], lat := s.loadLat s.iss.ctx } :=
    List.map_congr_left fun ea hea => State.loadGran_of_loadsGlobal (hgran ea hea)
  have hlat : (gs.map fun ea => (s.loadGran ea).lat) = List.replicate gs.length (s.loadLat s.iss.ctx) :=
    List.map_eq_replicate_iff.2 fun ea hea => by rw [State.loadGran_of_loadsGlobal (hgran ea hea)]
  have hnil : gs.flatMap (fun _ => ([] : List Nat)) = [] := by simp
  have hregs : gs.flatMap (fun _ => ([] : List (Party × Gran))) = [] := by simp
  rw [hlat, foldl_max_replicate, if_neg (mt List.length_eq_zero_iff.1 hne'), hload]
  simp only [State.loaded, List.flatMap_map, hnil, hregs, List.foldl_nil, ← List.map_eq_flatMap]
  rw [State.foldl_touch_of_clear (congrArg Issue.ctx (s.foldl_learn_iss _))]
  refine List.forall_mem_map.2 fun ea hea x hx => ?_
  obtain ⟨-, -, -, -, -, ⟨-, hclear⟩, -⟩ := hgran ea hea
  have hcx := hclear x (s.foldl_learn_corr_subset _ hx)
  omega

end

/-! ### The lanes that a vector load writes (R198 to R200) -/

theorem mem_activeLanes {w k : Nat} {p : PReg} : k ∈ activeLanes w p ↔ k < 2048 / w ∧ active w p k = true := by
  simp [activeLanes]

theorem find?_activeLanes {w k : Nat} {p : PReg} (hk : k < 2048 / w) :
    (activeLanes w p).find? (fun j => decide (j = k)) = if active w p k then some k else none := by
  cases h : (activeLanes w p).find? (fun j => decide (j = k)) with
  | none =>
    have hno : k ∉ activeLanes w p := fun hin => by simpa using List.find?_eq_none.1 h k hin
    rw [if_neg fun ha => hno (mem_activeLanes.2 ⟨hk, ha⟩)]
  | some j =>
    obtain rfl : j = k := by simpa using List.find?_some h
    rw [if_pos (mem_activeLanes.1 (List.mem_of_find?_eq_some h)).2]

/-- The element of a lane among those of the active lanes. -/
theorem find?_elements {w k : Nat} {p : PReg} (at_ : Nat → Word) (hk : k < 2048 / w) :
    (((activeLanes w p).map fun k => (k, at_ k)).find? (·.1 = k)).map (·.2) = if active w p k then some (at_ k) else none := by
  have hmap : ((activeLanes w p).map fun k => (k, at_ k)).find? (·.1 = k) =
      ((activeLanes w p).find? fun j => decide (j = k)).map fun k => (k, at_ k) := List.find?_map
  rw [hmap, find?_activeLanes hk]
  split <;> rfl

/-- A vector load that issues writes its active lanes with what stands at their addresses. -/
theorem State.vload_lands {s u : State} {i : Instr} {t : BitVec 4} {w lat : Nat} {p : PReg} {at_ : Nat → Word} (hw : 8 ∣ w)
    (hact : activeLanes w p ≠ []) (hpaid : s.iss.paid = none) (hiss : u.iss = s.iss)
    (hload : s.loadAt {} (w / 8) ((activeLanes w p).map at_) = .ok lat u) :
    ∃ v, s.vload i t w ((activeLanes w p).map fun k => (k, at_ k)) = .next v ∧ LoadDone s u v i lat fun v =>
      ∃ x m : VReg, v = u.posted [(lat, .vec (s.vix t) x m)] ∧
        ∃ g : Nat → Nat, (∀ k ∈ activeLanes w p, s.readsAt (at_ k) (w / 8) (g k)) ∧
          (Eff.vec (s.vix t) x m).leavesLanes (s.vix t) w fun k old => if active w p k then g k else old := by
  have hels : ((activeLanes w p).map fun k => (k, at_ k)).map (·.2) = (activeLanes w p).map at_ := by
    rw [List.map_map]
    rfl
  have hvix : u.vix t = s.vix t := by rw [State.vix, hiss, State.vix]
  unfold State.vload
  rw [hels, hload]
  refine State.loadingOf_done hpaid ?_
  rw [if_neg (mt List.map_eq_nil_iff.1 hact), State.wv, hvix]
  refine ⟨_, _, rfl, fun k => s.loadNat (s.own s.iss.ctx) (at_ k) (w / 8), fun k _ => s.readsAt_loadNat _ _, fun v k hk => ?_⟩
  refine (Eff.leavesLanes_of_mask (s.vix_lt t) (fun k => active w p k = true) (fun k hk => ?_) v k hk).trans ?_
  · rw [laneN_mkLanes _ hk]
    beta_reduce
    rw [find?_elements at_ hk]
    by_cases ha : active w p k = true
    · rw [if_pos ha, if_pos ha]
      exact Nat.mod_eq_of_lt (Nat.sub_lt (Nat.two_pow_pos w) one_pos)
    · rw [if_neg ha, if_neg ha]
      exact Nat.zero_mod _
  · refine ite_congr rfl (fun ha => ?_) fun _ => rfl
    have hlt : s.loadNat (s.own s.iss.ctx) (at_ k) (w / 8) < 2 ^ w := by
      have h := (s.readsAt_loadNat (at_ k) (w / 8)).1
      rwa [show (256 : Nat) = 2 ^ 8 from rfl, ← pow_mul, Nat.mul_div_cancel' hw] at h
    rw [laneN_mkLanes _ hk]
    beta_reduce
    rw [find?_elements at_ hk, if_pos ha]
    exact Nat.mod_eq_of_lt hlt

/-- A vector load without an active element does nothing. -/
theorem State.vload_nil {s : State} {i : Instr} {t : BitVec 4} {w : Nat} (hpaid : s.iss.paid = none) :
    ∃ v, s.vload i t w [] = .next v ∧ LoadDone s s v i 0 fun v => v = s := by
  have hload : s.loadAt {} (w / 8) [] = .ok 0 s := by
    unfold State.loadAt
    rw [hpaid]
    simp [State.granules, State.loaded]
  unfold State.vload
  rw [List.map_nil, hload]
  exact State.loadingOf_done hpaid (if_pos rfl)

/-! ### Described loads (R201) -/

/-- The instruction that loads a half of a described block. -/
def vlddInstr (t : BitVec 4) (b p : BitVec 5) (o : BitVec 12) (hi : Bool) : Instr := if hi then .vlddHi t b p o else .vlddLo t b p o

theorem exec_vldd (s : State) (t : BitVec 4) (b p : BitVec 5) (o : BitVec 12) (hi : Bool) :
    exec (vlddInstr t b p o hi) s = s.vldd t b p o hi := by
  cases hi <;> rfl

/-- A described load that issues writes the active lanes of its half of the decoded block. -/
theorem State.vldd_lands {s u : State} {t : BitVec 4} {b p : BitVec 5} {o : BitVec 12} {hi : Bool} {lat : Nat}
    (hpaid : s.iss.paid = none) (hiss : u.iss = s.iss)
    (hload : s.loadAt { win := false } 64 [s.rs b + BitVec.ofInt 64 (o.toInt * 64)] = .ok lat u) :
    ∃ v, s.vldd t b p o hi = .next v ∧ LoadDone s u v (vlddInstr t b p o hi) lat fun v =>
      ∃ blk x m, s.readsAt (s.rs b + BitVec.ofInt 64 (o.toInt * 64)) 64 blk ∧
        (v = u.posted ((lat, .vec (s.vix t) x m) :: flagResult lat (describedLanes blk hi (s.rp p)).2.1 ++
          if (describedLanes blk hi (s.rp p)).2.2 = 0 then [] else [(lat, .mal (describedLanes blk hi (s.rp p)).2.2)])) ∧
        (Eff.vec (s.vix t) x m).leavesLanes (s.vix t) 32 fun k old =>
          if active 32 (s.rp p) k then laneN 32 (describedLanes blk hi (s.rp p)).1 k else old := by
  have hvix : u.vix t = s.vix t := by rw [State.vix, hiss, State.vix]
  have hload' : s.loadAt { win := false } 64 [s.blockEa b o] = .ok lat u := hload
  unfold State.vldd
  dsimp only
  rw [hload']
  refine State.loadingOf_done hpaid ⟨s.loadNat (s.own s.iss.ctx) (s.blockEa b o) 64, _, _, s.readsAt_loadNat _ _, ?_,
    Eff.leavesLanes_laneMask (s.vix_lt t) 32 _ _⟩
  rw [State.wf_posted, State.wv, hvix, List.cons_append, ← List.singleton_append, State.posted_append, State.posted_append]
  split <;> rfl

/-- The sizes of an element in bits and in bytes. -/
theorem Sz.bytes_spec (z : Sz) : 8 ∣ 8 * Sz.bytes z ∧ 0 < 8 * Sz.bytes z / 8 ∧ 8 * Sz.bytes z / 8 ∣ 64 := by
  cases z <;> decide

/-- Settles O21: the granules by `State.loadAt_of_loadsLocal`, `State.loadAt_of_loadsWindow` and `State.loadAt_of_loadsGlobal`, the lanes
by `State.vload_lands` and `State.vldd_lands`. -/
theorem vectorAndDescribedLoads : Obligations.VectorAndDescribedLoads := by
  unfold Obligations.VectorAndDescribedLoads
  refine ⟨?_, ?_⟩
  · intro s t ix b st p o z sg sc i w at_ a0 wz hform act eas lands far hname
    obtain ⟨⟨hw, hn, hdvd⟩, hexec⟩ : (8 ∣ w ∧ 0 < w / 8 ∧ w / 8 ∣ 64) ∧ exec i s = s.vload i t w (act.map fun k => (k, at_ k)) := by
      simp only [List.mem_cons, List.not_mem_nil, or_false, Prod.mk.injEq] at hform
      obtain ⟨rfl, rfl, rfl⟩ | ⟨rfl, rfl, rfl⟩ | ⟨rfl, rfl, rfl⟩ := hform
      · exact ⟨by decide, if_pos (hname rfl)⟩
      · exact ⟨Sz.bytes_spec z, rfl⟩
      · exact ⟨Sz.bytes_spec z, rfl⟩
    have hlands : ∀ {u : State} {lat : Nat}, act ≠ [] → s.iss.paid = none → u.iss = s.iss → s.loadAt {} (w / 8) eas = .ok lat u →
        lands u lat := fun hact hpaid hiss hload => by
      simp only [lands, hexec]
      exact State.vload_lands hw hact hpaid hiss hload
    have hreads : (s.readAll eas).iss = s.iss := (congrArg State.iss (s.register_offTags _ _ _) :)
    refine ⟨fun hact hpaid => ?_, fun hact hlocal => ?_, fun hfar hall => ?_, fun M E hact hglobal => ?_⟩
    · rw [hexec, hact]
      exact State.vload_nil hpaid
    · obtain ⟨k, hk⟩ := List.exists_mem_of_ne_nil act hact
      obtain ⟨a, -, -, ⟨-, -, hpaid⟩, -⟩ := hlocal k hk
      exact hlands hact hpaid hreads (State.loadAt_of_loadsLocal hn hdvd rfl rfl (mt List.map_eq_nil_iff.1 hact)
        (List.forall_mem_map.2 hlocal))
    · obtain ⟨k, hk, hkfar⟩ := hfar
      obtain ⟨_, _, -, -, -, -, -, ⟨-, -, hpaid⟩, -⟩ := id hkfar
      exact hlands (List.ne_nil_of_mem hk) hpaid hreads (State.loadAt_of_loadsWindow hn hdvd
        ⟨at_ k, List.mem_map_of_mem hk, hkfar⟩ (List.forall_mem_map.2 hall))
    · obtain ⟨k, hk⟩ := List.exists_mem_of_ne_nil act hact
      obtain ⟨-, -, -, -, -, -, ⟨-, -, hpaid⟩, -⟩ := hglobal k hk
      have hload := State.loadAt_of_loadsGlobal hn hdvd (mt List.map_eq_nil_iff.1 hact) (List.forall_mem_map.2 hglobal)
      rw [List.foldl_map, List.foldl_map] at hload
      refine hlands hact hpaid ?_ hload
      rw [← List.foldl_map (g := fun u l => State.touch u s.iss.ctx l), ← List.foldl_map (g := State.learn), State.foldl_touch_iss,
        State.foldl_learn_iss]
  · intro s t b p o i hi u lat hform ea off hload
    obtain rfl : i = vlddInstr t b p o hi := by
      simp only [List.mem_cons, List.not_mem_nil, or_false, Prod.mk.injEq] at hform
      obtain ⟨rfl, rfl⟩ | ⟨rfl, rfl⟩ := hform <;> rfl
    obtain ⟨hpaid, hiss, hok⟩ : s.iss.paid = none ∧ u.iss = s.iss ∧ s.loadAt { win := false } 64 [ea] = .ok lat u := by
      obtain ⟨⟨a, hlocal, rfl⟩, rfl⟩ | ⟨⟨m, e, hglobal, rfl⟩, rfl⟩ := hload
      · obtain ⟨-, -, ⟨-, -, hpaid⟩, -⟩ := id hlocal
        exact ⟨hpaid, (congrArg State.iss (s.register_offTags _ _ _) :), State.loadAt_of_loadsLocal (by decide) (by decide) rfl rfl
          (by simp) (List.forall_mem_singleton.2 ⟨a, hlocal⟩)⟩
      · obtain ⟨hsp, hal, -, -, -, -, ⟨-, -, hpaid⟩, -⟩ := id hglobal
        have hone := State.loadAt_of_loadsGlobal (M := fun _ => m) (E := fun _ => e) (by decide) (by decide) (List.cons_ne_nil ea [])
          (List.forall_mem_singleton.2 hglobal)
        have hname : s.nameable { win := false } 64 ea = true := by simp [State.nameable, hsp, hal]
        exact ⟨hpaid, s.learn_iss e, (State.loadAt_narrow hname).trans hone⟩
    obtain ⟨v, hv, hdone⟩ := State.vldd_lands (t := t) (p := p) (hi := hi) hpaid hiss hok
    refine ⟨v, (exec_vldd s t b p o hi).trans hv, fun hstall hlate => ?_, hdone.2⟩
    obtain ⟨blk, x, m, hread, hposts, hlanes⟩ := hdone.1 hstall hlate
    refine ⟨blk, x, m, _, _, hread, hposts, fun v k hk => (hlanes v k hk).trans (ite_congr rfl (fun _ => ?_) fun _ => rfl), ?_, ?_⟩
    · refine (laneN_mkLanes _ hk).trans ?_
      cases decodeWhole blk with
      | none => rfl
      | some xs => cases h : xs[off + k]? <;> simp [off, h]
    · refine congrArg orFlags (List.map_congr_left fun k _ => ?_)
      cases decodeWhole blk with
      | none => rfl
      | some xs => cases h : xs[off + k]? <;> simp [off, h]
    · rfl

end Sys2Proof.Machine
end

section
/-! Window writes, summaries, gathered adds and barrier operations arrive (O35). -/

namespace Sys2Proof.Machine

/-! ### Bytes that land -/

/-- Bytes of the scratchpad of cluster k, by their keys. -/
def spBytes (k : Nat) (bs : List (Nat × Byte)) : List (Nat × Byte) := bs.map fun p => (spKey k p.1, p.2)

/-- Whether memory m' holds the last byte for each key of bs, and is m elsewhere but for the keys that `but` names. -/
def Lands (bs : List (Nat × Byte)) (but : Nat → Prop) (m m' : List Host.Cell) : Prop :=
  (∀ q, q ∉ bs.map (·.1) → ¬but q → memRead m' q = memRead m q) ∧
  ∀ pre q b post, bs = pre ++ (q, b) :: post → q ∉ post.map (·.1) → memRead m' q = b

section
variable {m : List Host.Cell} (hm : Memory.wf m = true)
include hm

/-- The last byte written to a key stands. -/
theorem memRead_memPut_last (pre : List (Nat × Byte)) {post : List (Nat × Byte)} {q : Nat} (b : Byte) (h : q ∉ post.map (·.1)) :
    memRead (memPut m (pre ++ (q, b) :: post)) q = b := by
  have hw := memPut_wf pre hm
  have hpost : ∀ p ∈ post, p.1 ≠ q := fun p hp he => h (List.mem_map.2 ⟨p, hp, he⟩)
  rw [memPut, List.foldl_append, List.foldl_cons]
  change memRead (memPut (memWrite (memPut m pre) q b) post) q = b
  rw [memRead_memPut_ne (memWrite_wf q b hw) hpost, memRead_memWrite q b hw, if_pos rfl]

/-- Bytes that are written land, and what is written after them elsewhere leaves them. -/
theorem Lands.of_memPut {bs cs : List (Nat × Byte)} {but : Nat → Prop} (hbut : ∀ p ∈ cs, but p.1)
    (hapart : ∀ p ∈ cs, p.1 ∉ bs.map (·.1)) : Lands bs but m (memPut (memPut m bs) cs) := by
  have hw := memPut_wf bs hm
  refine ⟨fun q hq hno => ?_, fun pre q b post hbs hpost => ?_⟩
  · rw [memRead_memPut_ne hw fun p hp (he : p.1 = q) => hno (he ▸ hbut p hp),
      memRead_memPut_ne hm fun p hp he => hq (List.mem_map.2 ⟨p, hp, he⟩)]
  · have hin : q ∈ bs.map (·.1) := by simp [hbs]
    rw [memRead_memPut_ne hw fun p hp he => hapart p hp (he ▸ hin), hbs, memRead_memPut_last hm pre b hpost]

end

theorem lookLast_append (pre post : List (Nat × Byte)) (q : Nat) (b : Byte) (h : q ∉ post.map (·.1)) :
    lookLast (pre ++ (q, b) :: post) q = some b := by
  rw [lookLast, List.foldl_append, List.foldl_cons, if_pos rfl]
  induction post with
  | nil => rfl
  | cons p post ih =>
    rw [List.map_cons, List.mem_cons, not_or] at h
    rw [List.foldl_cons, if_neg (Ne.symm h.1)]
    exact ih h.2

/-- With no migration a write to scratchpads is all its bytes (R381). -/
theorem State.write_spKeys {s : State} {bs : List (Nat × Byte)} (hmig : s.migs = []) (h : ∀ p ∈ bs, 2 ^ 52 ≤ p.1) :
    s.write bs = s.put bs := by
  have hmirror : s.mirrored bs = [] := by
    rw [State.mirrored, hmig]
    rfl
  have hin : ∀ p ∈ bs, outsideKey p.1 = false := fun p hp => by
    rw [outsideKey, decide_eq_false (Nat.not_lt.2 (h p hp)), Bool.false_and]
  have hany : (bs.any fun p => outsideKey p.1) = false := List.any_eq_false.2 fun p hp => by simp [hin p hp]
  have hall : bs.filter (fun p => !outsideKey p.1) = bs := List.filter_eq_self.2 fun p hp => by simp [hin p hp]
  unfold State.write
  dsimp only
  rw [hmirror, List.append_nil, hany, hall]
  rfl

theorem le_spKey (k a : Nat) : 2 ^ 52 ≤ spKey k a := by
  unfold spKey
  omega

theorem State.write_spBytes {s : State} (hmig : s.migs = []) (k : Nat) (bs : List (Nat × Byte)) :
    s.write (spBytes k bs) = s.put (spBytes k bs) :=
  State.write_spKeys hmig (List.forall_mem_map.2 fun p _ => le_spKey k p.1)

/-! ### The copies in the remote buffer (R195) -/

/-- The key of a byte of a granule in the remote buffer. -/
def copyKey (c id i : Nat) : Nat := bufferKey c (id / 2 ^ 23) (id % 2 ^ 23 * 64 + i)

/-- Whether a key is one of the context's remote buffer, of a granule that it holds. -/
def State.buffered (s : State) (c q : Nat) : Prop := ∃ id ∈ (s.ctx c).remote,
  bufferKey c (id / 2 ^ 23) (id % 2 ^ 23 * 64) ≤ q ∧ q < bufferKey c (id / 2 ^ 23) (id % 2 ^ 23 * 64) + 64

/-- The bytes of the remote buffer that bytes written replace. -/
def State.copies (s : State) (c : Nat) (bs : List (Nat × Byte)) : List (Nat × Byte) :=
  (s.ctx c).remote.flatMap fun id => (List.range 64).filterMap fun i =>
    (lookLast bs (s.windowKey c (id / 2 ^ 23) (id % 2 ^ 23 * 64 + i))).map (copyKey c id i, ·)

theorem State.refresh_eq (s : State) (c : Nat) (bs : List (Nat × Byte)) : s.refresh c bs = s.put (s.copies c bs) := rfl

section
variable {s : State} {c : Nat} {bs : List (Nat × Byte)}

theorem State.mem_copies {p : Nat × Byte} : p ∈ s.copies c bs ↔ ∃ id ∈ (s.ctx c).remote, ∃ i < 64,
    lookLast bs (s.windowKey c (id / 2 ^ 23) (id % 2 ^ 23 * 64 + i)) = some p.2 ∧ copyKey c id i = p.1 := by
  obtain ⟨q, b⟩ := p
  simp only [State.copies, List.mem_flatMap, List.mem_filterMap, List.mem_range, Option.map_eq_some_iff, Prod.mk.injEq]
  refine exists_congr fun id => and_congr_right fun _ => exists_congr fun i => and_congr_right fun _ => ?_
  constructor
  · rintro ⟨b', hb, hq, rfl⟩
    exact ⟨hb, hq⟩
  · rintro ⟨hb, hq⟩
    exact ⟨b, hb, hq, rfl⟩

theorem State.buffered_of_copies {p : Nat × Byte} (h : p ∈ s.copies c bs) : s.buffered c p.1 ∧ 2 ^ 53 ≤ p.1 := by
  obtain ⟨id, hid, i, hi, -, hq⟩ := State.mem_copies.1 h
  unfold copyKey bufferKey at hq
  refine ⟨⟨id, hid, ?_, ?_⟩, ?_⟩
  · unfold bufferKey
    omega
  · unfold bufferKey
    omega
  · omega

/-- What the copies are depends on the granules that the context holds and on its windows. -/
theorem State.copies_congr {t : State} (hremote : (t.ctx c).remote = (s.ctx c).remote) (hwins : (t.ctx c).win = (s.ctx c).win)
    (hpod : t.luvex = s.luvex) : t.copies c bs = s.copies c bs := by
  have hwin : ∀ w, t.win c w = s.win c w := fun w => by
    unfold State.win
    rw [hwins]
  have hmod : t.modNo = s.modNo := by
    unfold State.modNo
    rw [hpod]
  have hkey : ∀ w a, t.windowKey c w a = s.windowKey c w a := fun w a => by
    unfold State.windowKey State.windowOf
    simp only [hwin, hmod]
  unfold State.copies
  simp only [hremote, hkey]

/-- A byte of the remote buffer whose window shows a byte that was written takes it. -/
theorem memRead_copies {m : List Host.Cell} {pre post : List (Nat × Byte)} {id i q : Nat} {b : Byte} (hm : Memory.wf m = true)
    (hlow : ∀ id ∈ (s.ctx c).remote, id % 2 ^ 23 < 2 ^ 17) (hid : id ∈ (s.ctx c).remote) (hi : i < 64)
    (hpost : q ∉ post.map (·.1)) (hkey : s.windowKey c (id / 2 ^ 23) (id % 2 ^ 23 * 64 + i) = q) :
    memRead (memPut m (s.copies c (pre ++ (q, b) :: post))) (copyKey c id i) = b := by
  have hlast := lookLast_append pre post q b hpost
  refine memRead_memPut_mem hm (State.mem_copies.2 ⟨id, hid, i, hi, by rw [hkey, hlast], rfl⟩) fun p hp hpq => ?_
  obtain ⟨id', hid', i', hi', hb, hq⟩ := State.mem_copies.1 hp
  have h1 := hlow id hid
  have h2 := hlow id' hid'
  obtain ⟨rfl, rfl⟩ : id' = id ∧ i' = i := by
    rw [hpq] at hq
    unfold copyKey bufferKey at hq
    have hoff : id' / 2 ^ 23 * 2 ^ 23 + (id' % 2 ^ 23 * 64 + i') = id / 2 ^ 23 * 2 ^ 23 + (id % 2 ^ 23 * 64 + i) := by omega
    have hwindow : id' / 2 ^ 23 = id / 2 ^ 23 := by omega
    have hgran : id' % 2 ^ 23 = id % 2 ^ 23 := by omega
    refine ⟨?_, by omega⟩
    rw [← Nat.div_add_mod id' (2 ^ 23), ← Nat.div_add_mod id (2 ^ 23), hwindow, hgran]
  rw [hkey, hlast] at hb
  exact (Option.some.inj hb).symm

end

/-! ### A scratchpad write of a context (R216, R324) -/

/-- An event that comes within a bound. -/
theorem State.later_eq (s : State) {bound : Nat} (ev : Instr) (d : Due) (hb : 0 < bound) : ∃ a : Agendum,
    s.later bound ev d = { s with agenda := s.agenda ++ [a], free := s.free + 1 } ∧ a.ev = ev ∧ s.now < a.at_ ∧ a.at_ ≤ s.now + bound := by
  have hlt : Config.freeDelay s.free % max bound 1 < max bound 1 := Nat.mod_lt _ (by omega)
  refine ⟨{ at_ := s.now + (1 + Config.freeDelay s.free % max bound 1), ev := ev, due := d }, rfl, rfl, ?_, ?_⟩
  · dsimp only
    omega
  · dsimp only
    omega

theorem State.notePast_eq (s : State) (c : Nat) (ks : List Nat) : ∃ cmds, s.notePast c ks = { s with cmds := cmds } := by
  unfold State.notePast
  split
  · exact ⟨_, rfl⟩
  · exact ⟨s.cmds, rfl⟩

theorem State.noteBanked_eq (s : State) (k : Nat) (r : BarReq) (bs : List (Nat × Byte)) :
    ∃ l, s.noteBanked k r bs = { s with banked := l } := by
  unfold State.noteBanked
  split
  · exact ⟨s.banked, rfl⟩
  · exact ⟨_, rfl⟩

theorem State.register_eq (s : State) (x : Party) (k : AccKind) (gs : List Gran) : ∃ ts, s.register x k gs = { s with tags := ts } :=
  ⟨(s.register x k gs).tags, (congrArg (fun t : State => { t with tags := (s.register x k gs).tags }) (s.register_offTags x k gs) :)⟩

/-- A window write before any byte of it has been stored over. -/
def WinWrite.whole (y : WinWrite) : WinWrite := { y with dead := [] }

/-- A window write, the bytes of it that a later store of its context overtakes marked. -/
def State.overtaken (s : State) (c k ord : Nat) (addrs : List Nat) (e : WinWrite) : WinWrite :=
  if e.ord < ord ∧ (s.win c e.win).mod = s.modNo ∧ (s.win c e.win).peer = k then
    { e with dead := e.dead ++ addrs.filter fun a => e.bytes.any (·.1 = a) }
  else e

/-- A store marks bytes of the context's window writes under way, and changes nothing else. -/
theorem State.overtake_eq (s : State) (c k ord : Nat) (addrs : List Nat) : ∃ ctxs q,
    s.overtake c k ord addrs = { s with ctxs := ctxs } ∧ aget Ctx.idle ctxs c = { s.ctx c with winq := q } ∧
      q.map WinWrite.whole = (s.ctx c).winq.map WinWrite.whole := by
  by_cases hidle : (s.ctx c).winq = []
  · exact ⟨s.ctxs, (s.ctx c).winq, if_pos hidle, rfl, rfl⟩
  · have hctx := State.ctx_modCtx s c fun x => { x with winq := x.winq.map (s.overtaken c k ord addrs) }
    refine ⟨_, (s.ctx c).winq.map (s.overtaken c k ord addrs), if_neg hidle, hctx, ?_⟩
    rw [List.map_map]
    refine List.map_congr_left fun y _ => ?_
    rw [Function.comp_apply, State.overtaken]
    split <;> rfl

section
variable (s : State) (k c l : Nat) (pc : Word) (slot ord : Nat) (bs : List (Nat × Byte))

theorem State.barAdd_ctxs (r : BarReq) : (s.barAdd k r).ctxs = s.ctxs := (congrArg State.ctxs (s.barAdd_offUnit k r) :)

/-- A scratchpad write of a context changes of it what its window writes under way still write, and nothing else. -/
theorem State.ctx_writeLocal : ∃ q, (s.writeLocal k c l pc slot ord bs).ctx c = { s.ctx c with winq := q } ∧
    q.map WinWrite.whole = (s.ctx c).winq.map WinWrite.whole := by
  obtain ⟨cmds, hpast⟩ := s.notePast_eq c (bs.map fun p => spKey k p.1)
  obtain ⟨ctxs, q, hover, hctx, hq⟩ := ({ s with cmds := cmds } : State).overtake_eq c k ord (bs.map (·.1))
  refine ⟨q, ?_, hq⟩
  have hctxs : (s.writeLocal k c l pc slot ord bs).ctxs = ctxs := by
    unfold State.writeLocal
    dsimp only
    rw [hpast, hover]
    refine (foldl_keeps State.ctxs (fun t o => t.barAdd_ctxs k _) _ _).trans ?_
    rw [State.refresh_eq, State.put_ctxs, State.write_ctxs]
    exact (congrArg State.ctxs (State.noteBanked_eq _ _ _ _).choose_spec :)
  rw [State.ctx, hctxs, hctx]
  rfl

variable {s k bs}

/-- A scratchpad write of bytes that are in no barrier object writes them, and what the context's remote buffer holds of them. -/
theorem State.writeLocal_mem (hmig : s.migs = []) (hbar : ∀ p ∈ bs, s.isBarrier k p.1 = false) :
    (s.writeLocal k c l pc slot ord bs).mem = memPut (memPut s.mem (spBytes k bs)) (s.copies c (spBytes k bs)) := by
  obtain ⟨cmds, hpast⟩ := s.notePast_eq c (bs.map fun p => spKey k p.1)
  obtain ⟨ctxs, q, hover, hctx, -⟩ := ({ s with cmds := cmds } : State).overtake_eq c k ord (bs.map (·.1))
  have hobjs : bs.filter (fun p => s.isBarrier k p.1) = [] := List.filter_eq_nil_iff.2 fun p hp => by simp [hbar p hp]
  have hbank : bs.filter (fun p => !s.isBarrier k p.1) = bs := List.filter_eq_self.2 fun p hp => by simp [hbar p hp]
  unfold State.writeLocal
  dsimp only
  rw [hpast, hover]
  have hnamed : ∀ a, ({ s with cmds := cmds, ctxs := ctxs } : State).isBarrier k a = s.isBarrier k a := fun a => rfl
  simp only [hnamed, hobjs, hbank, List.map_nil, List.dedup_nil, List.foldl_nil]
  generalize hnote : State.noteBanked _ _ _ _ = t
  obtain ⟨banked, rfl⟩ : ∃ l, t = { s with cmds := cmds, ctxs := ctxs, banked := l } :=
    (State.noteBanked_eq _ _ _ _).imp fun _ he => hnote.symm.trans he
  rw [show bs.map (fun p => (spKey k p.1, p.2)) = spBytes k bs from rfl, State.write_spBytes, State.refresh_eq]
  · refine congrArg (memPut _) (State.copies_congr ?_ ?_ rfl)
    · exact (congrArg Ctx.remote hctx :)
    · exact (congrArg Ctx.win hctx :)
  · exact hmig

end

/-! ### Window writes of this module's contexts (R216, R217, R319) -/

/-- A context's window writes under way, changed by f. -/
def State.modWinq (s : State) (c : Nat) (f : List WinWrite → List WinWrite) : State := s.modCtx c fun x => { x with winq := f x.winq }

theorem State.ctx_modWinq (s : State) (c : Nat) (f : List WinWrite → List WinWrite) :
    (s.modWinq c f).ctx c = { s.ctx c with winq := f (s.ctx c).winq } := State.ctx_modCtx s c _

/-- The peer's interface takes the oldest write that it has not taken; the write lands within the bound (R216; log 1). -/
theorem exec_windowWriteAccept {s : State} {e : WinWrite} (h : (s.ctx s.due.ctx).oldest s.due.arg (· < 2) = some e) : ∃ t : State,
    exec .windowWriteAccept s = .next t ∧ t.mem = s.mem ∧
    (t.ctx s.due.ctx).winq = (s.ctx s.due.ctx).winq.replace e { e with st := 2 } ∧
    ∃ a, t.agenda = s.agenda ++ [a] ∧ a.ev = .windowWriteLand ∧ s.now < a.at_ ∧ a.at_ ≤ s.now + 200 := by
  let u := s.modWinq s.due.ctx (·.replace e { e with st := 2 })
  obtain ⟨a, hlater, hev, hlo, hhi⟩ := u.later_eq (bound := 200) .windowWriteLand { ctx := s.due.ctx, arg := s.due.arg } (by decide)
  have hexec : exec .windowWriteAccept s = .next (u.later 200 .windowWriteLand { ctx := s.due.ctx, arg := s.due.arg }) := by
    change execWindowWriteAccept s = _
    rw [execWindowWriteAccept, h]
    rfl
  have hctx : u.ctx s.due.ctx = _ := s.ctx_modWinq s.due.ctx _
  rw [hlater] at hexec
  exact ⟨_, hexec, rfl, (congrArg Ctx.winq hctx :), a, rfl, hev, hlo, hhi⟩

section
variable (s : State) (c : Nat) {f : Ctx → Ctx} (hf : ∀ x, (f x).launch = x.launch)
include hf

/-- What an operand array of a command covers depends on the launch that its context is used by. -/
theorem State.arraysOf_modCtx (x : Cmd) : (s.modCtx c f).arraysOf x = s.arraysOf x := by
  have hlaunch : ((s.modCtx c f).ctx x.ctx).launch = (s.ctx x.ctx).launch := by
    by_cases hc : x.ctx = c
    · rw [hc, State.ctx_modCtx, hf]
    · rw [State.ctx_modCtx_ne _ _ hc]
  have htable : ∀ tid, (s.modCtx c f).table? x.ctx tid = s.table? x.ctx tid := fun tid => by
    unfold State.table? State.launchOf
    rw [hlaunch]
    rfl
  unfold State.arraysOf
  simp only [htable]

theorem State.landCheck_modCtx (x : Party) (k : Nat) (bs : List (Nat × Byte)) : (s.modCtx c f).landCheck x k bs = s.landCheck x k bs := by
  have harray : ∀ a, (s.modCtx c f).arrayLocal k a = s.arrayLocal k a := fun a => by
    unfold State.arrayLocal
    simp only [State.arraysOf_modCtx s c hf]
    rfl
  unfold State.landCheck
  simp only [harray]
  rfl

end

theorem State.summarise_eq (s : State) (c id w : Nat) :
    ∃ agenda free, s.summarise c id w = { s with agenda := agenda, free := free } := by
  unfold State.summarise
  dsimp only
  split
  · exact ⟨_, _, rfl⟩
  · split
    · exact ⟨_, _, rfl⟩
    · split
      · exact ⟨_, _, rfl⟩
      · exact ⟨_, _, rfl⟩

section
variable {s : State} {c : Nat} {e : WinWrite}

/-- The context without a window write of its queue. -/
def State.dequeued (s : State) (c : Nat) (e : WinWrite) : State := s.modWinq c (·.erase e)

theorem State.ctx_dequeued : (s.dequeued c e).ctx c = { s.ctx c with winq := (s.ctx c).winq.erase e } := s.ctx_modWinq c _

theorem State.landCheck_dequeued (x : Party) (k : Nat) (bs : List (Nat × Byte)) :
    (s.dequeued c e).landCheck x k bs = s.landCheck x k bs :=
  s.landCheck_modCtx c (f := fun x => { x with winq := x.winq.erase e }) (fun _ => rfl) x k bs

theorem State.party_dequeued : (s.dequeued c e).party c = s.party c := by
  rw [State.party, State.ctx_dequeued, State.party]

/-- The write as its peer on this module takes it. -/
def State.landed (s : State) (c : Nat) (e : WinWrite) : State :=
  ((s.dequeued c e).register (s.party c) .store ((s.dequeued c e).landGrans (s.win c e.win).peer e.bytes)).writeLocal
    (s.win c e.win).peer c (s.ctx c).l e.pc e.slot e.ord (e.bytes.filter fun p => !e.dead.contains p.1)

section
variable (hmod : (s.win c e.win).mod = s.modNo)
include hmod

/-- A write that the check at its peer takes lands there (R217). -/
theorem State.landWrite_of_landCheck (h : s.landCheck (s.party c) (s.win c e.win).peer e.bytes = none) :
    s.landWrite c e = (s.landed c e).summarise c e.batch e.win := by
  have h' : (s.dequeued c e).landCheck ((s.dequeued c e).party c) (s.win c e.win).peer e.bytes = none := by
    rw [State.party_dequeued, State.landCheck_dequeued, h]
  have hl : ((s.dequeued c e).ctx c).l = (s.ctx c).l := by rw [State.ctx_dequeued]
  rw [State.landWrite, if_neg (not_not.2 hmod), State.landed, ← hl, ← State.party_dequeued (e := e)]
  refine congrArg (State.summarise · c e.batch e.win) ?_
  split
  next h'' => cases h'.symm.trans h''
  next => rfl

/-- A write that the check at its peer refuses is rejected (R319). -/
theorem State.landWrite_of_rejected {a : Nat} {acc : BitVec 8} {g : Tag}
    (h : s.landCheck (s.party c) (s.win c e.win).peer e.bytes = some (a, acc, g)) :
    s.landWrite c e = ((s.dequeued c e).landRejected c e a acc g.arg g.far).summarise c e.batch e.win := by
  have h' : (s.dequeued c e).landCheck ((s.dequeued c e).party c) (s.win c e.win).peer e.bytes = some (a, acc, g) := by
    rw [State.party_dequeued, State.landCheck_dequeued, h]
  rw [State.landWrite, if_neg (not_not.2 hmod)]
  refine congrArg (State.summarise · c e.batch e.win) ?_
  split
  next h'' =>
    cases h'.symm.trans h''
    rfl
  next h'' => cases h'.symm.trans h''

end

/-- What landing leaves in memory (R195, R217). -/
theorem State.landed_mem (hmig : s.migs = []) (hbar : ∀ p ∈ e.bytes, s.isBarrier (s.win c e.win).peer p.1 = false) :
    let new := spBytes (s.win c e.win).peer (e.bytes.filter fun p => !e.dead.contains p.1)
    (s.landed c e).mem = memPut (memPut s.mem new) (s.copies c new) := by
  intro new
  obtain ⟨ts, hreg⟩ := (s.dequeued c e).register_eq (s.party c) .store ((s.dequeued c e).landGrans (s.win c e.win).peer e.bytes)
  rw [State.landed, hreg, State.writeLocal_mem]
  · refine congrArg (memPut _) (State.copies_congr ?_ ?_ rfl)
    · exact (congrArg Ctx.remote (State.ctx_dequeued (s := s) (c := c) (e := e)) :)
    · exact (congrArg Ctx.win (State.ctx_dequeued (s := s) (c := c) (e := e)) :)
  · exact hmig
  · exact fun p hp => hbar p (List.mem_filter.1 hp).1

theorem State.ctx_landed : ∃ q, (s.landed c e).ctx c = { s.ctx c with winq := q } ∧
    q.map WinWrite.whole = ((s.ctx c).winq.erase e).map WinWrite.whole := by
  obtain ⟨q, hctx, hq⟩ := State.ctx_writeLocal
    ((s.dequeued c e).register (s.party c) .store ((s.dequeued c e).landGrans (s.win c e.win).peer e.bytes))
    (s.win c e.win).peer c (s.ctx c).l e.pc e.slot e.ord (e.bytes.filter fun p => !e.dead.contains p.1)
  rw [State.register_ctx, State.ctx_dequeued] at hctx hq
  exact ⟨q, hctx, hq⟩

end

/-! ### Rejected window writes (R218, R319) -/

/-- The deferred trap of a rejected window write. -/
def WinWrite.trap (e : WinWrite) (a : Nat) (acc : BitVec 8) (arg : Word) (rr : BitVec 32) (rl : BitVec 8) : TrapInfo :=
  { kind := 0x07, pc := e.pc, faddr := BitVec.ofNat 64 ((0x20 + e.win) * 2 ^ 56 + a), arg := arg,
    slot := BitVec.ofNat 8 e.slot, acc := acc, rrank := rr, rl := rl, ord := e.ord }

section
variable (s : State) (c : Nat)

theorem State.defer_of_live {t : TrapInfo} (hdone : (s.ctx c).status ≠ .done) (hidle : (s.ctx c).status ≠ .idle) :
    (s.defer c t).ctx c = { s.ctx c with deferred := (s.ctx c).deferred ++ [{ t with deferred := true }] } := by
  refine (State.ctx_modCtx s c _).trans ?_
  cases h : (s.ctx c).status <;> simp_all

/-- A trap that is deferred touches the list of the context's deferred traps alone. -/
theorem State.ctx_defer (t : TrapInfo) : ∃ l, (s.defer c t).ctx c = { s.ctx c with deferred := l } := by
  refine (exists_congr fun _ => by rw [State.defer, State.ctx_modCtx]).2 ?_
  split
  · exact ⟨_, rfl⟩
  · exact ⟨_, rfl⟩
  · exact ⟨_, rfl⟩

theorem State.ctx_modBatch (id : Nat) (f : Batch → Batch) : (s.modBatch c id f).ctx c =
    { s.ctx c with batches := (s.ctx c).batches.map fun b => if b.id = id then f b else b } := State.ctx_modCtx s c _

variable (e : WinWrite) (a : Nat) (acc : BitVec 8) (arg : Word) (far : BitVec 32 × BitVec 8)

theorem State.winq_landRejected : ((s.landRejected c e a acc arg far).ctx c).winq = (s.ctx c).winq := by
  obtain ⟨l, h⟩ := (s.modBatch c e.batch fun b => { b with errs := b.errs ||| (1#32 <<< e.win) }).ctx_defer c
    (e.trap a acc arg far.1 far.2)
  rw [State.ctx_modBatch] at h
  exact (congrArg Ctx.winq h :)

theorem State.deferred_landRejected (hdone : (s.ctx c).status ≠ .done) (hidle : (s.ctx c).status ≠ .idle) :
    ((s.landRejected c e a acc arg far).ctx c).deferred =
      (s.ctx c).deferred ++ [{ e.trap a acc arg far.1 far.2 with deferred := true }] := by
  have h := (s.modBatch c e.batch fun b => { b with errs := b.errs ||| (1#32 <<< e.win) }).defer_of_live c
    (t := e.trap a acc arg far.1 far.2) (by rwa [State.ctx_modBatch]) (by rwa [State.ctx_modBatch])
  rw [State.ctx_modBatch] at h
  exact (congrArg Ctx.deferred h :)

/-- The bit of the write's window stands in the error bitmap of its batch. -/
theorem State.errs_landRejected {b : Batch} (hb : b ∈ ((s.landRejected c e a acc arg far).ctx c).batches) (hid : b.id = e.batch) :
    b.errs &&& (1#32 <<< e.win) = 1#32 <<< e.win := by
  obtain ⟨l, h⟩ := (s.modBatch c e.batch fun b => { b with errs := b.errs ||| (1#32 <<< e.win) }).ctx_defer c
    (e.trap a acc arg far.1 far.2)
  rw [State.ctx_modBatch] at h
  have hb' : b ∈ (s.ctx c).batches.map fun b => if b.id = e.batch then { b with errs := b.errs ||| (1#32 <<< e.win) } else b := by
    have heq := congrArg Ctx.batches h
    exact (heq ▸ hb :)
  obtain ⟨y, -, rfl⟩ := List.mem_map.1 hb'
  by_cases hy : y.id = e.batch
  · rw [if_pos hy]
    exact BitVec.eq_of_getLsbD_eq fun i hi => by simp +contextual
  · rw [if_neg hy] at hid
    exact absurd hid hy

end

/-! ### Writes of other modules' contexts, and their summaries (R217, R218; log 78) -/

/-- Whether a record of landed writes is of a batch of a context elsewhere. -/
def FarSum.isOf (rank l batch : Nat) (y : FarSum) : Bool := y.rank = rank && y.l = l && y.batch = batch

/-- What has landed here of a batch. -/
def State.farSumOf (s : State) (rank l batch : Nat) : FarSum :=
  (s.farSums.find? (FarSum.isOf rank l batch)).getD
    { rank := rank, l := l, batch := batch, landed := 0, failed := false, asked := none }

section
variable {s : State} {rank l batch : Nat} {f : FarSum → FarSum}

theorem State.farSum_of_waiting (h : (f (s.farSumOf rank l batch)).asked = none) : s.farSum rank l batch f =
    { s with farSums := s.farSums.filter (fun y => !y.isOf rank l batch) ++ [f (s.farSumOf rank l batch)] } := by
  have hno : ((f (s.farSumOf rank l batch)).asked.any fun n => decide (n ≤ (f (s.farSumOf rank l batch)).landed)) = false := by rw [h]; rfl
  exact if_neg (Bool.eq_false_iff.1 hno)

theorem State.farSum_of_asked {n : Nat} (h : (f (s.farSumOf rank l batch)).asked = some n) : s.farSum rank l batch f =
    if n ≤ (f (s.farSumOf rank l batch)).landed then
      { s with farSums := s.farSums.filter (fun y => !y.isOf rank l batch),
               out := s.out ++ [.summary rank l batch (f (s.farSumOf rank l batch)).failed] }
    else { s with farSums := s.farSums.filter (fun y => !y.isOf rank l batch) ++ [f (s.farSumOf rank l batch)] } := by
  have hany : ((f (s.farSumOf rank l batch)).asked.any fun n => decide (n ≤ (f (s.farSumOf rank l batch)).landed)) =
      decide (n ≤ (f (s.farSumOf rank l batch)).landed) := by rw [h]; rfl
  refine Eq.trans (b := if ((f (s.farSumOf rank l batch)).asked.any fun n =>
    decide (n ≤ (f (s.farSumOf rank l batch)).landed)) = true then _ else _) rfl ?_
  rw [hany]
  exact if_congr decide_eq_true_iff rfl rfl

theorem State.asked_farSumOf (h : ∀ y ∈ s.farSums, y.asked = none) : (s.farSumOf rank l batch).asked = none := by
  unfold State.farSumOf
  cases hfind : s.farSums.find? (FarSum.isOf rank l batch) with
  | none => rfl
  | some y => exact h y (List.mem_of_find?_eq_some hfind)

/-- A write counted among those of its batch that have landed here or failed (R218). -/
def State.countFar (s : State) (rank l batch : Nat) (no : Bool) : State :=
  s.farSum rank l batch fun x => { x with landed := x.landed + 1, failed := x.failed || no }

/-- A count on which no summary waits changes the records alone: its batch's, and no other. -/
theorem State.countFar_eq (no : Bool) (h : ∀ y ∈ s.farSums, y.asked = none) : ∃ ys, s.countFar rank l batch no = { s with farSums := ys } ∧
    { s.farSumOf rank l batch with
      landed := (s.farSumOf rank l batch).landed + 1, failed := (s.farSumOf rank l batch).failed || no } ∈ ys ∧
    ∀ y ∈ s.farSums, ¬y.isOf rank l batch = true → y ∈ ys := by
  refine ⟨_, State.farSum_of_waiting (State.asked_farSumOf h), List.mem_append_right _ (List.mem_singleton_self _), fun y hy hno => ?_⟩
  exact List.mem_append_left _ (List.mem_filter.2 ⟨hy, by simpa using hno⟩)

end

section
variable {s : State} {k a rank l batch : Nat} {data : List Byte} {det : Bool}

/-- A write of a context elsewhere that lands: its bytes, its race tags, its answer (R217). -/
theorem State.farWrite_of_lands (hcheck : s.landCheck (.far rank l) k (runAt a data) = none)
    (hsync : ∀ p ∈ runAt a data, (det && s.syncAt k p.1) = false) (hmig : s.migs = [])
    (hbar : ∀ p ∈ runAt a data, s.isBarrier k p.1 = false) : ∃ banked,
    s.farWrite k a rank l batch data det = State.countFar { s with
      tags := (s.register (.far rank l) .store (s.landGrans k (runAt a data))).tags, banked := banked,
      mem := memPut s.mem (spBytes k (runAt a data)), out := s.out ++ [.landed rank l k a none] } rank l batch false := by
  have hfind : (runAt a data).find? (fun p => det && s.syncAt k p.1) = none := List.find?_eq_none.2 fun p hp => by simp [hsync p hp]
  obtain ⟨ts, hreg⟩ := s.register_eq (.far rank l) .store (s.landGrans k (runAt a data))
  have hobjs : (runAt a data).filter (fun p => s.isBarrier k p.1) = [] := List.filter_eq_nil_iff.2 fun p hp => by simp [hbar p hp]
  have hbank : (runAt a data).filter (fun p => !s.isBarrier k p.1) = runAt a data :=
    List.filter_eq_self.2 fun p hp => by simp [hbar p hp]
  unfold State.farWrite
  dsimp only
  rw [hcheck, hfind, hreg]
  have hnamed : ∀ x, ({ s with tags := ts } : State).isBarrier k x = s.isBarrier k x := fun x => rfl
  simp only [Option.map_none, Option.or_none, hnamed, hobjs, hbank, List.map_nil, List.dedup_nil, List.foldl_nil]
  generalize hnote : State.noteBanked _ _ _ _ = t
  obtain ⟨banked, rfl⟩ : ∃ l, t = { s with tags := ts, banked := l } :=
    (State.noteBanked_eq _ _ _ _).imp fun _ he => hnote.symm.trans he
  rw [show (runAt a data).map (fun p => (spKey k p.1, p.2)) = spBytes k (runAt a data) from rfl, State.write_spBytes]
  · exact ⟨banked, rfl⟩
  · exact hmig

/-- One that the check refuses is answered so (R319). -/
theorem State.farWrite_of_rejected {x : Nat} {acc : BitVec 8} {g : Tag}
    (h : s.landCheck (.far rank l) k (runAt a data) = some (x, acc, g)) : s.farWrite k a rank l batch data det =
    State.countFar { s with out := s.out ++ [.landed rank l k x (some (acc, g.arg, g.far.1, g.far.2))] } rank l batch true := by
  unfold State.farWrite
  dsimp only
  rw [h]
  rfl

/-- One of a deterministic launch to a SYNC byte is rejected (R333; log 78). -/
theorem State.farWrite_of_sync {p : Nat × Byte} (hcheck : s.landCheck (.far rank l) k (runAt a data) = none)
    (h : (runAt a data).find? (fun p => det && s.syncAt k p.1) = some p) : s.farWrite k a rank l batch data det =
    State.countFar { s with out := s.out ++ [.landed rank l k p.1 (some (1, Tag.none.arg, Tag.none.far.1, Tag.none.far.2))] }
      rank l batch true := by
  unfold State.farWrite
  dsimp only
  rw [hcheck, h]
  rfl

end

/-! ### Summaries of this module's batches (R218) -/

section
variable (s : State) (c : Nat)

theorem State.ctx_postRecord (r : Record) : ∃ q, (s.postRecord c r).ctx c = { s.ctx c with evq := q } := by
  refine (exists_congr fun _ => by rw [State.postRecord, State.ctx_modCtx]).2 ?_
  split
  · exact ⟨_, rfl⟩
  · exact ⟨_, rfl⟩
  · exact ⟨_, rfl⟩

/-- The batch of the record that it posts leaves its context. -/
def State.postBatch (s : State) (c : Nat) (b : Batch) : State :=
  (s.modCtx c fun x => { x with batches := x.batches.filter (·.id ≠ b.id) }).postRecord c b.record

theorem State.batches_postBatch (b : Batch) : ((s.postBatch c b).ctx c).batches = (s.ctx c).batches.filter (·.id ≠ b.id) := by
  obtain ⟨q, h⟩ := (s.modCtx c fun x => { x with batches := x.batches.filter (·.id ≠ b.id) }).ctx_postRecord c b.record
  rw [State.ctx_modCtx] at h
  exact (congrArg Ctx.batches h :)

/-- Records that are posted leave memory, and the batches that stay, as they are. -/
theorem State.postBatches_frame (t : BitVec 2) : (s.postBatches c t).mem = s.mem ∧
    ∀ y ∈ ((s.postBatches c t).ctx c).batches, y ∈ (s.ctx c).batches := by
  refine List.foldlRecOn (motive := fun u : State => u.mem = s.mem ∧ ∀ y ∈ (u.ctx c).batches, y ∈ (s.ctx c).batches) _ _
    ⟨rfl, fun _ hy => hy⟩ fun u hu b _ => ⟨hu.1, fun y hy => hu.2 y ?_⟩
  have hin : y ∈ ((u.postBatch c b).ctx c).batches := hy
  rw [State.batches_postBatch] at hin
  exact (List.mem_filter.1 hin).1

variable {s c}

/-- The only batch of a context posts its record once nothing is awaited for it. -/
theorem State.postBatches_of_last {b : Batch} (hst : (s.ctx c).status = .ready) (hb : (s.ctx c).batches = [b]) (hcl : b.closed = true)
    (hw : b.waiting = []) :
    ((s.postBatches c b.tag).ctx c).batches = [] ∧ ((s.postBatches c b.tag).ctx c).evq = (s.ctx c).evq ++ [b.record] := by
  have heq : s.postBatches c b.tag = s.postBatch c b := by
    unfold State.postBatches
    rw [hb]
    simp only [List.filter_cons, hcl, hw, decide_true, Bool.and_self, if_true, List.filter_nil, List.takeWhile_cons, List.takeWhile_nil,
      List.foldl_cons, List.foldl_nil]
    rfl
  rw [heq, State.batches_postBatch, hb]
  refine ⟨by simp, ?_⟩
  have hpost : ((s.modCtx c fun x => { x with batches := x.batches.filter (·.id ≠ b.id) }).postRecord c b.record).ctx c =
      { s.ctx c with batches := (s.ctx c).batches.filter (·.id ≠ b.id), evq := (s.ctx c).evq ++ [b.record] } := by
    rw [State.postRecord, State.ctx_modCtx, State.ctx_modCtx]
    simp only [hst]
  exact (congrArg Ctx.evq hpost :)

end

section
variable {s : State} {c id : Nat} {b : Batch} {f : Batch → Batch}

/-- What a summary leaves of the batches: those of its number changed, unless their record has been posted. -/
theorem State.mem_batches_summed {tag : BitVec 2} {y : Batch}
    (hy : y ∈ (((s.modBatch c id f).postBatches c tag).ctx c).batches) (hy' : y.id = id) :
    ∃ z ∈ (s.ctx c).batches, z.id = id ∧ y = f z := by
  have hin := ((s.modBatch c id f).postBatches_frame c tag).2 y hy
  rw [State.ctx_modBatch] at hin
  obtain ⟨z, hz, rfl⟩ := List.mem_map.1 hin
  by_cases h : z.id = id
  · exact ⟨z, hz, h, if_pos h⟩
  · rw [if_neg h] at hy'
    exact absurd hy' h

/-- The last summary of a context's only batch posts the batch's record (R218, R240). -/
theorem State.summed_last (hst : (s.ctx c).status = .ready) (hb : (s.ctx c).batches = [b]) (hid : b.id = id)
    (hcl : (f b).closed = true) (hw : (f b).waiting = []) : let t := (s.modBatch c id f).postBatches c (f b).tag
    (t.ctx c).batches = [] ∧ (t.ctx c).evq = (s.ctx c).evq ++ [(f b).record] := by
  have hctx := State.ctx_modBatch s c id f
  have hone : ((s.modBatch c id f).ctx c).batches = [f b] := by
    rw [hctx]
    simp only [hb, List.map_cons, List.map_nil, if_pos hid]
  have hready : ((s.modBatch c id f).ctx c).status = .ready := by rw [hctx]; exact hst
  have hlast := State.postBatches_of_last hready hone hcl hw
  rwa [show ((s.modBatch c id f).ctx c).evq = (s.ctx c).evq from (congrArg Ctx.evq hctx :)] at hlast

end

/-- A batch that a summary has come in for, the window's error bit set where a write through it failed. -/
def Batch.summed (w : Nat) (failed : Bool) (b : Batch) : Batch :=
  { b with waiting := b.waiting.erase w, errs := if failed then b.errs ||| (1#32 <<< w) else b.errs }

theorem exec_batchSummary {s : State} {b : Batch} (h : (s.ctx s.due.ctx).batches.find? (·.id = s.due.id) = some b)
    (hown : s.due.arg2 ≠ 1) : exec .batchSummary s =
    .next ((s.modBatch s.due.ctx s.due.id (Batch.summed s.due.arg s.due.wr)).postBatches s.due.ctx b.tag) := by
  change execBatchSummary s = _
  rw [execBatchSummary, if_neg hown, h]
  rfl

/-- A batch whose bound has passed: each window to a peer that did not reply is in error. -/
def State.expired (s : State) (b : Batch) : Batch :=
  { b with
    waiting := []
    errs := (b.touched.filter fun w => b.waiting.any (s.samePeer s.due.ctx w)).foldl (fun e w => e ||| (1#32 <<< w)) b.errs }

theorem exec_batchSummaryBoundExpiry {s : State} {b : Batch} (h : (s.ctx s.due.ctx).batches.find? (·.id = s.due.id) = some b) :
    exec .batchSummaryBoundExpiry s = .next ((s.modBatch s.due.ctx s.due.id s.expired).postBatches s.due.ctx b.tag) := by
  change execBatchSummaryBoundExpiry s = _
  rw [execBatchSummaryBoundExpiry, h]
  rfl

/-! ### Gathered adds (R209) -/

/-- The bytes that a command has still to find as they were are no part of what its release decides. -/
theorem State.any_cmds_notePast (s : State) (c : Nat) (ks : List Nat) (id : Nat) :
    ((s.notePast c ks).cmds.any fun x => x.id = id && x.release.isSome) = s.cmds.any fun x => x.id = id && x.release.isSome := by
  unfold State.notePast
  split
  · rw [List.any_map]
    refine congrArg (s.cmds.any ·) (funext fun x => ?_)
    rw [Function.comp_apply]
    split <;> rfl
  · rfl

/-- What a write mirrors depends on the migrations under way alone (R387). -/
theorem State.mirrored_congr {s t : State} (hmigs : t.migs = s.migs) (hcmds : ∀ id,
    (t.cmds.any fun x => x.id = id && x.release.isSome) = s.cmds.any fun x => x.id = id && x.release.isSome) (bs : List (Nat × Byte)) :
    t.mirrored bs = s.mirrored bs := by
  have honce : ∀ bs, t.mirrorOnce bs = s.mirrorOnce bs := fun bs => by
    unfold State.mirrorOnce
    simp only [hmigs, hcmds]
  have hof : ∀ n bs, t.mirrorsOf n bs = s.mirrorsOf n bs := fun n => by
    induction n with
    | zero => exact fun _ => rfl
    | succ n ih => exact fun bs => by simp only [State.mirrorsOf, honce, ih]
  rw [State.mirrored, hmigs, hof, State.mirrored]

theorem State.write_mem (s : State) (bs : List (Nat × Byte)) :
    (s.write bs).mem = memPut s.mem ((bs ++ s.mirrored bs).filter fun p => !outsideKey p.1) := by
  unfold State.write
  dsimp only
  split <;> rfl

/-- What a gathered add leaves in memory depends on memory, on the cycle and on the migrations under way. -/
theorem State.famoApply_mem_congr {s t : State} (hmem : t.mem = s.mem) (hnow : t.now = s.now) (hmigs : t.migs = s.migs) (hcmds : ∀ id,
    (t.cmds.any fun x => x.id = id && x.release.isSome) = s.cmds.any fun x => x.id = id && x.release.isSome) (k : Nat) (ty : FTy)
    (x : BitVec 32) : (t.famoApply k ty x).mem = (s.famoApply k ty x).mem := by
  have hnat : ∀ n, t.gnat k n = s.gnat k n := fun n => by simp only [State.gnat, State.gbytes, State.gbyte, hmem, hnow]
  unfold State.famoApply
  dsimp only
  rw [State.write_mem, State.write_mem, State.mirrored_congr hmigs hcmds, hnat, hmem]

/-- It does not depend on the bytes that commands have still to find as they were. -/
theorem State.famoApply_notePast_mem (s : State) (c : Nat) (ks : List Nat) (k : Nat) (ty : FTy) (x : BitVec 32) :
    ((s.notePast c ks).famoApply k ty x).mem = (s.famoApply k ty x).mem := by
  have hcmds := s.any_cmds_notePast c ks
  obtain ⟨cmds, h⟩ := s.notePast_eq c ks
  rw [h] at hcmds ⊢
  exact State.famoApply_mem_congr (s := s) (t := { s with cmds := cmds }) rfl rfl rfl hcmds k ty x

theorem State.heatAll_ctxs (s : State) (c : Nat) (eas : List Word) : (s.heatAll c eas).ctxs = s.ctxs := by
  unfold State.heatAll
  refine foldl_keeps State.ctxs (fun u ea => ?_) _ _
  split
  · split
    · unfold State.heat
      split
      · rfl
      · dsimp only
        split
        · rfl
        · exact State.write_ctxs _ _
    · rfl
  · rfl

/-- An access to a page that does not count heat, or to no page, leaves the heat as it is (R388). -/
theorem State.heatAll_of_cold {s : State} {c : Nat} {ea : Word}
    (h : ∀ va m, spaceOf ea = .global va → s.page? (s.who c) va = some m → m.leaf.toNat / 2 ^ 10 % 2 = 0) : s.heatAll c [ea] = s := by
  change (match spaceOf ea with
    | .global va => (match s.page? (s.who c) va with
      | some e => s.heat (e.addr va) e.leaf
      | none => s)
    | _ => s) = s
  split
  next va hsp =>
    split
    next e he =>
      have hcount : tst e.leaf.toNat 10 = false := by
        rw [tst, Nat.testBit_eq_decide_div_mod_eq, h va e hsp he]
        rfl
      rw [State.heat, hcount]
      rfl
    next => rfl
  next => rfl

/-- Whether t differs from s, of the contexts, in the reads that a waiting load of context c has had and in its last access to an L2
home. -/
def State.seenBy (c : Nat) (s t : State) : Prop :=
  (∃ ls h, t.ctx c = { s.ctx c with checked := ls, homeAt := h }) ∧ ∀ c', c' ≠ c → t.ctx c' = s.ctx c'

theorem State.recheck_frame (s : State) (c : Nat) (bs : List (Nat × Byte)) : (s.recheck c bs).mem = s.mem ∧ s.seenBy c (s.recheck c bs) := by
  unfold State.recheck
  split
  · exact ⟨rfl, ⟨_, _, rfl⟩, fun _ _ => rfl⟩
  · exact ⟨rfl, ⟨_, _, State.ctx_modCtx s c _⟩, fun c' hc => State.ctx_modCtx_ne _ _ hc⟩

section
variable (s : State) (c : Nat) (pc : Word) (slot ord : Nat) (ty : FTy) (ea : Word) (x : BitVec 32) (bar : Word) (key : Option Nat)

/-- The race tags of a gathered add's bytes as it reaches its home (R318). -/
def State.famoTaken : State :=
  s.register (s.party c) .atomic ((s.granules c (eaRun ea (FTy.bytes ty))).filterMap (s.granAt c))

theorem State.famoTaken_eq : ∃ ts, s.famoTaken c ty ea = { s with tags := ts } := s.register_eq _ _ _

/-- The add applied at its key. -/
def State.famoAdded (k : Nat) : State :=
  ((s.heatAll c [ea]).notePast c ((List.range (FTy.bytes ty)).map (k + ·))).famoApply k ty x

/-- What follows an add: the bytes of the context's remote buffer, the reads that its waiting load has had, the cycle of its last
access to an L2 home. -/
def State.famoSeen (k : Nat) : State :=
  let bs := (List.range (FTy.bytes ty)).map fun i => (k + i, s.byteNow (k + i))
  let u := (s.refresh c bs).recheck c bs
  if k < 2 ^ 52 then u.modCtx c fun x => { x with homeAt := some u.now } else u

/-- The add gathered in the cluster's ordered atomic unit. -/
def State.famoGathered : State := s.modCluster (clOf c) fun cl => { cl with
  famo := cl.famo ++ [{ loc := fld ea 0 23, bar := fld bar 0 23, ty := ty, l := (s.ctx c).l, x := x, ord := ord, ctx := c }] }

theorem State.famo_famoGathered : ((s.famoGathered c ord ty ea x bar).cluster (clOf c)).famo = (s.cluster (clOf c)).famo ++
    [{ loc := fld ea 0 23, bar := fld bar 0 23, ty := ty, l := (s.ctx c).l, x := x, ord := ord, ctx := c }] := by
  rw [State.famoGathered, State.cluster_modCluster]

theorem State.famoHome_of_rejected {f : TrapInfo} (h : s.homeCheck c .atomic pc slot (eaRun ea (FTy.bytes ty)) = some f) :
    s.famoHome c pc slot ord ty ea x bar key = s.defer c { f with ord := ord } := by
  rw [State.famoHome, State.atHome, h]

variable (h : s.homeCheck c .atomic pc slot (eaRun ea (FTy.bytes ty)) = none)
include h

/-- R209: in deterministic mode the add is gathered. -/
theorem State.famoHome_of_det (hdet : s.detOf c = true) :
    s.famoHome c pc slot ord ty ea x bar key = (s.famoTaken c ty ea).famoGathered c ord ty ea x bar := by
  obtain ⟨ts, hts⟩ := s.famoTaken_eq c ty ea
  have hdet' : (s.famoTaken c ty ea).detOf c = true := by
    rw [hts]
    exact hdet
  rw [State.famoHome, State.atHome, h]
  exact if_pos hdet'

/-- Outside it is applied at its key; without one nothing is. -/
theorem State.famoHome_of_not_det (hdet : s.detOf c = false) : s.famoHome c pc slot ord ty ea x bar key = match key with
    | some k => ((s.famoTaken c ty ea).famoAdded c ty ea x k).famoSeen c ty k
    | none => s.famoTaken c ty ea := by
  obtain ⟨ts, hts⟩ := s.famoTaken_eq c ty ea
  have hdet' : ¬(s.famoTaken c ty ea).detOf c = true := by
    rw [hts]
    exact Bool.eq_false_iff.1 hdet
  rw [State.famoHome, State.atHome, h]
  exact (if_neg hdet').trans rfl

end

section
variable (s : State) (c : Nat) (ty : FTy) (ea : Word) (x : BitVec 32) (k : Nat)

theorem State.famoAdded_ctxs : (s.famoAdded c ty ea x k).ctxs = s.ctxs :=
  (State.write_ctxs _ _).trans ((State.notePast_ctxs _ _ _).trans (s.heatAll_ctxs c [ea]))

theorem State.famoSeen_frame : s.seenBy c (s.famoSeen c ty k) ∧ ((s.ctx c).remote = [] → (s.famoSeen c ty k).mem = s.mem) := by
  unfold State.famoSeen
  dsimp only
  generalize (List.range (FTy.bytes ty)).map (fun i => (k + i, s.byteNow (k + i))) = bs
  obtain ⟨hmem, ⟨ls, ha, hctx⟩, hother⟩ := (s.refresh c bs).recheck_frame c bs
  have hput : (s.ctx c).remote = [] → (s.refresh c bs).mem = s.mem := fun hno => by
    rw [State.refresh_eq, State.copies, hno]
    rfl
  split
  · refine ⟨⟨⟨ls, some ((s.refresh c bs).recheck c bs).now, (State.ctx_modCtx _ c _).trans ?_⟩,
      fun c' hc => (State.ctx_modCtx_ne _ _ hc).trans (hother c' hc)⟩, fun hno => hmem.trans (hput hno)⟩
    rw [hctx]
    rfl
  · exact ⟨⟨⟨ls, ha, hctx⟩, hother⟩, fun hno => hmem.trans (hput hno)⟩

end

section
variable (s : State) (c : Nat) (pc : Word) (slot ord : Nat) (ty : FTy) (ea : Word) (x : BitVec 32) (bar : Word) (key : Option Nat)
  (h : s.homeCheck c .atomic pc slot (eaRun ea (FTy.bytes ty)) = none)
include h

theorem State.famoHome_frame : s.seenBy c (s.famoHome c pc slot ord ty ea x bar key) := by
  obtain ⟨ts, hts⟩ := s.famoTaken_eq c ty ea
  have htaken : (s.famoTaken c ty ea).ctxs = s.ctxs := by rw [hts]
  by_cases hdet : s.detOf c = true
  · rw [s.famoHome_of_det c pc slot ord ty ea x bar key h hdet]
    have hctx : ∀ j, ((s.famoTaken c ty ea).famoGathered c ord ty ea x bar).ctx j = s.ctx j := fun j =>
      congrArg (aget Ctx.idle · j) htaken
    exact ⟨⟨_, _, hctx c⟩, fun j _ => hctx j⟩
  · rw [s.famoHome_of_not_det c pc slot ord ty ea x bar key h (Bool.eq_false_iff.2 hdet)]
    cases key with
    | none => exact ⟨⟨_, _, congrArg (aget Ctx.idle · c) htaken⟩, fun j _ => congrArg (aget Ctx.idle · j) htaken⟩
    | some k =>
      obtain ⟨⟨⟨ls, a, hctx⟩, hother⟩, -⟩ := ((s.famoTaken c ty ea).famoAdded c ty ea x k).famoSeen_frame c ty k
      have hadd : ∀ j, ((s.famoTaken c ty ea).famoAdded c ty ea x k).ctx j = s.ctx j := fun j =>
        congrArg (aget Ctx.idle · j) (((s.famoTaken c ty ea).famoAdded_ctxs c ty ea x k).trans htaken)
      rw [hadd] at hctx
      exact ⟨⟨ls, a, hctx⟩, fun j hj => (hother j hj).trans (hadd j)⟩

/-- Outside deterministic mode an add to bytes whose page counts no heat, and that the remote buffer does not hold, writes the sum and
nothing else. -/
theorem State.famoHome_mem {k : Nat} (hdet : s.detOf c = false) (hremote : (s.ctx c).remote = [])
    (hcold : ∀ va m, spaceOf ea = .global va → s.page? (s.who c) va = some m → m.leaf.toNat / 2 ^ 10 % 2 = 0) :
    (s.famoHome c pc slot ord ty ea x bar (some k)).mem = (s.famoApply k ty x).mem := by
  obtain ⟨ts, hts⟩ := s.famoTaken_eq c ty ea
  rw [s.famoHome_of_not_det c pc slot ord ty ea x bar _ h hdet, hts]
  have hno : ((({ s with tags := ts } : State).famoAdded c ty ea x k).ctx c).remote = [] := by
    have hctx : (({ s with tags := ts } : State).famoAdded c ty ea x k).ctx c = s.ctx c :=
      congrArg (aget Ctx.idle · c) (({ s with tags := ts } : State).famoAdded_ctxs c ty ea x k)
    rw [hctx, hremote]
  have hheat : ({ s with tags := ts } : State).heatAll c [ea] = { s with tags := ts } := State.heatAll_of_cold hcold
  refine ((State.famoSeen_frame _ c ty k).2 hno).trans ?_
  rw [State.famoAdded, hheat, State.famoApply_notePast_mem]
  exact State.famoApply_mem_congr (s := s) (t := { s with tags := ts }) rfl rfl rfl (fun _ => rfl) k ty x

end

/-- s under the translations that an access was checked under (R379). -/
def State.underMaps (s : State) (maps : List Tlb) : State := if maps = [] then s else { s with fixed := maps }

/-- s with the cycle's translations again. -/
def State.offMaps (s : State) (maps : List Tlb) : State := if maps = [] then s else { s with fixed := [] }

theorem State.under_eq (s : State) (maps : List Tlb) (k : State → State) : s.under maps k = (k (s.underMaps maps)).offMaps maps := by
  unfold State.under State.underMaps State.offMaps
  split <;> rfl

theorem State.underMaps_eq (s : State) (maps : List Tlb) : ∃ l, s.underMaps maps = { s with fixed := l } := by
  unfold State.underMaps
  split
  · exact ⟨_, rfl⟩
  · exact ⟨_, rfl⟩

theorem State.offMaps_eq (s : State) (maps : List Tlb) : ∃ l, s.offMaps maps = { s with fixed := l } := by
  unfold State.offMaps
  split
  · exact ⟨_, rfl⟩
  · exact ⟨_, rfl⟩

/-! ### The barrier unit (R214) -/

section
variable (s : State) (k j : Nat)

theorem State.barq_modCluster {f : Cluster → Cluster} (hf : ∀ x, (f x).barq = x.barq) :
    ((s.modCluster k f).cluster j).barq = (s.cluster j).barq := by
  by_cases h : j = k
  · rw [h, State.cluster_modCluster, hf]
  · exact congrArg Cluster.barq (aget_aset_ne _ _ _ h)

theorem State.famoFlush_barq (sel : Gathered → Bool) : ((s.famoFlush k sel).cluster j).barq = (s.cluster j).barq := by
  unfold State.famoFlush
  refine (foldl_keeps (fun u : State => (u.cluster j).barq) (fun u g => ?_) _ _).trans (s.barq_modCluster k j fun _ => rfl)
  obtain ⟨cmds, h⟩ := u.notePast_eq g.ctx ((List.range (FTy.bytes g.ty)).map (spKey k g.loc + ·))
  rw [h]
  obtain ⟨m, o, hw⟩ := ({ u with cmds := cmds } : State).write_eq _
  exact (congrArg (fun u : State => (u.cluster j).barq) hw :)

theorem State.phaseDone_barq (a w : Nat) : ((s.phaseDone k a w).cluster j).barq = (s.cluster j).barq := by
  unfold State.phaseDone
  extract_lets u w' v
  have hput : (v.cluster j).barq = (s.cluster j).barq := s.famoFlush_barq k j _
  split
  · exact (v.barq_modCluster k j (f := fun c => { c with epoch := c.epoch + 1 }) fun _ => rfl).trans hput
  · exact hput

theorem State.settleObj_barq (a w : Nat) : ((s.settleObj k a w).cluster j).barq = (s.cluster j).barq := by
  unfold State.settleObj
  split
  · exact s.phaseDone_barq k j a w
  · rfl

/-- An operation that the unit applies leaves those that wait as they are. -/
theorem State.barApply_barq (a : Nat) (r : BarReq) : ((s.barApply k a r).cluster j).barq = (s.cluster j).barq := by
  have hbad : ∀ (w : Nat) t, (((s.putNat (spKey k a) 8 w).defer r.ctx t).cluster j).barq = (s.cluster j).barq := fun _ _ => rfl
  cases hr : r.op with
  | store bs =>
    simp only [State.barApply, hr]
    rfl
  | arrive n =>
    simp only [State.barApply, hr]
    split
    · exact hbad _ _
    · exact s.settleObj_barq k j a _
  | expect x =>
    simp only [State.barApply, hr]
    split
    · exact hbad _ _
    · rfl
  | deliver id =>
    obtain ⟨t, ht, hover, hgo⟩ := State.barApply_deliver (s := s) (k := k) (a := a) hr
    have ht' : (t.cluster j).barq = (s.cluster j).barq := by
      by_cases hz : bits (s.nat (spKey k a) 8) 32 16 = 0
      · obtain ⟨f, rfl⟩ := hover hz
        rfl
      · rw [hgo hz, State.settleObj_barq]
    rw [ht]
    exact ht'

end

/-- The unit applies the only operation at an object once it has arrived, and takes it from its queue (R214). -/
theorem exec_barrierUnitApply {s : State} {r : BarReq} (h : (s.cluster s.due.id).barq.filter (·.addr = s.due.arg) = [r])
    (hat : r.at_ ≤ s.now) : exec .barrierUnitApply s = .next
      ((s.modCluster s.due.id fun y => { y with barq := y.barq.erase r }).barApply s.due.id s.due.arg r) := by
  change execBarrierUnitApply s = _
  have hrest : (((s.modCluster s.due.id fun y => { y with barq := y.barq.erase r }).barApply s.due.id s.due.arg r).cluster
      s.due.id).barq.filter (·.addr = s.due.arg) = [] := by
    rw [State.barApply_barq, State.cluster_modCluster]
    rw [← List.erase_filter, h, List.erase_cons_head]
  unfold execBarrierUnitApply
  dsimp only
  rw [h]
  simp only [List.filter_cons, hat, decide_true, if_true, List.filter_nil, List.foldl_cons, List.foldl_nil, hrest, decide_true, Bool.true_or]

/-! ### The events -/

section
variable {s : State} {e : WinWrite}

theorem exec_windowWriteLand_own (harg : s.due.arg2 = 0) (h : (s.ctx s.due.ctx).oldest s.due.arg (· = 2) = some e) :
    exec .windowWriteLand s = .next (s.landWrite s.due.ctx e) := by
  change execWindowWriteLand s = _
  unfold execWindowWriteLand
  dsimp only
  rw [harg, h]
  rfl

theorem exec_windowWriteLand_far (harg : s.due.arg2 = 1) : exec .windowWriteLand s = .next (s.farWrite s.due.id s.due.arg
    (s.due.nats.getD 0 0) (s.due.nats.getD 1 0) (s.due.nats.getD 3 0) s.due.bytes (decide (s.due.nats.getD 2 0 = 1))) := by
  change execWindowWriteLand s = _
  unfold execWindowWriteLand
  dsimp only
  rw [harg]
  rfl

theorem exec_windowWriteLand_answer (harg : s.due.arg2 = 2) (h : (s.ctx s.due.ctx).oldest s.due.arg (· = 3) = some e) :
    exec .windowWriteLand s = .next (if s.due.wr = true then
        (s.dequeued s.due.ctx e).landRejected s.due.ctx e (s.due.nats.getD 0 0) (BitVec.ofNat 8 (s.due.nats.getD 1 0)) s.due.word
          (BitVec.ofNat 32 (s.due.nats.getD 2 0), BitVec.ofNat 8 (s.due.nats.getD 3 0))
      else (s.dequeued s.due.ctx e).refresh s.due.ctx ((e.bytes.filter fun p => !e.dead.contains p.1).map fun p =>
        ((s.dequeued s.due.ctx e).windowKey s.due.ctx e.win p.1, p.2))) := by
  change execWindowWriteLand s = _
  unfold execWindowWriteLand
  dsimp only
  rw [harg, h]
  rfl

/-- A write to another module leaves this one (R217; log 78). -/
theorem State.landWrite_away {c : Nat} (hmod : (s.win c e.win).mod ≠ s.modNo) : s.landWrite c e =
    (s.modWinq c (·.replace e { e with st := 3 })).emit
      (.window (localRank (s.win c e.win).peer + (s.win c e.win).mod * 512) (s.rank (clOf c)) (s.ctx c).l e.batch e.bytes) := by
  rw [State.landWrite, if_pos hmod]
  rfl

/-- The bytes of a write that lands, and of the remote buffer of its context (R195, R217). -/
theorem State.landed_lands {c : Nat} (hwf : Memory.wf s.mem = true) (hmig : s.migs = [])
    (hbytes : ∀ p ∈ e.bytes, p.1 < 2 ^ 23 ∧ s.isBarrier (s.win c e.win).peer p.1 = false) :
    let new := e.bytes.filter fun p => !e.dead.contains p.1
    Lands (spBytes (s.win c e.win).peer new) (s.buffered c) s.mem (s.landed c e).mem ∧
    ((∀ id ∈ (s.ctx c).remote, id % 2 ^ 23 < 2 ^ 17) → ∀ id ∈ (s.ctx c).remote, ∀ i, i < 64 → ∀ pre p post, new = pre ++ p :: post →
      p.1 ∉ post.map (·.1) → s.windowKey c (id / 2 ^ 23) (id % 2 ^ 23 * 64 + i) = spKey (s.win c e.win).peer p.1 →
      memRead (s.landed c e).mem (copyKey c id i) = p.2) := by
  intro new
  have hpeer : (s.win c e.win).peer < 2 ^ 9 := by
    unfold State.win
    dsimp only
    have h1 : Machine.fld ((s.ctx c).win.getD e.win 0) 4 6 < 2 ^ 6 := Nat.mod_lt _ (by decide)
    have h2 : Machine.fld ((s.ctx c).win.getD e.win 0) 1 3 < 2 ^ 3 := Nat.mod_lt _ (by decide)
    omega
  rw [State.landed_mem hmig fun p hp => (hbytes p hp).2]
  refine ⟨Lands.of_memPut hwf (fun p hp => (State.buffered_of_copies hp).1) fun p hp hin => ?_,
    fun hlow id hid i hi pre p post hnew hpost hkey => ?_⟩
  · obtain ⟨y, hy, hyp⟩ := List.mem_map.1 hin
    obtain ⟨z, -, rfl⟩ := List.mem_map.1 hy
    have hfar := (State.buffered_of_copies hp).2
    rw [← hyp] at hfar
    unfold spKey at hfar
    omega
  · have hkeys : spBytes (s.win c e.win).peer new =
        spBytes (s.win c e.win).peer pre ++ (spKey (s.win c e.win).peer p.1, p.2) :: spBytes (s.win c e.win).peer post := by
      rw [hnew]
      simp [spBytes]
    have hin : ∀ y ∈ new, y.1 < 2 ^ 23 := fun y hy => (hbytes y (List.mem_filter.1 hy).1).1
    have hlast : spKey (s.win c e.win).peer p.1 ∉ (spBytes (s.win c e.win).peer post).map (·.1) := fun hsame => by
      obtain ⟨y, hy, hyp⟩ := List.mem_map.1 hsame
      obtain ⟨z, hz, rfl⟩ := List.mem_map.1 hy
      have h1 := hin p (by simp [hnew])
      have h2 := hin z (by simp [hnew, hz])
      refine hpost (List.mem_map.2 ⟨z, hz, ?_⟩)
      unfold spKey at hyp
      dsimp only at hyp
      omega
    rw [hkeys]
    exact memRead_copies (memPut_wf _ hwf) hlow hid hi hlast hkey

end

/-- The `prel`s that a sparse hold has kept are applied in the cycle in which it has ended (R264). -/
theorem exec_prelHoldApply {s : State} (h : (s.plat s.due.id s.due.arg).holds = []) : exec .prelHoldApply s = .next
    (((s.cluster s.due.id).prels.filter (·.pn = s.due.arg)).foldl (fun s r => s.applyPrel { r with cy := s.now })
      (s.modCluster s.due.id fun y => { y with prels := y.prels.filter (·.pn ≠ s.due.arg) })) := by
  have hheld : ¬(s.plat s.due.id s.due.arg).sparseHeld = true := by
    rw [Platform.sparseHeld, h]
    simp
  exact congrArg _ (if_neg hheld)

/-- The bytes of a write that no later store of its context has overtaken. -/
theorem WinWrite.filter_dead (e : WinWrite) :
    e.bytes.filter (fun p => !e.dead.contains p.1) = e.bytes.filter fun p => decide (p.1 ∉ e.dead) := by
  refine List.filter_congr fun p _ => ?_
  simp

/-- Settles O35: each event by what its operation changes, named in the lemma about it. -/
theorem writesSummariesAndBarriersArrive : Obligations.WritesSummariesAndBarriersArrive := by
  unfold Obligations.WritesSummariesAndBarriersArrive
  intro s d c x held landsAt rejected isOf sumOf
  refine ⟨fun e he => exec_windowWriteAccept he, fun harg e he => ?_, fun harg => ?_, fun harg => ?_, fun harg e he => ?_,
    fun b hb => ?_, ?_, fun r hr hat => exec_barrierUnitApply hr hat, fun h => exec_prelHoldApply h⟩
  · refine ⟨_, exec_windowWriteLand_own harg he, fun hmod => ?_, fun hmod => ?_⟩
    · rw [State.landWrite_away hmod]
      have hctx : ((s.modWinq c (·.replace e { e with st := 3 })).ctx c) = _ := s.ctx_modWinq c _
      exact ⟨rfl, rfl, (congrArg Ctx.winq hctx :), rfl⟩
    · intro k rest new
      cases hcheck : s.landCheck (s.party c) k e.bytes with
      | none =>
        obtain ⟨q, hctx, hq⟩ := State.ctx_landed (s := s) (c := c) (e := e)
        obtain ⟨agenda, free, hsum⟩ := (s.landed c e).summarise_eq c e.batch e.win
        rw [State.landWrite_of_landCheck hmod hcheck, hsum]
        refine ⟨?_, fun _ hwf hmig hbytes => ?_, fun a acc g h => nomatch h⟩
        · exact (congrArg (fun y : Ctx => rest y.winq) hctx).trans hq
        · obtain ⟨hlands, hcopies⟩ := State.landed_lands (c := c) hwf hmig hbytes
          rw [WinWrite.filter_dead] at hlands hcopies
          exact ⟨hlands, hcopies⟩
      | some y =>
        obtain ⟨a, acc, g⟩ := y
        obtain ⟨agenda, free, hsum⟩ := ((s.dequeued c e).landRejected c e a acc g.arg g.far).summarise_eq c e.batch e.win
        rw [State.landWrite_of_rejected hmod hcheck, hsum]
        have hctx := State.ctx_dequeued (s := s) (c := c) (e := e)
        refine ⟨?_, ?_, fun a' acc' g' h => ?_⟩
        · have hq := (s.dequeued c e).winq_landRejected c e a acc g.arg g.far
          rw [hctx] at hq
          exact congrArg rest hq
        · intro h
          cases h
        · cases h
          have hdef := (s.dequeued c e).deferred_landRejected c e a acc g.arg g.far
          rw [hctx] at hdef
          exact ⟨rfl, rfl, hdef, fun b hb hid => (s.dequeued c e).errs_landRejected c e a acc g.arg g.far hb hid⟩
  · intro bytes p was counted answer hasked
    refine ⟨_, exec_windowWriteLand_far harg, ?_⟩
    intro sync
    have hsync : bytes.find? (fun b => decide (d.nats.getD 2 0 = 1) && s.syncAt d.id b.1) = sync := by
      by_cases hdet : d.nats.getD 2 0 = 1
      · simp only [sync, if_pos hdet, hdet, decide_true, Bool.true_and]
      · simp only [sync, if_neg hdet, hdet, decide_false, Bool.false_and]
        exact List.find?_eq_none.2 fun _ _ => Bool.false_ne_true
    refine ⟨fun hcheck hnone hwf hmig hbar => ?_, fun b hcheck hsome => ?_, fun a acc g hcheck => ?_⟩
    · have hno : ∀ b ∈ bytes, (decide (d.nats.getD 2 0 = 1) && s.syncAt d.id b.1) = false := fun b hb =>
        Bool.eq_false_iff.2 (List.find?_eq_none.1 (hsync.trans hnone) b hb)
      obtain ⟨banked, hwrite⟩ := State.farWrite_of_lands (batch := d.nats.getD 3 0) hcheck hno hmig hbar
      rw [hwrite]
      generalize hu : ({ s with
        tags := (s.register (.far (d.nats.getD 0 0) (d.nats.getD 1 0)) .store (s.landGrans d.id (runAt d.arg d.bytes))).tags
        banked := banked
        mem := memPut s.mem (spBytes d.id (runAt d.arg d.bytes))
        out := s.out ++ [.landed (d.nats.getD 0 0) (d.nats.getD 1 0) d.id d.arg none] } : State) = u
      obtain ⟨ys, hcount, hin, hkept⟩ := State.countFar_eq (s := u) (rank := d.nats.getD 0 0) (l := d.nats.getD 1 0)
        (batch := d.nats.getD 3 0) false (by subst hu; exact hasked)
      rw [hcount]
      subst hu
      exact ⟨Lands.of_memPut (cs := []) hwf (by simp) (by simp), rfl, rfl, hin, hkept⟩
    · rw [State.farWrite_of_sync hcheck (hsync.trans hsome)]
      obtain ⟨ys, hcount, hin, hkept⟩ := State.countFar_eq (rank := d.nats.getD 0 0) (l := d.nats.getD 1 0)
        (s := { s with out := s.out ++ [answer b.1 (some (1, Tag.none.arg, Tag.none.far.1, Tag.none.far.2))] })
        (batch := d.nats.getD 3 0) true hasked
      rw [hcount]
      exact ⟨rfl, rfl, rfl, hin, hkept⟩
    · rw [State.farWrite_of_rejected hcheck]
      obtain ⟨ys, hcount, hin, hkept⟩ := State.countFar_eq (rank := d.nats.getD 0 0) (l := d.nats.getD 1 0)
        (s := { s with out := s.out ++ [answer a (some (acc, g.arg, g.far.1, g.far.2))] }) (batch := d.nats.getD 3 0) true hasked
      rw [hcount]
      exact ⟨rfl, rfl, rfl, hin, hkept⟩
  · intro was rest
    have hasked : exec .batchSummary s = .next (s.farSum (d.nats.getD 0 0) (d.nats.getD 1 0) (d.nats.getD 2 0) fun x =>
        { x with asked := some (d.nats.getD 3 0) }) := congrArg _ (if_pos harg)
    rw [hasked, State.farSum_of_asked rfl]
    rfl
  · refine ⟨_, exec_windowWriteLand_answer harg he, ?_⟩
    have hctx := State.ctx_dequeued (s := s) (c := c) (e := e)
    by_cases hno : d.wr = true
    · rw [if_pos hno]
      have hdef := (s.dequeued c e).deferred_landRejected c e (d.nats.getD 0 0) (BitVec.ofNat 8 (d.nats.getD 1 0)) d.word
        (BitVec.ofNat 32 (d.nats.getD 2 0), BitVec.ofNat 8 (d.nats.getD 3 0))
      rw [hctx] at hdef
      refine ⟨((s.dequeued c e).winq_landRejected c e _ _ _ _).trans (congrArg Ctx.winq hctx), rfl, fun h => ?_, fun _ => ⟨rfl, hdef,
        fun b hb hid => (s.dequeued c e).errs_landRejected c e _ _ _ _ hb hid⟩⟩
      rw [hno] at h
      cases h
    · rw [if_neg hno]
      refine ⟨(congrArg Ctx.winq hctx :), rfl, fun _ => ⟨(congrArg Ctx.deferred hctx :), fun hwf q hq => ?_⟩, fun h => absurd h hno⟩
      refine memRead_memPut_ne hwf fun p hp (hpq : p.1 = q) => hq ?_
      obtain ⟨⟨id, hid, hlo, hhi⟩, -⟩ := State.buffered_of_copies hp
      rw [hctx] at hid
      exact ⟨id, hid, hpq ▸ hlo, hpq ▸ hhi⟩
  · have hid : b.id = d.id := by simpa using List.find?_some hb
    refine ⟨fun hown => ⟨_, exec_batchSummary hb hown, (State.postBatches_frame _ c b.tag).1, fun y hy hy' => ?_⟩,
      ⟨_, exec_batchSummaryBoundExpiry hb, (State.postBatches_frame _ c b.tag).1, fun y hy hy' => ?_⟩, fun hone hcl hst =>
      ⟨fun hown hw => ⟨_, exec_batchSummary hb hown, ?_⟩, _, exec_batchSummaryBoundExpiry hb, ?_⟩⟩
    · obtain ⟨z, hz, hzid, rfl⟩ := State.mem_batches_summed hy hy'
      exact ⟨z, hz, hzid, rfl, rfl⟩
    · obtain ⟨z, -, -, rfl⟩ := State.mem_batches_summed hy hy'
      rfl
    · exact State.summed_last (f := Batch.summed d.arg d.wr) hst hone hid hcl (by simp [Batch.summed, hw])
    · exact State.summed_last (f := s.expired) hst hone hid hcl rfl
  · intro ty ea eas maps v back cold
    have hexec : exec .famoArrival s = .next (back (v.famoHome c (BitVec.ofNat 64 (d.nats.getD 0 0)) (d.nats.getD 1 0)
        (d.nats.getD 2 0) ty ea (BitVec.ofNat 32 d.arg2) d.word d.nats[3]?)) :=
      congrArg Host.Outcome.next (s.under_eq maps _)
    refine ⟨fun f hf => ?_, fun hok => ?_⟩
    · rw [hexec, State.famoHome_of_rejected _ _ _ _ _ _ _ _ _ _ hf]
    · have hframe := v.famoHome_frame c _ _ (d.nats.getD 2 0) ty ea (BitVec.ofNat 32 d.arg2) d.word d.nats[3]? hok
      obtain ⟨l, hv⟩ : ∃ l, v = { s with fixed := l } := s.underMaps_eq maps
      obtain ⟨l', hback⟩ := State.offMaps_eq (v.famoHome c (BitVec.ofNat 64 (d.nats.getD 0 0)) (d.nats.getD 1 0)
        (d.nats.getD 2 0) ty ea (BitVec.ofNat 32 d.arg2) d.word d.nats[3]?) maps
      refine ⟨_, hexec, ?_⟩
      rw [show back _ = _ from hback]
      clear_value v
      subst hv
      obtain ⟨⟨ls, h, hctx⟩, hother⟩ := hframe
      refine ⟨(congrArg Ctx.vis hctx :), hother, fun hdet => ?_, fun k hdet hkey ⟨hremote, hcold⟩ => ?_⟩
      · rw [State.famoHome_of_det _ _ _ _ _ _ _ _ _ _ hok hdet]
        obtain ⟨ts, hts⟩ := ({ s with fixed := l } : State).famoTaken_eq c ty ea
        have hfamo := ({ s with fixed := l, tags := ts } : State).famo_famoGathered c (d.nats.getD 2 0) ty ea (BitVec.ofNat 32 d.arg2) d.word
        rw [hts]
        refine ⟨rfl, rfl, ?_⟩
        have hloc : Machine.fld ea 0 23 = d.arg % 2 ^ 23 := by
          simp only [Machine.fld, bits_eq, ea, BitVec.toNat_ofNat, pow_zero, Nat.div_one]
          omega
        have hbar : Machine.fld d.word 0 23 = d.word.toNat % 2 ^ 23 := by
          simp only [Machine.fld, bits_eq, pow_zero, Nat.div_one]
        rw [hloc, hbar] at hfamo
        exact hfamo
      · rw [hkey]
        exact (State.famoHome_mem _ _ _ _ _ _ _ _ _ hok hdet hremote hcold).trans
          (State.famoApply_mem_congr (s := s) (t := { s with fixed := l }) rfl rfl rfl (fun _ => rfl) k ty _)

end Sys2Proof.Machine
end
